-- ==== Sys2Proof/Word.lean ====
section
/-! DEFINITION. The word types and the two sparse containers of the TY-4800 model.
Bytes and register words are bit vectors; a memory is a list of listed bytes, a table a list of keyed entries. -/

namespace Sys2Proof

/-- One byte. -/
abbrev Byte := BitVec 8
/-- A 16-bit word. -/
abbrev W16 := BitVec 16
/-- A 32-bit word. -/
abbrev W32 := BitVec 32
/-- A 64-bit word. -/
abbrev W64 := BitVec 64

/-- A sparse table by number. What an unlisted key reads as is given where the table is read. -/
abbrev Table (α : Type) := List (Nat × α)

/-- A byte memory as listed cells; an unlisted address reads 0 (log 5). -/
abbrev Memory := List Host.Cell

end Sys2Proof
end

