-- ==== Sys2Proof/Syntax.lean ====
section
/-! DEFINITION. The commands of the TY-4800 as data: one constructor of `Instr` for each row of the spec's
table of operations and events, with the operands that the step needs from outside the module. -/

namespace Sys2Proof

/-- Where a Kwaop message came from: one of the 16 mailboxes (R357), the sideband (R372) or a poker `kw` line (R377). -/
inductive Slot where
  | mailbox (n : BitVec 4)
  | sideband
  | poker
  deriving DecidableEq, Repr

/-- Which block a register write addresses: BAR0 (R355), the status block of a firebox slot
(R35, R80, R106, R130, R182, R213), or the I/O die's firmware blocks (R239, R297, R332). -/
inductive RegSpace where
  | bar0
  | firebox (unit : Nat)
  | ioDie
  deriving DecidableEq, Repr

/-- The fields of a grate instruction word (Table 04-2) but for OP, which the command's name gives. -/
structure GrateWord where
  fmt : BitVec 4 := 0
  fmtd : BitVec 4 := 0
  rm : BitVec 3 := 0
  sat : Bool := true
  men : Bool := false
  msk : BitVec 3 := 0
  mz : Bool := false
  vd : BitVec 5 := 0
  va : BitVec 5 := 0
  vb : BitVec 5 := 0
  vc : BitVec 5 := 0
  bs : Bool := false
  imm : BitVec 16 := 0
  deriving DecidableEq, Repr

/-- A pass descriptor (Table 03-7), reserved fields left out. -/
structure PassDesc where
  hob : BitVec 2 := 0
  split : Bool := false
  statNew : Bool := true
  chkEn : Bool := false
  accIn : BitVec 2 := 0
  final : Bool := false
  accSlotIn : BitVec 3 := 0
  accSlotOut : BitVec 3 := 0
  fmtA : BitVec 4 := 0
  fmtB : BitVec 4 := 0
  strmSrc : BitVec 2 := 0
  statSrc : BitVec 2 := 0
  gsbCap : BitVec 2 := 0
  gsbRel : Bool := false
  flueB : BitVec 8 := 0
  flueA : BitVec 8 := 0
  flueInit : BitVec 8 := 0
  mValid : BitVec 7 := 64
  nValid : BitVec 7 := 64
  kValid : BitVec 7 := 64
  quadEn : BitVec 4 := 15
  tileTag : BitVec 16 := 0
  passSeq : BitVec 32 := 0
  deriving DecidableEq, Repr

/-- A stored object of the hobs that carries SECDED (R53, R77). -/
inductive HobStore where
  | acc (slot : BitVec 3)
  | gsb (half : Bool)
  deriving DecidableEq, Repr

/-- What an upset in a pass touches (R68, R71, R75): a parity error; the column check of an output row and the row check of an
output column, in a quadrant, each with the FP32 value by which the upset moves the sum of its outputs. -/
structure CheckFail where
  parity : Bool := false
  row : Option (BitVec 6) := none
  col : Option (BitVec 6) := none
  quad : BitVec 2 := 0
  rowErr : BitVec 32 := 0
  colErr : BitVec 32 := 0
  deriving DecidableEq, Repr

/-- The two tiers that the module corrects and retires itself (R198, R201). -/
inductive Tier where
  | t1
  | t2
  deriving DecidableEq, Repr

/-- What an uncorrectable read met (R198, R199): a data line of a frame read by a stream, a cartridge frame whose CRC-32C fails in a
stream's read, or a line of a page map. -/
inductive UeRead where
  | stream (tile : BitVec 8) (s : BitVec 5) (tier : Tier) (frame : Nat) (line : BitVec 10)
  | cartridge (tile : BitVec 8) (s : BitVec 5) (frame : Nat)
  | pageMap (ctx : BitVec 2) (group : Nat) (copyToo : Bool)
  deriving DecidableEq, Repr

/-- What a patrol scrub read of a line found (R200). -/
inductive ScrubResult where
  | clean
  | corrected
  | uncorrectable
  deriving DecidableEq, Repr

/-- The reference sources of R216. -/
inductive RefSource where
  | pri
  | alt
  | xo
  deriving DecidableEq, Repr

/-- One IEEE 1588 message that stands for a Uadal time frame (R231), with the timestamps it supplies. -/
inductive PtpMsg where
  | sync (tseq : W16) (t2 : W64)
  | followUp (tseq : W16) (t1 : W64) (t3 : W64)
  | delayResp (tseq : W16) (t4 : W64)
  deriving DecidableEq, Repr

/-- A RoCEv2 answer for a drain queue pair (R267): acknowledgement, negative acknowledgement, the negative
acknowledgement of a sequence error, after which Annex A17's go-back-N sends again, or read response data. -/
inductive RoceAnswer where
  | ack
  | nak
  | nakSequence
  | readData (data : List Byte)
  deriving DecidableEq, Repr

namespace Machine

/-- A function slot (R116): its header, its micro-ops, and whether it is a built-in slot of Table 05-1. -/
structure SlotImage where
  header : BitVec 128 := 0
  ops : List (BitVec 32) := []
  builtin : Bool := false
  deriving DecidableEq, Repr

/-- A bank: slots, coefficient entries, hard-case entries. -/
structure Bank where
  slots : Table SlotImage := []
  coeffs : Table (BitVec 64) := []
  hard : List (BitVec 64) := []
  deriving DecidableEq, Repr

end Machine

/-- One record of a cartridge's log (Tables 12-4, 12-5): its commit record fields, its pages, the bank images that it brings by table
generation (R299), and whether its CRC holds. A reclaimed record (R317) holds nothing more. -/
structure CartRecord where
  gen : BitVec 32
  cutStep : BitVec 48
  seed : BitVec 64
  devid : BitVec 20
  cluster : BitVec 16
  actGen : BitVec 16
  imageHash : BitVec 64
  cadC : BitVec 16
  k : BitVec 16
  quiet : BitVec 16
  kind : BitVec 2
  beatCut : BitVec 64
  prev : Nat
  pages : List (Nat × List Byte)
  sstate : List Byte
  crcOk : Bool
  banks : Table Machine.Bank := []
  ofs : Nat := 0
  deriving DecidableEq, Repr

/-- A cartridge as it stands in the bay: its header (Table 12-4), life counts (Table 08-4), overflow frames and log. -/
structure Cartridge where
  magic : BitVec 32 := 0x454D4243
  ctype : BitVec 8 := 1
  serial : BitVec 64 := 0
  lastModule : BitVec 64 := 0
  devid : BitVec 20 := 0
  cluster : BitVec 16 := 0
  imageHash : BitVec 64 := 0
  headerOk : Bool := true
  head : Nat := 0
  log : List CartRecord := []
  frames : Memory := []
  bytesWritten : Nat := 0
  rate7d : BitVec 32 := 0
  spareBp : BitVec 16 := 10000
  deriving DecidableEq, Repr

/-- A storage cell or node that factory test mode acts on (R340). -/
inductive InjectTarget where
  | scratch (unit : Nat) (addr : Nat)
  | vectorReg (unit : Nat) (addr : Nat)
  | scalarReg (unit : Nat) (reg : BitVec 4)
  | maskReg (unit : Nat) (reg : BitVec 3) (word : BitVec 5)
  | accumulator (unit : Nat) (hob : BitVec 2) (slot : BitVec 3) (word : BitVec 11)
  | ashStage (unit : Nat) (stage : Nat) (word : BitVec 11)
  | gsbEntry (unit : Nat) (half : BitVec 1) (entry : BitVec 12)
  | flueEntry (unit : Nat) (stream : BitVec 5) (entry : Nat)
  | poolWord (die : BitVec 2) (addr : Nat)
  | tierWord (tier : BitVec 1) (frame : Nat) (word : BitVec 13)
  | checkBits (unit : Nat) (word : Nat)
  | logicNode (unit : Nat) (node : Nat)
  deriving DecidableEq, Repr

/-- The conditions that power the compute dies down (Table 16-6). -/
inductive ShutdownCause where
  | junction
  | inlet
  | flow
  deriving DecidableEq, Repr

/-- The commands of the module, one for each row of spec/opcode_table.json. -/
inductive Instr where
  -- BAR0 accesses and mailboxes
  | dbRing (bits : BitVec 16)
  | mbDoneClear (bits : BitVec 16)
  | mailboxRequestWrite (mb : BitVec 4) (off : BitVec 12) (data : List Byte)
  | bar0BadAccess (isRead : Bool) (off : BitVec 19) (size : Nat)
  | registerWrite (space : RegSpace) (off : Nat) (value : BitVec 64) (wide : Bool)
  | beatNowLoRead
  | stepLoRead
  | schedLoRead
  | fltFirstBeatLoRead
  | ccSampleBeatLoRead
  | ccFreezeBeatLoRead
  | trWptrLoRead
  | gsBeatLoRead
  | commandReply (slot : Slot)
  -- Kwaop commands at their dispatch
  | devInfo (slot : Slot) (page : BitVec 8)
  | jobLoad (slot : Slot) (ctx : BitVec 2) (image : List Byte)
  | schedLoad (slot : Slot) (ctx : BitVec 2) (image : List Byte)
  | jobStart (slot : Slot) (ctx : BitVec 2) (b0 : BitVec 64)
  | jobStop (slot : Slot) (ctx : BitVec 2) (sStop : BitVec 48)
  | snapPolicySet (slot : Slot) (ctx : BitVec 2) (policy : List Byte)
  | snapNow (slot : Slot) (ctx : BitVec 2) (sCut : BitVec 48)
  | restore (slot : Slot) (ctx : BitVec 2) (source : BitVec 2) (gen : BitVec 32)
  | partnerSet (slot : Slot) (force : Bool) (devid : BitVec 20) (fdTag : BitVec 64)
  | parityGroupSet (slot : Slot) (force : Bool) (members : List (BitVec 20)) (fdTag : BitVec 64)
  | fwStage (slot : Slot) (image : List Byte)
  | fwActivate (slot : Slot) (bAct : BitVec 64)
  | setWrite (slot : Slot) (entries : List (BitVec 16 × BitVec 64))
  | setStore (slot : Slot) (all : Bool) (ids : List (BitVec 16))
  | keyRotate (slot : Slot) (wrapped : List Byte)
  | faultForce (slot : Slot) (source : BitVec 16) (react : Bool) (count : BitVec 8)
  | ctrConfig (slot : Slot) (block : BitVec 16) (counter : BitVec 3) (chain en userRd : Bool) (event : BitVec 10)
  | ctrFreeze (slot : Slot) (beat : BitVec 64)
  | ctrRelease (slot : Slot) (beat : BitVec 64)
  | traceConfig (slot : Slot) (en : Bool) (mask : BitVec 64) (ringBytes : BitVec 64)
  | gstopSnap (slot : Slot) (cluster : Bool)
  | gstopBeat (slot : Slot) (cluster : Bool)
  | scanDump (slot : Slot) (first last : BitVec 9)
  | cartEject (slot : Slot)
  | clkSelectDomain (slot : Slot) (dom : BitVec 9) (sel : BitVec 2)
  | clkSelectRef (slot : Slot) (refPort : BitVec 1) (refLane : BitVec 4) (altPort : BitVec 1) (altLane : BitVec 4)
  | clkSelectBeatDiv (slot : Slot) (d : BitVec 18) (bEff : BitVec 64)
  | portConfig (slot : Slot) (entries : List (BitVec 16 × BitVec 64))
  | tableLoad (slot : Slot) (g : BitVec 16) (ctx : BitVec 2) (sEff : BitVec 48) (images : List Byte)
  | descCreate (slot : Slot) (ctx : BitVec 2) (desc : List Byte)
  | streamArm (slot : Slot) (ctx : BitVec 2) (s : BitVec 5) (tile : BitVec 8) (sd : BitVec 128)
  | streamArmRearm (slot : Slot) (ctx : BitVec 2) (s : BitVec 5) (tile : BitVec 8) (base scaleBase : BitVec 64)
  | sidebandMessage (msg : List Byte)
  | pokerLine (line : List Byte)
  | perstN
  | bar2Read (off : BitVec 34) (len : BitVec 13)
  | bar2Write (off : BitVec 34) (data : List Byte)
  -- grate instructions
  | nop (t : BitVec 8) (w : GrateWord)
  | setvl (t : BitVec 8) (w : GrateWord)
  | xli (t : BitVec 8) (w : GrateWord)
  | xlih (t : BitVec 8) (w : GrateWord)
  | xadd (t : BitVec 8) (w : GrateWord)
  | xmv (t : BitVec 8) (w : GrateWord)
  | flagrd (t : BitVec 8) (w : GrateWord)
  | flagclr (t : BitVec 8) (w : GrateWord)
  | vmov (t : BitVec 8) (w : GrateWord)
  | flrd (t : BitVec 8) (w : GrateWord)
  | flwr (t : BitVec 8) (w : GrateWord)
  | lds (t : BitVec 8) (w : GrateWord)
  | sts (t : BitVec 8) (w : GrateWord)
  | ashwait (t : BitVec 8) (w : GrateWord)
  | ashrd (t : BitVec 8) (w : GrateWord)
  | ashhdr (t : BitVec 8) (w : GrateWord)
  | ashpop (t : BitVec 8) (w : GrateWord)
  | vadd (t : BitVec 8) (w : GrateWord)
  | vsub (t : BitVec 8) (w : GrateWord)
  | vmul (t : BitVec 8) (w : GrateWord)
  | vfma (t : BitVec 8) (w : GrateWord)
  | vfms (t : BitVec 8) (w : GrateWord)
  | vfnma (t : BitVec 8) (w : GrateWord)
  | vmin (t : BitVec 8) (w : GrateWord)
  | vmax (t : BitVec 8) (w : GrateWord)
  | vabs (t : BitVec 8) (w : GrateWord)
  | vneg (t : BitVec 8) (w : GrateWord)
  | vclamp (t : BitVec 8) (w : GrateWord)
  | vlerp (t : BitVec 8) (w : GrateWord)
  | viadd (t : BitVec 8) (w : GrateWord)
  | visub (t : BitVec 8) (w : GrateWord)
  | vimul (t : BitVec 8) (w : GrateWord)
  | vand (t : BitVec 8) (w : GrateWord)
  | vor (t : BitVec 8) (w : GrateWord)
  | vxor (t : BitVec 8) (w : GrateWord)
  | vshl (t : BitVec 8) (w : GrateWord)
  | vshr (t : BitVec 8) (w : GrateWord)
  | vsra (t : BitVec 8) (w : GrateWord)
  | vcmpeq (t : BitVec 8) (w : GrateWord)
  | vcmpne (t : BitVec 8) (w : GrateWord)
  | vcmplt (t : BitVec 8) (w : GrateWord)
  | vcmple (t : BitVec 8) (w : GrateWord)
  | vclass (t : BitVec 8) (w : GrateWord)
  | vsel (t : BitVec 8) (w : GrateWord)
  | mand (t : BitVec 8) (w : GrateWord)
  | mor (t : BitVec 8) (w : GrateWord)
  | mxor (t : BitVec 8) (w : GrateWord)
  | mnot (t : BitVec 8) (w : GrateWord)
  | mpop (t : BitVec 8) (w : GrateWord)
  | mprefix (t : BitVec 8) (w : GrateWord)
  | vperm (t : BitVec 8) (w : GrateWord)
  | vbcl (t : BitVec 8) (w : GrateWord)
  | vrot (t : BitVec 8) (w : GrateWord)
  | vslup (t : BitVec 8) (w : GrateWord)
  | vsldn (t : BitVec 8) (w : GrateWord)
  | vzip (t : BitVec 8) (w : GrateWord)
  | vunzip (t : BitVec 8) (w : GrateWord)
  | vcmpr (t : BitVec 8) (w : GrateWord)
  | vrsum (t : BitVec 8) (w : GrateWord)
  | vrmax (t : BitVec 8) (w : GrateWord)
  | vrmin (t : BitVec 8) (w : GrateWord)
  | vramax (t : BitVec 8) (w : GrateWord)
  | vrargmax (t : BitVec 8) (w : GrateWord)
  | vscanlr (t : BitVec 8) (w : GrateWord)
  | vscansum (t : BitVec 8) (w : GrateWord)
  | vscanmax (t : BitVec 8) (w : GrateWord)
  | vgate (t : BitVec 8) (w : GrateWord)
  | vgatea (t : BitVec 8) (w : GrateWord)
  | vcvt (t : BitVec 8) (w : GrateWord)
  | vcvtmx (t : BitVec 8) (w : GrateWord)
  | vdcmx (t : BitVec 8) (w : GrateWord)
  | vcvtsb (t : BitVec 8) (w : GrateWord)
  | vdcsb (t : BitVec 8) (w : GrateWord)
  | vrngu (t : BitVec 8) (w : GrateWord)
  | vrngb (t : BitVec 8) (w : GrateWord)
  | vsfu (t : BitVec 8) (w : GrateWord)
  | vsfu2 (t : BitVec 8) (w : GrateWord)
  | vdiv (t : BitVec 8) (w : GrateWord)
  | vsqrt (t : BitVec 8) (w : GrateWord)
  | vrsqrt (t : BitVec 8) (w : GrateWord)
  | vstat (t : BitVec 8) (w : GrateWord)
  | vstatm (t : BitVec 8) (w : GrateWord)
  | vsmxu (t : BitVec 8) (w : GrateWord)
  | vsmxfMerge (t : BitVec 8) (w : GrateWord)
  | vsmxfProbabilities (t : BitVec 8) (w : GrateWord)
  -- grate, SFU and hob events
  | grateRegisterUe (unit : Nat) (mask : Bool) (reg : BitVec 5)
  | grateRegisterCe (unit : Nat) (mask : Bool) (reg : BitVec 5)
  | tbufReqSet (unit : Nat)
  | tbufReqClear (unit : Nat)
  -- stoker words
  | loop (t : BitVec 8) (count len : BitVec 16)
  | arm (t : BitVec 8) (sd : BitVec 14) (s : BitVec 5)
  | rearm (t : BitVec 8) (ra : BitVec 12) (wait : Bool) (s : BitVec 5)
  | swait (t : BitVec 8) (mask : BitVec 32)
  | ringStart (t : BitVec 8) (s : BitVec 5)
  | disarm (t : BitVec 8) (s : BitVec 5)
  -- passes
  | pass (t : BitVec 8) (d : PassDesc)
  | passStart (t : BitVec 8) (hob : BitVec 2)
  | passCommit (t : BitVec 8) (hob : BitVec 2)
  | ashStageVisible (t : BitVec 8)
  | checkMismatch (t : BitVec 8) (hob : BitVec 2) (seq : BitVec 32) (f : CheckFail)
  | replayMismatch (t : BitVec 8) (hob : BitVec 2) (seq : BitVec 32) (f : CheckFail)
  | hstateUe (t : BitVec 8) (hob : BitVec 2) (obj : HobStore)
  | hobStateCe (t : BitVec 8) (hob : BitVec 2) (obj : HobStore)
  | preemptionRequest (t : BitVec 8)
  -- streams
  | armWaitEnd (t : BitVec 8) (s : BitVec 5)
  | streamTransfer (t : BitVec 8) (s : BitVec 5) (n : Nat)
  | streamPassEnd (t : BitVec 8) (s : BitVec 5)
  | translationMiss (cache : Nat) (ctx : BitVec 2) (page : Nat)
  | copyOnWriteFault (t : BitVec 8) (s : BitVec 5)
  | pageNotPresentFault (t : BitVec 8) (s : BitVec 5)
  | protectionFault (t : BitVec 8) (s : BitVec 5)
  | faultServed (t : BitVec 8) (s : BitVec 5)
  | streamAbort (t : BitVec 8) (s : BitVec 5) (code : BitVec 4)
  | ringSliceReceive (t : BitVec 8) (s : BitVec 5) (ue : Bool)
  | ringStepEnd (t : BitVec 8) (s : BitVec 5)
  -- memory service
  | inval (ctx : BitVec 2) (first count : Nat) (all : Bool)
  | invalComplete
  | pageMove (ctx : BitVec 2) (page : Nat)
  | correctedError (tier : Tier) (frame : Nat)
  | uncorrectableRead (what : UeRead)
  | pageRetirement (tier : Tier) (frame : Nat) (reason : BitVec 3)
  | patrolScrubRead (tier : Tier) (frame : Nat) (line : BitVec 10) (found : ScrubResult) (written : Bool)
  | retrainWindowTier1 (channel : BitVec 8)
  | retrainWindowTier2 (channel : BitVec 4)
  | retrainWindowEnd (tier : Tier) (channel : BitVec 8)
  | retrainingFailure (tier : Tier) (channel : BitVec 8)
  | cartridgeLifeUpdate (rate7d : BitVec 32) (spareBp : BitVec 16)
  -- clocks, the beat and dampers
  | referenceSourceLoss
  | sourceStable (src : RefSource)
  | clkCtlSel (dom : Nat) (sel : BitVec 2)
  | clkCtlForce (dom : Nat) (sel : BitVec 2)
  | domainHold (dom : Nat) (hold : Bool)
  | clockSwitchDone (dom : Nat)
  | switchTimeout (dom : Nat)
  | clkMonWindow (dom : Nat) (count : Nat)
  | domainDead (dom : Nat)
  | beatEdge (dma : List (Slot × List Byte))
  | beatToken (dom : Nat)
  | timeExchangeStart (child : BitVec 20) (t1 : W64)
  | syncFrame (chimney : BitVec 1) (frame : List Byte) (t2 t3 : W64)
  | dreqFrame (chimney : BitVec 1) (frame : List Byte) (t4 : W64)
  | respFrame (chimney : BitVec 1) (frame : List Byte)
  | phaseSlewStep
  | alignTimeout
  | pwrCapNFall
  | fastHoldExpiry
  | fastLevelStep
  | slowDamperUpdate (meanWatts : Nat)
  | effLvlApply (unit : Nat)
  | tileFrequencyChange (mhz : BitVec 16)
  -- schedule words
  | schedAt (t : BitVec 8) (beat : BitVec 16)
  | fence (t : BitVec 8) (barrier : Bool) (beat : BitVec 16)
  | flagWord (t : BitVec 8) (beat : BitVec 16)
  | gated (t : BitVec 8) (len : BitVec 16)
  | stepWord (t : BitVec 8) (beat : BitVec 16)
  | classWord (t : BitVec 8) (s : BitVec 5)
  | join (t : BitVec 8) (addr : BitVec 32)
  | layer (t : BitVec 8) (phase : BitVec 2) (id : BitVec 16)
  | recomp (t : BitVec 8) (id : BitVec 16)
  | pro (t : BitVec 8) (len : BitVec 16)
  | persistWriteRefused (t : BitVec 8)
  | tableCheckComplete
  -- the Uadal network
  | flagUpReceive (chimney : BitVec 1) (frame : List Byte)
  | flagDownReceive (chimney : BitVec 1) (frame : List Byte)
  | flagUpRepeat
  | gstopFrame (chimney : BitVec 1) (frame : List Byte)
  | slotStart (slot : BitVec 16)
  | collFrameReceive (chimney : BitVec 1) (frame : List Byte)
  | collChunkFold (slot : BitVec 16) (chunk : Nat) (lev : Nat) (pos : Nat)
  | partFrame (chimney : BitVec 1) (frame : List Byte)
  | parFrame (chimney : BitVec 1) (frame : List Byte)
  | endMark (chimney : BitVec 1) (frame : List Byte)
  | pairingFrame (chimney : BitVec 1) (frame : List Byte)
  | ackFrame (chimney : BitVec 1) (frame : List Byte)
  | ackTimer (peer : BitVec 20)
  | rtoExpiry (peer : BitVec 20) (seq : BitVec 32)
  | pairReset (peer : BitVec 20)
  | chimneyFailure (chimney : BitVec 1)
  | chimneyReturn (chimney : BitVec 1)
  | pathloss (peer : BitVec 20) (chimney : BitVec 1)
  | pathlossRetry (peer : BitVec 20)
  | peerDead (peer : BitVec 20)
  | linkDown (chimney : BitVec 1) (link : BitVec 2)
  | arpRequest (chimney : BitVec 1) (v6 : Bool) (target : BitVec 128)
  | icmpEchoRequest (chimney : BitVec 1) (v6 : Bool) (target : BitVec 128) (payload : List Byte)
  | pauseFrame (chimney : BitVec 1)
  | congestionNotification (qp : BitVec 6) (cnp : Bool)
  -- snapshots and the cartridge
  | deltaPageSend (ctx : BitVec 2) (page : Nat)
  | cartridgeWriteAck (writes : Nat)
  | generationSeal
  | drain
  | drainComplete
  | resyncComplete
  | cartInsert (c : Cartridge)
  | cartHeaderRead
  | cartReady
  | surpriseRemoval
  -- faults and service
  | faultReport (source : BitVec 16) (info : BitVec 32)
  | quietTimerExpiry
  | spareMigration (t : BitVec 8)
  | migrationCopy (t : BitVec 8) (ue : Option Nat)
  | migrationRemap (t : BitVec 8)
  | migrationResume (t : BitVec 8)
  | fwSwitch
  | fwHealthTimeout (healthy : Bool)
  | mantelRestart
  | spareSelfTest (unit : Nat) (passed : Bool)
  | sensorCalibration (die : BitVec 2) (sensor : Nat)
  | attnPress
  | attnHold
  | latchOpen
  -- power, cooling and kindling
  | tjHigh (tj : Nat)
  | thermalShutdown (cause : ShutdownCause)
  | coolantOutOfRange (bad : Bool)
  | dieRestart
  | feedOutOfRange (millivolts : Nat)
  | feedLoss
  | holdupEnd
  | kindling (ga : BitVec 4)
  | kindlingCrystal
  | kindlingMantel (okA okB : Bool)
  | kindlingPcie
  | kindlingPowerUp
  | kindlingSelfTest (failedUnits : List Nat) (failedTier1 failedTier2 : List Nat)
  | kindlingLoad
  | kindlingReady
  -- observability
  | counterWrap (block : BitVec 16) (counter : BitVec 3)
  | freezeEdge
  | releaseEdge
  | traceEvent (cls : BitVec 6) (unit : BitVec 12) (ltile : BitVec 8) (cyc : BitVec 24) (data0 data1 : BitVec 64)
  | beatStopEdge
  | domsel (dom : BitVec 9)
  | domscan
  -- rows the table lists last
  | linkUp (chimney : BitVec 1) (link : BitVec 2)
  | pwrCapNRise
  | feedReturn (millivolts : Nat)
  | sourceLoss (src : RefSource)
  | pfcFrame (chimney : BitVec 1) (priority : BitVec 3) (pause : Bool)
  | roceResponse (qp : BitVec 6) (answer : RoceAnswer)
  | arpReply (chimney : BitVec 1) (v6 : Bool) (sender : BitVec 128) (mac : BitVec 48)
  | ptpMessage (m : PtpMsg)
  | pcieLinkRetrain
  | pcieConfigRequest (msixEnable : Option Bool)
  | factoryUnlock
  | cellLevelInjection (target : InjectTarget) (bits : BitVec 64) (hold : Bool)
  | sfuStoreError (unit : Nat) (uncorrectable : Bool)
  | cartRemoved
  | latchClose
  | dieRestartComplete
  deriving DecidableEq, Repr

end Sys2Proof
end

