-- ==== Sys2Proof/Decode.lean ====
section
/-! DEFINITION. The table of operations gives no row bits of its own, so no word spells a command. -/

namespace Sys2Proof

/-- The command that a word spells by the table's bits: the table gives no row bits, so none (log 6). -/
def decodeTableWord (_nbits _w : Nat) : Option Instr := none

end Sys2Proof
end

