-- ==== Sys2Proof/Config.lean ====
section
/-! DEFINITION. What an implementation fixes and the spec does not: uninterpreted constants, and the module's own
identity. None of the opaque constants has a body, so no proof rests on a value of one. -/

namespace Sys2Proof

/-- Which of the two bracketing FP32 values a faithful function returns (R110): the one away from zero where true.
A pure function of the function's number, the rounding mode and the exact operand. -/
opaque Config.faithfulAway (fn rm operand : Nat) : Bool

/-- The W code of a micro-op result that R117 does not state (an operand that "must hold an integer" does not, a
register read before it is written, a slot without UEND), from the micro-op and its operands. -/
opaque Config.wResult (op a b : Nat) : BitVec 48

/-- Whether a fused multiply-add of 0 and infinity with a quiet NaN addend sets NV (left open by IEEE 754-2019). -/
opaque Config.fmaNanSetsNv : Bool

/-- A byte of contents that the spec calls undefined (R258, R288): the n-th use, at address a. -/
opaque Config.freeByte (n a : Nat) : Byte

/-- A choice that the spec leaves open: the n-th use. -/
opaque Config.freeBool (n : Nat) : Bool

/-- A 64-bit value that the spec leaves open: the n-th use. -/
opaque Config.freeWord (n : Nat) : W64

/-- The host key and the sideband key as provisioned outside the module (R365). -/
opaque Config.hostKey : List Byte
/-- The sideband key as provisioned outside the module (R365). -/
opaque Config.sidebandKey : List Byte

/-- The firmware signature check of R346: the VERSION of an image that passes, none where it fails. -/
opaque Config.firmwareVersion (image : List Byte) : Option W16

/-- The VERSION of the image with which a firmware slot was delivered (slot B where true). -/
opaque Config.bootVersion (slotB : Bool) : W16

/-- The module's serial number (R316, DEV_INFO page 0). -/
opaque Config.serial : W64

/-- DEV_INFO pages without a byte layout (pages 0, 2, 5 and 6, R368): the bytes returned, from the words they report. -/
opaque Config.infoPage (page : Nat) (words : List W64) : List Byte

/-- Poker answers (R377), whose text the spec does not give: the line printed, from the values it shows. -/
opaque Config.pokerText (command : Nat) (values : List W64) : List Byte

/-- The 14-bit hash of a Uadal UDP source port (R271) over SRC, DST, TYPE and, for COLL frames, CHUNK. -/
opaque Config.portHash (src dst typ chunk : Nat) : BitVec 14

/-- Where in its cycle the spread of R293 over the two chimneys stands at SEQ 0, which the spec leaves open. -/
opaque Config.spreadPhase : Nat

/-- The chimney of a RoCEv2 queue pair while both carry traffic (R267): no rule names it. -/
opaque Config.qpChimney (qp : Nat) : BitVec 1

/-- The priority of IP packets that are no Uadal frame (R266): 0 RDMA requests, 1 Congestion Notification Packets, 2 echo replies. No rule
maps them. -/
opaque Config.ipPriority (kind : Nat) : BitVec 3

/-- Which of n links that are up a frame takes, by the hash of its source port (R293). -/
opaque Config.linkPick (hash n : Nat) : Nat

/-- The own MAC address of a chimney, which no rule gives. -/
opaque Config.ownMac (chimney : Nat) : BitVec 48

/-- A field of the IP header that no rule gives: 0 ECN, 1 hop limit, 2 flow label, 3 identification, 4 the don't-fragment bit. -/
opaque Config.packetField (n : Nat) : Nat

/-- The priority on which frames of a DSCP leave, and the one in their tag (R266): no rule maps them. -/
opaque Config.framePriority (dscp : Nat) : BitVec 3

/-- Whether a partner's page leaves mirror protection at a generation (R310), which no frame tells: the generation and the page's key. -/
opaque Config.mirrorLeaves (gen key : Nat) : Bool

/-- The crossings into a domain that carry neither beat-edge tokens nor levels (R225): source domain and item bytes of each. -/
opaque Config.crossings (dom : Nat) : List (Nat × Nat)

/-- Where the REGS records of a domain begin and how many pairs of words each holds (R400). -/
opaque Config.scanRegs (dom : Nat) : List (Nat × Nat)

/-- The MEM records of a domain (R400): store, byte offset and length in units of 8 bytes. -/
opaque Config.scanStores (dom : Nat) : List (Nat × Nat × Nat)

/-- A byte of a scan record's body whose layout or value is open: the dump, the object, the byte's place. -/
opaque Config.scanByte (n obj i : Nat) : Byte

/-- The monitored counter value of FLT_FIRST_INFO for classes whose information is unit-specific (Table 13-1). -/
opaque Config.unitInfo (source n : Nat) : W32

/-- A byte of a page that a peer holds and sends back (R188, R326): the page's key and the offset. -/
opaque Config.remoteByte (key off : Nat) : Byte

/-- Whether a peer holds a sealed generation of a context (R327): context and generation. -/
opaque Config.remoteHas (ctx gen : Nat) : Bool

/-- A coefficient entry of table generation 0, none of which the spec states (R118). -/
opaque Config.builtinCoeff (i : Nat) : W64

/-- Whole pages of a bank image of the special-function store (R331). -/
opaque Config.imagePages : Nat

/-- A byte of a bank's image as it is stored and sent, whose order no rule gives (R115, R299). -/
opaque Config.imageByte (b : Machine.Bank) (i : Nat) : Byte

/-- The number in PAGE of the i-th page of a bank image in PART frames, which no rule gives (R299, Table 11-8). -/
opaque Config.imagePage (i : Nat) : BitVec 26

/-- Whether a tensor is under parity at a generation that another module's or the cartridge's copy restores: context, generation,
allocation (R309, R328). -/
opaque Config.remoteParity (ctx gen id : Nat) : Bool

/-- A field of the generation record that a peer sends back (R299, R328): context, generation, field number. -/
opaque Config.remoteField (ctx gen field : Nat) : W64

end Sys2Proof
end

