-- ==== Sys2Proof/Machine/Bits.lean ====
section
/-! DEFINITION. Tables, memories, bit fields and byte order (R8, R9): the plain operations that every unit uses. -/

namespace Sys2Proof.Machine

/-- The entry of key k, or d where none is listed. -/
def tget {α : Type} (d : α) : Table α → Nat → α
  | [], _ => d
  | (j, v) :: r, k => if j = k then v else tget d r k

/-- The table with key k holding v; keys stay in rising order. -/
def tset {α : Type} : Table α → Nat → α → Table α
  | [], k, v => [(k, v)]
  | (j, w) :: r, k, v =>
    if j = k then (k, v) :: r
    else if k < j then (k, v) :: (j, w) :: r
    else (j, w) :: tset r k v

/-- An item put at the end of each of the n queues from key k on, in a table of queues with rising keys. -/
def tpush {α : Type} (x : α) : Nat → Nat → Table (List α) → Table (List α)
  | 0, _, m => m
  | n + 1, k, [] => (k, [x]) :: tpush x n (k + 1) []
  | n + 1, k, (j, q) :: r => if j = k then (k, q ++ [x]) :: tpush x n (k + 1) r else (k, [x]) :: tpush x n (k + 1) ((j, q) :: r)

/-- The entries of the n keys from k on changed, in a table with rising keys; an absent one changes from the value d. -/
def tfill {α : Type} (d : α) (f : α → α) : Nat → Nat → Table α → Table α
  | 0, _, m => m
  | n + 1, k, [] => (k, f d) :: tfill d f n (k + 1) []
  | n + 1, k, (j, v) :: r => if j = k then (k, f v) :: tfill d f n (k + 1) r else (k, f d) :: tfill d f n (k + 1) ((j, v) :: r)

/-- The table without key k. -/
def tdel {α : Type} (m : Table α) (k : Nat) : Table α := m.filter (fun c => c.1 != k)

/-- Whether key k is listed. -/
def thas {α : Type} (m : Table α) (k : Nat) : Bool := m.any (fun c => c.1 == k)

/-- The listed entry of key k, if any. -/
def tfind {α : Type} : Table α → Nat → Option α
  | [], _ => none
  | (j, v) :: r, k => if j = k then some v else tfind r k

/-- One byte of a memory; an unlisted address reads 0. -/
def mread (m : Memory) (a : Nat) : Byte := tget 0 m a

/-- n bytes from address a. -/
def mreadN (m : Memory) (a n : Nat) : List Byte :=
  let k := m.filter (fun c => decide (a ≤ c.1) && decide (c.1 < a + n))
  (List.range n).map (fun i => mread k (a + i))

/-- The cells that list bytes laid from address a: the nonzero ones. -/
def cellsOf : Nat → List Byte → Memory
  | _, [] => []
  | a, b :: r => if b = 0 then cellsOf (a + 1) r else (a, b) :: cellsOf (a + 1) r

/-- The memory with the bytes stored from address a. -/
def mwrite (m : Memory) (a : Nat) (bs : List Byte) : Memory :=
  m.filter (fun c => decide (c.1 < a)) ++ (cellsOf a bs ++ m.filter (fun c => decide (a + bs.length ≤ c.1)))

/-- The memory with n bytes from address a set to 0. -/
def mclear (m : Memory) (a n : Nat) : Memory :=
  m.filter (fun c => decide (c.1 < a)) ++ m.filter (fun c => decide (a + n ≤ c.1))

/-- The listed cells of n bytes from a, moved to start at b. -/
def mextract (m : Memory) (a n b : Nat) : Memory :=
  (m.filter (fun c => decide (a ≤ c.1) && decide (c.1 < a + n))).map (fun c => (c.1 - a + b, c.2))

/-- Memory d with n bytes from address b replaced by n bytes of memory m from address a. -/
def mcopy (m : Memory) (a n : Nat) (d : Memory) (b : Nat) : Memory :=
  d.filter (fun c => decide (c.1 < b)) ++ (mextract m a n b ++ d.filter (fun c => decide (b + n ≤ c.1)))

/-- The canonical form of a memory: addresses strictly rising, no zero byte listed. -/
abbrev Memory.wf (m : Memory) : Prop :=
  m.Pairwise (fun c d => c.1 < d.1) ∧ ∀ c ∈ m, c.2 ≠ 0

/-- The number spelled least significant byte first (R8). -/
def leNat : List Byte → Nat
  | [] => 0
  | b :: r => b.toNat + 256 * leNat r

/-- The n low bytes of a number, least significant first (R8). -/
def leBytes : Nat → Nat → List Byte
  | 0, _ => []
  | n + 1, v => BitVec.ofNat 8 v :: leBytes n (v / 256)

/-- The number spelled in network byte order (R272). -/
def beNat (l : List Byte) : Nat := leNat l.reverse

/-- The n low bytes of a number in network byte order (R272). -/
def beBytes (n v : Nat) : List Byte := (leBytes n v).reverse

/-- n bytes of a list from offset a, zeros past its end. -/
def slice (l : List Byte) (a n : Nat) : List Byte :=
  let p := (l.drop a).take n
  p ++ List.replicate (n - p.length) 0

/-- The little-endian number of n bytes at offset a. -/
def leAt (l : List Byte) (a n : Nat) : Nat := leNat (slice l a n)

/-- The network-order number of n bytes at offset a. -/
def beAt (l : List Byte) (a n : Nat) : Nat := beNat (slice l a n)

/-- Bits [lo + n - 1 : lo] of a number. -/
def field (v lo n : Nat) : Nat := v / 2 ^ lo % 2 ^ n

/-- A register word with bits [lo + n - 1 : lo] set to v. -/
def setField (w : W32) (lo n v : Nat) : W32 :=
  (w &&& ~~~(BitVec.ofNat 32 ((2 ^ n - 1) * 2 ^ lo))) ||| BitVec.ofNat 32 (v % 2 ^ n * 2 ^ lo)

/-- A register word with bit i set. -/
def setBit (w : W32) (i : Nat) : W32 := w ||| BitVec.ofNat 32 (2 ^ i)

/-- A register word with bit i cleared. -/
def clrBit (w : W32) (i : Nat) : W32 := w &&& ~~~(BitVec.ofNat 32 (2 ^ i))

/-- A register word with bit i as given. -/
def putBit (w : W32) (i : Nat) (b : Bool) : W32 := if b then setBit w i else clrBit w i

/-- Bits of a register word, as a number. -/
def getField (w : W32) (lo n : Nat) : Nat := field w.toNat lo n

/-- A Boolean as a number. -/
def bnat (b : Bool) : Nat := if b then 1 else 0

/-- The signed value of the low n bits of a number, two's complement. -/
def signed (n v : Nat) : Int :=
  if 2 ^ (n - 1) ≤ v % 2 ^ n then (v % 2 ^ n : Int) - 2 ^ n else (v % 2 ^ n : Int)

/-- A list entry, or d past the end. -/
def nth {α : Type} (d : α) : List α → Nat → α
  | [], _ => d
  | a :: _, 0 => a
  | _ :: r, n + 1 => nth d r n

/-- A list with entry n replaced where it exists. -/
def setNth {α : Type} : List α → Nat → α → List α
  | [], _, _ => []
  | _ :: r, 0, v => v :: r
  | a :: r, n + 1, v => a :: setNth r n v

/-- The index of the first entry that satisfies p. -/
def indexOf {α : Type} (p : α → Bool) : List α → Nat → Option Nat
  | [], _ => none
  | a :: r, i => if p a then some i else indexOf p r (i + 1)

end Sys2Proof.Machine
end

