-- ==== Sys2Proof/Machine/Flags.lean ====
section
/-! DEFINITION. Number formats, exact values, rounding and the NUM_STATUS flags that a result raises (R22 to R39). -/

namespace Sys2Proof.Machine

/-! ## NUM_STATUS flag masks (Table 02-4) -/

def fNX : W32 := 0x001
def fUF : W32 := 0x002
def fOF : W32 := 0x004
def fDZ : W32 := 0x008
def fNV : W32 := 0x010
def fSAT : W32 := 0x020
def fMXNAN : W32 := 0x080
def fNF : W32 := 0x100

/-- A set of flags given by a condition. -/
def flagIf (b : Bool) (f : W32) : W32 := if b then f else 0

/-! ## Formats (Tables 02-1 and 02-2) -/

/-- How a float format spends its top exponent: as IEEE 754, one NaN code only (E4M3), or on finite values. -/
inductive TopExp where
  | ieee
  | oneNan
  | finite
  deriving DecidableEq, Repr

/-- A floating-point element format: exponent bits, mantissa bits, bias, use of the top exponent. -/
structure FloatFmt where
  eb : Nat
  mb : Nat
  bias : Nat
  top : TopExp
  deriving DecidableEq, Repr

def fp32 : FloatFmt := ⟨8, 23, 127, .ieee⟩
def bf16 : FloatFmt := ⟨8, 7, 127, .ieee⟩
def fp16 : FloatFmt := ⟨5, 10, 15, .ieee⟩
def e4m3 : FloatFmt := ⟨4, 3, 7, .oneNan⟩
def e5m2 : FloatFmt := ⟨5, 2, 15, .ieee⟩
def e3m2 : FloatFmt := ⟨3, 2, 3, .finite⟩
def e2m3 : FloatFmt := ⟨2, 3, 1, .finite⟩
def e2m1 : FloatFmt := ⟨2, 1, 1, .finite⟩
/-- The SFU's internal format W (R113): 11-bit exponent of bias 1,023, 37-bit significand. -/
def wfmt : FloatFmt := ⟨11, 36, 1023, .ieee⟩

/-- The lane width w(FMT) of R82. -/
def laneWidth (fmt : BitVec 4) : Nat :=
  if fmt = 0 then 32 else if fmt = 1 ∨ fmt = 2 ∨ fmt = 0xE then 16 else 8

/-- The float element format of a FMT code: F formats, MX element formats and SB16's BF16. -/
def floatOf (fmt : BitVec 4) : Option FloatFmt :=
  match fmt.toNat with
  | 0 => some fp32 | 1 => some bf16 | 2 => some fp16 | 3 => some e4m3 | 4 => some e5m2
  | 8 => some e4m3 | 9 => some e5m2 | 10 => some e3m2 | 11 => some e2m3 | 12 => some e2m1
  | 14 => some bf16 | _ => none

/-- The class F of Table 04-3. -/
def isF (fmt : BitVec 4) : Bool := decide (fmt.toNat ≤ 4)

/-- The MX formats. -/
def isMx (fmt : BitVec 4) : Bool := decide (8 ≤ fmt.toNat ∧ fmt.toNat ≤ 13)

/-- The formats with a shared scale. -/
def isScaled (fmt : BitVec 4) : Bool := decide (8 ≤ fmt.toNat ∧ fmt.toNat ≤ 14)

/-- The scale block size B of Table 06-2, 0 for formats without scales. -/
def scaleBlock (fmt : BitVec 4) : Nat := if isMx fmt then 32 else if fmt = 0xE then 64 else 0

/-- The element width in bits (Table 02-1). -/
def elemWidth (fmt : BitVec 4) : Nat :=
  match fmt.toNat with
  | 0 => 32 | 1 => 16 | 2 => 16 | 6 => 4 | 10 => 6 | 11 => 6 | 12 => 4 | 14 => 16 | _ => 8

/-! ## Exact values -/

/-- The value of an element: NaN, an infinity, or the exact finite value (-1)^neg · m · 2^e. -/
inductive Num where
  | nan (signalling : Bool)
  | inf (neg : Bool)
  | fin (neg : Bool) (m : Nat) (e : Int)
  deriving DecidableEq, Repr

/-- The value of a code of a float format. -/
def decodeFloat (f : FloatFmt) (code : Nat) : Num :=
  let man := field code 0 f.mb
  let ex := field code f.mb f.eb
  let neg := field code (f.mb + f.eb) 1 == 1
  if f.top = .ieee ∧ ex = 2 ^ f.eb - 1 then
    if man = 0 then .inf neg else .nan (decide (man < 2 ^ (f.mb - 1)))
  else if f.top = .oneNan ∧ ex = 2 ^ f.eb - 1 ∧ man = 2 ^ f.mb - 1 then .nan false
  else if ex = 0 then .fin neg man (1 - (f.bias : Int) - f.mb)
  else .fin neg (man + 2 ^ f.mb) ((ex : Int) - f.bias - f.mb)

/-- The canonical NaN of Table 02-2. -/
def canonNan (f : FloatFmt) : Nat :=
  match f.top with
  | .ieee => if f = e5m2 then 0x7F else (2 ^ f.eb - 1) * 2 ^ f.mb + 2 ^ (f.mb - 1)
  | .oneNan => 2 ^ (f.eb + f.mb) - 1
  | .finite => 0

/-- The code of the largest finite magnitude. -/
def maxCode (f : FloatFmt) : Nat :=
  match f.top with
  | .ieee => (2 ^ f.eb - 1) * 2 ^ f.mb - 1
  | .oneNan => 2 ^ (f.eb + f.mb) - 2
  | .finite => 2 ^ (f.eb + f.mb) - 1

/-- The sign bit of a format's code. -/
def signCode (f : FloatFmt) (neg : Bool) : Nat := if neg then 2 ^ (f.eb + f.mb) else 0

/-- The code of an infinity; canonical NaN where the format has none (R38). -/
def infCode (f : FloatFmt) (neg : Bool) : Nat :=
  match f.top with
  | .ieee => signCode f neg + (2 ^ f.eb - 1) * 2 ^ f.mb
  | _ => canonNan f

/-- Whether a code's value is finite. -/
def Num.isFin : Num → Bool
  | .fin _ _ _ => true
  | _ => false

/-- Whether a value is NaN. -/
def Num.isNan : Num → Bool
  | .nan _ => true
  | _ => false

/-- Whether a value is a signalling NaN. -/
def Num.isSnan : Num → Bool
  | .nan b => b
  | _ => false

/-- The value with its sign inverted. -/
def Num.neg : Num → Num
  | .nan b => .nan b
  | .inf n => .inf (!n)
  | .fin n m e => .fin (!n) m e

/-- The magnitude of a value. -/
def Num.abs : Num → Num
  | .nan b => .nan b
  | .inf _ => .inf false
  | .fin _ m e => .fin false m e

/-- Whether a value is zero. -/
def Num.isZero : Num → Bool
  | .fin _ m _ => m == 0
  | _ => false

/-- +1. -/
def Num.one : Num := .fin false 1 0
/-- +0. -/
def Num.zero : Num := .fin false 0 0

/-! ## Rounding (Table 02-5, R38, R39) -/

/-- A rounding mode; SR carries its 16 random bits (R40), and away picks the bracket away from zero (R110). -/
inductive RMode where
  | rne
  | rtz
  | rdn
  | rup
  | sr (r : Nat)
  | away
  deriving DecidableEq, Repr

/-- The mode of a 3-bit RM field; the reserved encodings read as RNE (log 11). -/
def rmOf (rm : BitVec 3) (r : Nat) : RMode :=
  match rm.toNat with
  | 1 => .rtz | 2 => .rdn | 3 => .rup | 4 => .sr r | _ => .rne

/-- Whether mode rm rounds up the magnitude of a value whose dropped field is d of w bits, w above 0. -/
def roundsUp (rm : RMode) (neg : Bool) (q d w : Nat) : Bool :=
  match rm with
  | .rne => decide (2 ^ (w - 1) < d) || (decide (d = 2 ^ (w - 1)) && decide (q % 2 = 1))
  | .rtz => false
  | .rdn => neg && decide (d ≠ 0)
  | .rup => !neg && decide (d ≠ 0)
  | .sr r =>
    let k := min w 16
    decide (2 ^ k ≤ d / 2 ^ (w - k) + r % 2 ^ 16 / 2 ^ (16 - k))
  | .away => decide (d ≠ 0)

/-- m · 2^e as a multiple of 2^qe under mode rm, and whether that was inexact. -/
def roundAt (rm : RMode) (neg : Bool) (m : Nat) (e qe : Int) : Nat × Bool :=
  if qe ≤ e then (m * 2 ^ (e - qe).toNat, false)
  else
    let w := (qe - e).toNat
    let q := m / 2 ^ w
    let d := m % 2 ^ w
    (if roundsUp rm neg q d w then q + 1 else q, decide (d ≠ 0))

/-- floor(log2(m · 2^e)) of a nonzero value. -/
def log2Of (m : Nat) (e : Int) : Int := (Nat.log2 m : Int) + e

/-- A finite value rounded to a format as if its exponent range had no upper end: the multiple q of 2^qe, and inexactness. -/
def roundFinite (f : FloatFmt) (rm : RMode) (neg : Bool) (m : Nat) (e : Int) : Nat × Int × Bool :=
  let qe := max (log2Of m e) (1 - (f.bias : Int)) - f.mb
  let r := roundAt rm neg m e qe
  (r.1, qe, r.2)

/-- Whether q · 2^qe exceeds the largest finite value of a format. -/
def exceeds (f : FloatFmt) (q : Nat) (qe : Int) : Bool :=
  match decodeFloat f (maxCode f) with
  | .fin _ mm me =>
    let lo := min qe me
    decide (mm * 2 ^ (me - lo).toNat < q * 2 ^ (qe - lo).toNat)
  | _ => false

/-- The code of the magnitude q · 2^qe that a format holds, as `roundFinite` gives it. -/
def packMag (f : FloatFmt) (q : Nat) (qe : Int) : Nat :=
  if q < 2 ^ f.mb then q
  else if q = 2 ^ (f.mb + 1) then (qe + 1 + f.mb + f.bias).toNat * 2 ^ f.mb
  else (qe + f.mb + f.bias).toNat * 2 ^ f.mb + (q - 2 ^ f.mb)

/-- Whether the mode rounded an overflowing value toward zero (R32, R38). -/
def towardZero (rm : RMode) (neg : Bool) (incremented : Bool) : Bool :=
  match rm with
  | .rne => false
  | .rtz => true
  | .rdn => !neg
  | .rup => neg
  | .sr _ => !incremented
  | .away => false

/-- What becomes of an overflow: an arithmetic result (R38), or a conversion with its SAT bit (R32). -/
inductive OnOverflow where
  | arith
  | convert (sat : Bool)
  deriving DecidableEq, Repr

/-- A finite value rounded once into a format: its code and flags (R34, R38, Table 02-3). -/
def packFinite (f : FloatFmt) (rm : RMode) (ov : OnOverflow) (neg : Bool) (m : Nat) (e : Int) : Nat × W32 :=
  if m = 0 then (signCode f neg, 0)
  else
    let (q, qe, inexact) := roundFinite f rm neg m e
    if exceeds f q qe then
      let up := decide (m * 2 ^ (e - qe).toNat / 2 ^ (qe - e).toNat < q)
      match f.top, ov with
      | .finite, _ => (signCode f neg + maxCode f, fSAT ||| fNX)
      | _, .convert true => (signCode f neg + maxCode f, fSAT ||| fNX)
      | _, _ =>
        if towardZero rm neg up then (signCode f neg + maxCode f, fOF ||| fNX)
        else (infCode f neg, fOF ||| fNX ||| fNF)
    else
      let tiny := decide (q < 2 ^ f.mb) && decide (q ≠ 0) && inexact
      (signCode f neg + packMag f q qe, flagIf inexact fNX ||| flagIf tiny fUF)

/-- A value rounded once into a format as an arithmetic result: a NaN is canonical (R29). -/
def packArith (f : FloatFmt) (rm : RMode) : Num → Nat × W32
  | .nan _ => (canonNan f, 0)
  | .inf n => (infCode f n, 0)
  | .fin n m e => packFinite f rm .arith n m e

/-! ## Exact operations on values; the flags are those of invalid operands -/

/-- NV where an operand is a signalling NaN (R29). -/
def snanFlags (l : List Num) : W32 := flagIf (l.any Num.isSnan) fNV

/-- A NaN result from operands none of which is NaN: NV and NF (R36). -/
def invalid : Num × W32 := (.nan false, fNV ||| fNF)

/-- The signed integer m of a finite value over 2^e0. -/
def alignInt (neg : Bool) (m : Nat) (e e0 : Int) : Int :=
  let v : Int := (m * 2 ^ (e - e0).toNat : Nat)
  if neg then -v else v

/-- The value of an exact sum; a zero sum takes the sign of R31. -/
def ofSum (rdn : Bool) (na nb : Bool) (za zb : Bool) (v : Int) (e : Int) : Num :=
  if v = 0 then
    if za && zb && na == nb then .fin na 0 e else .fin rdn 0 e
  else .fin (decide (v < 0)) v.natAbs e

/-- a + b, exact (R31 for the sign of zero). -/
def addNum (rm : RMode) (a b : Num) : Num × W32 :=
  match a, b with
  | .fin na ma ea, .fin nb mb eb =>
    let e := min ea eb
    (ofSum (rm == .rdn) na nb (ma == 0) (mb == 0) (alignInt na ma ea e + alignInt nb mb eb e) e, 0)
  | .inf na, .inf nb => if na = nb then (.inf na, 0) else invalid
  | .inf na, .fin _ _ _ => (.inf na, 0)
  | .fin _ _ _, .inf nb => (.inf nb, 0)
  | _, _ => (.nan false, snanFlags [a, b])

/-- a · b, exact. A product of zero has the sign of its operands' signs, integers too, for which the spec states none (log 115). -/
def mulNum (a b : Num) : Num × W32 :=
  match a, b with
  | .fin na ma ea, .fin nb mb eb => (.fin (na != nb) (ma * mb) (ea + eb), 0)
  | .inf na, .inf nb => (.inf (na != nb), 0)
  | .inf na, .fin nb mb _ => if mb = 0 then invalid else (.inf (na != nb), 0)
  | .fin na ma _, .inf nb => if ma = 0 then invalid else (.inf (na != nb), 0)
  | _, _ => (.nan false, snanFlags [a, b])

/-- a · b + c, exact. -/
def fmaNum (rm : RMode) (a b c : Num) : Num × W32 :=
  if a.isNan || b.isNan || c.isNan then
    let p := if a.isNan || b.isNan then (Num.nan false, (0 : W32)) else mulNum a b
    (.nan false, snanFlags [a, b, c] ||| flagIf (p.1.isNan && !(a.isNan || b.isNan) && Config.fmaNanSetsNv) fNV)
  else
    let p := mulNum a b
    if p.1.isNan then p else addNum rm p.1 c

/-- Comparison of two values that are not NaN; -0 and +0 are equal. -/
def ltNum (a b : Num) : Bool :=
  match a, b with
  | .fin na ma ea, .fin nb mb eb =>
    let e := min ea eb
    decide (alignInt na ma ea e < alignInt nb mb eb e)
  | .inf na, .inf nb => na && !nb
  | .inf na, .fin _ _ _ => na
  | .fin _ _ _, .inf nb => !nb
  | _, _ => false

/-- Equality of two values; a NaN equals nothing (R30). -/
def eqNum (a b : Num) : Bool := !a.isNan && !b.isNan && !ltNum a b && !ltNum b a

/-- The sign of a value. -/
def Num.sign : Num → Bool
  | .nan _ => false
  | .inf n => n
  | .fin n _ _ => n

/-- The maximum under R30 and R31: -0 below +0. -/
def maxNum (a b : Num) : Num × W32 :=
  if a.isNan || b.isNan then (.nan false, snanFlags [a, b])
  else if ltNum a b then (b, 0)
  else if ltNum b a then (a, 0)
  else if a.isZero && a.sign then (b, 0) else (a, 0)

/-- The minimum under R30 and R31: -0 below +0. -/
def minNum (a b : Num) : Num × W32 :=
  if a.isNan || b.isNan then (.nan false, snanFlags [a, b])
  else if ltNum a b then (a, 0)
  else if ltNum b a then (b, 0)
  else if a.isZero && a.sign then (a, 0) else (b, 0)

/-- The quotient m1·2^e1 / (m2·2^e2) of nonzero magnitudes to at least 80 bits, with its last bit sticky: it rounds as the
exact quotient does into every format of the module. -/
def quotient (m1 : Nat) (e1 : Int) (m2 : Nat) (e2 : Int) : Nat × Int :=
  let k := 81 + Nat.log2 m2 - min (Nat.log2 m1) (81 + Nat.log2 m2)
  let n := m1 * 2 ^ k
  (2 * (n / m2) + (if n % m2 = 0 then 0 else 1), e1 - e2 - k - 1)

/-- a / b (R109). -/
def divNum (a b : Num) : Num × W32 :=
  match a, b with
  | .fin na ma ea, .fin nb mb eb =>
    if mb = 0 then if ma = 0 then invalid else (.inf (na != nb), fDZ ||| fNF)
    else if ma = 0 then (.fin (na != nb) 0 0, 0)
    else let q := quotient ma ea mb eb; (.fin (na != nb) q.1 q.2, 0)
  | .inf _, .inf _ => invalid
  | .inf na, .fin nb _ _ => (.inf (na != nb), 0)
  | .fin na _ _, .inf nb => (.fin (na != nb) 0 0, 0)
  | _, _ => (.nan false, snanFlags [a, b])

/-- The bits i-1 down to 0 of the integer square root of n, added to r. -/
def isqrtFrom : Nat → Nat → Nat → Nat
  | 0, _, r => r
  | i + 1, n, r => isqrtFrom i n (if (r + 2 ^ i) * (r + 2 ^ i) ≤ n then r + 2 ^ i else r)

/-- The integer square root. -/
def isqrt (n : Nat) : Nat := isqrtFrom (Nat.log2 n / 2 + 1) n 0

/-- The square root of a nonzero magnitude to at least 80 bits with a sticky last bit. -/
def rootMag (m : Nat) (e : Int) : Nat × Int :=
  let odd := (e % 2).toNat
  let n := m * 2 ^ odd * 2 ^ 168
  let r := isqrt n
  (2 * r + (if r * r = n then 0 else 1), (e - odd) / 2 - 84 - 1)

/-- √a (R109). -/
def sqrtNum (a : Num) : Num × W32 :=
  match a with
  | .nan b => (.nan false, flagIf b fNV)
  | .inf n => if n then invalid else (.inf false, 0)
  | .fin n m e =>
    if m = 0 then (a, 0) else if n then invalid else let r := rootMag m e; (.fin false r.1 r.2, 0)

/-- 1/√ of a nonzero magnitude to at least 80 bits with a sticky last bit. -/
def rootRecip (m : Nat) (e : Int) : Nat × Int :=
  let odd := (e % 2).toNat
  let n := m * 2 ^ odd
  let k := 100 + Nat.log2 n
  let r := isqrt (2 ^ (2 * k) / n)
  (2 * r + (if r * r * n = 2 ^ (2 * k) then 0 else 1), -((e - odd) / 2) - k - 1)

/-- 1/√a (R109). -/
def rsqrtNum (a : Num) : Num × W32 :=
  match a with
  | .nan b => (.nan false, flagIf b fNV)
  | .inf n => if n then invalid else (.fin false 0 0, 0)
  | .fin n m e =>
    if m = 0 then (.inf n, fDZ ||| fNF) else if n then invalid else let r := rootRecip m e; (.fin false r.1 r.2, 0)

/-! ## FP32 shorthands used by the fixed-order sums -/

/-- The value of an FP32 code. -/
def val32 (c : W32) : Num := decodeFloat fp32 c.toNat

/-- A value rounded once to FP32. -/
def pack32 (rm : RMode) (r : Num × W32) : W32 × W32 :=
  let p := packArith fp32 rm r.1
  (BitVec.ofNat 32 p.1, r.2 ||| p.2)

/-- rne(a + b) in FP32. -/
def add32 (a b : W32) : W32 × W32 := pack32 .rne (addNum .rne (val32 a) (val32 b))
/-- rne(a - b) in FP32. -/
def sub32 (a b : W32) : W32 × W32 := pack32 .rne (addNum .rne (val32 a) (val32 b).neg)
/-- rne(a · b) in FP32. -/
def mul32 (a b : W32) : W32 × W32 := pack32 .rne (mulNum (val32 a) (val32 b))
/-- rne(a · b + c) in FP32. -/
def fma32 (a b c : W32) : W32 × W32 := pack32 .rne (fmaNum .rne (val32 a) (val32 b) (val32 c))
/-- rne(a / b) in FP32. -/
def div32 (a b : W32) : W32 × W32 := pack32 .rne (divNum (val32 a) (val32 b))

end Sys2Proof.Machine
end

