-- ==== Sys2Proof/Machine/State.lean ====
section
/-! DEFINITION. The state of the TY-4800 as plain data: every register, memory, queue, counter, mode and line that the
spec gives the module, the queue of waiting commands, and the state at reset. -/

namespace Sys2Proof.Machine

/-- Why a step stops. Raised only where a command's operand names a part that the spec says does not exist; safe, since
nothing is computed from it. -/
inductive Fault where
  /-- A firebox slot above 271 (R16). Raised by every command that names a physical slot. Safe. -/
  | noSuchUnit
  /-- Hob 3 (R78). Raised by the pass and hob event commands. Safe. -/
  | noSuchHob
  /-- A clock domain above 326 (R214). Raised by the clock commands and the scan selection. Safe. -/
  | noSuchDomain
  /-- A memory channel outside R204 or R205, or a frame beyond its tier (R184). Raised by the memory service commands. Safe. -/
  | noSuchFrame
  /-- A counter block outside Table 15-1 (R379). Raised by COUNTER_WRAP. Safe. -/
  | noSuchCounter
  deriving DecidableEq, Repr

/-- Why a command has no meaning in the model. -/
inductive Refusal where
  /-- The command of this mnemonic has no meaning yet. Raised by the dispatch alone. Safe. -/
  | notModelled (mnemonic : String)
  deriving DecidableEq, Repr

/-! ## Descriptors -/

/-- A tensor descriptor (Table 06-1), parsed. -/
structure Desc where
  ndim : Nat := 1
  fmt : BitVec 4 := 0
  space : Nat := 0
  layout : Nat := 0
  acc : Nat := 1
  ovl : Nat := 0
  tensorId : Nat := 0
  base : Nat := 0
  allocBase : Nat := 0
  allocSize : Nat := 0
  scaleBase : Nat := 0
  extents : List Nat := []
  strides : List Int := []
  deriving DecidableEq, Repr

/-- An allocation record (Table 10-3), parsed. -/
structure AllocRec where
  base : Nat := 0
  size : Nat := 0
  space : Nat := 0
  cls : Nat := 0
  place : Nat := 0
  touch : Bool := false
  die : Nat := 0
  hr : Bool := false
  hw : Bool := false
  id : Nat := 0
  deriving DecidableEq, Repr

/-! ## One firebox -/

/-- A 64×64 FP32 tile in row order; entries past the list's end are +0. -/
abbrev Tile64 := List W32

/-- A stage of the ash queue (R66, R67). -/
structure AshStage where
  seq : Nat
  hob : Nat
  committed : Bool := false
  visible : Bool := false
  data : Tile64 := []
  header : W64 := 0
  deriving DecidableEq, Repr

/-- A pass that has started and not committed (R54): its descriptor, its operands as taken from the flues and the GSB (each
entry an element code and its block scale), the flue entries it holds, whether its checks are on and their tolerance exponent
(R68, R81), whether its own mismatch has made it a replay (R75), whether a second mismatch aborted it (R76), and whether its
outputs are dropped at its commit (R261). -/
structure FlyPass where
  d : PassDesc
  stat : List (Nat × Nat) := []
  strm : List (Nat × Nat) := []
  init : List (Nat × Nat) := []
  takenA : Nat := 0
  takenB : Nat := 0
  takenI : Nat := 0
  chk : Bool := false
  tol : Nat := 14
  replay : Bool := false
  aborted : Bool := false
  dropped : Bool := false
  deriving DecidableEq, Repr

/-- One hob (R52): the pass held at issue, the passes in flight, the named slots, the stationary registers active and shadow,
the pass whose operand a side lane or a preload has put into the shadow (PASS_SEQ, and the FLUE_A entries it holds, R61, R62),
whether a preload is under way, the sums in the checksum PEs (signed and magnitude lane), the mode of the last pass, and whether
the hob issues no further pass (R76, R77). -/
structure Hob where
  held : Option PassDesc := none
  fly : List FlyPass := []
  slots : Table Tile64 := []
  stat : List (Nat × Nat) := []
  shadow : List (Nat × Nat) := []
  lane : Option (Nat × Nat) := none
  preloading : Bool := false
  sums : List (W32 × W32) := []
  lastMode : Option Bool := none
  stopped : Bool := false
  deriving DecidableEq, Repr

/-- One half of the gradient share buffer (R63, R64): its rows, whether a capture has taken it and filled it, whether its
release waits for passes in flight. -/
structure GsbHalf where
  data : List (Nat × Nat) := []
  busy : Bool := false
  full : Bool := false
  rel : Bool := false
  deriving DecidableEq, Repr

/-- One stream and its flue (R156 to R183). A flue entry is an element code and its block scale; `claimed` entries belong to
passes in flight; `buf` holds elements that the bellows have taken and not yet delivered or written whole (position, code,
scale). `pos` is the next element to take, `cursorPos` the cursor, both in delivery order. `armedIn` says where the words of this
step execution armed it: 1 in the prologue, 2 in the commit block, 0 elsewhere. `mov` says that an access of it is held under R202,
`full` that one is held for room in the snapshot area (R305); `runFrom` to `runTo` is the run of DVA bytes that it has written without a
gap (log 119). -/
structure Stream where
  sd : Nat := 0
  ctx : Nat := 0
  state : Nat := 0
  pos : Nat := 0
  cursorPos : Nat := 0
  base : Nat := 0
  scaleBase : Nat := 0
  slot : Option (Nat × Nat) := none
  stall : Bool := false
  sticky : W32 := 0
  fault : W32 := 0
  faultDva : Nat := 0
  cntPass : W32 := 0
  cntIdx : W32 := 0
  units : Nat := 0
  entries : List (Nat × Nat) := []
  claimed : Nat := 0
  buf : List (Nat × Nat × Nat) := []
  disarm : Bool := false
  pendArm : Option Nat := none
  armedIn : Nat := 0
  mov : Option (Nat × Nat) := none
  runFrom : Nat := 0
  runTo : Nat := 0
  full : Bool := false
  deriving DecidableEq, Repr

/-- The state of a ring stream's rotation at its station (R173); `want` is the slice that the bellows fetch from DESC_A, and the
buffer it goes to, while an access holds that fetch. -/
structure Ring where
  active : Bool := false
  s : Nat := 0
  step : Nat := 0
  inUse : Nat := 0
  slice : Nat := 0
  recv : Option Nat := none
  sent : Bool := false
  want : Option (Nat × Nat) := none
  deriving DecidableEq, Repr

/-- A cached translation group (R194): context, group, 8 entries, 8 CP bits. -/
structure XGroup where
  ctx : Nat
  g : Nat
  entries : List W64
  cp : List Bool
  deriving DecidableEq, Repr

/-- A translation cache (R194): its groups, the most recently used first. -/
structure XCache where
  groups : List XGroup := []
  deriving DecidableEq, Repr

/-- A loop in progress (R155). -/
structure LoopFrame where
  start : Nat
  len : Nat
  left : Nat
  deriving DecidableEq, Repr

/-- A fence of this step execution (R249): its word, its step beat, whether it is a barrier, whether the stoker has
passed it (in a loop, on the last iteration), the PASS_SEQs of the passes before it that have not committed, the writing streams
before it (number, stream passes then completed, elements then given), and whether a RECOMP replays it, so that NR does not
count it. -/
structure FenceMark where
  op : Nat
  beat : Int
  barrier : Bool
  passed : Bool := false
  waits : List Nat := []
  streams : List (Nat × Nat × Nat) := []
  replayed : Bool := false
  deriving DecidableEq, Repr

/-- The stoker (R154, R244): word position, loops, the step beat of the last AT, the fences of this step execution, the
prologue's and the commit block's ends, a replay in progress (return word, end, ACT_S, RC_S), layer tag,
and why it issues nothing: an abandoned step, a bad class, STEP reached, a pre-emption, a quiesce (R343); and the
stream words ahead that the bellows have acted on, by index (R163). -/
structure Stoker where
  pc : Nat := 0
  loops : List LoopFrame := []
  atBeat : Option Int := none
  fences : List FenceMark := []
  proEnd : Option Nat := none
  bodyStart : Nat := 0
  gatedEnd : Option Nat := none
  recomp : Option (Nat × Nat × Nat × Nat) := none
  phase : Nat := 3
  layer : Nat := 0
  abandoned : Bool := false
  halted : Bool := false
  stepDone : Bool := false
  waitWord : Bool := false
  preempt : Bool := false
  quiesced : Bool := false
  ahead : List Nat := []
  deriving DecidableEq, Repr

/-- One firebox slot. `regs` holds the status block words that are stored as such (Tables 02-4, 03-8, 04-7, 05-7,
07-5, 08-5), by offset; the fields that mirror other state are computed where the register is read. `grateUe`: R85 stopped the grate and no migration has taken its tile. `badHobs` are the hobs
whose SUSPECT is set, which stays for the slot (R76). `tested`: the built-in test since power-up has ended (R103). `nfSeen` says whether NF was raised since the gate was known (R257). -/
structure Tile where
  regs : Table W32 := []
  scratch : Memory := []
  vregs : Memory := []
  masks : Table (BitVec 2048) := []
  x : Table W32 := []
  vl : Nat := 512
  ashHold : List W32 := []
  ashHoldHdr : W64 := 0
  ash : List AshStage := []
  grateStop : Bool := false
  grateUe : Bool := false
  hobs : Table Hob := []
  gsb : Table GsbHalf := []
  streams : Table Stream := []
  ring : Ring := {}
  xc : XCache := {}
  stoker : Stoker := {}
  damper : Nat := 0
  suspect : Bool := false
  badHobs : List Nat := []
  testOk : Bool := true
  tested : Bool := false
  nfSeen : Bool := false
  deriving DecidableEq, Repr

/-! ## The special-function store (R115 to R122) -/

/-- The SFU store, one image in every firebox (R115, R131), the bank images kept in tier 2, and a check in progress. -/
structure Sfu where
  bank0 : Bank := {}
  bank1 : Bank := {}
  actBank : Bool := false
  shdValid : Bool := false
  swapArmed : Bool := false
  swapCtx : Nat := 0
  swapStep : Nat := 0
  checkRun : Bool := false
  actGen : W16 := 0
  shdGen : W16 := 0
  cntSwap : W32 := 0
  images : List (Nat × Nat × Bank) := []
  checking : Option (Slot × Nat × Nat × Nat × Bank) := none
  deriving DecidableEq, Repr

/-! ## Memory tiers and the page map (08) -/

/-- A host access (R210 to R212): a write and its bytes, or a read of a length, with the context and DVA that the window gave it when it
was received; while it is held (R202, R204, R305), the slots whose SET_WRITE of the window waits for it, and whether it has been counted
as a full-area hold. -/
structure HostAccess where
  isWrite : Bool
  off : Nat
  len : Nat
  data : List Byte := []
  ctx : Nat := 0
  dva : Nat := 0
  awaited : List Slot := []
  counted : Bool := false
  deriving DecidableEq, Repr

/-- A page move in progress (R202): context, page, old and new frame, the reason of the retirement, and the invalidation it
waits for (1 before the copy, 2 after it). -/
structure Move where
  ctx : Nat
  page : Nat
  old : Nat
  new : Nat
  reason : Nat
  stage : Nat
  deriving DecidableEq, Repr

/-- The external memory: contents of tiers 1 and 2 by frame · 65,536 + byte (tier 3 lies in the cartridge), die pools, page
maps and their copies by context · 2^26 + page, groups of page map lines whose two copies failed (context · 2^23 + group),
poisoned lines (tier, line address), frames in use, the retirement list, corrected-error times by tier · 2^27 + frame, the
host translation cache, the invalidation and the page move in progress, held host accesses, retraining windows, failures in
a row, dead channels; PM_BASE_c and PM_SHD_c by context, page map faults counted (R193), and the frames that wait to be retired (tier,
frame, reason). -/
structure Mem where
  tier1 : Memory := []
  tier2 : Memory := []
  pools : Table Memory := []
  pmap : Table W64 := []
  pmapCopy : Table W64 := []
  badLines : List Nat := []
  poison : List (Nat × Nat) := []
  used1 : List Nat := []
  used2 : List Nat := []
  retired : List W32 := []
  ceCount : Table (List Nat) := []
  hostCache : XCache := {}
  inval : Option (Nat × Nat × Nat) := none
  moving : Option Move := none
  heldHost : List HostAccess := []
  window1 : List Nat := []
  window2 : Option Nat := none
  failRuns : Table Nat := []
  dead1 : List Nat := []
  dead2 : List Nat := []
  pmBase : List Nat := []
  pmShd : List Nat := []
  pmFaults : Nat := 0
  retireQ : List (Nat × Nat × Nat) := []
  deriving DecidableEq, Repr

/-! ## Job contexts (10) -/

/-- The committed state of a persistent stream (R171): STATE, cursor, bases, slot, descriptor, units. -/
structure StreamSave where
  sd : Nat
  state : Nat
  pos : Nat
  cursor : Nat
  base : Nat
  scaleBase : Nat
  slot : Option (Nat × Nat)
  units : Nat
  deriving DecidableEq, Repr

/-- A job context: the image as loaded and its parsed sections, and what firmware keeps for it. -/
structure Ctx where
  jobLoaded : Bool := false
  schedLoaded : Bool := false
  image : List Byte := []
  imageHash : List Byte := []
  seed : Nat := 0
  onNf : Nat := 0
  onFail : Nat := 0
  maxDisc : Nat := 1
  flagLat : Nat := 1
  strict : Bool := false
  compat : Bool := false
  nclass : Nat := 1
  stepBeats : Nat := 1
  proBeats : Nat := 0
  allocs : List AllocRec := []
  descs : List Desc := []
  sdt : List Nat := []
  rearm : Table (List (Nat × Nat)) := []
  prog : Table (List W64) := []
  classes : List W64 := []
  layers : List W64 := []
  advance : List (Nat × Nat) := []
  exch : List Byte := []
  policy : List Byte := []
  state : Nat := 0
  stepCommitted : Nat := 0
  tgen : Nat := 0
  pendSwap : Option (Nat × Nat) := none
  streams : Table StreamSave := []
  restored : Bool := false
  deriving DecidableEq, Repr

/-- One flag round or the OR of several (Table 11-4). -/
structure Round where
  edge : Nat := 0
  nr : Bool := false
  fail : Bool := false
  fv : Bool := false
  nf : Bool := false
  stepFail : Bool := false
  gstop : Bool := false
  cnt : Nat := 1
  failStep : Nat := 0
  flagStep : Nat := 0
  deriving DecidableEq, Repr

/-- The running schedule (R243 to R259): the start asked for (context, B0), SCHED_NOW, STEP_BASE, the edges of the job start and
of this step execution, whether it began with the prologue, the module's own FAIL, whether flag bits have come, the gate, a
pending stop, and whether a fault ends the job at the next edge (R326, log 42). `blockBad` and `late` stand for COMMIT_FAIL and
LATE_NF of this step (R257), `draining` for a stop that waits for passes in flight (R261), `sealFrom` is the first edge at which
a seal fence could hold, `sealSpan` that of the last seal fence with its commit edge (R306). -/
structure Sched where
  ctx : Nat := 0
  b0 : Option (Nat × Nat) := none
  now : Nat := 0
  base : Int := 0
  running : Bool := false
  startEdge : Nat := 0
  execEdge : Nat := 0
  proExec : Bool := false
  failStep : Option Nat := none
  flagSent : Bool := false
  gateFv : Bool := false
  gateKnown : Bool := false
  gateNf : Bool := false
  gateFail : Bool := false
  abandoned : Bool := false
  blockBad : Bool := false
  late : Bool := false
  draining : Bool := false
  sealFrom : Option Nat := none
  sealSpan : Option (Nat × Nat) := none
  sStop : Option Nat := none
  stopSlot : Option Slot := none
  desync : Bool := false
  stopDue : Bool := false
  sealHold : Bool := false
  held : Bool := false
  firstCut : Bool := false
  deriving DecidableEq, Repr

/-! ## Control (14) -/

/-- The outcome of a command, before COMMAND_REPLY sends it (R359, R370). -/
structure Reply where
  status : Nat
  detail : Nat := 0
  data : List Byte := []
  deriving DecidableEq, Repr

/-- A message in flight: the header fields its reply needs, and whether it has been dispatched. -/
structure Inflight where
  op : Nat
  tag : Nat
  outLen : Nat := 0
  outAddr : Nat := 0
  beat : Nat := 0
  msg : List Byte := []
  dispatched : Bool := false
  deriving DecidableEq, Repr

/-- Mailboxes, messages, keys, counter spaces and settings (R355 to R377). -/
structure Ctl where
  mbox : Memory := []
  mbState : Table Nat := []
  inflight : List (Slot × Inflight) := []
  ready : List (Slot × Instr) := []
  waiting : List (Slot × Instr) := []
  results : List (Slot × Reply) := []
  last : Table Nat := []
  pers : Table Nat := []
  settings : Table W64 := []
  stored : Table W64 := []
  storeCnt : W32 := 0
  storeTick : Option Nat := none
  key0 : Option (List Byte) := none
  key1 : Option (List Byte) := none
  nextKey0 : Option (List Byte) := none
  nextKey1 : Option (List Byte) := none
  authTicks : List Nat := []
  msix : Bool := false
  held : List Nat := []
  linkUp : Bool := false
  v1En : Bool := false
  deriving DecidableEq, Repr

/-! ## Clocks (09) -/

/-- A time exchange of a child (R231): TSEQ, t1, t2, t3, the parent's full BEAT_NOW at t1 where a Uadal
frame gave it, and whether t1 and t3 are known (a PTP Follow_Up has come). -/
structure TimeExch where
  tseq : Nat
  t1 : Nat
  t2 : Nat
  t3 : Nat
  pbeat : Option Nat
  full : Bool := true
  deriving DecidableEq, Repr

/-- A beat-edge token in the crossing to a domain (R227): the beat, and SCHED_NOW before its edge, which the domain's part of the
schedule still shows. -/
structure Token where
  beat : Nat
  before : Nat
  deriving DecidableEq, Repr

/-- A change of EFF_LVL in the crossing to a firebox domain (R236): the level and the reference tick at which it applies. -/
structure LevelMsg where
  level : Nat
  tick : Nat
  deriving DecidableEq, Repr

/-- The beat unit, the reference source in use (0 PRI, 1 ALT, 2 XO), the dampers and the tile clock. `ticks` counts reference ticks since the beat
unit started; `tokens` and `levels` are the unread items of the crossings from the beat unit to each domain, oldest first, with the items
ever sent (R225 to R227, R236); `slowNext` is a slow level that waits for a beat edge; `fastOn` says that the fast level is in force or falling (R235); `forced` names the domains whose switch in progress
needs no clock, `timedOut` those whose switch has found no clock (R224), `selDead` those whose CLK_SELECT found the old clock dead (R223). -/
structure Clk where
  started : Bool := false
  ticks : Nat := 0
  beatNow : Nat := 0
  phase : Nat := 0
  beatEff : Nat := 0
  locals : Table Nat := []
  tokens : Table (List Token) := []
  tokSent : Nat := 0
  levels : Table (List LevelMsg) := []
  lvlSent : Nat := 0
  everAligned : Bool := false
  tseq : Nat := 0
  exch : Option TimeExch := none
  src : Nat := 2
  theta : Int := 0
  slewLeft : Int := 0
  delays : List Int := []
  pwrLow : Bool := false
  fastOn : Bool := false
  fastLevel : Nat := 0
  fastDecay : Bool := false
  slowPower : Nat := 0
  slowThermal : Nat := 0
  slowWritten : Option Nat := none
  slowNext : Option Nat := none
  forced : List Nat := []
  timedOut : List Nat := []
  selDead : List Nat := []
  tileMhz : Nat := 0
  deriving DecidableEq, Repr

/-! ## Faults and service (13) -/

/-- A spare migration in progress (R343): logical tile, failing slot, spare, phase 2 to 5, whether words were lost. -/
structure Migration where
  tile : Nat
  src : Nat
  dst : Nat
  phase : Nat
  lost : Bool := false
  deriving DecidableEq, Repr

/-- The collector's reactions, migrations, firmware slots (none: as delivered; some none: empty; else the VERSION staged), a switch that waits
for its beat or for its health, a switch back that waits for a beat edge (R348), the service panel and factory injection (nodes held and check bits written). -/
structure Flt where
  reacts : List Nat := []
  firstBeat : Nat := 0
  migrations : List Migration := []
  slotA : Option (Option W16) := none
  slotB : Option (Option W16) := none
  bAct : Option Nat := none
  switched : Bool := false
  backDue : Bool := false
  suspects : List Nat := []
  badHobs : List (Nat × Nat) := []
  attnDown : Bool := false
  latchOpen : Bool := false
  present : Bool := false
  flashes : Bool := false
  stuck : List (Nat × Nat × W64) := []
  calibrated : List (Nat × Nat) := []
  deriving DecidableEq, Repr

/-! ## Observability (15) -/

/-- A performance counter (R380 to R386). -/
structure Counter where
  value : Nat := 0
  event : Nat := 0
  en : Bool := false
  userRd : Bool := false
  chain : Bool := false
  ovf : Bool := false
  deriving DecidableEq, Repr

/-- Counters and their published records (by 8 · block + counter), the beats of the sample, the freeze and the stop, a freeze or
release that waits (freeze or not, beat, slot); the sample that is being published, with the records that have come, their blocks, and the
blocks that came for the published one; configurations that wait for their block's edge (block, beat, counter, CHAIN); trace: mask, the
masks in force at sources before a beat, ring, bytes written, queues while domain 324 is halted, drops (count,
first and last beat) by unit; a stop or release that waits for its edge, its slot, whether it froze the counters, whether the snap stop in force ended a job; JTAG's
instruction register and DOM. -/
structure Obs where
  counters : Table Counter := []
  records : Table W64 := []
  action : Option (Bool × Nat × Slot) := none
  traceMask : W64 := 0
  traceOld : List (Nat × W64) := []
  ringSize : Nat := 0
  ringFrames : List Nat := []
  wptr : Nat := 0
  queues : Table (List (List Byte × Bool)) := []
  drops : Table (Nat × Nat × Nat) := []
  gsEdge : Option (Nat × Bool) := none
  gsSlot : Option Slot := none
  gsFroze : Bool := false
  snapCut : Bool := false
  sampleBeat : Nat := 0
  pubBeat : Option Nat := none
  latched : Table W64 := []
  seen : List Nat := []
  fresh : Option (List Nat) := none
  pendCfg : List (Nat × Nat × Nat × Counter × Bool) := []
  freezeBeat : Nat := 0
  gsBeat : Nat := 0
  ir : BitVec 8 := 0xFF
  dom : Nat := 0
  deriving DecidableEq, Repr

/-! ## Power and kindling (16) -/

/-- The last stage of kindling completed (0 before stage 1, 8 when complete), whether the compute dies are up, the module is dark, its feed
is lost, the feed came back meanwhile; feed and coolant conditions, TJ; the times of shutdowns, a die restart in progress, the slots
and tier 1 channels that failed stage 6 of it, no restart any more; GA; both firmware slots failed; a MGMT report due after stage 8. -/
structure Pwr where
  stage : Nat := 0
  diesUp : Bool := false
  dark : Bool := false
  lost : Bool := false
  feedBack : Bool := false
  feedHold : Bool := false
  coolHold : Bool := false
  tj : Nat := 0
  shutTicks : List Nat := []
  restarting : Bool := false
  restartUnits : List Nat := []
  restartTier1 : List Nat := []
  noRestart : Bool := false
  ga : BitVec 4 := 0
  stuckStage3 : Bool := false
  mgmtDue : Bool := false
  deriving DecidableEq, Repr

/-! ## What the module sends -/

/-- One thing that the module has sent, answered or put on a pin (log 2). -/
inductive Out where
  | readData (data : List Byte)
  | msix (vector : Nat)
  | hostWrite (addr : Nat) (data : List Byte)
  | frame (chimney link : Nat) (bytes : List Byte)
  | ether (chimney kind : Nat) (bytes : List Byte)
  | rdma (target qpn key kind addr : Nat) (bytes : List Byte)
  | uart (bytes : List Byte)
  | sideband (addr : Nat) (bytes : List Byte)
  | removalRequest
  | ringSlice (tile slice : Nat)
  | time (kind : Nat) (words : List Nat)
  | jtag (bytes : List Byte)
  | cartWrite (addr : Nat) (bytes : List Byte)
  | pcieRetry
  | pcieConfig (resetMs : Nat)
  | bayReleased
  deriving DecidableEq, Repr

/-! ## The network (11) -/

/-- A Uadal frame (Table 11-2). -/
structure Frame where
  typ : Nat
  rtx : Bool := false
  chsel : Nat := 0
  syn : Bool := false
  src : Nat
  dst : Nat
  cluster : Nat
  epoch : Nat := 0
  seq : Nat := 0
  payload : List Byte
  deriving DecidableEq, Repr

/-- A frame that is not acknowledged (R290): its SEQ, TYPE, EPOCH, the chimney and link it went out on, whether it is out
(or waits in the transmit store), how often it was sent since the pair state's last reset, how many RTO periods in a row have passed
over it on that chimney (R295), its payload. -/
structure TxFrame where
  seq : Nat
  typ : Nat
  epoch : Nat := 0
  chimney : Nat := 0
  link : Nat := 0
  sent : Bool := false
  sends : Nat := 0
  late : Nat := 0
  payload : List Byte
  deriving DecidableEq, Repr

/-- The pair state with a peer (R290 to R292, R295): transmit SEQ, unacknowledged frames, receive CUM and MAP, whether the
last reset is unconfirmed, whether a frame with SYN 0 was accepted and whether every one carried SYN 1 since then, arrivals
since the last ACK and their chimney, the chimney lost to the peer, and RTO periods missed in a row by chimney. -/
structure Peer where
  txSeq : Nat := 0
  unacked : List TxFrame := []
  cum : Nat := 0xFFFFFFFF
  map : Nat := 0
  syn : Bool := true
  accSyn0 : Bool := false
  allSyn : Bool := true
  arrivals : Nat := 0
  arrCh : Nat := 0
  pathloss : Option Nat := none
  missed : Table Nat := []
  deriving DecidableEq, Repr

/-- A received COLL frame that is held (R287): chunk, phase, level, position, first block, its blocks as they came. -/
structure CollRx where
  chunk : Nat
  result : Bool
  lev : Nat
  pos : Nat
  first : Nat
  blocks : List (List Byte)
  deriving DecidableEq, Repr

/-- An exchange slot of the step in progress (R281 to R288): the frames held, the accumulators acc and values val that this
rank holds (chunk, level, index) as encoded blocks, the chunks with a result. -/
structure ExSlot where
  isOpen : Bool := true
  complete : Bool := false
  held : List CollRx := []
  accs : List ((Nat × Nat × Nat) × List (List Byte)) := []
  vals : List ((Nat × Nat × Nat) × List (List Byte)) := []
  results : List (Nat × List (List Byte)) := []
  deriving DecidableEq, Repr

/-- A drain queue pair (R267): messages outstanding, oldest first, how many of them an ended drain left, whether it is in error, its rate
in parts of 256. -/
structure Qp where
  sent : List Out := []
  stale : Nat := 0
  err : Bool := false
  rate : Nat := 256
  deriving DecidableEq, Repr

/-- What the Uadal engine keeps: pair states, exchange slots, the module's own rounds not yet joined, up frames of children
(source, round), up frames sent whose down frame is not held, the ORs held, gateway MAC addresses, queue pairs, paused
priorities, whether a GSTOP frame was sent, and the frames in the receive buffer of a snap stop (R394); frames that wait for their
chimney (for the gateway's MAC address, or on a paused priority), IP packets that are no Uadal frame and wait in the same way (kind 0
RDMA, 1 CNP with their queue pair, 2 echo reply with its chimney), and how often each chimney has brought the up frame of a source and
edge (R276). -/
structure Net where
  peers : Table Peer := []
  slots : Table ExSlot := []
  own : List Round := []
  ups : List (Nat × Round) := []
  sentUp : List Round := []
  ors : List Round := []
  macs : Table Nat := []
  qps : Table Qp := []
  paused : List (Nat × Nat) := []
  gstopSent : Bool := false
  rxHeld : List Instr := []
  waitOut : List (Nat × Frame) := []
  ipOut : List (Nat × Nat × Out) := []
  upSeen : List ((Nat × Nat) × Nat × Nat) := []
  deriving DecidableEq, Repr

/-! ## Snapshots and the cartridge (12) -/

/-- A generation that the module holds (R299 to R306): its record fields, the committed stream state, its delta, the methods
of its tensors at this cut and at the one before, the pages not yet sent, the pages sent to the partner and the fragments
sent by holder, whether the end marks are out, whether it is sealed and its fence passed; and its writing to the cartridge:
begun, a base, the pages not yet programmed and those programmed, the writes after them (bank images and stream state, record), done;
the table generations whose bank images it brings to the cartridge, and those that it sends to the partner (R299). -/
structure GenRec where
  ctx : Nat
  gen : Nat
  cutStep : Nat
  seed : Nat := 0
  actGen : Nat := 0
  cadC : Nat := 0
  k : Nat := 0
  quiet : Nat := 0
  beatCut : Nat := 0
  streams : Table StreamSave := []
  delta : List Nat := []
  methods : Table Nat := []
  oldMethods : Table Nat := []
  todo : List Nat := []
  sentPages : Nat := 0
  sentFrags : Table Nat := []
  endSent : Bool := false
  isSealed : Bool := false
  fenced : Bool := false
  cartOn : Bool := false
  cartIsBase : Bool := false
  cartTodo : List Nat := []
  cartPages : List (Nat × List Byte) := []
  banks : List Nat := []
  images : List Nat := []
  cartBuf : List (Nat × List Byte) := []
  cartTail : Nat := 0
  cartDone : Bool := false
  deriving DecidableEq, Repr

/-- A page of the partner store or a fragment of the parity store (R310, R311): its sealed version, and the version of the
generation that is coming in. -/
structure Stored where
  key : Nat
  body : Memory := []
  next : Option (Nat × Memory) := none
  deriving DecidableEq, Repr

/-- What a peer has sent of a generation (R313): 2 · peer for PART, 2 · peer + 1 for PAR; the generation, and for PART its context; the
pieces that arrived (item · 65,536 + OFS) and their bytes. -/
structure Arrived where
  peer : Nat
  gen : Nat
  ctx : Nat := 0
  pieces : List Nat := []
  bytes : Nat := 0
  deriving DecidableEq, Repr

/-- What the ember engine keeps: the bay and its cartridge, its state, whether its header is read, whether the next
generation on it is a base, whether its latch was opened before READY, an eject that waits for a drain; the soot planes (generation tags, W and C sets by plane, copies); generations; C and
quiet, methods and low counts, by context; extra cut steps; pending policies; partner, group, FD_TAGs, pairing frames that
came (source, FD_TAG, DEVID named), whether the pairing and the group are forced over a shared feed; the partner and parity
stores; a drain and the planes it pins; the generation in progress on the cartridge at the last feed loss; resynchronisation and the peers that were replaced; the sizes of the tier 2 regions;
tier 3 frames in use (frame, context), and the serial of the cartridge that holds a context's; the parity position list (R311); the
commit records kept for the partner, by generation (R318). -/
structure Ember where
  cart : Option Cartridge := none
  cartState : Nat := 0
  cartRead : Bool := false
  cartBase : Bool := true
  cartGone : Bool := false
  ejectWait : Bool := false
  tags : Table (Option Nat) := []
  wset : List (Nat × Nat) := []
  copies : List (Nat × Nat × Memory) := []
  gens : List GenRec := []
  nextGen : Table Nat := []
  cad : Table (Nat × Nat) := []
  methods : Table Nat := []
  lows : Table Nat := []
  extra : List (Nat × Nat) := []
  pendPolicy : Table (List Byte) := []
  partner : Option Nat := none
  group : List Nat := []
  fdTag : Nat := 0
  pairs : List (Nat × Nat × Nat) := []
  mirror : List Stored := []
  parity : List Stored := []
  arrivals : List Arrived := []
  drain : Option (Nat × Nat) := none
  drainPins : Option (Nat × Nat) := none
  drainLeft : Nat := 0
  lastFeed : Option Nat := none
  resync : Bool := false
  replaced : List Nat := []
  coPair : Bool := false
  coGroup : Bool := false
  areaBytes : Nat := 0
  storeBytes : Nat := 0
  overflow : List (Nat × Nat) := []
  tier3Home : Table (BitVec 64) := []
  parityList : List Nat := []
  partnerRecs : Table (List Byte) := []
  imagesSent : List (Nat × Nat) := []
  adoptDue : Option (Nat × Nat × Bool) := none
  deriving DecidableEq, Repr

/-! ## The whole machine -/

/-- The state of the module. `pending` is the queue of waiting commands, `out` what the module has sent (log 2), `free`
the count of free values used (log 3); both `out` and `free` are the model's own. `bar0` and `io` hold the register
words of BAR0 and of the I/O die's firmware blocks that are stored as such, by offset. -/
structure State where
  pending : List Instr := []
  out : List Out := []
  free : Nat := 0
  bar0 : Table W32 := []
  io : Table W32 := []
  tiles : Table Tile := []
  tileMap : Table Nat := []
  sfu : Sfu := {}
  mem : Mem := {}
  ctxs : Table Ctx := []
  sched : Sched := {}
  ctl : Ctl := {}
  clk : Clk := {}
  flt : Flt := {}
  obs : Obs := {}
  pwr : Pwr := {}
  net : Net := {}
  ember : Ember := {}
  deriving DecidableEq, Repr

/-- The module at reset: every register word at its Reset value (an unlisted word reads its Reset value), every queue
and store empty, kindling not begun. -/
def State.reset : State := {}

end Sys2Proof.Machine
end

