-- ==== Sys2Proof/Machine/Operands.lean ====
section
/-! DEFINITION. The grate's operand forms (R82 to R87): lanes, masks, scalar registers, broadcast, vector length, and the
tile status words that grate instructions set. -/

namespace Sys2Proof.Machine

/-! ## Status words of a firebox -/

/-- Reset values of the stored status block words (Tables 03-10, 03-11, 04-8; every other word resets to 0). -/
def tileReg0 (off : Nat) : W32 :=
  if off = 0x020C ∨ off = 0x024C ∨ off = 0x028C then 0x007F7F00
  else if off = 0x02C0 then 0x00000E01
  else if off = 0x0300 then 0x00001000
  else 0

/-- A stored status block word. -/
def Tile.reg (t : Tile) (off : Nat) : W32 := tget (tileReg0 off) t.regs off

/-- A stored status block word written. -/
def Tile.setReg (t : Tile) (off : Nat) (v : W32) : Tile := { t with regs := tset t.regs off v }

/-- A counter of a status block incremented; it wraps at 2^32. -/
def Tile.bump (t : Tile) (off n : Nat) : Tile := t.setReg off (t.reg off + BitVec.ofNat 32 n)

/-- Bits of a status block word set. -/
def Tile.orReg (t : Tile) (off : Nat) (v : W32) : Tile := t.setReg off (t.reg off ||| v)

/-- NUM_STATUS flags raised (R35). -/
def Tile.raise (t : Tile) (f : W32) : Tile := { t.orReg 0x0100 f with nfSeen := t.nfSeen || f.getLsbD 8 }

/-! ## Scalar registers -/

/-- x[n]; x0 reads 0 (R82). -/
def Tile.xget (t : Tile) (n : Nat) : W32 := if n % 16 = 0 then 0 else tget 0 t.x (n % 16)

/-- x[n] written; x0 ignores writes (R82). -/
def Tile.xset (t : Tile) (n : Nat) (v : W32) : Tile := if n % 16 = 0 then t else { t with x := tset t.x (n % 16) v }

/-! ## Masks -/

/-- m[n]. -/
def Tile.mask (t : Tile) (n : Nat) : BitVec 2048 := tget 0 t.masks (n % 8)

/-- m[n] written. -/
def Tile.setMask (t : Tile) (n : Nat) (v : BitVec 2048) : Tile := { t with masks := tset t.masks (n % 8) v }

/-- A mask word from its bits, lane 0 first. -/
def maskOf (bits : List Bool) : BitVec 2048 :=
  BitVec.ofNat 2048 (bits.foldr (fun b acc => bnat b + 2 * acc) 0)

/-- Whether lane i is active (R84). -/
def Tile.active (t : Tile) (w : GrateWord) (i : Nat) : Bool := !w.men || (t.mask w.msk.toNat).getLsbD i

/-! ## Vector registers -/

/-- The vector length of an instruction whose widest lane is w bits (R83). -/
def Tile.vle (t : Tile) (w : Nat) : Nat := min t.vl (16384 / w)

/-- The codes that bytes spell, in groups of k bytes. -/
def groupLe (k : Nat) : Nat → List Byte → List Nat
  | 0, _ => []
  | n + 1, l => leNat (l.take k) :: groupLe k n (l.drop k)

/-- The first n lanes of v[r], w bits each. -/
def Tile.lanes (t : Tile) (r w n : Nat) : List Nat :=
  groupLe (w / 8) n (mreadN t.vregs (2048 * r) (n * (w / 8)))

/-- v[r] with lanes written from lane 0; none keeps a lane. -/
def Tile.putLanes (t : Tile) (r w : Nat) (vals : List (Option Nat)) : Tile :=
  let old := t.lanes r w vals.length
  let new := (List.zipWith (fun o v => leBytes (w / 8) (v.getD o)) old vals).flatMap id
  { t with vregs := mwrite t.vregs (2048 * r) new }

/-- A lane's scalar value broadcast n times. -/
def bcast (v w n : Nat) : List Nat := List.replicate n (v % 2 ^ w)

/-- Source b: v[VB], or x[VB] broadcast where BS = 1. -/
def Tile.srcB (t : Tile) (g : GrateWord) (w n : Nat) : List Nat :=
  if g.bs then bcast (t.xget g.vb.toNat).toNat w n else t.lanes g.vb.toNat w n

/-- The scalar s of Table 04-3: IMM, or x[VB] where BS = 1, unsigned (R93). -/
def Tile.sval (t : Tile) (g : GrateWord) : Nat := if g.bs then (t.xget g.vb.toNat).toNat else g.imm.toNat

/-- The outcome of a lane under R84: an active lane takes its result, an inactive one keeps (MZ = 0) or takes +0. -/
def laneOut (act mz : Bool) (r : Nat) : Option Nat := if act then some r else if mz then some 0 else none

/-- Lane results with flags, written to v[VD]: inactive lanes follow R84 and raise nothing. -/
def Tile.writeLanes (t : Tile) (g : GrateWord) (w n : Nat) (f : Nat → Nat × W32) : Tile :=
  let rs := (List.range n).map (fun i => if t.active g i then let r := f i; (laneOut true g.mz r.1, r.2)
    else (laneOut false g.mz 0, 0))
  (t.putLanes g.vd.toNat w (rs.map (fun p => p.1))).raise (rs.foldl (fun acc p => acc ||| p.2) 0)

/-- Bit results written to m[VD] (R83, R84): bits at or beyond VLe are 0. -/
def Tile.writeBits (t : Tile) (g : GrateWord) (n : Nat) (f : Nat → Bool × W32) : Tile :=
  let old := t.mask g.vd.toNat
  let rs := (List.range n).map (fun i => if t.active g i then f i else (!g.mz && old.getLsbD i, 0))
  (t.setMask g.vd.toNat (maskOf (rs.map (fun p => p.1)))).raise (rs.foldl (fun acc p => acc ||| p.2) 0)

/-! ## What an instruction needs from outside its firebox, and what it answers -/

/-- The environment of a grate instruction: the job seed and the step being executed (R40), the active bank (R119), the
free values drawn so far, and the scratch ranges that may not be written now (R242: first byte, one past the last). -/
structure GEnv where
  seed : Nat := 0
  step : Nat := 0
  bank : Bank := {}
  free : Nat := 0
  guard : List (Nat × Nat) := []
  deriving DecidableEq, Repr

/-- What a grate instruction did: the firebox after it, whether it raised a program-class fault (R90, R94), whether it
waits (FLRD, FLWR, ASHWAIT), whether it drew a free value, and whether a scratch write was refused under R242. -/
structure GRes where
  t : Tile
  fault : Bool := false
  wait : Bool := false
  drew : Bool := false
  refused : Bool := false
  lanes : Nat := 0
  sfu : Nat := 0
  hard : Nat := 0
  deriving DecidableEq, Repr

/-- The condition of R93: VF_LRNG is set and the instruction proceeds; under STRICT it writes nothing and stops the
grate (R94). `t` is the firebox before the instruction, `r` after it. -/
def laneRange (t r : Tile) (named : Bool) : GRes :=
  if !named then { t := r }
  else if (t.reg 0x0304).getLsbD 0 then
    { t := { t.orReg 0x0300 0x400 with grateStop := true }, fault := true }
  else
    let r1 := if (t.reg 0x0300).getLsbD 8 then r else r.setReg 0x030C (BitVec.ofNat 32 t.stoker.pc)
    { t := (r1.orReg 0x0300 0x100).bump 0x0310 1 }

/-- Lane k of a source of n lanes, +0 where k is not below n (R93). -/
def laneAt (l : List Nat) (n : Nat) (k : Int) : Nat := if 0 ≤ k ∧ k < n then nth 0 l k.toNat else 0

/-- Whether index k names a lane out of range. -/
def outOfRange (n : Nat) (k : Int) : Bool := decide (k < 0) || decide ((n : Int) ≤ k)

end Sys2Proof.Machine
end

