-- ==== Sys2Proof/Machine/Ops.lean ====
section
/-! DEFINITION. The named operations over the state that every family uses: register words, settings, what the module
sends, interrupt causes, the fault collector's report (R333 to R338), replies (R359), tiles and contexts. -/

namespace Sys2Proof.Machine

/-! ## Register words -/

/-- Reset values of the stored BAR0 words (Tables 09-4 to 09-6; every other word resets to 0). -/
def barReset (off : Nat) : W32 :=
  if off = 0x4000C then 78125 else if off = 0x40020 then 3 else if off = 0x40028 then 0x8000 else 0

/-- A stored BAR0 word. -/
def State.bar (s : State) (off : Nat) : W32 := tget (barReset off) s.bar0 off

/-- A stored BAR0 word written. -/
def State.setBar (s : State) (off : Nat) (v : W32) : State := { s with bar0 := tset s.bar0 off v }

/-- Bits of a BAR0 word set. -/
def State.orBar (s : State) (off : Nat) (v : W32) : State := s.setBar off (s.bar off ||| v)

/-- Bits of a BAR0 word cleared. -/
def State.andnBar (s : State) (off : Nat) (v : W32) : State := s.setBar off (s.bar off &&& ~~~v)

/-- A BAR0 counter incremented; it wraps at 2^32. -/
def State.bumpBar (s : State) (off n : Nat) : State := s.setBar off (s.bar off + BitVec.ofNat 32 n)

/-- Bit i of a BAR0 word. -/
def State.barBit (s : State) (off i : Nat) : Bool := (s.bar off).getLsbD i

/-- A field of a BAR0 word written. -/
def State.barField (s : State) (off lo n v : Nat) : State := s.setBar off (setField (s.bar off) lo n v)

/-- A 64-bit value written to two BAR0 words. -/
def State.setBar64 (s : State) (off v : Nat) : State :=
  (s.setBar off (BitVec.ofNat 32 v)).setBar (off + 4) (BitVec.ofNat 32 (v / 2 ^ 32))

/-- A 64-bit value held in two BAR0 words. -/
def State.bar64 (s : State) (off : Nat) : Nat := (s.bar off).toNat + 2 ^ 32 * (s.bar (off + 4)).toNat

/-- Reset values of the stored words of the I/O die's firmware blocks (Tables 11-11, 11-12). -/
def ioReset (off : Nat) : W32 := if off = 0x2000 then 0xFFFFF else if off = 0x2004 then 0x100 else 0

/-- A stored word of the I/O die's firmware blocks. -/
def State.ior (s : State) (off : Nat) : W32 := tget (ioReset off) s.io off

/-- Such a word written. -/
def State.setIo (s : State) (off : Nat) (v : W32) : State := { s with io := tset s.io off v }

/-- Bits of such a word set. -/
def State.orIo (s : State) (off : Nat) (v : W32) : State := s.setIo off (s.ior off ||| v)

/-- Bits of such a word cleared. -/
def State.andnIo (s : State) (off : Nat) (v : W32) : State := s.setIo off (s.ior off &&& ~~~v)

/-- A counter there incremented; it wraps at 2^32. -/
def State.bumpIo (s : State) (off n : Nat) : State := s.setIo off (s.ior off + BitVec.ofNat 32 n)

/-- A field of such a word written. -/
def State.ioField (s : State) (off lo n v : Nat) : State := s.setIo off (setField (s.ior off) lo n v)

/-! ## Settings (R373, R375) -/

/-- Defaults of the settings of Tables 14-12 and 11-10; an item whose default is "unset" is not listed. Link
configuration words are coded as CH_STATUS: RATE [2:0] 4, NLINK [5:4] 0, FEC [7:6] 2 (1 × 1.6TbE). -/
def settingDefaults : List (Nat × Nat) :=
  [(0x0001, 14), (0x0002, 1), (0x0010, 0), (0x0011, 0), (0x0020, 12), (0x0021, 4), (0x0030, 8), (0x0031, 1000),
   (0x0032, 600), (0x0033, 1500), (0x0040, 10), (0x0041, 0x7FFC), (0x0042, 0xB), (0x0043, 10), (0x0044, 0),
   (0x0050, 0), (0x0051, 1), (0x0052, 115200)] ++
  [(0x0103, 0), (0x0104, 1), (0x0120, 46810), (0x0121, 26), (0x0122, 46), (0x0130, 0x84), (0x0131, 0x84),
   (0x0140, 9216), (0x0141, 0), (0x0142, 0), (0x0152, 0xFFFFFFFFFFFFFFFF), (0x0154, 0), (0x0155, 0),
   (0x0160, 50), (0x0161, 10), (0x0200, 0x100)]

/-- The numbers of every setting of Tables 14-12 and 14-13. -/
def settingIds : List Nat :=
  [0x0001, 0x0002, 0x0010, 0x0011, 0x0020, 0x0021, 0x0030, 0x0031, 0x0032, 0x0033, 0x0040, 0x0041, 0x0042, 0x0043,
   0x0044, 0x0050, 0x0051, 0x0052] ++
  [0x0100, 0x0101, 0x0102, 0x0103, 0x0104, 0x0110, 0x0111, 0x0112, 0x0113, 0x0114, 0x0115, 0x0118, 0x0119, 0x011A,
   0x011B, 0x0120, 0x0121, 0x0122, 0x0130, 0x0131, 0x0140, 0x0141, 0x0142, 0x0150, 0x0151, 0x0152, 0x0154, 0x0155,
   0x0160, 0x0161, 0x0200]

/-- Whether a setting is marked Stored (Table 14-12): every one but REMOVE_OK. -/
def isStored (id : Nat) : Bool := id != 0x0044

/-- The value in force of a setting, none where it is unset. -/
def State.settingOpt (s : State) (id : Nat) : Option Nat :=
  match tfind s.ctl.settings id with
  | some v => some v.toNat
  | none => tfind settingDefaults id

/-- The value in force of a setting; an unset one reads 0 here. -/
def State.setting (s : State) (id : Nat) : Nat := (s.settingOpt id).getD 0

/-- A setting put in force. -/
def State.putSetting (s : State) (id : Nat) (v : W64) : State :=
  { s with ctl := { s.ctl with settings := tset s.ctl.settings id v } }

/-! ## What the module sends, and free values -/

/-- One thing sent. -/
def State.emit (s : State) (o : Out) : State := { s with out := s.out ++ [o] }

/-- The next free value is drawn (log 3). -/
def State.draw (s : State) : State := { s with free := s.free + 1 }

/-- Whether vector v is sent: INT_EN bit v is 1 and the host has enabled MSI-X (R358, R359, R405). -/
def State.vectorOn (s : State) (v : Nat) : Bool := s.ctl.msix && s.barBit 0x10010 v

/-- MSI-X vector v, where it is enabled. A completion vector is held while the host has MSI-X disabled (R405, log 20). -/
def State.sendMsix (s : State) (v : Nat) : State :=
  if s.vectorOn v then s.emit (.msix v)
  else if s.barBit 0x10010 v && decide (v < 16) && !s.ctl.held.contains v then
    { s with ctl := { s.ctl with held := s.ctl.held ++ [v] } }
  else s

/-- The cause of vector 16 + j becomes pending (Tables 14-2, 14-3). -/
def State.cause (s : State) (j : Nat) : State := (s.orBar 0x1000C (BitVec.ofNat 32 (2 ^ j))).sendMsix (16 + j)

/-! ## Where a logical tile stands -/

/-- The physical slot of a logical tile (R19): 68 · die + slot, as kindling maps it until a migration moves it; the
same mapping is shown before kindling has mapped a tile (log 111). -/
def State.unitOf (s : State) (t : Nat) : Nat := tget (68 * (t / 64) + t % 64) s.tileMap t

/-- CLK_CTL of a domain. -/
def clkCtl (d : Nat) : Nat := 0x1000 + 8 * d
/-- CLK_MON of a domain. -/
def clkMon (d : Nat) : Nat := 0x1004 + 8 * d
/-- DOMAIN_HOLD. -/
def State.domHeld (s : State) (d : Nat) : Bool := (s.ior (clkCtl d)).getLsbD 10
/-- DEAD. -/
def State.domDead (s : State) (d : Nat) : Bool := (s.ior (clkMon d)).getLsbD 31
/-- Whether a domain has a clock: its gate is open and its source is not dead (R222, R223). -/
def State.clocked (s : State) (d : Nat) : Bool := !s.domHeld d && !s.domDead d

/-- Whether a domain runs: it has power and a clock, and no snap stop halts it (Tables 09-1, 15-9). -/
def State.domRuns (s : State) (d : Nat) : Bool :=
  s.clocked d && (s.pwr.diesUp || decide (284 ≤ d)) && !((decide (d < 276) || d == 324) && getField (s.bar 0x30040) 0 2 == 2)

/-- Whether the firebox in a slot works: its die has power, its domain a clock, and no snap stop halts it (R223, R394). -/
def State.works (s : State) (u : Nat) : Bool := s.pwr.diesUp && s.clocked u && getField (s.bar 0x30040) 0 2 != 2

/-- SCHED_NOW as a domain's local copy shows it (R227): that before the edge of its oldest unread token. -/
def State.localNow (s : State) (d : Nat) : Nat :=
  match tget [] s.clk.tokens d with
  | [] => s.sched.now
  | k :: _ => k.before

/-- Whether the commit edge, or the start edge, that began this execution of the step has taken effect in a domain (R256). -/
def State.edgeSeen (s : State) (d : Nat) : Bool :=
  match tget [] s.clk.tokens d with
  | [] => true
  | k :: _ => decide (s.sched.execEdge < k.beat)

/-- The logical tile that a slot holds, if any. -/
def State.tileOf (s : State) (u : Nat) : Option Nat := (List.range 256).find? (fun t => s.unitOf t == u)

/-! ## The fault collector (R333 to R341) -/

/-- The step being executed: STEP_COMMITTED + 1 of the running context. -/
def State.stepNow (s : State) : Nat := (tget {} s.ctxs s.sched.ctx : Ctx).stepCommitted + 1

/-- Whether the commit window is open: the gate of the step is known and clear (R253). -/
def State.window (s : State) : Bool := s.sched.gateKnown && !s.sched.gateNf && !s.sched.gateFail

/-- FAIL is raised for the step in progress (R254). -/
def State.raiseFail (s : State) : State :=
  if !s.sched.running then s
  else { s with sched := { s.sched with failStep := s.sched.failStep.or (some s.stepNow) } }

/-- COMMIT_FAIL: an abort in a write of the commit block (R257). -/
def State.blockFail (s : State) : State :=
  if !s.sched.running then s
  else ({ s with sched := { s.sched with blockBad := true } } : State).orBar 0x40100 0x4000

/-- A reaction that stays outstanding. -/
def State.addReact (s : State) (src : Nat) : State := { s with flt := { s.flt with reacts := s.flt.reacts ++ [src] } }

/-- Reactions that complete: every outstanding one that p picks. -/
def State.endReact (s : State) (p : Nat → Bool) : State :=
  { s with flt := { s.flt with reacts := s.flt.reacts.filter (fun r => !p r) } }

/-- Whether class c is latchable: its bit of LATCH_MASK. -/
def State.latchable (s : State) (c : Nat) : Bool := Nat.testBit (s.setting 0x0041) c

/-- FAULT of FLT_STATUS. -/
def State.faultSet (s : State) : Bool := s.barBit 0x20000 8

/-- MOD_FLT of FLT_STATUS. -/
def State.modFlt (s : State) : Bool := s.barBit 0x20000 13

/-- MAX_CLASS of FLT_STATUS. -/
def State.maxClass (s : State) : Nat := getField (s.bar 0x20000) 20 4

/-- The collector takes a report: its count, and the latch or FLT_OVF where the class is latchable (R334, R335). -/
def State.collect (s0 : State) (src : Nat) (info : W32) (forced : Bool) : State :=
  let c := src / 4096 % 16
  let s := if 1 ≤ c ∧ c ≤ 14 then s0.bumpBar (0x20040 + 4 * c) 1 else s0
  if !s.latchable c then s
  else if s.faultSet then
    ((s.orBar 0x20000 0x800).bumpBar 0x2001C 1).barField 0x20000 20 4 (max s.maxClass c)
  else
    let s0 : State := { s with flt := { s.flt with firstBeat := s.clk.beatNow } }
    let s1 := (s0.setBar 0x20004 (BitVec.ofNat 32 src)).setBar 0x20008 info
    let s2 := s1.setBar 0x20000 (putBit (setField (setBit (s1.bar 0x20000) 8) 20 4 c) 12 forced)
    s2.cause 0

/-- The running job ends at the next edge (R326, log 42). -/
def State.stopSoon (s : State) : State := { s with sched := { s.sched with stopDue := true } }

/-- The MODULE reaction: MOD_FLT, and the job stops. -/
def State.modFault (s : State) : State := (s.orBar 0x20000 0x2000).stopSoon

/-- Whether a slot holds a logical tile or is the spare of a migration in progress. -/
def State.slotInUse (s : State) (u : Nat) : Bool := (s.tileOf u).isSome || s.flt.migrations.any (fun m => m.dst == u)

/-- The reaction of Table 13-3 that the collector starts by itself: FAIL for PROGRAM and STREAM while a job runs, outstanding until the
discard; FIREBOX of a slot in use outstanding until MIGRATION_RESUME (log 89); MGMT until MANTEL_RESTART; MODULE sets MOD_FLT and stops the job. The other classes
act at their source or in a command of their own. -/
def State.react (s : State) (src : Nat) : State :=
  let c := src / 4096 % 16
  if c = 6 ∨ c = 7 then (if s.sched.running then s.raiseFail.addReact src else s)
  else if c = 0xA then (if s.slotInUse (src % 4096) then s.addReact src else s)
  else if c = 0xC then s.addReact src
  else if c = 0xE then s.modFault
  else s

/-- A report from a source (R333 to R338): recorded, then its class's reaction. -/
def State.report (s : State) (src : Nat) (info : W32) : State := (s.collect src info false).react src

/-- The source ID of class c and unit u. -/
def srcId (c u : Nat) : Nat := 4096 * c + u % 4096

/-- FLT_FIRST_INFO of a firebox fault: the logical tile of the slot; a slot without one leaves it open (log 89). -/
def State.tileInfo (s : State) (u : Nat) : W32 :=
  match s.tileOf u with
  | some t => BitVec.ofNat 32 t
  | none => Config.unitInfo (srcId 0xA u) s.free

/-- An advisory or corrected-error report: class CORR from a unit, with the unit's count (Table 13-1). -/
def State.reportCorr (s : State) (u : Nat) (count : W32) : State := s.report (srcId 1 u) count

/-! ## The mantel's images (R346 to R348, Table 13-11) -/

/-- ACT_SLOT: slot B runs. -/
def State.actB (s : State) : Bool := s.barBit 0x20020 0

/-- The VERSION that a slot holds, none where it is empty. -/
def State.slotVersion (s : State) (b : Bool) : Option W16 :=
  (if b then s.flt.slotB else s.flt.slotA).getD (some (Config.bootVersion b))

/-- The running slot changed: ACT_SLOT, VERSION. STAGED stands through a switch, since the slot left behind holds a checked image
(log 50). -/
def State.runSlot (s : State) (b : Bool) : State :=
  (s.barField 0x20020 0 1 (bnat b)).barField 0x20020 16 16 ((s.slotVersion b).getD 0).toNat

/-- A MGMT report: its firmware code is open. -/
def State.mgmtReport (s : State) (u : Nat) : State :=
  (s.report (srcId 0xC u) (Config.unitInfo (srcId 0xC u) s.free)).draw

/-- The switch back from an image that was not healthy, due at a beat edge; none while a migration is in progress (R347, R348). -/
def State.switchBack (s : State) : State :=
  if s.flt.backDue && s.flt.migrations.isEmpty then
    let s1 : State := { s with flt := { s.flt with backDue := false } }
    ((s1.runSlot (!s1.actB)).orBar 0x20020 0x10).mgmtReport 0x170
  else s

/-! ## Replies (R359, R370) -/

/-- The rank order of the masters: the sideband and the poker share counter space 16 (R366). -/
def slotSpace : Slot → Nat
  | .mailbox n => n.toNat
  | .sideband => 16
  | .poker => 16

/-- Dispatch rank (R362). -/
def slotRank : Slot → Nat
  | .mailbox n => 2 + n.toNat
  | .sideband => 1
  | .poker => 1

/-- An association list with the entry of a slot replaced. -/
def putSlot {α : Type} (l : List (Slot × α)) (k : Slot) (v : α) : List (Slot × α) :=
  l.filter (fun p => p.1 != k) ++ [(k, v)]

/-- The entry of a slot. -/
def getSlot {α : Type} : List (Slot × α) → Slot → Option α
  | [], _ => none
  | (j, v) :: r, k => if j = k then some v else getSlot r k

/-- An association list without a slot. -/
def delSlot {α : Type} (l : List (Slot × α)) (k : Slot) : List (Slot × α) := l.filter (fun p => p.1 != k)

/-- Status codes of Table 14-9. -/
def stBUSY : Nat := 0x0001
def stSUPERSEDED : Nat := 0x0002
def stAUTH : Nat := 0x0010
def stSTALE : Nat := 0x0011
def stRANGE : Nat := 0x0020
def stALIAS : Nat := 0x0021
def stREARM : Nat := 0x0022
def stNOPERM : Nat := 0x0030
def stCOFED : Nat := 0x0040
def stNOPARTNER : Nat := 0x0041
def stABSENT : Nat := 0x0050
def stFOREIGN : Nat := 0x0051

/-- Reference ticks in one second (6.4 ns each, R228). -/
def ticksPerSecond : Nat := 156250000

/-- KW_CNT_AUTH rises; 16 rises within 1 s make a HOST report from the mailboxes' unit (R363). The report's information
word is a BAR2 offset for this class (Table 13-1), which a Kwaop message does not have: a free value (log 21). -/
def State.authFail (s : State) : State :=
  let s1 := s.bumpBar 0x10018 1
  let w := s1.ctl.authTicks.filter (fun t => decide (s1.clk.ticks < t + ticksPerSecond)) ++ [s1.clk.ticks]
  if 16 ≤ w.length then
    let s2 : State := { s1 with ctl := { s1.ctl with authTicks := [] } }
    (s2.report (srcId 2 0x161) ((Config.freeWord s2.free).setWidth 32)).draw
  else { s1 with ctl := { s1.ctl with authTicks := w } }

/-- The reply counters of Table 14-3. -/
def State.countReply (s : State) (status : Nat) : State :=
  if status = stAUTH then s.authFail
  else if status = stSTALE then s.bumpBar 0x1001C 1
  else if status = stSUPERSEDED then s.bumpBar 0x10020 1
  else s

/-- A command's outcome recorded for COMMAND_REPLY to send, and counted; the command ends. -/
def State.answer (s : State) (k : Slot) (r : Reply) : State :=
  ({ s with ctl := { s.ctl with
      results := putSlot s.ctl.results k r, ready := delSlot s.ctl.ready k,
      waiting := delSlot s.ctl.waiting k } } : State).countReply r.status

/-- Reply OK with data. -/
def State.okData (s : State) (k : Slot) (data : List Byte) : State := s.answer k { status := 0, data := data }

/-- Reply OK. -/
def State.ok (s : State) (k : Slot) : State := s.okData k []

/-- A refusal with DETAIL 0. -/
def State.deny (s : State) (k : Slot) (status : Nat) : State := s.answer k { status := status }

/-- A refusal with DETAIL. -/
def State.denyAt (s : State) (k : Slot) (status detail : Nat) : State := s.answer k { status := status, detail := detail }

/-- The outcome of a command that waits; none is sent where the slot waits no longer (log 48). -/
def State.okWaiting (s : State) (k : Slot) (data : List Byte) : State :=
  if (getSlot s.ctl.waiting k).isSome then s.okData k data else s

/-- A refusal of a command that waits. -/
def State.denyWaiting (s : State) (k : Slot) (status : Nat) : State :=
  if (getSlot s.ctl.waiting k).isSome then s.deny k status else s

/-- A command that waits under its owning rule keeps its slot (R359). -/
def State.wait (s : State) (k : Slot) (c : Instr) : State :=
  { s with ctl := { s.ctl with waiting := putSlot s.ctl.waiting k c, ready := delSlot s.ctl.ready k } }

/-! ## Tiles and contexts -/

/-- The firebox in a physical slot. -/
def State.tile (s : State) (u : Nat) : Tile := tget {} s.tiles u

/-- The firebox in a physical slot replaced. -/
def State.setTile (s : State) (u : Nat) (t : Tile) : State := { s with tiles := tset s.tiles u t }

/-- Every firebox slot changed. -/
def State.eachUnit (s : State) (f : Tile → Tile) : State := { s with tiles := tfill {} f 272 0 s.tiles }

/-- The firebox of a logical tile. -/
def State.ltile (s : State) (t : Nat) : Tile := s.tile (s.unitOf t)

/-- The firebox of a logical tile replaced. -/
def State.setLtile (s : State) (t : Nat) (v : Tile) : State := s.setTile (s.unitOf t) v

/-- A job context. -/
def State.ctx (s : State) (c : Nat) : Ctx := tget {} s.ctxs c

/-- A job context replaced. -/
def State.setCtx (s : State) (c : Nat) (v : Ctx) : State := { s with ctxs := tset s.ctxs c v }

/-- JOB_STATE of a context changed; vector 19 (Table 14-2). -/
def State.setJobState (s : State) (c st : Nat) : State :=
  if (s.ctx c).state = st then s
  else
    let s1 := (s.setCtx c { s.ctx c with state := st }).cause 3
    if st = 1 then
      -- a removal request is withdrawn when a job starts (R352)
      s1.andnBar 0x20000 3
    else s1

/-- Whether any context is RUNNING or STOPPING (R296). -/
def State.anyRunning (s : State) : Bool := (List.range 4).any (fun c => (s.ctx c).state = 1 || (s.ctx c).state = 2)

/-- Whether BAR0 and BAR2 requests are served: kindling is complete and the PCIe link is up (R405, R422). -/
def State.hostUp (s : State) : Bool := s.ctl.linkUp && decide (8 ≤ s.pwr.stage)

/-! ## Performance counters (R379 to R386) -/

/-- Whether a block number stands in Table 15-1. -/
def blockOk (b : Nat) : Bool :=
  decide (b < 0x114) || (decide (0x120 ≤ b) && decide (b < 0x128)) || (decide (0x130 ≤ b) && decide (b < 0x140)) ||
  [0x150, 0x151, 0x152, 0x160, 0x180, 0x181].contains b || (decide (0x200 ≤ b) && decide (b < 0x300))

/-- The physical block of a block number: that of the slot which holds a logical tile. -/
def State.blockUnit (s : State) (b : Nat) : Nat := if 0x200 ≤ b then s.unitOf (b - 0x200) else b

/-- The key of counter i of a physical block. -/
def ctrKey (b i : Nat) : Nat := 8 * b + i

/-- A counter. -/
def State.counter (s : State) (k : Nat) : Counter := tget {} s.obs.counters k

/-- A counter replaced. -/
def State.setCounter (s : State) (k : Nat) (c : Counter) : State :=
  { s with obs := { s.obs with counters := tset s.obs.counters k c } }

/-- FROZEN. -/
def State.frozen (s : State) : Bool := s.barBit 0x30000 3

/-- OVF_SEEN or FREEZE_DONE rises: vector 21. -/
def State.ccRise (s : State) (bit : Nat) : State :=
  if s.barBit 0x30000 bit then s else (s.orBar 0x30000 (BitVec.ofNat 32 (2 ^ bit))).cause 5

/-- Whether counter k is the lower half of a chain that counts. -/
def State.chainedUp (s : State) (k : Nat) : Bool := k % 2 == 0 && (s.counter (k + 1)).chain

/-- n added to a counter: a wrap sets OVF, and OVF_SEEN where the counter is not the lower half of a chain. -/
def State.addCounter (s : State) (k n : Nat) : State :=
  let c := s.counter k
  let v := c.value + n
  let s1 := s.setCounter k { c with value := v % 2 ^ 48, ovf := c.ovf || decide (2 ^ 48 ≤ v) }
  if v < 2 ^ 48 ∨ s.chainedUp k then s1 else s1.ccRise 1

/-- n added to a counter, and its wrap to the counter chained onto it. -/
def State.countOne (s : State) (k n : Nat) : State :=
  let wraps := decide (2 ^ 48 ≤ (s.counter k).value + n)
  let s1 := s.addCounter k n
  if wraps && s.chainedUp k && (s.counter (k + 1)).en then s1.addCounter (k + 1) 1 else s1

/-- The clock domain of a counter block (Tables 09-1, 15-1); the spec names none for the Uadal and ember engines. -/
def blockDomain (b : Nat) : Option Nat :=
  if b < 0x110 then some b
  else if b < 0x114 then some (272 + (b - 0x110))
  else if 0x120 ≤ b ∧ b < 0x128 then some (276 + (b - 0x120))
  else if 0x130 ≤ b ∧ b < 0x140 then some (284 + (b - 0x130))
  else if b = 0x150 ∨ b = 0x151 then some (318 + (b - 0x150))
  else if b = 0x160 then some 320
  else if b = 0x181 then some 322
  else none

/-- The beat number that a unit's local copy shows (R227); a unit with no domain of its own sees the beat unit's. -/
def State.localBeat (s : State) (b : Nat) : Nat :=
  match blockDomain b with
  | some d => (match tget [] s.clk.tokens d with | [] => s.clk.beatNow | k :: _ => k.beat - 1)
  | none => s.clk.beatNow

/-- Whether a block's counting has stopped: FROZEN, or its local edge of a freeze that waits, or of a beat stop, has come; at that of a
release of the stop it goes on (R388, R397, R398). -/
def State.blockFrozen (s : State) (b : Nat) : Bool :=
  (match s.obs.gsEdge with
    | some (e, release) => if release && s.obs.gsFroze then decide (s.localBeat b < e) else s.frozen || (!release && decide (e ≤ s.localBeat b))
    | none => s.frozen) ||
  (match s.obs.action with | some (f, e, _) => f && decide (e ≤ s.localBeat b) | none => false)

/-- n events of a kind in a block: every enabled counter of that event counts them. -/
def State.count (s : State) (b event n : Nat) : State :=
  if s.obs.counters.isEmpty || s.blockFrozen b then s
  else (List.range 8).foldl (fun (s : State) i =>
    let c := s.counter (ctrKey b i)
    if c.en && c.event == event && !c.chain then s.countOne (ctrKey b i) n else s) s

/-! ## Outcomes -/

/-- A next state. -/
abbrev ok (s : State) : Host.Outcome State Fault Refusal := .next s

/-- A command whose operand must name an existing part: the effect where it does, the fault where it does not. -/
def guardPart (b : Bool) (f : Fault) (s : State) : Host.Outcome State Fault Refusal := if b then .next s else .fault f

/-- Firebox slots (R16). -/
def unitOk (u : Nat) : Bool := decide (u < 272)
/-- Clock domains (R214). -/
def domOk (d : Nat) : Bool := decide (d < 327)

end Sys2Proof.Machine
end

