-- ==== Sys2Proof/Machine/Counters.lean ====
section
/-! DEFINITION. Counter samples and records (R380 to R388, Table 15-4), and the tick of an idle queue, by which a sample is published. -/

namespace Sys2Proof.Machine

/-- Events that the model counts where they happen; every other event counts cycles or traffic whose number the spec leaves to
the implementation's timing (log 47). -/
def countedEvents : List Nat :=
  [0, 2, 0x18, 0x19, 0x1A, 0x1B, 0x28, 0x29, 0x2A, 0x2B, 0x34, 0x35, 0x36, 0x103, 0x104, 0x110, 0x111, 0x120, 0x121, 0x122, 0x123, 0x124,
    0x140, 0x141, 0x142]

/-- The blocks of Table 15-1, but for the logical tiles, which are the fireboxes that hold them. -/
def allBlocks : List Nat := (List.range 0x182).filter blockOk

/-- The block that counts in a clock domain. -/
def domainBlock (d : Nat) : Option Nat :=
  if d < 272 then some d
  else if d < 276 then some (0x110 + (d - 272))
  else if d < 284 then some (0x120 + (d - 276))
  else if d < 300 then some (0x130 + (d - 284))
  else if d = 318 ∨ d = 319 then some (0x150 + (d - 318))
  else if d = 320 then some 0x160
  else if d = 322 then some 0x181
  else none

/-- Whether a block takes no sample, so that its records are stale (R384): a compute die or stack without power, a domain without a clock,
or a block that a snap stop halts, the Uadal engine among them (Table 15-9). -/
def State.blockHalted (s : State) (b : Nat) : Bool :=
  (decide (b < 0x128) && !s.pwr.diesUp) ||
  ((decide (b < 0x114) || b == 0x152) && getField (s.bar 0x30040) 0 2 == 2) ||
  (match blockDomain b with | some d => !s.clocked d | none => false)

/-- A record of a counter (Table 15-4). -/
def counterRecord (c : Counter) (stale rstcoin : Bool) : W64 :=
  BitVec.ofNat 64 (c.value + 2 ^ 48 * bnat rstcoin + 2 ^ 49 * bnat c.ovf + 2 ^ 50 * bnat stale + 2 ^ 51 * bnat c.chain +
    2 ^ 52 * bnat c.userRd + 2 ^ 53 * bnat c.en + 2 ^ 54 * c.event)

/-- A counter of cycles after a beat: what it counted is open, short of a wrap, which COUNTER_WRAP brings. -/
def State.freeCount (s : State) (k : Nat) : State :=
  let c := s.counter k
  if c.en && !c.chain && !countedEvents.contains c.event then
    (s.setCounter k { c with value := c.value + (Config.freeWord s.free).toNat % (2 ^ 48 - c.value % 2 ^ 48) }).draw
  else s

/-- A counter's value latched for the sample that is being published (R384). -/
def State.latch (s : State) (k : Nat) : State :=
  { s with obs := { s.obs with latched := tset s.obs.latched k (counterRecord (s.counter k) false false) } }

/-- The counters of a block that are configured, or that a record shows. -/
def State.blockKeys (s : State) (b : Nat) : List Nat :=
  ((s.obs.counters.map (fun p => p.1) ++ s.obs.records.map (fun p => p.1)).filter (fun k => k / 8 == b)).eraseDups

/-- The sample of one block: its counters latched at its local edge, which counting has reached. -/
def State.latchBlock (s : State) (b : Nat) : State :=
  let s1 := (s.blockKeys b).foldl (fun s k => (s.freeCount k).latch k) s
  { s1 with obs := { s1.obs with seen := b :: s1.obs.seen } }

/-- RSTCOIN set in the record of a counter at this edge: the one being published, or the published one (R385). -/
def State.markCoin (s : State) (k : Nat) : State :=
  let f := fun (t : Table W64) => tset t k (tget 0 t k ||| BitVec.ofNat 64 (2 ^ 48))
  if s.obs.pubBeat.isSome then { s with obs := { s.obs with latched := f s.obs.latched } }
  else { s with obs := { s.obs with records := f s.obs.records } }

/-- A counter reset in the cycle of its sample: value and OVF 0, RSTCOIN in the record of this edge (R385). -/
def State.resetCounter (s : State) (k : Nat) (c : Counter) : State := (s.setCounter k { c with value := 0, ovf := false }).markCoin k

/-- A configuration of counter n taken (R381); CHAIN resets the lower counter with it (R382). -/
def State.takeCfg (s : State) (n : Nat) (c : Counter) (chain : Bool) : State :=
  let s1 := s.resetCounter n c
  if chain then s1.resetCounter (n - 1) (s1.counter (n - 1)) else s1

/-- The configurations of a block whose beat its local copy now shows. -/
def State.dueCfgs (s : State) (b beat : Nat) : State :=
  let due := s.obs.pendCfg.filter (fun q => q.1 == b && decide (q.2.1 ≤ beat))
  due.foldl (fun s q => s.takeCfg q.2.2.1 q.2.2.2.1 q.2.2.2.2)
    ({ s with obs := { s.obs with pendCfg := s.obs.pendCfg.filter (fun q => !(q.1 == b && decide (q.2.1 ≤ beat))) } } : State)

/-- A block sees a beat edge: its sample, where that is the one being published, then the edge itself counted, then the configurations that
take effect at it (R380, R381, R384). -/
def State.localEdge (s : State) (b beat : Nat) : State :=
  let s1 := if s.obs.pubBeat == some beat && !s.obs.seen.contains b && !s.blockHalted b then s.latchBlock b else s
  (s1.count b 2 1).dueCfgs b beat

/-- The sample published (R384): the records that have come, and the beat; every other block keeps its previous record, STALE. -/
def State.publish (s : State) : State :=
  match s.obs.pubBeat with
  | none => s
  | some b => { s with obs := { s.obs with
      records := s.obs.latched.foldl (fun m p => tset m p.1 p.2) s.obs.records, fresh := some s.obs.seen, sampleBeat := b
      pubBeat := none, latched := [], seen := [] } }

/-- The published record of a counter, with STALE where its block's sample had not come. -/
def State.record (s : State) (k : Nat) : W64 :=
  let r := tget 0 s.obs.records k
  match s.obs.fresh with
  | some l => if l.contains (k / 8) then r else r ||| BitVec.ofNat 64 (2 ^ 50)
  | none => r

/-- Whether the beat of a freeze that waits has passed: no sample after its own is published (R388). -/
def State.freezeDue (s : State) : Bool :=
  match s.obs.action with
  | some (freeze, b, _) => freeze && decide (b < s.clk.beatNow)
  | none => false

/-- The sample of a beat edge begins: the one before it is published by now, and the units with no domain of their own see the edge. -/
def State.sampleEdge (s : State) : State :=
  let s1 := s.publish
  if s1.frozen || s1.freezeDue then s1
  else
    [0x152, 0x180].foldl (fun (s : State) b => s.localEdge b s.clk.beatNow)
      ({ s1 with obs := { s1.obs with pubBeat := some s1.clk.beatNow, latched := [], seen := [] } } : State)

/-- A domain's local copy has come to show a beat: its block sees the edge, and the sample is published once every block's is there. -/
def State.domainEdge (s : State) (d beat : Nat) : State :=
  match domainBlock d with
  | none => s
  | some b =>
    let s1 := s.localEdge b beat
    if s1.obs.seen.length = allBlocks.length then s1.publish else s1

/-- Counters freeze at an edge (R388): its sample is published, then FROZEN, FREEZE_DONE, the beat. -/
def State.freeze (s : State) : State :=
  let s1 := s.publish
  ({ (s1.orBar 0x30000 8) with obs := { s1.obs with freezeBeat := s1.clk.beatNow } } : State).ccRise 2

/-- Counting resumes from the held values, and publication with this edge's sample, which holds them (R388). -/
def State.unfreeze (s : State) : State :=
  let live := allBlocks.filter (fun b => !s.blockHalted b)
  let s1 := s.andnBar 0x30000 8
  ((live.flatMap (fun b => s1.blockKeys b)).foldl (fun s k => s.latch k)
    ({ s1 with obs := { s1.obs with pubBeat := some s1.clk.beatNow, latched := [], seen := live } } : State)).publish

/-! ## An idle tick -/

/-- One reference tick of the beat unit on an idle queue (R228): BEAT_PHASE counts up to BEAT_DIV − 1 and waits there for
the command BEAT_EDGE. Before the beat unit has started, and while its domain 323 has no clock, nothing changes. By tick 234 of a beat, 1.5 µs, the sample of its edge is published
(R384, log 142). -/
def State.idle (s : State) : State :=
  if s.clk.started && s.clocked 323 && decide (s.clk.phase + 1 < (s.bar 0x4000C).toNat) then
    let s1 : State := { s with clk := { s.clk with phase := s.clk.phase + 1, ticks := s.clk.ticks + 1 } }
    if 234 ≤ s1.clk.phase then s1.publish else s1
  else s

end Sys2Proof.Machine
end

