-- ==== Sys2Proof/Machine/Crypto.lean ====
section
/-! DEFINITION. The generators and codes that the spec names by their public standards: Philox4x32-10 (R40),
CRC-32C (R271), SHA-256 and HMAC (R365), AES-256 key unwrap (R365), and the field GF(2^8) of R314. -/

namespace Sys2Proof.Machine

/-! ## Philox4x32-10 (R40) -/

/-- One Philox round on counter words and key words. -/
def philoxRound (c : List W32) (k0 k1 : W32) : List W32 :=
  let c0 := nth 0 c 0; let c1 := nth 0 c 1; let c2 := nth 0 c 2; let c3 := nth 0 c 3
  let p0 := 0xD2511F53 * c0.toNat
  let p1 := 0xCD9E8D57 * c2.toNat
  [BitVec.ofNat 32 (p1 / 2 ^ 32) ^^^ c1 ^^^ k0, BitVec.ofNat 32 p1,
   BitVec.ofNat 32 (p0 / 2 ^ 32) ^^^ c3 ^^^ k1, BitVec.ofNat 32 p0]

/-- n Philox rounds with the key schedule. -/
def philoxRounds : Nat → List W32 → W32 → W32 → List W32
  | 0, c, _, _ => c
  | n + 1, c, k0, k1 => philoxRounds n (philoxRound c k0 k1) (k0 + 0x9E3779B9) (k1 + 0xBB67AE85)

/-- The 128-bit output {w3, w2, w1, w0} of Philox4x32-10. -/
def philox (c0 c1 c2 c3 k0 k1 : Nat) : Nat :=
  let o := philoxRounds 10 [BitVec.ofNat 32 c0, BitVec.ofNat 32 c1, BitVec.ofNat 32 c2, BitVec.ofNat 32 c3]
    (BitVec.ofNat 32 k0) (BitVec.ofNat 32 k1)
  o.foldr (fun w acc => w.toNat + 2 ^ 32 * acc) 0

/-- The random integer r of element i (R40), 16 bits. -/
def randomBits (seed step tensor i : Nat) : Nat :=
  let b := i / 8
  field (philox (field b 0 32) (field b 32 32) (field step 0 32) (tensor % 2 ^ 16 * 2 ^ 16 + field step 32 16)
    (field seed 0 32) (field seed 32 32)) (16 * (i % 8)) 16

/-! ## CRC-32C -/

/-- n bit steps of the reflected Castagnoli CRC. -/
def crcBits : Nat → W32 → W32
  | 0, c => c
  | n + 1, c => crcBits n (if c.getLsbD 0 then (c >>> 1) ^^^ 0x82F63B78 else c >>> 1)

/-- The running CRC over bytes. -/
def crcFold (c : W32) (l : List Byte) : W32 := l.foldl (fun c b => crcBits 8 (c ^^^ b.setWidth 32)) c

/-- The CRC-32C of bytes. -/
def crc32c (l : List Byte) : W32 := ~~~(crcFold 0xFFFFFFFF l)

/-! ## SHA-256 and HMAC -/

/-- The largest n-bit number whose k-th power is at most v, bit by bit from the top. -/
def rootBelow (k v : Nat) : Nat → Nat → Nat
  | 0, r => r
  | n + 1, r => rootBelow k v n (if (r + 2 ^ n) ^ k ≤ v then r + 2 ^ n else r)

/-- Whether n has no divisor from 2 to n − 1. -/
def isPrime (n : Nat) : Bool := decide (2 ≤ n) && (List.range n).all (fun d => decide (d < 2) || n % d != 0)

/-- The first 32 fraction bits of the k-th root of p. -/
def rootBits (k p : Nat) : W32 := BitVec.ofNat 32 (rootBelow k (p * 2 ^ (32 * k)) 37 0)

/-- The primes that SHA-256 takes its constants from: the 64 below 312. -/
def shaPrimes : List Nat := (List.range 312).filter isPrime

/-- The additive constants of the 64 rounds: cube roots of the primes. -/
def roundConsts : List W32 := shaPrimes.map (rootBits 3)

/-- The hash value before the first block: square roots of the first 8 primes. -/
def hashStart : List W32 := (shaPrimes.take 8).map (rootBits 2)

/-- The exclusive or of x turned right by each amount of a list. -/
def turns (l : List Nat) (x : W32) : W32 := l.foldr (fun n y => x.rotateRight n ^^^ y) 0

/-- n further words of the message schedule, newest first: each is the sum of the words 16, 7 and, mixed, 15 and 2 places
back. -/
def moreWords : Nat → List W32 → List W32
  | 0, w => w
  | n + 1, w =>
    let back := fun i => nth 0 w (i - 1)
    let mix := fun (l : List Nat) (sh i : Nat) => turns l (back i) ^^^ (back i >>> sh)
    moreWords n ((back 16 + back 7 + mix [7, 18] 3 15 + mix [17, 19] 10 2) :: w)

/-- One round on the eight working words, the first of which is the newest: two words are new, the others move down one
place. `m` is the round's message word plus its constant. -/
def mixRound (h : List W32) (m : W32) : List W32 :=
  let at_ := nth 0 h
  let pick := at_ 6 ^^^ (at_ 4 &&& (at_ 5 ^^^ at_ 6))
  let vote := (at_ 0 &&& at_ 1) ||| (at_ 2 &&& (at_ 0 ||| at_ 1))
  let low := m + at_ 7 + pick + turns [6, 11, 25] (at_ 4)
  let high := low + vote + turns [2, 13, 22] (at_ 0)
  high :: (h.take 3 ++ (at_ 3 + low) :: (h.drop 4).take 3)

/-- The hash value after one block of 64 bytes. -/
def shaBlock (h : List W32) (blk : List Byte) : List W32 :=
  let first := (List.range 16).map (fun i => BitVec.ofNat 32 (beAt blk (60 - 4 * i) 4))
  let sums := List.zipWith (fun k w => k + w) roundConsts (moreWords 48 first).reverse
  List.zipWith (fun old new => old + new) h (sums.foldl mixRound h)

/-- The hash value after n blocks. -/
def shaBlocks : Nat → List W32 → List Byte → List W32
  | 0, h, _ => h
  | n + 1, h, l => shaBlocks n (shaBlock h (l.take 64)) (l.drop 64)

/-- SHA-256. -/
def sha256 (l : List Byte) : List Byte :=
  let z := (119 - l.length % 64) % 64
  let p := l ++ 0x80#8 :: (List.replicate z (0 : Byte) ++ beBytes 8 (8 * l.length))
  (shaBlocks (p.length / 64) hashStart p).flatMap (fun w => beBytes 4 w.toNat)

/-- HMAC-SHA-256. -/
def hmac (key msg : List Byte) : List Byte :=
  let k := slice (if 64 < key.length then sha256 key else key) 0 64
  sha256 (k.map (fun b => b ^^^ 0x5C) ++ sha256 (k.map (fun b => b ^^^ 0x36) ++ msg))

/-! ## GF(2^8) with polynomial 0x11D (R314) -/

/-- n shift-and-add steps of the product of a and b. -/
def gfMulStep : Nat → Nat → Nat → Nat
  | 0, _, _ => 0
  | n + 1, a, b =>
    let r := gfMulStep n (if 128 ≤ a then Nat.xor (2 * a) 0x11D else 2 * a) (b / 2)
    if b % 2 = 1 then Nat.xor a r else r

/-- The product in GF(2^8) with polynomial 0x11D. -/
def gfMul (a b : Byte) : Byte := BitVec.ofNat 8 (gfMulStep 8 a.toNat b.toNat)

/-- The n-th power. -/
def gfPow (a : Byte) : Nat → Byte
  | 0 => 1
  | n + 1 => gfMul a (gfPow a n)

/-! ## AES-256 and the key unwrap of RFC 3394 -/

/-- n shift-and-add steps of the product in the AES field. -/
def aesMulStep : Nat → Nat → Nat → Nat
  | 0, _, _ => 0
  | n + 1, a, b =>
    let r := aesMulStep n (if 128 ≤ a then Nat.xor (2 * a) 0x11B else 2 * a) (b / 2)
    if b % 2 = 1 then Nat.xor a r else r

/-- The product in the AES field. -/
def aesMul (a b : Byte) : Byte := BitVec.ofNat 8 (aesMulStep 8 a.toNat b.toNat)

/-- a to the power 2^(n+1) - 2. -/
def aesInvStep (a : Byte) : Nat → Byte
  | 0 => 1
  | n + 1 => let r := aesMul (aesInvStep a n) a; aesMul r r

/-- The S-box. -/
def aesSbox (a : Byte) : Byte :=
  let i := aesInvStep a 7
  i ^^^ i.rotateLeft 1 ^^^ i.rotateLeft 2 ^^^ i.rotateLeft 3 ^^^ i.rotateLeft 4 ^^^ 0x63

/-- The S-box as a list. -/
def aesSboxTable : List Byte := (List.range 256).map (fun n => aesSbox (BitVec.ofNat 8 n))

/-- The inverse S-box of a byte, given the S-box as a list. -/
def aesInvSub (t : List Byte) (b : Byte) : Byte :=
  BitVec.ofNat 8 ((indexOf (fun x => x == b) t 0).getD 0)

/-- The key schedule extended by n words (each a list of 4 bytes); newest first, w the words so far, i the next index. -/
def aesExpand (t : List Byte) : Nat → Nat → Byte → List (List Byte) → List (List Byte)
  | 0, _, _, w => w
  | n + 1, i, rcon, w =>
    let p := nth [] w 0
    let sub := fun l : List Byte => l.map (fun b => nth 0 t b.toNat)
    let q := if i % 8 = 0 then
        let s := sub (p.drop 1 ++ p.take 1)
        (nth 0 s 0 ^^^ rcon) :: s.drop 1
      else if i % 8 = 4 then sub p else p
    aesExpand t n (i + 1) (if i % 8 = 0 then aesMul rcon 2 else rcon)
      (List.zipWith (fun x y => x ^^^ y) (nth [] w 7) q :: w)

/-- The 15 round keys of a 32-byte key. -/
def aesKeys (t key : List Byte) : List (List Byte) :=
  let w0 := (List.range 8).map (fun i => slice key (4 * i) 4)
  let w := (aesExpand t 52 8 1 w0.reverse).reverse
  (List.range 15).map (fun r => (List.range 4).flatMap (fun c => nth [] w (4 * r + c)))

/-- The exclusive or of two byte lists. -/
def xorBytes (a b : List Byte) : List Byte := List.zipWith (fun x y => x ^^^ y) a b

/-- The inverse of MixColumns on one column. -/
def aesInvMix (c : List Byte) : List Byte :=
  (List.range 4).map (fun r =>
    (List.range 4).foldl (fun acc k => acc ^^^ aesMul (nth 0 [0x0E, 0x0B, 0x0D, 0x09] ((k + 4 - r) % 4)) (nth 0 c k)) 0)

/-- Inverse ShiftRows then inverse SubBytes. -/
def aesInvShiftSub (t s : List Byte) : List Byte :=
  (List.range 16).map (fun i => aesInvSub t (nth 0 s ((i % 4) + 4 * ((i / 4 + 4 - i % 4) % 4))))

/-- AES-256 decryption of one 16-byte block. -/
def aesDecrypt (t : List Byte) (ks : List (List Byte)) (blk : List Byte) : List Byte :=
  let s := (List.range 13).foldl (fun s r =>
    let u := xorBytes (aesInvShiftSub t s) (nth [] ks (13 - r))
    (List.range 4).flatMap (fun c => aesInvMix (slice u (4 * c) 4))) (xorBytes blk (nth [] ks 14))
  xorBytes (aesInvShiftSub t s) (nth [] ks 0)

/-- The steps of the RFC 3394 unwrap, from step s down to 1, on the register A and n 8-byte blocks. -/
def unwrapSteps (t : List Byte) (ks : List (List Byte)) (n : Nat) : Nat → List Byte × List (List Byte) → List Byte × List (List Byte)
  | 0, st => st
  | s + 1, (a, r) =>
    let i := s % n
    let b := aesDecrypt t ks (xorBytes a (beBytes 8 (s + 1)) ++ nth [] r i)
    unwrapSteps t ks n s (slice b 0 8, setNth r i (slice b 8 8))

/-- The key unwrapped under RFC 3394, where its integrity check holds. -/
def aesUnwrap (kek wrapped : List Byte) : Option (List Byte) :=
  let t := aesSboxTable
  let n := wrapped.length / 8 - 1
  let r := unwrapSteps t (aesKeys t kek) n (6 * n)
    (slice wrapped 0 8, (List.range n).map (fun i => slice wrapped (8 + 8 * i) 8))
  if r.1 = List.replicate 8 (0xA6 : Byte) then some (r.2.flatMap id) else none

end Sys2Proof.Machine
end

