-- ==== Sys2Proof/Machine/Convert.lean ====
section
/-! DEFINITION. Conversions between formats: plain (R32, R33), MX blocks (R24, R25) and SB16 blocks (R26, R27). -/

namespace Sys2Proof.Machine

/-- The exact value of an element code in a lane: floats, INT8, INT4, and MXINT8 with 6 fraction bits (R22, R82). -/
def decodeElem (fmt : BitVec 4) (code : Nat) : Num :=
  match floatOf fmt with
  | some f => decodeFloat f code
  | none =>
    if fmt = 7 then if code % 256 = 255 then .nan false else .fin false 1 ((code % 256 : Int) - 127)
    else
      let v := signed (if fmt = 6 then 4 else 8) code
      .fin (decide (v < 0)) v.natAbs (if fmt = 13 then -6 else 0)

/-- A finite value rounded to an integer of w bits that saturates (Table 02-3): its code and flags. -/
def packInt (w : Nat) (rm : RMode) (neg : Bool) (m : Nat) (e : Int) (lowest : Int) : Nat × W32 :=
  let r := roundAt rm neg m e 0
  let v : Int := if neg then -(r.1 : Int) else r.1
  let hi : Int := 2 ^ (w - 1) - 1
  if hi < v then (hi.toNat, fSAT ||| fNX)
  else if v < lowest then ((lowest % 2 ^ w).toNat, fSAT ||| fNX)
  else ((v % 2 ^ w).toNat, flagIf r.2 fNX)

/-- The conversion of a value to a plain format (R32, R33); one to E8M0, which no rule gives, is the one to INT8 (log 131). -/
def convertNum (fmtd : BitVec 4) (rm : RMode) (sat : Bool) (v : Num) : Nat × W32 :=
  match floatOf fmtd with
  | some f =>
    match v with
    | .nan s => (canonNan f, flagIf s fNV)
    | .inf n => (infCode f n, flagIf (f.top == .oneNan) (fNV ||| fNF))
    | .fin n m e => packFinite f rm (.convert sat) n m e
  | none =>
    let w := if fmtd = 6 then 4 else 8
    let code := match v with
      | .nan _ => (0, fNV)
      | .inf n => (if n then 2 ^ (w - 1) else 2 ^ (w - 1) - 1, fNV)
      | .fin n m e => packInt w rm n m e (-(2 ^ (w - 1)))
    if w = 4 ∧ 8 ≤ code.1 then (code.1 + 240, code.2) else code

/-! ## MX blocks -/

/-- emax of R25. -/
def mxEmax (fmt : BitVec 4) : Int :=
  match fmt.toNat with
  | 8 => 8 | 9 => 15 | 10 => 4 | 11 => 2 | 12 => 2 | _ => 0

/-- floor(log2 max|x|) over the finite nonzero values of a block. -/
def blockExp (l : List Num) : Option Int :=
  l.foldl (fun acc v =>
    match v with
    | .fin _ m e =>
      if m = 0 then acc
      else match acc with
        | none => some (log2Of m e)
        | some k => some (max k (log2Of m e))
    | _ => acc) none

/-- One element of an MX block: x · 2^(127 - X) rounded and clamped (R25). -/
def mxElem (fmt : BitVec 4) (x : Nat) (rm : RMode) : Num → Nat × W32
  | .fin n m e =>
    let e2 := e + 127 - x
    if fmt = 13 then packInt 8 rm n m (e2 + 6) (-127)
    else packFinite ((floatOf fmt).getD e2m1) rm (.convert true) n m e2
  | _ => (0, 0)

/-- A block of present (some) and absent (none) values with their rounding modes, encoded under R25: the scale, the
element codes, the flags. -/
def mxEncode (fmt : BitVec 4) (blk : List (Option Num × RMode)) : Nat × List Nat × W32 :=
  let vals := blk.filterMap (fun p => p.1)
  if vals.any (fun v => !v.isFin) then
    (255, blk.map (fun _ => 0), flagIf (vals.any (fun v => v.isSnan || (!v.isFin && !v.isNan))) fNV)
  else
    let x := match blockExp vals with
      | none => 127
      | some k => (max 0 (min 254 (k - mxEmax fmt + 127))).toNat
    let es := blk.map (fun p => match p.1 with | some v => mxElem fmt x p.2 v | none => (0, 0))
    (x, es.map (fun p => p.1), es.foldl (fun f p => f ||| p.2) 0)

/-- An MX element with its scale as an exact value (R24), and MXNAN. -/
def mxValue (fmt : BitVec 4) (code x : Nat) : Num × W32 :=
  if x % 256 = 255 then (.nan false, fMXNAN)
  else
    match decodeElem fmt code with
    | .fin n m e => (.fin n m (e + (x % 256 : Int) - 127), 0)
    | v => (v, flagIf v.isSnan fNV)

/-! ## SB16 blocks -/

/-- 64 (or fewer) FP32 values, absent ones as none, encoded under R26: the scale, the BF16 codes, the flags. -/
def sbEncode (blk : List (Option Num)) : Nat × List Nat × W32 :=
  let s : Nat := match blockExp (blk.filterMap id) with
    | none => 127
    | some k => (max 1 (min 254 (k + 127))).toNat
  let es := blk.map (fun p => match p with
    | none => (0, 0)
    | some (.nan b) => (canonNan bf16, flagIf b fNV)
    | some (.inf n) => (infCode bf16 n, 0)
    | some (.fin n m e) => packFinite bf16 .rne .arith n m (e + 127 - s))
  (s, es.map (fun p => p.1), es.foldl (fun f p => f ||| p.2) 0)

/-- One SB16 element decoded to FP32 under R27. -/
def sbDecode (q s : Nat) : W32 × W32 :=
  if s % 256 = 0 ∨ s % 256 = 255 then (BitVec.ofNat 32 (canonNan fp32), fMXNAN)
  else
    match decodeFloat bf16 q with
    | .fin n m e =>
      let p := packFinite fp32 .rne .arith n m (e + (s % 256 : Int) - 127)
      (BitVec.ofNat 32 p.1, p.2)
    | v => (BitVec.ofNat 32 (packArith fp32 .rne v).1, 0)

end Sys2Proof.Machine
end

