-- ==== Sys2Proof/Machine/Layout.lean ====
section
/-! DEFINITION. Tensor descriptors (R132 to R153): their bytes, their validation, and where each element and each block
scale lies. -/

namespace Sys2Proof.Machine

/-! ## Granules (Table 06-2) -/

/-- G, the elements of a granule. -/
def granule (fmt : BitVec 4) : Nat :=
  if fmt = 6 ∨ fmt = 0xA ∨ fmt = 0xB ∨ fmt = 0xC ∨ fmt = 0xE then 64
  else if isMx fmt then 32 else 1

/-- Whether elements are stored in bit planes: INT4, MXFP6 and MXFP4. -/
def bitPlanes (fmt : BitVec 4) : Bool := elemWidth fmt == 4 || elemWidth fmt == 6

/-- Bytes of a granule. -/
def granuleBytes (fmt : BitVec 4) : Nat := granule fmt * elemWidth fmt / 8

/-! ## The descriptor's bytes (Table 06-1) -/

/-- A descriptor from its 176 bytes. -/
def parseDesc (l : List Byte) : Desc :=
  let w := leAt l 0 4
  let n := field w 28 4
  { ndim := n, fmt := BitVec.ofNat 4 (field w 24 4), space := field w 22 2, layout := field w 21 1,
    acc := field w 19 2, ovl := field w 17 2, tensorId := field w 0 16,
    base := leAt l 0x08 8, allocBase := leAt l 0x10 8, allocSize := leAt l 0x18 8, scaleBase := leAt l 0x20 8,
    extents := (List.range (min n 8)).map (fun d => leAt l (0x30 + 16 * d) 4),
    strides := (List.range (min n 8)).map (fun d => signed 64 (leAt l (0x38 + 16 * d) 8)) }

/-- EXTENT_d; 1 past NDIM. -/
def Desc.extent (d : Desc) (k : Nat) : Nat := nth 1 d.extents k

/-- STRIDE_d; 0 past NDIM. -/
def Desc.stride (d : Desc) (k : Nat) : Int := nth 0 d.strides k

/-- Check 1 of R146: reserved fields and encodings. -/
def descEncodingOk (l : List Byte) : Bool :=
  let d := parseDesc l
  decide (1 ≤ d.ndim ∧ d.ndim ≤ 8) && d.fmt != 0xF && d.space != 3 && d.acc != 0 && d.ovl != 3 &&
  field (leAt l 0 4) 16 1 == 0 && leAt l 4 4 == 0 && leAt l 0x28 8 == 0 && d.allocSize != 0 &&
  (scaleBlock d.fmt != 0 || d.scaleBase == 0) &&
  (List.range 8).all (fun k =>
    leAt l (0x34 + 16 * k) 4 == 0 &&
    (if k < d.ndim then leAt l (0x30 + 16 * k) 4 != 0
     else leAt l (0x30 + 16 * k) 4 == 0 && leAt l (0x38 + 16 * k) 8 == 0))

/-- Check 2 of R146: the alignment and stride rules of R136, R140 and R147, and the OVL rule of R144. -/
def Desc.alignOk (d : Desc) : Bool :=
  let g := granule d.fmt
  (if d.layout = 1 then
    decide (2 ≤ d.ndim) && d.stride 0 == 0 && d.stride 1 == 0 && d.base % 64 == 0
   else if g = 1 then d.base % (elemWidth d.fmt / 8) == 0
   else d.base % granuleBytes d.fmt == 0 && d.stride 0 == 1 &&
    (d.strides.drop 1).all (fun s => s % (g : Int) == 0)) &&
  d.strides.all (fun s => decide (-(2 ^ 42 : Int) < s ∧ s < 2 ^ 42)) &&
  (d.ovl == 0 || (decide (d.fmt.toNat ≤ 2) && d.layout == 0 && Nat.testBit d.acc 1))

/-- Whether exact values stay within ±2^63 (R139). -/
def within63 (l : List Int) : Bool := l.all (fun v => decide (-(2 ^ 63 : Int) ≤ v ∧ v ≤ 2 ^ 63))

/-- Running sums of terms, each kept for the test of R139. -/
def runningSums : List Int → Int → List Int
  | [], a => [a]
  | t :: r, a => a :: runningSums r (a + t)

/-- Blocks along the face of a block layout: nbj and nbi (R147). -/
def Desc.nbj (d : Desc) : Nat := (d.extent 0 + 63) / 64
/-- nbi. -/
def Desc.nbi (d : Desc) : Nat := (d.extent 1 + 63) / 64

/-- The terms STRIDE_d · (EXTENT_d − 1). -/
def Desc.terms (d : Desc) : List Int :=
  List.zipWith (fun (s : Int) (e : Nat) => s * ((e : Int) - 1)) d.strides d.extents

/-- The byte ranges that index tuples reach: elements, then scales where the format has them (R139, R151), with every
intermediate value. -/
def Desc.ranges (d : Desc) : (Int × Int) × Option (Int × Int) × List Int :=
  let b := scaleBlock d.fmt
  if d.layout = 1 then
    let ts := d.terms.drop 2
    let neg := ts.map (fun t => min t 0)
    let pos := ts.map (fun t => max t 0)
    let bb : Int := 512 * elemWidth d.fmt
    let kmin := neg.foldl (· + ·) 0
    let kmax := pos.foldl (· + ·) ((d.nbi * d.nbj : Int) - 1)
    let lo := d.base + kmin * bb
    let hi := d.base + (kmax + 1) * bb - 1
    let sb : Int := if b = 0 then 0 else 4096 / b
    ((lo, hi), if b = 0 then none else some (d.scaleBase + kmin * sb, d.scaleBase + (kmax + 1) * sb - 1),
      runningSums neg 0 ++ runningSums pos ((d.nbi * d.nbj : Int) - 1) ++ ts ++ [kmin * bb, (kmax + 1) * bb, lo, hi])
  else
    let neg := d.terms.map (fun t => min t 0)
    let pos := d.terms.map (fun t => max t 0)
    let g : Int := granule d.fmt
    let gb : Int := granuleBytes d.fmt
    let omin := neg.foldl (· + ·) 0
    let omax := pos.foldl (· + ·) 0
    let lo := d.base + omin / g * gb
    let hi := d.base + (omax / g + 1) * gb - 1
    ((lo, hi), if b = 0 then none
      else some (d.scaleBase + omin / g * g / b, d.scaleBase + (omax / g * g + g - 1) / b),
      runningSums neg 0 ++ runningSums pos 0 ++ d.terms ++ [omin / g * gb, (omax / g + 1) * gb, lo, hi])

/-- The size of a space (R139). -/
def spaceSize (sp : Nat) : Nat := if sp = 0 then 2 ^ 42 else if sp = 1 then 3 * 2 ^ 20 else 2 ^ 26

/-- Check 3 of R146: the range test (R139, R151). -/
def Desc.rangeOk (d : Desc) : Bool :=
  let r := d.ranges
  let inside := fun (p : Int × Int) =>
    decide ((d.allocBase : Int) ≤ p.1 ∧ p.2 ≤ (d.allocBase : Int) + d.allocSize - 1)
  within63 (r.2.2 ++ (match r.2.1 with | some p => [p.1, p.2] | none => []) ++
    [(d.allocBase : Int) + d.allocSize - 1]) && inside r.1 &&
  (match r.2.1 with | some p => inside p | none => true) && decide (d.allocBase + d.allocSize ≤ spaceSize d.space)

/-- Insertion by the first component, equal ones in their order (R142). -/
def insertPair (p : Nat × Nat) : List (Nat × Nat) → List (Nat × Nat)
  | [] => [p]
  | q :: r => if p.1 < q.1 then p :: q :: r else q :: insertPair p r

/-- A list of (stride, extent) sorted by stride. -/
def sortPairs (l : List (Nat × Nat)) : List (Nat × Nat) := l.foldl (fun acc p => insertPair p acc) []

/-- The span test of R142 over a sorted list. -/
def spanTest : List (Nat × Nat) → Nat → Bool
  | [], _ => true
  | (s, e) :: r, span => if s ≤ span then false else spanTest r (span + s * (e - 1))

/-- The list that the injectivity test runs over (R142, R151). -/
def Desc.aliasList (d : Desc) : List (Nat × Nat) :=
  let all := List.zip (d.strides.map Int.natAbs) d.extents
  let g := granule d.fmt
  let l := if d.layout = 1 then (1, d.nbj) :: (d.nbj, d.nbi) :: all.drop 2
    else if g = 1 then all
    else (1, (d.extent 0 + g - 1) / g) :: (all.drop 1).map (fun p => (p.1 / g, p.2))
  l.filter (fun p => decide (1 < p.2))

/-- Check 4 of R146: injectivity (R142), then scale overlap (R143), for write access. -/
def Desc.aliasOk (d : Desc) : Bool :=
  !Nat.testBit d.acc 1 ||
  ((d.ovl != 0 || spanTest (sortPairs d.aliasList) 0) &&
   (match d.ranges.2.1 with
    | some p => decide (p.2 < d.ranges.1.1 ∨ d.ranges.1.2 < p.1)
    | none => true))

/-- The validation of R146: status 0 where the descriptor is accepted. -/
def validateDesc (l : List Byte) : Nat :=
  let d := parseDesc l
  if !descEncodingOk l then stNOPERM
  else if !d.alignOk then stNOPERM
  else if !d.rangeOk then stRANGE
  else if !d.aliasOk then stALIAS
  else 0

/-! ## Index tuples and element places -/

/-- The number of index tuples. -/
def Desc.count (d : Desc) : Nat := d.extents.foldl (· * ·) 1

/-- The tuple of a mixed-radix number, the first extent fastest. -/
def tupleOf : List Nat → Nat → List Nat
  | [], _ => []
  | e :: r, n => n % e :: tupleOf r (n / e)

/-- The number of a tuple over extents (R134). -/
def indexOfTuple : List Nat → List Nat → Nat
  | e :: r, i :: t => i + e * indexOfTuple r t
  | _, _ => 0

/-- Where an element lies: its storage unit (element, granule or block), the position in it, and its scale's address. -/
structure Place where
  unit : Nat
  unitBytes : Nat
  positions : Nat
  pos : Nat
  scale : Option Nat
  deriving DecidableEq, Repr

/-- The place of an index tuple (R136 to R138, R147, R148, R150). -/
def Desc.place (d : Desc) (t : List Nat) : Place :=
  let w := elemWidth d.fmt
  let b := scaleBlock d.fmt
  if d.layout = 1 then
    let c := nth 0 t 0
    let r := nth 0 t 1
    let i := r % 64
    let j := c % 64
    let k : Int := (c / 64 : Nat) + d.nbj * (r / 64 : Nat) +
      (List.zipWith (fun (s : Int) (x : Nat) => s * x) (d.strides.drop 2) (t.drop 2)).foldl (· + ·) 0
    let q := 4 * ((i + j) % 16) + (i / 16 + j / 16) % 4
    { unit := (d.base + k * (512 * w : Nat)).toNat, unitBytes := 512 * w, positions := 4096, pos := 64 * i + q,
      scale := if b = 0 then none
        else some ((d.scaleBase + k * (4096 / b : Nat)).toNat + i * (64 / b) + j / b) }
  else
    let o : Int := (List.zipWith (fun (s : Int) (x : Nat) => s * x) d.strides t).foldl (· + ·) 0
    let g := granule d.fmt
    { unit := (d.base + o / g * (granuleBytes d.fmt : Nat)).toNat, unitBytes := granuleBytes d.fmt, positions := g,
      pos := (o % g).toNat,
      scale := if b = 0 then none else some ((d.scaleBase + o / b).toNat) }

/-- The element code at a position of a unit's bytes (R137, R148). -/
def codeAt (fmt : BitVec 4) (positions : Nat) (bytes : List Byte) (pos : Nat) : Nat :=
  let w := elemWidth fmt
  if bitPlanes fmt then
    (List.range w).foldl (fun acc b =>
      acc + 2 ^ b * bnat ((nth 0 bytes (positions / 8 * b + pos / 8)).getLsbD (pos % 8))) 0
  else leAt bytes (pos * (w / 8)) (w / 8)

/-- The bytes of a unit whose codes are given in position order. -/
def packCodes (fmt : BitVec 4) (positions : Nat) (codes : List Nat) : List Byte :=
  let w := elemWidth fmt
  if bitPlanes fmt then
    (List.range w).flatMap (fun b => (List.range (positions / 8)).map (fun j =>
      BitVec.ofNat 8 ((List.range 8).foldl (fun acc i => acc + 2 ^ i * bnat (Nat.testBit (nth 0 codes (8 * j + i)) b)) 0)))
  else codes.flatMap (fun c => leBytes (w / 8) c)

/-- The bytes of an element alone where its unit is the element, none where it lies in a granule or a block. -/
def Place.single (p : Place) : Bool := p.positions == 1

/-- The scale bytes of the unit of tuple t, in order: every block's that the granule or the block of the layout holds
(R138, R150). -/
def Desc.unitScales (d : Desc) (t : List Nat) : List Nat :=
  let b := scaleBlock d.fmt
  let p := d.place t
  match p.scale with
  | none => []
  | some a =>
    let before := if d.layout = 1 then nth 0 t 1 % 64 * (64 / b) + nth 0 t 0 % 64 / b else p.pos / b
    (List.range (p.positions / b)).map (fun n => a - before + n)

/-- The index tuples of a unit's positions, in position order: none where no tuple reaches a position. The unit is that of
tuple t. -/
def Desc.unitTuples (d : Desc) (t : List Nat) : List (Option (List Nat)) :=
  if d.layout = 1 then
    let c0 := nth 0 t 0 / 64 * 64
    let r0 := nth 0 t 1 / 64 * 64
    (List.range 4096).map (fun n =>
      let i := n / 64
      let q := n % 64
      -- the column j whose position in line i is q
      let hit := (List.range 64).find? (fun j => 4 * ((i + j) % 16) + (i / 16 + j / 16) % 4 == q)
      match hit with
      | some j => if c0 + j < d.extent 0 ∧ r0 + i < d.extent 1 then some ((c0 + j) :: (r0 + i) :: t.drop 2) else none
      | none => none)
  else
    let g := granule d.fmt
    let c0 := nth 0 t 0 / g * g
    (List.range g).map (fun p => if c0 + p < d.extent 0 then some ((c0 + p) :: t.drop 1) else none)

end Sys2Proof.Machine
end

