-- ==== Sys2Proof/Machine/Memory.lean ====
section
/-! DEFINITION. External memory (R184 to R212): tiers and frames, page map entries, translation caches, the check of R193,
copy-on-write, and byte access to the three spaces of a descriptor. -/

namespace Sys2Proof.Machine

/-! ## Frames -/

/-- Bytes of a page or frame. -/
def pageBytes : Nat := 65536

/-- Frames of a tier (Table 08-1); tier 3 by the type of the cartridge in the bay. -/
def State.tierFrames (s : State) (tier : Nat) : Nat :=
  if tier = 0 then 8789056
  else if tier = 1 then 23437488
  else match s.ember.cart with
    | some c => if c.ctype = 2 then 61035156 else 122070312
    | none => 0

/-- Whether the bay holds the cartridge that the tier 3 pages of a context lie in, worn or not (R188, R209): the one in which JOB_LOAD
reserved their frames. -/
def State.tier3Up (s : State) (c : Nat) : Bool :=
  match s.ember.cart with
  | some k => s.ember.cartRead && tfind s.ember.tier3Home c == some k.serial && s.ember.cartState != 2 && s.ember.cartState != 7
  | none => false

/-- RATED_BYTES of a TYPE. -/
def ratedBytes (ctype : Nat) : Nat := if ctype = 2 then 80 * 10 ^ 15 else 160 * 10 ^ 15

/-- USED_BP. -/
def usedBp (k : Cartridge) : Nat := min 65535 (k.bytesWritten * 10000 / ratedBytes k.ctype.toNat)

/-- STATE of a cartridge: 0 OK, 1 WARN, 2 CRIT, 3 WORN. -/
def lifeState (k : Cartridge) : Nat :=
  if 10000 ≤ usedBp k ∨ k.spareBp = 0 then 3 else if 9500 ≤ usedBp k then 2 else if 8000 ≤ usedBp k then 1 else 0

/-- Whether the cartridge in the bay is worn, and so read-only, whether CART_STATE shows it or an eject that began since (R209). -/
def State.cartWorn (s : State) : Bool :=
  s.ember.cartState == 4 || (match s.ember.cart with | some k => s.ember.cartRead && lifeState k == 3 | none => false)

/-- The contents of a tier. -/
def State.tierMem (s : State) (tier : Nat) : Memory :=
  if tier = 0 then s.mem.tier1
  else if tier = 1 then s.mem.tier2
  else match s.ember.cart with | some c => c.frames | none => []

/-- The contents of a tier replaced. -/
def State.setTierMem (s : State) (tier : Nat) (m : Memory) : State :=
  if tier = 0 then { s with mem := { s.mem with tier1 := m } }
  else if tier = 1 then { s with mem := { s.mem with tier2 := m } }
  else match s.ember.cart with
    | some c => { s with ember := { s.ember with cart := some { c with frames := m } } }
    | none => s

/-- The channel of a line (R185, R204, R205): a tier 1 stack interleaves the 64 B lines of a frame over its 32 channels; a
tier 2 package is one channel. -/
def channelOf (tier frame line : Nat) : Nat := if tier = 0 then 32 * (frame % 8) + line % 32 else frame % 16

/-- Whether a read of a line is uncorrectable: it is poisoned, its channel is out of service (R199, R206), or it lies in a cartridge frame
whose CRC has failed, of which every line is (R198). -/
def State.lineBad (s : State) (tier frame line : Nat) : Bool :=
  s.mem.poison.contains (tier, frame * 1024 + line) ||
  (if tier = 0 then s.mem.dead1.contains (channelOf 0 frame line)
   else if tier = 1 then s.mem.dead2.contains (channelOf 1 frame line) else s.mem.poison.contains (2, frame * 1024))

/-- Whether any line of n bytes at an offset of a frame is uncorrectable. -/
def State.spanBad (s : State) (tier frame off n : Nat) : Bool :=
  (List.range ((off + n + 63) / 64 - off / 64)).any (fun i => s.lineBad tier frame (off / 64 + i))

/-- Whether a request for n bytes at an offset of a frame waits: any line of them lies on a channel in a retraining window (R204, R205), or a
snap stop stands, in which no memory or cartridge domain accepts anything new (Table 15-9), or the domain of their controller has no clock:
the stack's, the package's, the cartridge's (R222, R239). -/
def State.spanHeld (s : State) (tier frame off n : Nat) : Bool :=
  getField (s.bar 0x30040) 0 2 == 2 ||
  !s.clocked (if tier = 0 then 276 + frame % 8 else if tier = 1 then 284 + frame % 16 else 322) ||
  (tier == 0 && s.mem.window1.any (fun w => w / 32 == frame % 8 &&
    (List.range ((off + n + 63) / 64 - off / 64)).any (fun i => channelOf 0 frame (off / 64 + i) == w))) ||
  (tier == 1 && s.mem.window2 == some (frame % 16))

/-- Bytes that the cartridge in the bay has been given, added to its BYTES_WRITTEN (R207). -/
def State.countWritten (s : State) (n : Nat) : State :=
  { s with ember := { s.ember with cart := s.ember.cart.map (fun k => { k with bytesWritten := k.bytesWritten + n }) } }

/-- Bytes written to a tier; a poisoned line that the write covers whole is healed (R199); the cartridge counts its own (R207). -/
def State.writeTier (s : State) (tier frame off : Nat) (bs : List Byte) : State :=
  let a := frame * pageBytes + off
  let s0 := s.setTierMem tier (mwrite (s.tierMem tier) a bs)
  let s1 := if tier ≤ 1 then s0 else s0.countWritten bs.length
  { s1 with mem := { s1.mem with
      poison := s1.mem.poison.filter (fun p => !(p.1 == tier && decide (a ≤ 64 * p.2 ∧ 64 * p.2 + 64 ≤ a + bs.length))) } }

/-- A frame filled with zeros, its poison marks healed (R187). -/
def State.zeroFrame (s : State) (tier frame : Nat) : State :=
  let s1 := s.setTierMem tier (mclear (s.tierMem tier) (frame * pageBytes) pageBytes)
  { s1 with mem := { s1.mem with poison := s1.mem.poison.filter (fun p => !(p.1 == tier && p.2 / 1024 == frame)) } }

/-! ## Page map entries (Table 08-2) -/

/-- V. -/
def eV (e : W64) : Bool := e.getLsbD 63
/-- R. -/
def eR (e : W64) : Bool := e.getLsbD 62
/-- W. -/
def eW (e : W64) : Bool := e.getLsbD 61
/-- HR. -/
def eHR (e : W64) : Bool := e.getLsbD 60
/-- HW. -/
def eHW (e : W64) : Bool := e.getLsbD 59
/-- PROT. -/
def eProt (e : W64) : Bool := e.getLsbD 58
/-- MOV. -/
def eMov (e : W64) : Bool := e.getLsbD 57
/-- TIER. -/
def eTier (e : W64) : Nat := field e.toNat 54 2
/-- FRAME. -/
def eFrame (e : W64) : Nat := field e.toNat 0 27

/-- An entry from its fields; MOV is 0. -/
def mkEntry (r w hr hw prot : Bool) (tier frame : Nat) : W64 :=
  BitVec.ofNat 64 (2 ^ 63 + 2 ^ 62 * bnat r + 2 ^ 61 * bnat w + 2 ^ 60 * bnat hr + 2 ^ 59 * bnat hw +
    2 ^ 58 * bnat prot + 2 ^ 54 * (tier % 4) + frame % 2 ^ 27)

/-- The key of a page of a context. -/
def pageKey (c p : Nat) : Nat := c * 2 ^ 26 + p

/-- The primary entry of a page (R190). -/
def State.pentry (s : State) (c p : Nat) : W64 := tget 0 s.mem.pmap (pageKey c p)

/-- Both copies of an entry written (R192). -/
def State.setPentry (s : State) (c p : Nat) (e : W64) : State :=
  { s with mem := { s.mem with pmap := tset s.mem.pmap (pageKey c p) e, pmapCopy := tset s.mem.pmapCopy (pageKey c p) e } }

/-- The tier 2 frame that the primary or the copy of a group's line lies in (R190); the line is g mod 1,024. -/
def State.pmFrame (s : State) (c g : Nat) (copy : Bool) : Nat := nth 0 (if copy then s.mem.pmShd else s.mem.pmBase) c + g / 1024

/-- Whether the primary or the copy of a group's line is uncorrectable. -/
def State.pmBad (s : State) (c g : Nat) (copy : Bool) : Bool := s.lineBad 1 (s.pmFrame c g copy) (g % 1024)

/-- Whether both copies of a group's line fail (R199). -/
def State.groupFails (s : State) (c g : Nat) : Bool :=
  s.mem.badLines.contains (c * 2 ^ 23 + g) || (s.pmBad c g false && s.pmBad c g true)

/-- A MODULE report of a unit; its cause code is not numbered by the spec, so it is open. -/
def State.moduleFault (s : State) (u : Nat) : State :=
  (s.report (srcId 0xE u) (Config.unitInfo (srcId 0xE u) s.free)).draw

/-! ## Translation caches (R194 to R197) -/

/-- A group of page map entries as a fill reads it, and whether the copy was read: the primary is uncorrectable, or its package is in
a retraining window (R194, R199, R205). -/
def State.groupLine (s : State) (c g : Nat) : List W64 × Bool :=
  let useCopy := !s.pmBad c g true && (s.pmBad c g false ||
    (match s.mem.window2 with | some k => k == s.pmFrame c g false % 16 | none => false))
  ((List.range 8).map (fun i => tget 0 (if useCopy then s.mem.pmapCopy else s.mem.pmap) (pageKey c (8 * g + i))), useCopy)

/-- An uncorrectable primary line rewritten from the copy that served it (R199). -/
def State.rewriteGroup (s : State) (c g : Nat) : State :=
  if s.pmBad c g false && !s.pmBad c g true then
    let l := (1, s.pmFrame c g false * 1024 + g % 1024)
    { s with mem := { s.mem with
      pmap := (List.range 8).foldl (fun m i => tset m (pageKey c (8 * g + i)) (tget 0 s.mem.pmapCopy (pageKey c (8 * g + i)))) s.mem.pmap
      poison := s.mem.poison.filter (fun p => p != l) } }
  else s

/-- A cache with a group put first, of at most n groups (R194: least recently used first out). -/
def XCache.putFirst (x : XCache) (n : Nat) (g : XGroup) : XCache :=
  { x with groups := (g :: x.groups.filter (fun h => !(h.ctx == g.ctx && h.g == g.g))).take n }

/-- The cached group of a page. -/
def XCache.find (x : XCache) (c g : Nat) : Option XGroup := x.groups.find? (fun h => h.ctx == c && h.g == g)

/-- A cache without the groups of pages first to first + count − 1 of a context (R196). -/
def XCache.drop (x : XCache) (c first count : Nat) : XCache :=
  { x with groups := x.groups.filter (fun h => !(h.ctx == c && decide (h.g * 8 < first + count ∧ first < h.g * 8 + 8))) }

/-- A cache with CP cleared in every entry of a context (R197). -/
def XCache.clearCp (x : XCache) (c : Nat) : XCache :=
  { x with groups := x.groups.map (fun h => if h.ctx = c then { h with cp := List.replicate 8 false } else h) }

/-- The groups of pages first to first + count − 1 of a context dropped from all 272 caches and the host cache (R196). -/
def State.dropGroups (s : State) (c first count : Nat) : State :=
  { s with
    tiles := s.tiles.map (fun p => (p.1, { p.2 with xc := p.2.xc.drop c first count }))
    mem := { s.mem with hostCache := s.mem.hostCache.drop c first count } }

/-- Who translates: a firebox slot, or the host through the host cache. -/
abbrev Xlat := Option Nat

/-- The cache of a translator. -/
def State.xcOf (s : State) : Xlat → XCache
  | some u => (s.tile u).xc
  | none => s.mem.hostCache

/-- Groups that it holds: 128 in a firebox, 32 in the host cache. -/
def xcSize : Xlat → Nat
  | some _ => 128
  | none => 32

/-- The cache of a translator replaced. -/
def State.setXc (s : State) (x : Xlat) (v : XCache) : State :=
  match x with
  | some u => s.setTile u { s.tile u with xc := v }
  | none => { s with mem := { s.mem with hostCache := v } }

/-- A counter of Table 08-5 incremented, where the translator is a firebox. -/
def State.xcCount (s : State) (x : Xlat) (off : Nat) : State :=
  match x with
  | some u => s.setTile u ((s.tile u).bump off 1)
  | none => s

/-- A group filled into a cache: XC_CNT_MISS rises, SHADOW_USED is set where the copy was read, which then rewrites an uncorrectable
primary; CP starts at 0. -/
def State.xcFill (s : State) (x : Xlat) (c g : Nat) : State × XGroup :=
  let l := s.groupLine c g
  let grp : XGroup := { ctx := c, g := g, entries := l.1, cp := List.replicate 8 false }
  let s1 := (s.setXc x ((s.xcOf x).putFirst (xcSize x) grp)).xcCount x 0x0808
  let s2 := (if l.2 then (match x with
    | some u => s1.setTile u ((s1.tile u).orReg 0x0800 2)
    | none => s1) else s1).rewriteGroup c g
  (match x with | some u => s2.count u 0x34 1 | none => s2, grp)

/-- CP set in a cached entry. -/
def State.xcMark (s : State) (x : Xlat) (c p : Nat) : State :=
  match (s.xcOf x).find c (p / 8) with
  | some g => s.setXc x ((s.xcOf x).putFirst (xcSize x) { g with cp := setNth g.cp (p % 8) true })
  | none => s

/-- Condition 2 of R193: TIER = 3, or FRAME beyond the tier, which firmware counts as a page map fault. -/
def State.entryBad (s : State) (c : Nat) (e : W64) : Bool :=
  eV e && (eTier e == 3 || (decide (s.tierFrames (eTier e) ≤ eFrame e) && (eTier e != 2 || s.tier3Up c)))

/-- The code of Table 07-4 that an entry of a context raises by conditions 1 to 3 of R193, 0 where none: 2 not present, 3 protection.
A tier 3 page reads as not present while the bay does not hold its cartridge (R188). -/
def State.entryFault (s : State) (c : Nat) (e : W64) (host write : Bool) : Nat :=
  if !eV e then 2
  else if s.entryBad c e then 3
  else if (if host then (if write then !eHW e else !eHR e) else (if write then !eW e else !eR e)) then 3
  else if eTier e == 2 && !s.tier3Up c then 2
  else 0

/-! ## The soot map (R302 to R305) -/

/-- The newest generation cut for a context, if any: the plane that copy-on-write fills. -/
def State.curGen (s : State) (c : Nat) : Option Nat :=
  match tfind s.ember.nextGen c with
  | some n => if 0 < n then some (n - 1) else none
  | none => none

/-- Whether C is set in the plane of a generation. -/
def State.hasCopy (s : State) (g key : Nat) : Bool := s.ember.copies.any (fun k => k.1 == g % 4 && k.2.1 == key)

/-- Snapshot area frames. -/
def State.areaFrames (s : State) : Nat := s.ember.areaBytes / pageBytes

/-- The contents of a page as mapped; an unmapped page has none. -/
def State.pageBody (s : State) (c p : Nat) : Memory :=
  let e := s.pentry c p
  if eV e then mextract (s.tierMem (eTier e)) (eFrame e * pageBytes) pageBytes 0 else []

/-- What a copy-on-write question answers: the copy is held or none is needed, or the area is full (R305). -/
inductive CowResult where
  | done
  | full
  deriving DecidableEq, Repr

/-- n events of the ember group, in the ember engine and the cartridge controller (Table 15-1). -/
def State.countEmber (s : State) (event n : Nat) : State := (s.count 0x180 event n).count 0x181 event n

/-- Copy-on-write of a page before its first write after a cut (R197, R302): the page's value is copied to the snapshot
area and W and C are set in the plane of the newest generation. With no generation cut there is nothing to keep. Where the area is
full, a hold that begins (`first`) is counted (R305). -/
def State.cow (s : State) (c p : Nat) (first : Bool) : State × CowResult :=
  match s.curGen c with
  | none => (s, .done)
  | some g =>
    let key := pageKey c p
    if s.hasCopy g key then (s, .done)
    else if s.areaFrames ≤ s.ember.copies.length then
      ((if first then (s.orIo 0x3000 0x20000).bumpIo 0x3024 1 else s.orIo 0x3000 0x20000), .full)
    else
      let cp := (g % 4, key, s.pageBody c p)
      (({ s with ember := { s.ember with copies := s.ember.copies ++ [cp], wset := s.ember.wset ++ [(g % 4, key)] } } : State).countEmber 0x140 1, .done)

/-- W set for a page in the plane of the newest generation by a write that needs no copy (R302). -/
def State.markWritten (s : State) (c p : Nat) : State :=
  match s.curGen c with
  | some g => if s.ember.wset.contains (g % 4, pageKey c p) then s
    else { s with ember := { s.ember with wset := s.ember.wset ++ [(g % 4, pageKey c p)] } }
  | none => s

/-! ## One access (R193) -/

/-- The outcome of an access to a page: it proceeds to a frame, is held for a move (R202), waits for a channel in a retraining window
(R204, R205), needs copy-on-write, or faults with a code of Table 07-4. -/
inductive Access where
  | go (tier frame : Nat)
  | hold
  | wait
  | cow
  | fault (code : Nat)
  deriving DecidableEq, Repr

/-- The access check of a page, through the translator's cache. A group whose two lines both fail is not cached: every translation of
it raises code 3 and a MODULE report from the line's package (R199). -/
def State.access (s : State) (x : Xlat) (c p : Nat) (write : Bool) : State × Access :=
  let g := p / 8
  let host := x.isNone
  let hit := (s.xcOf x).find c g
  -- a hit that would raise code 2 or 3 reads the line again (R195)
  let stale := match hit with
    | some grp => s.entryFault c (nth 0 grp.entries (p % 8)) host write != 0
    | none => true
  if stale && s.groupFails c g then ((s.xcCount x 0x0808).moduleFault (0x130 + s.pmFrame c g false % 16), .fault 3)
  else
  let r : State × XGroup := match hit with
    | some grp =>
      if stale then (s.xcCount x 0x0804).xcFill x c g
      else ((s.setXc x ((s.xcOf x).putFirst (xcSize x) grp)).xcCount x 0x0804, grp)
    | none => s.xcFill x c g
  let s1 := r.1
  let e := nth 0 r.2.entries (p % 8)
  let f := s1.entryFault c e host write
  if f ≠ 0 then (if s1.entryBad c e then { s1 with mem := { s1.mem with pmFaults := s1.mem.pmFaults + 1 } } else s1, .fault f)
  else if eMov e then (s1, .hold)
  else if write && eProt e && !(nth false r.2.cp (p % 8)) then
      match s1.curGen c with
      | some gen => if s1.hasCopy gen (pageKey c p) then (s1.xcMark x c p, .go (eTier e) (eFrame e)) else (s1, .cow)
      | none => (s1.xcMark x c p, .go (eTier e) (eFrame e))
  else (s1, .go (eTier e) (eFrame e))

/-! ## Bytes of a space, unchecked -/

/-- n bytes at an address of a context's DVA space as mapped; an unmapped byte reads 0. -/
def State.dvaRead (s : State) (c a n : Nat) : List Byte :=
  (List.range n).map (fun i =>
    let e := s.pentry c ((a + i) / pageBytes)
    if eV e then mread (s.tierMem (eTier e)) (eFrame e * pageBytes + (a + i) % pageBytes) else 0)

/-- The die of a slot. -/
def dieOf (u : Nat) : Nat := u / 68

/-- n bytes at an address of a space, as a firebox slot of a context reaches them. -/
def State.spaceRead (s : State) (u c sp a n : Nat) : List Byte :=
  if sp = 0 then s.dvaRead c a n
  else if sp = 1 then mreadN (s.tile u).scratch a n
  else mreadN (tget [] s.mem.pools (dieOf u)) a n

/-- Bytes written to a DVA as mapped; bytes of an unmapped page are dropped. -/
def State.dvaWrite (s : State) (c a : Nat) (bs : List Byte) : State :=
  let n := min bs.length (pageBytes - a % pageBytes)
  let put := fun (s : State) (a : Nat) (l : List Byte) =>
    let e := s.pentry c (a / pageBytes)
    if eV e && !l.isEmpty then s.writeTier (eTier e) (eFrame e) (a % pageBytes) l else s
  put (put s a (bs.take n)) (a + n) (bs.drop n)

/-- Bytes written to a space. -/
def State.spaceWrite (s : State) (u c sp a : Nat) (bs : List Byte) : State :=
  if sp = 0 then s.dvaWrite c a bs
  else if sp = 1 then s.setTile u { s.tile u with scratch := mwrite (s.tile u).scratch a bs }
  else { s with mem := { s.mem with pools := tset s.mem.pools (dieOf u) (mwrite (tget [] s.mem.pools (dieOf u)) a bs) } }

/-! ## Frames for allocations (R185 to R187, R203) -/

/-- Stacks or packages of a tier. -/
def banksOf (tier : Nat) : Nat := if tier = 0 then 8 else 16

/-- Frames in a stack or package, and where its retirement reserve begins. -/
def bankFrames (tier : Nat) : Nat := if tier = 0 then 1098632 else 1464843
/-- The first index of the retirement reserve. -/
def reserveFrom (tier : Nat) : Nat := if tier = 0 then 1094536 else 1462795

/-- The frames in use of a tier. -/
def State.usedOf (s : State) (tier : Nat) : List Nat := if tier = 0 then s.mem.used1 else s.mem.used2

/-- Whether a frame is on the retirement list (R201); the frames of a stack or package with a channel out of service all are,
with REASON 4 (R206, log 28). -/
def State.isRetired (s : State) (tier frame : Nat) : Bool :=
  s.mem.retired.any (fun e => getField e 30 2 == tier && getField e 0 27 == frame) ||
  (if tier = 0 then s.mem.dead1.any (fun c => c / 32 == frame % 8)
   else if tier = 1 then s.mem.dead2.contains (frame % 16) else false)

/-- The lowest free index from i of a stack or package, n indices tried; frame = index · banks + bank. A frame that waits to be retired
is not mapped anew (R201). -/
def State.freeIndex (s : State) (tier bank : Nat) : Nat → Nat → Option Nat
  | _, 0 => none
  | i, n + 1 =>
    let f := i * banksOf tier + bank
    if (s.usedOf tier).contains f || s.isRetired tier f || s.mem.retireQ.any (fun q => q.1 == tier && q.2.1 == f) then s.freeIndex tier bank (i + 1) n else some f

/-- PM_BASE_c and PM_SHD_c (R190): the primaries of the four page maps from frame 0, their copies from frame 32,776 (log 24). -/
def pmBases : List Nat × List Nat := ((List.range 4).map (fun c => 8192 * c), (List.range 4).map (fun c => 32776 + 8192 * c))

/-- The first frame of the firmware area, above the copies of the page maps (log 24). -/
def firmwareFrame : Nat := 65552

/-- Frames of tier 2 that the regions of R186 and Table 12-2 take, from frame 0 of every package: page maps 4 GiB, the
firmware area 1 GiB, the soot map and the stores that the loaded policies size (log 24). -/
def State.regionFrames (s : State) : Nat :=
  16 + (5 * 2 ^ 30 + 256 * 2 ^ 20 + s.ember.areaBytes + s.ember.storeBytes) / pageBytes

/-- A free frame on a stack or package, below the reserve; none where it is full. The search tries one index more than the
frames in use and retired, so it finds a free one if there is one. -/
def State.freeFrame (s : State) (tier bank : Nat) : Option Nat :=
  let start := if tier = 0 then 0 else (s.regionFrames + 15) / 16
  match s.freeIndex tier bank start ((s.usedOf tier).length + s.mem.retired.length + s.mem.retireQ.length + 1) with
  | some f => if f / banksOf tier < reserveFrom tier then some f else none
  | none => none

/-- A reserve frame of a stack or package, then any free one (R202, R203). -/
def State.spareFrame (s : State) (tier bank : Nat) : Option Nat :=
  match s.freeIndex tier bank (reserveFrom tier) ((s.usedOf tier).length + s.mem.retired.length + s.mem.retireQ.length + 1) with
  | some f => if f / banksOf tier < bankFrames tier then some f else s.freeFrame tier bank
  | none => s.freeFrame tier bank

/-- A frame taken into use and filled with zeros. -/
def State.takeFrame (s : State) (tier frame : Nat) : State :=
  let s1 := s.zeroFrame tier frame
  if tier = 0 then { s1 with mem := { s1.mem with used1 := s1.mem.used1 ++ [frame] } }
  else { s1 with mem := { s1.mem with used2 := s1.mem.used2 ++ [frame] } }

/-- A frame out of use. -/
def State.freeUp (s : State) (tier frame : Nat) : State :=
  if tier = 0 then { s with mem := { s.mem with used1 := s.mem.used1.filter (fun f => f != frame) } }
  else { s with mem := { s.mem with used2 := s.mem.used2.filter (fun f => f != frame) } }

/-- The tier of a placement code. -/
def placeTier (place : Nat) : Nat := if place ≤ 1 then 0 else if place = 2 then 1 else 2

/-- The stack or package of page p under a placement code (R187). -/
def placeBank (place die p : Nat) : Nat := if place = 0 then p % 8 else if place = 1 then 2 * die + p % 2 else p % 16

/-- The entry that firmware writes for a page of an allocation (R187, R241, R242): W for STEP and PERSIST, PROT for PERSIST
and FROZEN, neither for tier 3 (R188). -/
def allocEntry (a : AllocRec) (tier frame : Nat) : W64 :=
  mkEntry true (decide (a.cls ≤ 1) && tier != 2) a.hr a.hw ((a.cls == 1 || a.cls == 2) && tier != 2) tier frame

/-- A page of an allocation mapped to a new frame; none where the named stack or package has no free frame. -/
def State.mapPage (s : State) (c : Nat) (a : AllocRec) (p : Nat) : Option State :=
  let tier := placeTier a.place
  if tier = 2 then
    let f := (List.range (s.ember.overflow.length + 1)).find? (fun f => !s.ember.overflow.any (fun q => q.1 == f))
    match f with
    | some f =>
      let home := match s.ember.cart with | some k => tset s.ember.tier3Home c k.serial | none => s.ember.tier3Home
      let s1 : State := { s with
        ember := { s.ember with overflow := s.ember.overflow ++ [(f, c)], tier3Home := home }
        mem := { s.mem with poison := s.mem.poison.filter (fun q => q != (2, f * 1024)) } }
      some ((s1.setTierMem 2 (mclear (s1.tierMem 2) (f * pageBytes) pageBytes)).setPentry c p (allocEntry a 2 f))
    | none => none
  else match s.freeFrame tier (placeBank a.place a.die p) with
    | some f => some ((s.takeFrame tier f).setPentry c p (allocEntry a tier f))
    | none => none

/-- The allocation of a context that holds a DVA page. -/
def State.allocOfPage (s : State) (c p : Nat) : Option AllocRec :=
  (s.ctx c).allocs.find? (fun a => a.space == 0 && decide (a.base ≤ p * pageBytes ∧ p * pageBytes < a.base + a.size))

/-- A tier 3 page whose cartridge is away, rebuilt from its protection copy into a free tier 2 frame and remapped (R188). The
copy lies in the partner, whose bytes are open here. Any package with a free frame will do. -/
def State.rebuildPage (s : State) (c p : Nat) : Option State :=
  let e := s.pentry c p
  match (List.range 16).findSome? (fun i => s.freeFrame 1 ((p + i) % 16)) with
  | none => none
  | some f =>
    let s1 := (s.takeFrame 1 f).writeTier 1 f 0 ((List.range pageBytes).map (fun i => Config.remoteByte (pageKey c p) i))
    some (s1.setPentry c p (mkEntry (eR e) (eW e) (eHR e) (eHW e) (eProt e) 1 f))

/-- What firmware does about a page that is not present (R187, R188): it maps a page at its first touch, and rebuilds one whose
cartridge is away; a page that is present stays. None where it cannot. -/
def State.serveAbsent (s : State) (c p : Nat) : Option State :=
  if !eV (s.pentry c p) then
    match s.allocOfPage c p with
    | some a => if a.touch then s.mapPage c a p else none
    | none => none
  else if eTier (s.pentry c p) = 2 && !s.tier3Up c then s.rebuildPage c p
  else some s

end Sys2Proof.Machine
end

