-- ==== Sys2Proof/Machine/MemService.lean ====
section
/-! DEFINITION. Host accesses through BAR2, and the memory service: invalidations, page moves, memory errors, retirement and
retraining (R192, R196, R199 to R206, R210 to R212). -/

namespace Sys2Proof.Machine

/-! ## BAR2 (R210 to R212) -/

/-- A host access error: a HOST report from the PCIe controller with the BAR2 offset (R211, Table 13-1). -/
def State.hostError (s : State) (off : Nat) : State := s.report (srcId 2 0x160) (BitVec.ofNat 32 off)

/-- A host access that waits (R202, R305). -/
def State.holdHost (s : State) (h : HostAccess) : State := { s with mem := { s.mem with heldHost := s.mem.heldHost ++ [h] } }

/-- The context and DVA of a BAR2 offset. -/
def State.bar2Dva (s : State) (off : Nat) : Nat × Nat := (s.setting 0x0011 % 4, (s.setting 0x0010 + off) % 2 ^ 42)

/-- A host access as the window stands when it is received (R210, R212). -/
def State.received (s : State) (h : HostAccess) : HostAccess := { h with ctx := (s.bar2Dva h.off).1, dva := (s.bar2Dva h.off).2 }

/-- A host read: the bytes, or 0xFF in every byte where a check fails or a line is poisoned; it waits for a channel in a retraining
window. A tier 3 page whose cartridge is away is rebuilt first (R188). -/
def State.hostRead (s : State) (h : HostAccess) : State :=
  let r := s.access none h.ctx (h.dva / pageBytes) false
  let bad := fun (s : State) => (s.hostError h.off).emit (.readData (List.replicate h.len 0xFF))
  let take := fun (s : State) (tier f : Nat) =>
    if s.spanHeld tier f (h.dva % pageBytes) h.len then s.holdHost h
    else if s.spanBad tier f (h.dva % pageBytes) h.len then bad s
    else s.emit (.readData (mreadN (s.tierMem tier) (f * pageBytes + h.dva % pageBytes) h.len))
  match r.2 with
  | .go tier f => take r.1 tier f
  | .fault k =>
    if k = 2 ∧ eV (r.1.pentry h.ctx (h.dva / pageBytes)) then
      match r.1.rebuildPage h.ctx (h.dva / pageBytes) with
      | some s1 => take s1 1 (eFrame (s1.pentry h.ctx (h.dva / pageBytes)))
      | none => bad r.1
    else bad r.1
  | _ => r.1.holdHost h

/-- The bytes of a host write stored in a frame, once its channel is in no retraining window. A worn cartridge takes none: the write is
dropped as a host access error (R209, log 120). A write to a protected page that PROT does not guard, one of tier 3, is marked written
(R302). -/
def State.hostStore (s : State) (h : HostAccess) (tier f : Nat) : State :=
  if s.spanHeld tier f (h.dva % pageBytes) h.data.length then s.holdHost h
  else if tier = 2 ∧ s.cartWorn then s.hostError h.off
  else
    let s1 := s.writeTier tier f (h.dva % pageBytes) h.data
    if tier = 2 then s1.markWritten h.ctx (h.dva / pageBytes) else s1

/-- A host write: dropped where a check fails; a protected page takes copy-on-write first. -/
def State.hostWrite (s : State) (h : HostAccess) : State :=
  let p := h.dva / pageBytes
  let r := s.access none h.ctx p true
  match r.2 with
  | .go tier f => r.1.hostStore h tier f
  | .fault _ => r.1.hostError h.off
  | .hold => r.1.holdHost h
  | .wait => r.1.holdHost h
  | .cow =>
    let q := r.1.cow h.ctx p (!h.counted)
    match q.2 with
    | .done =>
      let s2 := q.1.xcMark none h.ctx p
      let e := s2.pentry h.ctx p
      s2.hostStore h (eTier e) (eFrame e)
    | .full => q.1.holdHost { h with counted := true }

/-- A host access. -/
def State.hostAccess (s : State) (h : HostAccess) : State := if h.isWrite then s.hostWrite h else s.hostRead h

/-- Every held host access tried again, in order; those that still wait are held again. A SET_WRITE of the window for which none of
them is left replies (R212). -/
def State.retryHost (s : State) : State :=
  let s1 := s.mem.heldHost.foldl (fun s h => s.hostAccess h) ({ s with mem := { s.mem with heldHost := [] } } : State)
  let slots := (s.mem.heldHost.flatMap (fun h => h.awaited)).eraseDups
  (slots.filter (fun k => !s1.mem.heldHost.any (fun h => h.awaited.contains k))).foldl (fun (s : State) k => s.okWaiting k []) s1

/-- BAR2_READ. Before stage 8 of kindling every memory request is discarded (R422). -/
def execBar2Read (off : BitVec 34) (len : BitVec 13) (s : State) : Host.Outcome State Fault Refusal :=
  ok (if s.hostUp then s.hostAccess (s.received { isWrite := false, off := off.toNat, len := len.toNat }) else s)

/-- BAR2_WRITE. -/
def execBar2Write (off : BitVec 34) (data : List Byte) (s : State) : Host.Outcome State Fault Refusal :=
  ok (if s.hostUp then s.hostAccess (s.received { isWrite := true, off := off.toNat, len := data.length, data := data })
    else s)

/-! ## Invalidation (R196) -/

/-- Matching groups dropped from all 272 translation caches and the host cache; the invalidation is in progress. -/
def State.inval (s : State) (c first count : Nat) : State :=
  let s1 := s.dropGroups c first count
  { s1 with mem := { s1.mem with inval := some (c, first, count) } }

/-- INVAL, or INVAL_ALL. -/
def execInval (ctx : BitVec 2) (first count : Nat) (all : Bool) (s : State) : Host.Outcome State Fault Refusal :=
  ok (if all then s.inval ctx.toNat 0 (2 ^ 26) else s.inval ctx.toNat first count)

/-! ## Page moves (R201 to R203) -/

/-- The unit of a frame's controller (Table 13-2). -/
def memUnit (tier frame : Nat) : Nat := if tier = 0 then 0x120 + frame % 8 else 0x130 + frame % 16

/-- FLT_FIRST_INFO of the MEMORY class: the frame with its tier. -/
def memInfo (tier frame : Nat) : W32 := BitVec.ofNat 32 (frame % 2 ^ 27 + 2 ^ 30 * tier)

/-- A retirement list entry appended: TIER, REASON, FRAME; the list holds 8,192 (R201). STORE_CNT counts it (R375). -/
def State.listFrame (s : State) (tier frame reason : Nat) : State :=
  if s.isRetired tier frame || decide (8192 ≤ s.mem.retired.length) then s
  else { s with
    ctl := { s.ctl with storeCnt := s.ctl.storeCnt + 1 }
    mem := { s.mem with
      retired := s.mem.retired ++ [BitVec.ofNat 32 (frame % 2 ^ 27 + 2 ^ 27 * (reason % 8) + 2 ^ 30 * tier)] } }

/-- The pages that a frame holds: the trace ring's are mapped in every context. -/
def State.pagesOfFrame (s : State) (tier frame : Nat) : List (Nat × Nat) :=
  (s.mem.pmap.filter (fun p => eV p.2 && eTier p.2 == tier && eFrame p.2 == frame)).map (fun p => (p.1 / 2 ^ 26, p.1 % 2 ^ 26))

/-- Both copies of every entry of a page's frame changed, and each invalidated (R196, R202). -/
def State.editPages (s : State) (l : List (Nat × Nat)) (f : W64 → W64) : State :=
  l.foldl (fun (s : State) q => (s.setPentry q.1 q.2 (f (s.pentry q.1 q.2))).inval q.1 q.2 1) s

/-- MOV set in both copies of the entry, a spare frame of the same stack or package taken, the first invalidation issued. While
another page moves, the frame waits. Without a free frame the page cannot move: MEMORY and MODULE reports (R203). -/
def State.startMove (s : State) (c p reason : Nat) : State :=
  let e := s.pentry c p
  let tier := eTier e
  if !eV e || decide (2 ≤ tier) then s
  else match s.mem.moving with
  | some m =>
    if (eTier (s.pentry m.ctx m.page) = tier ∧ m.old = eFrame e) ∨ s.mem.retireQ.any (fun q => q.1 == tier && q.2.1 == eFrame e) then s
    else { s with mem := { s.mem with retireQ := s.mem.retireQ ++ [(tier, eFrame e, reason)] } }
  | none =>
    match s.spareFrame tier (eFrame e % banksOf tier) with
    | none => (s.report (srcId 8 (memUnit tier (eFrame e))) (memInfo tier (eFrame e))).moduleFault (memUnit tier (eFrame e))
    | some f =>
      let l := s.pagesOfFrame tier (eFrame e)
      let s1 := s.takeFrame tier f
      let s2 : State := { s1 with mem := { s1.mem with
        moving := some { ctx := c, page := p, old := eFrame e, new := f, reason := reason, stage := 1 } } }
      s2.editPages l (fun e => e ||| BitVec.ofNat 64 (2 ^ 57))

/-- The 64 KiB copied to the new frame with its poison marks, FRAME and MOV written in both copies, the second invalidation
issued; held accesses go on. A page of the trace ring takes its records there from now on (R392). -/
def State.copyMove (s : State) (m : Move) : State :=
  let e := s.pentry m.ctx m.page
  let tier := eTier e
  let t := s.tierMem tier
  let s1 := s.setTierMem tier (mcopy t (m.old * pageBytes) pageBytes t (m.new * pageBytes))
  let marks := (s.mem.poison.filter (fun p => p.1 == tier && p.2 / 1024 == m.old)).map (fun p => (tier, m.new * 1024 + p.2 % 1024))
  let ring := if tier = 1 then s.obs.ringFrames.map (fun f => if f = m.old then m.new else f) else s.obs.ringFrames
  let s2 : State := { s1 with
    mem := { s1.mem with poison := s1.mem.poison ++ marks, moving := some { m with stage := 2 } }
    obs := { s1.obs with ringFrames := ring } }
  (s2.editPages (s.pagesOfFrame tier m.old)
    (fun e => (e &&& ~~~(BitVec.ofNat 64 (2 ^ 57 + 2 ^ 27 - 1))) ||| BitVec.ofNat 64 m.new)).retryHost

/-- The next n frames that wait to be retired: each listed where it holds no page by now, up to one whose page begins to move. -/
def State.retireNext (s : State) : Nat → State
  | 0 => s
  | n + 1 => match s.mem.retireQ with
    | [] => s
    | q :: r =>
      let s1 : State := { s with mem := { s.mem with retireQ := r } }
      let s2 := match (s1.pagesOfFrame q.1 q.2.1).head? with
        | some p => s1.startMove p.1 p.2 q.2.2
        | none => s1.listFrame q.1 q.2.1 q.2.2
      if s2.mem.moving.isSome then s2 else s2.retireNext n

/-- The frames that wait to be retired, once no page moves. -/
def State.nextRetire (s : State) : State := if s.mem.moving.isSome then s else s.retireNext s.mem.retireQ.length

/-- INVAL_COMPLETE: the invalidation is complete, and a move that waited for it goes on: the copy, then the list entry. -/
def State.invalComplete (s : State) : State :=
  match s.mem.inval with
  | none => s
  | some _ =>
    let s1 : State := { s with mem := { s.mem with inval := none } }
    match s1.mem.moving with
    | none => s1
    | some m =>
      if m.stage = 1 then s1.copyMove m
      else (({ s1 with mem := { s1.mem with moving := none } } : State).listFrame (eTier (s1.pentry m.ctx m.page)) m.old m.reason).nextRetire

/-- INVAL_COMPLETE. -/
def execInvalComplete (s : State) : Host.Outcome State Fault Refusal := ok s.invalComplete

/-- Whether a frame holds a poisoned line. -/
def State.framePoisoned (s : State) (tier frame : Nat) : Bool := s.mem.poison.any (fun p => p.1 == tier && p.2 / 1024 == frame)

/-- PAGE_MOVE: the reason of the retirement is an uncorrectable error where the frame holds one, else the threshold (log 28). -/
def execPageMove (ctx : BitVec 2) (page : Nat) (s : State) : Host.Outcome State Fault Refusal :=
  let e := s.pentry ctx.toNat (page % 2 ^ 26)
  ok (s.startMove ctx.toNat (page % 2 ^ 26) (if s.framePoisoned (eTier e) (eFrame e) then 2 else 1))

/-- The page that a frame holds, if any: context and page. -/
def State.pageOfFrame (s : State) (tier frame : Nat) : Option (Nat × Nat) := (s.pagesOfFrame tier frame).head?

/-- PAGE_RETIREMENT: a frame that holds a page moves it first (R202); an unmapped one goes on the list at once (R201). -/
def State.retire (s : State) (tier frame reason : Nat) : State :=
  if s.isRetired tier frame then s
  else match s.pageOfFrame tier frame with
    | some p => s.startMove p.1 p.2 reason
    | none => s.listFrame tier frame reason

/-- The number of a tier that the controller corrects. -/
def tierNum : Tier → Nat
  | .t1 => 0
  | .t2 => 1

/-- Whether a frame exists (Table 08-1). -/
def frameOk (tier : Tier) (frame : Nat) : Bool := decide (frame < bankFrames (tierNum tier) * banksOf (tierNum tier))

/-- PAGE_RETIREMENT, for one of the reasons of R201. -/
def execPageRetirement (tier : Tier) (frame : Nat) (reason : BitVec 3) (s : State) : Host.Outcome State Fault Refusal :=
  guardPart (frameOk tier frame) .noSuchFrame
    (if 1 ≤ reason.toNat ∧ reason.toNat ≤ 4 then s.retire (tierNum tier) frame reason.toNat else s)

/-! ## Errors (R199, R200) -/

/-- A corrected error counted against its frame within 24 h and reported with the frame's count; RETIRE_CE of them retire the frame
(R201). -/
def State.correctedError (s : State) (tier frame : Nat) : State :=
  let key := tier * 2 ^ 27 + frame
  let old := (tget [] s.mem.ceCount key).filter (fun t => decide (s.clk.ticks < t + 86400 * ticksPerSecond))
  let l := old ++ [s.clk.ticks]
  let s1 := ({ s with mem := { s.mem with ceCount := tset s.mem.ceCount key l } } : State).count (memUnit tier frame) 0x103 1
  let s2 := s1.reportCorr (memUnit tier frame) (BitVec.ofNat 32 l.length)
  if s.setting 0x0021 ≤ l.length then s2.retire tier frame 1 else s2

/-- CORRECTED_ERROR. -/
def execCorrectedError (tier : Tier) (frame : Nat) (s : State) : Host.Outcome State Fault Refusal :=
  guardPart (frameOk tier frame) .noSuchFrame (s.correctedError (tierNum tier) frame)

/-- Whether a frame holds a PERSIST page of the running context. -/
def State.holdsPersist (s : State) (tier frame : Nat) : Bool :=
  match s.pageOfFrame tier frame with
  | some (c, p) => c == s.sched.ctx && (match s.allocOfPage c p with | some a => a.cls == 1 | none => false)
  | none => false

/-- A line poisoned; in a PERSIST page of the running job it ends the job (R326). -/
def State.poisonLine (s0 : State) (tier frame line : Nat) : State :=
  let s := if s0.holdsPersist tier frame then s0.stopSoon else s0
  if s.mem.poison.contains (tier, frame * 1024 + line) then s
  else { s with mem := { s.mem with poison := s.mem.poison ++ [(tier, frame * 1024 + line)] } }

/-- PATROL_SCRUB_READ: a corrected line is written back where no write has intervened, which changes no contents; an
uncorrectable one is poisoned, unless a write has intervened, reported as MEMORY with its frame, and its frame is retired (R199 to R201,
Table 13-1). -/
def execPatrolScrubRead (tier : Tier) (frame : Nat) (line : BitVec 10) (found : ScrubResult) (written : Bool) (s : State) :
    Host.Outcome State Fault Refusal :=
  let t := tierNum tier
  let s := s.count (memUnit t frame) 0x104 1
  guardPart (frameOk tier frame) .noSuchFrame (match found with
    | .clean => s
    | .corrected => s.correctedError t frame
    | .uncorrectable => (((if written then s else s.poisonLine t frame line.toNat).report (srcId 8 (memUnit t frame))
        (memInfo t frame)).retire t frame 3))

/-! ## Retraining (R204 to R206) -/

/-- RETRAIN_WINDOW_TIER1: at most one channel of a stack is in a window (R204). -/
def execRetrainWindowTier1 (channel : BitVec 8) (s : State) : Host.Outcome State Fault Refusal :=
  let c := channel.toNat
  ok (if s.mem.window1.any (fun w => w / 32 == c / 32) || s.mem.dead1.contains c then s
    else { s with mem := { s.mem with window1 := s.mem.window1 ++ [c] } })

/-- RETRAIN_WINDOW_TIER2: at most one channel is in a window; page map fills use the copy meanwhile (R205). -/
def execRetrainWindowTier2 (channel : BitVec 4) (s : State) : Host.Outcome State Fault Refusal :=
  let c := channel.toNat
  ok (if s.mem.window2.isSome || s.mem.dead2.contains c then s
    else { s with mem := { s.mem with window2 := some c } })

/-- The key of a channel's failures. -/
def channelKey (tier : Nat) (c : Nat) : Nat := 256 * tier + c

/-- A window closed. -/
def State.closeWindow (s : State) (tier c : Nat) : State :=
  if tier = 0 then { s with mem := { s.mem with window1 := s.mem.window1.filter (fun w => w != c) } }
  else if s.mem.window2 = some c then { s with mem := { s.mem with window2 := none } } else s

/-- Whether a channel exists (R204, R205). -/
def channelOk (tier : Tier) (c : BitVec 8) : Bool := match tier with | .t1 => true | .t2 => decide (c.toNat < 16)

/-- RETRAIN_WINDOW_END: the requests that wait for the channel go on; its failures in a row end. -/
def execRetrainWindowEnd (tier : Tier) (channel : BitVec 8) (s : State) : Host.Outcome State Fault Refusal :=
  let t := tierNum tier
  let s1 := s.closeWindow t channel.toNat
  guardPart (channelOk tier channel) .noSuchFrame
    (({ s1 with mem := { s1.mem with failRuns := tdel s1.mem.failRuns (channelKey t channel.toNat) } } : State).retryHost)

/-- The frames of a stack or package on the retirement list with REASON 4, as far as its 8,192 entries reach: the lowest ones, for the
stack has more (log 28). -/
def State.listBank (s : State) (tier bank : Nat) : State :=
  let room := 8192 - s.mem.retired.length
  let fs := ((List.range (room + s.mem.retired.length)).map (fun i => i * banksOf tier + bank)).filter (fun f =>
    !s.mem.retired.any (fun e => getField e 30 2 == tier && getField e 0 27 == f))
  { s with
    ctl := { s.ctl with storeCnt := s.ctl.storeCnt + BitVec.ofNat 32 (fs.take room).length }
    mem := { s.mem with
      retired := s.mem.retired ++ (fs.take room).map (fun f => BitVec.ofNat 32 (f % 2 ^ 27 + 2 ^ 27 * 4 + 2 ^ 30 * tier)) } }

/-- A channel out of service: the frames of its stack or package are retired (R206). -/
def State.channelOut (s : State) (t c : Nat) : State :=
  if t = 0 then
    (if s.mem.dead1.contains c then s
     else
       let s1 := if s.mem.dead1.any (fun d => d / 32 == c / 32) then s else s.listBank 0 (c / 32)
       { s1 with mem := { s1.mem with dead1 := s1.mem.dead1 ++ [c] } })
  else if s.mem.dead2.contains c then s
  else let s1 := s.listBank 1 c; { s1 with mem := { s1.mem with dead2 := s1.mem.dead2 ++ [c] } }

/-- RETRAINING_FAILURE: the third in a row takes the channel out of service: its frames are retired with REASON 4 and a MODULE
report is raised (R206). -/
def State.retrainFailure (s : State) (t c : Nat) : State :=
  let s1 := s.closeWindow t c
  let n := tget 0 s1.mem.failRuns (channelKey t c) + 1
  let s2 : State := { s1 with mem := { s1.mem with failRuns := tset s1.mem.failRuns (channelKey t c) n } }
  if n < 3 ∨ (if t = 0 then s2.mem.dead1.contains c else s2.mem.dead2.contains c) then s2.retryHost
  else
    (s2.channelOut t c).retryHost.moduleFault (if t = 0 then 0x120 + c / 32 else 0x130 + c)

/-- RETRAINING_FAILURE. -/
def execRetrainingFailure (tier : Tier) (channel : BitVec 8) (s : State) : Host.Outcome State Fault Refusal :=
  guardPart (channelOk tier channel) .noSuchFrame (s.retrainFailure (tierNum tier) channel.toNat)

end Sys2Proof.Machine
end

