-- ==== Sys2Proof/Machine/GrateArith.lean ====
section
/-! DEFINITION. The grate's arithmetic, integer, bit, compare, select and mask opcodes (Table 04-3, R90) on one firebox. -/

namespace Sys2Proof.Machine

/-- The float format of FMT; only F formats reach it (R87). -/
def fmtF (f : BitVec 4) : FloatFmt := (floatOf f).getD fp32

/-- The lane width of an arithmetic opcode's result and sources. -/
def wideOf (g : GrateWord) : Nat := max (laneWidth g.fmt) (laneWidth g.fmtd)

/-- An F opcode of up to three sources: the exact result of each lane rounded once to FMTD (R38, R90). -/
def gFloat (f : RMode → Num → Num → Num → Num × W32) (t : Tile) (g : GrateWord) : Tile :=
  let w := laneWidth g.fmt
  let n := t.vle (wideOf g)
  let a := t.lanes g.va.toNat w n
  let b := t.srcB g w n
  let c := t.lanes g.vc.toNat w n
  let rm := rmOf g.rm 0
  t.writeLanes g (laneWidth g.fmtd) n (fun i =>
    let r := f rm (decodeFloat (fmtF g.fmt) (nth 0 a i)) (decodeFloat (fmtF g.fmt) (nth 0 b i))
      (decodeFloat (fmtF g.fmt) (nth 0 c i))
    let p := packArith (fmtF g.fmtd) rm r.1
    (p.1, r.2 ||| p.2))

/-- VLERP: two roundings to FMTD. -/
def gLerp (t : Tile) (g : GrateWord) : Tile :=
  gFloat (fun rm a b c =>
    let d := addNum rm a b.neg
    let p := packArith (fmtF g.fmtd) rm d.1
    let r := fmaNum rm c (decodeFloat (fmtF g.fmtd) p.1) b
    (r.1, d.2 ||| p.2 ||| r.2)) t g

/-- VABS and VNEG pass a value on with a new sign. -/
def gSign (f : Num → Num) (t : Tile) (g : GrateWord) : Tile :=
  gFloat (fun _ a _ _ => (f a, snanFlags [a])) t g

/-- VCLAMP. -/
def gClamp (t : Tile) (g : GrateWord) : Tile :=
  gFloat (fun _ a b c => let m := maxNum a b; let r := minNum m.1 c; (r.1, m.2 ||| r.2)) t g

/-- An opcode on the bits of lanes of any W format; it sets no flag (R90). -/
def gBits (f : Nat → Nat → Nat → Nat) (t : Tile) (g : GrateWord) : Tile :=
  let w := laneWidth g.fmt
  let n := t.vle w
  let a := t.lanes g.va.toNat w n
  let b := t.srcB g w n
  t.writeLanes g w n (fun i => (f w (nth 0 a i) (nth 0 b i) % 2 ^ w, 0))

/-- Arithmetic right shift of a w-bit lane. -/
def sraLane (w a k : Nat) : Nat := (signed w a / 2 ^ k % 2 ^ w).toNat

/-- The value that a compare opcode orders: the value of the element code in its lane (log 12). -/
def orderVal (fmt : BitVec 4) (code : Nat) : Num := decodeElem fmt code

/-- A compare opcode: bits to m[VD]; a NaN operand makes the comparison false, a signalling one sets NV (R29, R30). -/
def gCompare (f : Num → Num → Bool) (t : Tile) (g : GrateWord) : Tile :=
  let w := laneWidth g.fmt
  let n := t.vle w
  let a := t.lanes g.va.toNat w n
  let b := t.srcB g w n
  t.writeBits g n (fun i =>
    let x := orderVal g.fmt (nth 0 a i)
    let y := orderVal g.fmt (nth 0 b i)
    (f x y, snanFlags [x, y]))

/-- a ≤ b, false with a NaN. -/
def leNum (a b : Num) : Bool := !a.isNan && !b.isNan && !ltNum b a

/-- The class bit of VCLASS. -/
def classBit (f : FloatFmt) (code : Nat) : Nat :=
  match decodeFloat f code with
  | .nan _ => 8
  | .inf n => if n then 0 else 7
  | .fin n m _ =>
    if m = 0 then (if n then 3 else 4)
    else if m < 2 ^ f.mb then (if n then 2 else 5)
    else if n then 1 else 6

/-- VCLASS; a signalling NaN sets NV as every operand that is one (R29, log 109). -/
def gClass (t : Tile) (g : GrateWord) : Tile :=
  let w := laneWidth g.fmt
  let n := t.vle w
  let a := t.lanes g.va.toNat w n
  t.writeBits g n (fun i =>
    (g.imm.getLsbD (classBit (fmtF g.fmt) (nth 0 a i)), snanFlags [decodeFloat (fmtF g.fmt) (nth 0 a i)]))

/-- VSEL. -/
def gSel (t : Tile) (g : GrateWord) : Tile :=
  let w := laneWidth g.fmt
  let n := t.vle w
  let a := t.lanes g.va.toNat w n
  let b := t.srcB g w n
  let m := t.mask (g.imm.toNat % 8)
  t.writeLanes g w n (fun i => (if m.getLsbD i then nth 0 a i else nth 0 b i, 0))

/-- A mask opcode of two mask sources. -/
def gMask (f : Bool → Bool → Bool) (t : Tile) (g : GrateWord) : Tile :=
  let a := t.mask g.va.toNat
  let b := t.mask g.vb.toNat
  t.writeBits g (t.vle 8) (fun i => (f (a.getLsbD i) (b.getLsbD i), 0))

/-- MPREFIX. -/
def gPrefix (t : Tile) (g : GrateWord) : Tile := t.writeBits g (t.vle 8) (fun i => (decide (i < g.imm.toNat), 0))

/-- MPOP: set bits of m[a] in active lanes below VLe. -/
def gPop (t : Tile) (g : GrateWord) : Tile :=
  let a := t.mask g.va.toNat
  let n := (List.range (t.vle 8)).countP (fun i => t.active g i && a.getLsbD i)
  t.xset g.vd.toNat (BitVec.ofNat 32 n)

/-! ## Conversions and random numbers (R25 to R27, R96, R97) -/

/-- The 64-bit index i0 = x[VB + 1], x[VB] of R96. -/
def Tile.index0 (t : Tile) (g : GrateWord) : Nat :=
  (t.xget g.vb.toNat).toNat + 2 ^ 32 * (t.xget (g.vb.toNat + 1)).toNat

/-- The mode of a conversion in lane i: SR draws its bits under R40 and R96. -/
def convMode (e : GEnv) (t : Tile) (g : GrateWord) (i : Nat) : RMode :=
  rmOf g.rm (randomBits e.seed e.step g.imm.toNat (t.index0 g + i))

/-- VCVT. -/
def gCvt (e : GEnv) (t : Tile) (g : GrateWord) : Tile :=
  let w := laneWidth g.fmt
  let n := t.vle (wideOf g)
  let a := t.lanes g.va.toNat w n
  t.writeLanes g (laneWidth g.fmtd) n (fun i =>
    convertNum g.fmtd (convMode e t g i) g.sat (decodeElem g.fmt (nth 0 a i)))

/-- A list cut into chunks of k, n of them. -/
def chunks {α : Type} (k : Nat) : Nat → List α → List (List α)
  | 0, _ => []
  | n + 1, l => l.take k :: chunks k n (l.drop k)

/-- Blocks of k lanes encoded: element codes to v[VD] under R84, the scale of block j to 8-bit lane j of v[VC]. -/
def gEncode (k : Nat) (enc : List (Option Num × RMode) → Nat × List Nat × W32) (e : GEnv) (t : Tile) (g : GrateWord) : Tile :=
  let n := t.vle (wideOf g)
  let a := t.lanes g.va.toNat 32 n
  let ins := (List.range n).map (fun i =>
    (if t.active g i then some (decodeFloat fp32 (nth 0 a i)) else none, convMode e t g i))
  let outs := (chunks k ((n + k - 1) / k) ins).map enc
  let codes := outs.flatMap (fun o => o.2.1)
  let t1 := t.writeLanes g (laneWidth g.fmtd) n (fun i => (nth 0 codes i, 0))
  (t1.putLanes g.vc.toNat 8 (outs.map (fun o => some o.1))).raise (outs.foldl (fun acc o => acc ||| o.2.2) 0)

/-- VCVTMX. -/
def gCvtMx (e : GEnv) (t : Tile) (g : GrateWord) : Tile := gEncode 32 (mxEncode g.fmtd) e t g

/-- VCVTSB. -/
def gCvtSb (e : GEnv) (t : Tile) (g : GrateWord) : Tile :=
  gEncode 64 (fun blk => sbEncode (blk.map (fun p => p.1))) e t g

/-- VDCMX. -/
def gDcMx (t : Tile) (g : GrateWord) : Tile :=
  let n := t.vle 32
  let a := t.lanes g.va.toNat 8 n
  let x := t.lanes g.vc.toNat 8 ((n + 31) / 32)
  let rm := rmOf g.rm 0
  t.writeLanes g 32 n (fun i =>
    let v := mxValue g.fmt (nth 0 a i) (nth 0 x (i / 32))
    let p := packArith fp32 rm v.1
    (p.1, v.2 ||| p.2))

/-- VDCSB. -/
def gDcSb (t : Tile) (g : GrateWord) : Tile :=
  let n := t.vle 32
  let a := t.lanes g.va.toNat 16 n
  let x := t.lanes g.vc.toNat 8 ((n + 63) / 64)
  t.writeLanes g 32 n (fun i => let r := sbDecode (nth 0 a i) (nth 0 x (i / 64)); (r.1.toNat, r.2))

/-- VRNGB: raw 16-bit draws. -/
def gRngB (e : GEnv) (t : Tile) (g : GrateWord) : Tile :=
  t.writeLanes g 16 (t.vle 16) (fun i => (randomBits e.seed e.step g.imm.toNat (t.index0 g + i), 0))

/-- VRNGU: uniform draws in [0, 1), exact FP32 values. -/
def gRngU (e : GEnv) (t : Tile) (g : GrateWord) : Tile :=
  t.writeLanes g 32 (t.vle 32) (fun i =>
    let r := fun k => randomBits e.seed e.step g.imm.toNat (2 * (t.index0 g + i) + k)
    ((packFinite fp32 .rne .arith false ((r 0 + 2 ^ 16 * r 1) / 2 ^ 8) (-24)).1, 0))

end Sys2Proof.Machine
end

