-- ==== Sys2Proof/Machine/GratePerm.lean ====
section
/-! DEFINITION. The grate's permutes, segment reductions and scans (R91 to R95, Table 04-3) on one firebox. -/

namespace Sys2Proof.Machine

/-- A permute: lane i takes the source lane `k i` of a (or of c where `k` answers so); lanes named out of range read +0
under R93, and only active lanes name one. -/
def gPermute (k : Nat → Nat → Bool × Int) (w : Nat) (t : Tile) (g : GrateWord) : GRes :=
  let n := t.vle w
  let a := t.lanes g.va.toNat w n
  let c := t.lanes g.vc.toNat w n
  let named := (List.range n).any (fun i => t.active g i && outOfRange n (k n i).2)
  laneRange t (t.writeLanes g w n (fun i => let p := k n i; (laneAt (if p.1 then c else a) n p.2, 0))) named

/-- VPERM. -/
def gVperm (t : Tile) (g : GrateWord) : GRes :=
  let idx := t.lanes g.vb.toNat 16 (min (t.vle (laneWidth g.fmt)) 1024) ++
    t.lanes (g.vb.toNat + 1) 16 (t.vle (laneWidth g.fmt) - 1024)
  gPermute (fun _ i => (false, ((nth 0 idx i : Nat) : Int))) (laneWidth g.fmt) t g

/-- VBCL. -/
def gVbcl (t : Tile) (g : GrateWord) : GRes :=
  let s := t.sval g
  gPermute (fun _ _ => (false, s)) (laneWidth g.fmt) t g

/-- VROT. -/
def gVrot (t : Tile) (g : GrateWord) : GRes :=
  let s := t.sval g
  gPermute (fun n i => (false, ((i + s) % n : Nat))) (laneWidth g.fmt) t g

/-- VSLUP. -/
def gVslup (t : Tile) (g : GrateWord) : GRes :=
  let s := t.sval g
  gPermute (fun n i => if s ≤ i then (false, (i : Int) - s) else (true, (n : Int) - s + i)) (laneWidth g.fmt) t g

/-- VSLDN. -/
def gVsldn (t : Tile) (g : GrateWord) : GRes :=
  let s := t.sval g
  gPermute (fun n i => if i + s < n then (false, (i + s : Nat)) else (true, ((i + s : Nat) : Int) - n)) (laneWidth g.fmt) t g

/-- VZIP. -/
def gVzip (t : Tile) (g : GrateWord) : Tile :=
  let w := laneWidth g.fmt
  let n := t.vle w
  let a := t.lanes g.va.toNat w n
  let b := t.srcB g w n
  t.writeLanes g w n (fun i => (if i % 2 = 0 then nth 0 a (i / 2) else nth 0 b (i / 2), 0))

/-- VUNZIP. -/
def gVunzip (t : Tile) (g : GrateWord) : Tile :=
  let w := laneWidth g.fmt
  let n := t.vle w
  let a := t.lanes g.va.toNat w n
  let h := (n + 1) / 2
  t.writeLanes g w n (fun i => (if i < h then nth 0 a (2 * i) else nth 0 a (2 * (i - h) + 1), 0))

/-- VCMPR: the masked lanes packed, then +0. -/
def gVcmpr (t : Tile) (g : GrateWord) : Tile :=
  let w := laneWidth g.fmt
  let n := t.vle w
  let a := t.lanes g.va.toNat w n
  let m := t.mask g.msk.toNat
  let kept := (List.range n).filter (fun i => m.getLsbD i)
  t.putLanes g.vd.toNat w ((List.range n).map (fun j =>
    some (if j < kept.length then nth 0 a (nth 0 kept j) else 0)))

/-- XMV: lane IMM of a to x[d], zero-extended. -/
def gXmv (t : Tile) (g : GrateWord) : GRes :=
  let w := laneWidth g.fmt
  let n := t.vle w
  let a := t.lanes g.va.toNat w n
  let k : Int := g.imm.toNat
  laneRange t (t.xset g.vd.toNat (BitVec.ofNat 32 (laneAt a n k))) (outOfRange n k)

/-! ## Segment reductions -/

/-- One level of the fixed tree of R91: an absent partner passes a value on. -/
def treeLevel {α : Type} (f : α → α → α) : List (Option α) → List (Option α)
  | [] => []
  | [x] => [x]
  | x :: y :: r =>
    (match x, y with
     | none, _ => y
     | _, none => x
     | some a, some b => some (f a b)) :: treeLevel f r

/-- The fixed tree over 2^k lanes. -/
def treeFold {α : Type} (f : α → α → α) : Nat → List (Option α) → Option α
  | 0, l => (l.head?).getD none
  | k + 1, l => treeFold f k (treeLevel f l)

/-- Segments of L = 2^k lanes, the last one padded with absent lanes. -/
def segments {α : Type} (k n : Nat) (l : List (Option α)) : List (List (Option α)) :=
  (chunks (2 ^ k) ((n + 2 ^ k - 1) / 2 ^ k) l).map (fun s => s ++ List.replicate (2 ^ k - s.length) none)

/-- A value with the flags raised so far. -/
abbrev Flagged (α : Type) := α × W32

/-- A combine of FP32 codes lifted to flagged values. -/
def lift2 (f : W32 → W32 → W32 × W32) (a b : Flagged W32) : Flagged W32 :=
  let r := f a.1 b.1
  (r.1, a.2 ||| b.2 ||| r.2)

/-- VRSUM, VRMAX, VRMIN, VRAMAX (R91). -/
def gReduce (pre : Num → Num) (f : W32 → W32 → W32 × W32) (t : Tile) (g : GrateWord) : Tile :=
  let k := g.imm.toNat % 16
  let n := t.vle (wideOf g)
  let a := t.lanes g.va.toNat (laneWidth g.fmt) n
  let ins := (List.range n).map (fun i =>
    if t.active g i then
      let v := decodeFloat (fmtF g.fmt) (nth 0 a i)
      some ((BitVec.ofNat 32 (packArith fp32 .rne (pre v)).1, snanFlags [v]) : Flagged W32)
    else none)
  let outs := (segments k n ins).map (fun s => (treeFold (lift2 f) k s).getD (0, 0))
  let rs := outs.map (fun o => let p := packArith (fmtF g.fmtd) (rmOf g.rm 0) (val32 o.1); (p.1, o.2 ||| p.2))
  (t.putLanes g.vd.toNat (laneWidth g.fmtd) (rs.map (fun p => some p.1))).raise (rs.foldl (fun acc p => acc ||| p.2) 0)

/-- max, min of FP32 codes. -/
def max32 (a b : W32) : W32 × W32 := pack32 .rne (maxNum (val32 a) (val32 b))
def min32 (a b : W32) : W32 × W32 := pack32 .rne (minNum (val32 a) (val32 b))

/-- The better of two arg-max candidates (offset, value), the lower offset first: a NaN wins, then the greater value. -/
def argBetter (a b : Nat × Num) : Nat × Num :=
  if a.2.isNan then a else if b.2.isNan then b else if ltNum a.2 b.2 then b else a

/-- VRARGMAX (R92). -/
def gArgMax (t : Tile) (g : GrateWord) : Tile :=
  let k := g.imm.toNat % 16
  let n := t.vle 32
  let a := t.lanes g.va.toNat (laneWidth g.fmt) n
  let vals := (List.range n).map (fun i => decodeFloat (fmtF g.fmt) (nth 0 a i))
  let ins := (List.range n).map (fun i =>
    if t.active g i then some (i % 2 ^ k, nth Num.zero vals i) else none)
  let outs := (segments k n ins).map (fun s => match treeFold argBetter k s with | some p => p.1 | none => 0xFFFFFFFF)
  let fl := snanFlags ((List.range n).filterMap (fun i => if t.active g i then some (nth Num.zero vals i) else none))
  (t.putLanes g.vd.toNat 32 (outs.map some)).raise fl

/-! ## Scans (R95) -/

/-- A scan position: A, B, the segment mark F, and flags. -/
structure ScanPos where
  a : W32
  b : W32
  f : Bool
  fl : W32 := 0
  deriving DecidableEq, Repr

/-- One level of the scan at distance d. -/
def scanLevel (comb : W32 → W32 → W32 → W32 × W32) (d : Nat) (l : List ScanPos) : List ScanPos :=
  List.zipWith (fun (p : ScanPos) (q : Option ScanPos) =>
    match q with
    | none => p
    | some q =>
      if p.f then p
      else
        let b := comb p.a q.b p.b
        let a := mul32 p.a q.a
        { a := a.1, b := b.1, f := q.f, fl := p.fl ||| b.2 ||| a.2 })
    l (List.replicate (min d l.length) none ++ l.map some)

/-- The levels from `level` on, n of them. -/
def scanLevels (comb : W32 → W32 → W32 → W32 × W32) : Nat → Nat → List ScanPos → List ScanPos
  | 0, _, l => l
  | n + 1, level, l => scanLevels comb n (level + 1) (scanLevel comb (2 ^ level) l)

/-- ceil(log2 n). -/
def clog2 (n : Nat) : Nat := if n ≤ 1 then 0 else Nat.log2 (n - 1) + 1

/-- VSCANLR (lin), VSCANSUM and VSCANMAX (maxi) under R95; the latter two take their data from b. A signalling a(t) sets NV
at a segment start too, though its value is ignored there (log 113). -/
def gScan (lin maxi : Bool) (t : Tile) (g : GrateWord) : Tile :=
  let seg := g.imm.getLsbD 0
  let rev := g.imm.getLsbD 1
  let cin := g.imm.getLsbD 2
  let n := t.vle (wideOf g)
  let w := laneWidth g.fmt
  let fmt := fmtF g.fmt
  let va := t.lanes g.va.toNat w n
  let vb := t.srcB g w n
  let m := t.mask g.msk.toNat
  let one32 : W32 := 0x3F800000
  let pos := (List.range n).map (fun i =>
    let x := decodeFloat fmt (nth 0 va i)
    let y := decodeFloat fmt (nth 0 vb i)
    ({ a := if lin then BitVec.ofNat 32 (packArith fp32 .rne x).1 else one32,
       b := BitVec.ofNat 32 (packArith fp32 .rne y).1,
       f := seg && m.getLsbD i,
       fl := snanFlags (if lin then [x, y] else [y]) } : ScanPos))
  let dir := fun {α : Type} (l : List α) => if rev then l.reverse else l
  let comb := fun a q p => if maxi then max32 q p else fma32 a q p
  let done := scanLevels comb (clog2 n) 0 (dir pos)
  let cl := t.lanes g.vc.toNat (laneWidth g.fmtd) n
  let hv := decodeFloat (fmtF g.fmtd) (nth 0 cl (if rev then 0 else n - 1))
  let hin : W32 := BitVec.ofNat 32 (packArith fp32 .rne hv).1
  let hs := done.map (fun p =>
    if p.f || !cin then (p.b, p.fl)
    else let r := if maxi then max32 hin p.b else fma32 p.a hin p.b; (r.1, p.fl ||| r.2 ||| snanFlags [hv]))
  let outs := (dir hs).map (fun h => let p := packArith (fmtF g.fmtd) (rmOf g.rm 0) (val32 h.1); (p.1, h.2 ||| p.2))
  let act := fun i => seg || t.active g i
  (t.putLanes g.vd.toNat (laneWidth g.fmtd)
    ((List.range n).map (fun i => laneOut (act i) g.mz (nth (0, (0 : W32)) outs i).1))).raise
    (outs.foldl (fun acc o => acc ||| o.2) 0)

end Sys2Proof.Machine
end

