-- ==== Sys2Proof/Machine/Real.lean ====
section
/-! DEFINITION. The built-in functions of the special-function unit (Table 05-1) as real functions, to about 1,000
fraction bits: far beyond the spacing of any result format, so that one rounding of the approximation is the rounding of
the true value. A value that is not exactly representable carries a sticky last bit. -/

namespace Sys2Proof.Machine

/-- Fraction bits of a fixed-point real. -/
def fxP : Nat := 1152
/-- Fixed-point 1. -/
def fxOne : Int := 2 ^ fxP

/-- Product of two fixed-point reals. -/
def fxMul (a b : Int) : Int := a * b / fxOne
/-- Quotient of two fixed-point reals. -/
def fxDiv (a b : Int) : Int := a * fxOne / b

/-- The sum of n terms of the exponential series from term t of index i. -/
def expSeries (x : Int) : Nat → Nat → Int → Int
  | 0, _, _ => 0
  | n + 1, i, t => t + expSeries x n (i + 1) (fxMul t x / (i + 1))

/-- The sum of n terms z^(2i+1)/(2i+1), alternating in sign where alt holds; p is z^(2i+1). -/
def oddSeries (zz : Int) (alt : Bool) : Nat → Nat → Int → Int
  | 0, _, _ => 0
  | n + 1, i, p =>
    p / (2 * i + 1) - (if alt then oddSeries zz alt n (i + 1) (fxMul p zz)
      else -oddSeries zz alt n (i + 1) (fxMul p zz))

/-- The arc tangent of 1/n. -/
def atanRecip (n : Nat) : Int := oddSeries (fxOne / (n * n)) true 260 0 (fxOne / n)

/-- π by Machin's formula. -/
def fxPi : Int := 16 * atanRecip 5 - 4 * atanRecip 239

/-- ln of a fixed-point real in [1, 2]. -/
def lnUnit (v : Int) : Int :=
  let z := fxDiv (v - fxOne) (v + fxOne)
  2 * oddSeries (fxMul z z) false 380 0 z

/-- ln 2. -/
def fxLn2 : Int := lnUnit (2 * fxOne)

/-- e^x of a fixed-point real. -/
def fxExp (x : Int) : Int :=
  let l := fxLn2
  let k := x / l
  let r := expSeries (x - k * l) 220 0 fxOne
  if 0 ≤ k then r * 2 ^ k.toNat else r / 2 ^ (-k).toNat

/-- A finite value as a fixed-point real, floor. -/
def toFx (neg : Bool) (m : Nat) (e : Int) : Int :=
  let k := e + fxP
  let v : Int := if 0 ≤ k then (m * 2 ^ k.toNat : Nat) else (m / 2 ^ (-k).toNat : Nat)
  if neg then -v else v

/-- x held within [-n, n]. -/
def fxClamp (n : Nat) (x : Int) : Int := max (-(n * fxOne)) (min (n * fxOne) x)

/-- ln of the exact value m · 2^e, m above 0. -/
def fxLn (m : Nat) (e : Int) : Int :=
  let k := Nat.log2 m
  lnUnit (m * fxOne / 2 ^ k) + (e + k) * fxLn2

/-- The sum of n terms of erf's alternating series; t is x^(2i+1)/i!. -/
def erfSeries (xx : Int) : Nat → Nat → Int → Int
  | 0, _, _ => 0
  | n + 1, i, t => t / (2 * i + 1) - erfSeries xx n (i + 1) (fxMul t xx / (i + 1))

/-- erf x, x held within [-13, 13] where the last bits of any format are settled. -/
def fxErf (x : Int) : Int :=
  let c := fxClamp 13 x
  let root : Int := isqrt (fxPi.toNat * 2 ^ fxP)
  fxDiv (2 * erfSeries (fxMul c c) 1400 0 c) root

/-- 1/(1 + e^-x). -/
def fxSigmoid (x : Int) : Int := fxDiv fxOne (fxOne + fxExp (-(fxClamp 300 x)))

/-- tanh x. -/
def fxTanh (x : Int) : Int :=
  let e := fxExp (-2 * fxClamp 200 x)
  fxDiv (fxOne - e) (fxOne + e)

/-- The sum of n terms of the sine (i odd) or cosine (i even) series from term t of index i. -/
def trigSeries (xx : Int) : Nat → Nat → Int → Int
  | 0, _, _ => 0
  | n + 1, i, t => t - trigSeries xx n (i + 2) (fxMul t xx / ((i + 1) * (i + 2)))

/-- sin (or cos) of the fixed-point real x. -/
def fxTrig (cosine : Bool) (x : Int) : Int :=
  let h := fxPi / 2
  let k := x / h
  let r := x - k * h
  let q := ((k + (if cosine then 1 else 0)) % 4).toNat
  let v := if q % 2 = 0 then trigSeries (fxMul r r) 140 1 r else trigSeries (fxMul r r) 140 0 fxOne
  if q < 2 then v else -v

/-- A fixed-point real that is not exactly representable, as a value with a sticky last bit; an underflow of the
fixed-point range keeps the sign given. -/
def ofFx (sgn : Bool) (v : Int) : Num :=
  let n := if v = 0 then sgn else decide (v < 0)
  .fin n (2 * v.natAbs + 1) (-(fxP : Int) - 1)

/-- The exact value m · 2^e multiplied by a fixed-point real. -/
def mulFx (neg : Bool) (m : Nat) (e : Int) (v : Int) : Num :=
  match ofFx false v with
  | .fin n k f => .fin (n != neg) (m * k) (e + f)
  | r => r

/-- e^x of an exact finite value: exactly 1 at 0, else sticky. -/
def expNum (neg : Bool) (m : Nat) (e : Int) : Num :=
  if m = 0 then Num.one
  else if 0 ≤ log2Of m e - 9 then
    ofFx false (fxExp (if neg then -(300 * fxOne) else 300 * fxOne))
  else if log2Of m e < -1100 then .fin false (if neg then 2 ^ 1101 - 1 else 2 ^ 1101 + 1) (-1101)
  else ofFx false (fxExp (fxClamp 300 (toFx neg m e)))

/-- ln of an exact positive value: exactly 0 at 1, else sticky. -/
def lnNum (m : Nat) (e : Int) : Num :=
  if m = 2 ^ Nat.log2 m ∧ e = -(Nat.log2 m : Int) then Num.zero else ofFx false (fxLn m e)

/-- A built-in slot function (Table 05-1) at a finite operand that the slot's special-value map does not answer, and the
flags of an invalid operand. -/
def builtinFn (slot : Nat) (neg : Bool) (m : Nat) (e : Int) : Num × W32 :=
  let x := toFx neg m e
  match slot with
  | 0 => (expNum neg m e, 0)
  | 1 =>
    let c := fxClamp 300 x
    let k := c / fxOne
    let f := c - k * fxOne
    if f = 0 then (.fin false 1 k, 0)
    else
      match ofFx false (fxExp (fxMul f fxLn2)) with
      | .fin n q g => (.fin n q (g + k), 0)
      | r => (r, 0)
  | 2 => (ofFx neg (fxExp (fxClamp 300 x) - fxOne), 0)
  | 3 => if neg then invalid else (lnNum m e, 0)
  | 4 =>
    if neg then invalid
    else if m = 2 ^ Nat.log2 m then
      let k := e + Nat.log2 m
      (.fin (decide (k < 0)) k.natAbs 0, 0)
    else (ofFx false (fxDiv (fxLn m e) fxLn2), 0)
  | 5 =>
    match (addNum .rne Num.one (.fin neg m e)).1 with
    | .fin n q g =>
      if q = 0 then (.inf true, fDZ ||| fNF) else if n then invalid else (ofFx neg (fxLn q g), 0)
    | r => (r, 0)
  | 6 => divNum Num.one (.fin neg m e)
  | 7 => (ofFx neg (fxTanh x), 0)
  | 8 => if m = 0 then (.fin false 1 (-1), 0) else (ofFx false (fxSigmoid x), 0)
  | 9 => (mulFx neg m e (fxSigmoid x), 0)
  | 10 =>
    let root : Int := isqrt (2 ^ (2 * fxP + 1))
    if x < -(16 * fxOne) then (.fin true 1 (-1000), 0)
    else (mulFx neg m (e - 1) (fxOne + fxErf (fxDiv (fxClamp 16 x) root)), 0)
  | 11 =>
    let c := fxClamp 16 x
    let cube := fxMul (fxMul c c) c
    let u := (c + cube * 44715 / 1000000) * 7978845608 / 10000000000
    (mulFx neg m (e - 1) (fxOne + fxTanh u), 0)
  | 12 => (ofFx neg (fxErf x), 0)
  | 13 =>
    let y := fxExp (-(fxClamp 300 x).natAbs)
    let l := lnUnit (fxOne + y)
    (ofFx false (if neg then l else x + l), 0)
  | 14 => (ofFx neg (fxTrig false x), 0)
  | _ => (ofFx neg (fxTrig true x), 0)

end Sys2Proof.Machine
end

