-- ==== Sys2Proof/Machine/GrateSfu.lean ====
section
/-! DEFINITION. The special-function unit on one firebox: function slots (R110 to R117), division and roots (R109),
statistics (R123 to R125) and the soft maximum (R126 to R128). -/

namespace Sys2Proof.Machine

/-! ## Slot headers (Table 05-2) -/

/-- LEN of a slot. -/
def SlotImage.len (s : SlotImage) : Nat := field s.header.toNat 0 8
/-- VALID. -/
def SlotImage.valid (s : SlotImage) : Bool := s.header.getLsbD 8
/-- ARITY2. -/
def SlotImage.arity2 (s : SlotImage) : Bool := s.header.getLsbD 9
/-- FMT_MASK. -/
def SlotImage.fmtMask (s : SlotImage) : Nat := field s.header.toNat 16 16
/-- EXACT_MASK. -/
def SlotImage.exactMask (s : SlotImage) : Nat := field s.header.toNat 32 16
/-- E_REL. -/
def SlotImage.eRel (s : SlotImage) : Nat := field s.header.toNat 48 8
/-- E_ABS. -/
def SlotImage.eAbs (s : SlotImage) : Nat := field s.header.toNat 56 8
/-- DZ_ZERO. -/
def SlotImage.dzZero (s : SlotImage) : Bool := s.header.getLsbD 84
/-- The SPEC code of the class of an operand: NaN, +0, -0, +inf, -inf; 0 for the rest. -/
def SlotImage.spec (s : SlotImage) (a : Num) : Nat :=
  match a with
  | .nan _ => field s.header.toNat 80 4
  | .inf n => if n then field s.header.toNat 64 4 else field s.header.toNat 68 4
  | .fin n m _ => if m = 0 then (if n then field s.header.toNat 72 4 else field s.header.toNat 76 4) else 0

/-- The header of a built-in slot: its length and its special-value codes. -/
def builtinHeader (len pz nz pinf ninf : Nat) (dz : Bool) : BitVec 128 :=
  BitVec.ofNat 128 (len + 2 ^ 8 + 0x1F * 2 ^ 16 + 0x1E * 2 ^ 32 + 26 * 2 ^ 48 + 150 * 2 ^ 56 +
    2 ^ 64 * (ninf + 16 * pinf + 256 * nz + 4096 * pz + 65536 * 7 + bnat dz * 2 ^ 20))

/-- Table 05-1 as slot headers, slot 0 first: LEN, then +0, -0, +inf, -inf codes, then DZ_ZERO. -/
def builtinSlots : List (BitVec 128) :=
  [builtinHeader 14 3 3 5 1 false, builtinHeader 12 3 3 5 1 false, builtinHeader 20 8 8 5 4 false,
   builtinHeader 18 6 6 5 7 true, builtinHeader 16 6 6 5 7 true, builtinHeader 22 8 8 5 7 false,
   builtinHeader 2 5 6 1 2 true, builtinHeader 24 8 8 3 4 false, builtinHeader 22 0 0 3 1 false,
   builtinHeader 24 8 8 5 2 false, builtinHeader 30 8 8 5 2 false, builtinHeader 28 8 8 5 2 false,
   builtinHeader 28 8 8 3 4 false, builtinHeader 24 0 0 5 1 false, builtinHeader 26 8 8 7 7 false,
   builtinHeader 26 3 3 7 7 false]

/-- Table generation 0: the slots of Table 05-1. Its coefficients are open (coeffVal), and which hard-case entries it holds no rule states:
the model lists none, so that they count nothing towards the 8,192 of a bank built from it (log 159). -/
def builtinBank : Bank :=
  { slots := (List.range 16).map (fun i => (i, { header := nth 0 builtinSlots i, builtin := true })) }

/-! ## Evaluation -/

/-- A value rounded RNE to the internal format W. -/
def toW (v : Num) : Num := decodeFloat wfmt (packArith wfmt .rne v).1

/-- The W code of a value. -/
def wCode (v : Num) : Nat := (packArith wfmt .rne v).1

/-- An open micro-op result (Config.wResult). -/
def wOpen (op : Nat) (a b : Num) : Num := decodeFloat wfmt (Config.wResult op (wCode a) (wCode b)).toNat

/-- The value of a finite number as an integer, where it is one. -/
def Num.toInt? : Num → Option Int
  | .fin n m e =>
    let q := roundAt .rtz n m e 0
    if q.2 then none else some (if n then -(q.1 : Int) else q.1)
  | _ => none

/-- The significand field of a normal W value, and its unbiased exponent. -/
def wParts (v : Num) : Option (Nat × Int) :=
  match v with
  | .fin _ m e => if m = 0 then none else
    let k := Nat.log2 m
    some (if k ≤ 36 then m * 2 ^ (36 - k) else m / 2 ^ (k - 36), e + k)
  | _ => none

/-- The value of the 49 bits of a W value in a coefficient entry (R117): sign, 11-bit exponent, and all 37 significand bits, the
leading one among them (log 92). -/
def coeffNum (n : Nat) : Num :=
  let sig := field n 0 37
  let ex := field n 37 11
  let neg := field n 48 1 == 1
  if ex = 2047 then (if sig % 2 ^ 36 = 0 then .inf neg else .nan false)
  else .fin neg sig ((if ex = 0 then 1 else (ex : Int)) - 1023 - 36)

/-- The value of a coefficient entry: what an image wrote, else what generation 0 holds there, which the spec does not state (log 159). -/
def coeffVal (b : Bank) (i : Nat) : Num :=
  coeffNum (field ((tfind b.coeffs (i % 4096)).getD (Config.builtinCoeff (i % 4096))).toNat 0 49)

/-- A micro-op other than UEND and USPEC on the W registers (Table 05-3). UMOV with both IMM bits takes the magnitude, then negates
(log 158). -/
def microOp (bank : Bank) (a b : Num) (op : W32) (w : List Num) : List Num :=
  let u := op.toNat
  let code := field u 27 5
  let dst := field u 23 4
  let sa := nth Num.zero w (field u 19 4)
  let sb := nth Num.zero w (field u 15 4)
  let sc := nth Num.zero w (field u 11 4)
  let imm := field u 0 11
  let r : Num := match code with
    | 0x01 => toW (if imm % 2 = 0 then a else b)
    | 0x03 => toW (addNum .rne sa sb).1
    | 0x04 => toW (mulNum sa sb).1
    | 0x05 => toW (fmaNum .rne sa sb sc).1
    | 0x06 => let v := if imm / 2 % 2 = 1 then sa.abs else sa; if imm % 2 = 1 then v.neg else v
    | 0x07 => match sa with
      | .fin n m e => .fin n (roundAt .rne n m e 0).1 0
      | v => v
    | 0x08 => match sb.toInt?, sa with
      | some k, .fin n m e => toW (.fin n m (e + k))
      | some _, v => v
      | none, _ => wOpen code sa sb
    | 0x09 => match wParts sa with
      | some p => toW (.fin (decide (p.2 < 0)) p.2.natAbs 0)
      | none => wOpen code sa sb
    | 0x0A => match wParts sa, sa with
      | some p, .fin n _ _ => .fin n p.1 (-36)
      | _, _ => wOpen code sa sb
    | 0x0B => match sa.toInt? with
      | some k => coeffVal bank ((k + imm) % 4096).toNat
      | none => wOpen code sa sb
    | 0x0C => if ltNum sa sb then sc else nth Num.zero w dst
    | 0x0D => coeffVal bank imm
    | 0x0E => toW (divNum sa sb).1
    | 0x0F => match wParts sa with
      | some p => if imm / 64 + imm % 64 ≤ 36 then toW (.fin false (field p.1 (imm / 64) (imm % 64)) 0)
        else wOpen code sa (.fin false imm 0)
      | none => wOpen code sa sb
    | _ => nth Num.zero w dst
  setNth w dst r

/-- How a slot evaluation ends: at a special value code, or with the W value of UEND. -/
inductive SlotEnd where
  | special (code : Nat)
  | value (y : Num)
  deriving DecidableEq, Repr

/-- The micro-ops run in order (R116, R117); a slot without UEND ends with an open value. -/
def runOps (bank : Bank) (spec : Nat) (a b : Num) : List W32 → List Num → SlotEnd
  | [], w => .value (wOpen 0x20 (nth Num.zero w 0) Num.zero)
  | op :: r, w =>
    let code := field op.toNat 27 5
    if code = 0 then .value (nth Num.zero w (field op.toNat 19 4))
    else if code = 2 then (if spec = 0 then runOps bank spec a b r w else .special spec)
    else runOps bank spec a b r (microOp bank a b op w)

/-- The W registers before a slot's first micro-op: the spec states none of their values. -/
def wInit : List Num := (List.range 16).map (fun i => decodeFloat wfmt (Config.wResult 0x21 i 0).toNat)

/-- The value and flags of a special-value code for operand a (Table 05-2). -/
def specialValue (s : SlotImage) (code : Nat) (a : Num) : Num × W32 :=
  match code with
  | 1 => (Num.zero, 0)
  | 2 => (.fin true 0 0, 0)
  | 3 => (Num.one, 0)
  | 4 => (.fin true 1 0, 0)
  | 5 => (.inf false, if a.isZero then flagIf s.dzZero fDZ ||| fNF else flagIf a.isFin fNF)
  | 6 => (.inf true, if a.isZero then flagIf s.dzZero fDZ ||| fNF else flagIf a.isFin fNF)
  | 7 => if a.isNan then (.nan false, 0) else (.nan false, fNV ||| fNF)
  | _ => (a, 0)

/-- The exact operand as the key of a faithful choice: sign, then the magnitude in units of 2^-400. -/
def operandKey : Num → Nat
  | .fin n m e => bnat n + 2 * (m * 2 ^ (e + 400).toNat / 2 ^ (-(e + 400)).toNat)
  | .inf n => bnat n
  | .nan _ => 0

/-- A faithful FP32 rounding of a value (R110): one of its two neighbours by a fixed choice; beyond the FP32 range the
mode decides (R38). -/
def faithful32 (fn : Nat) (rm : RMode) (rmCode : Nat) (key : Nat) (v : Num) : Nat × W32 :=
  match v with
  | .fin n m e =>
    if m ≠ 0 ∧ 128 ≤ log2Of m e then packFinite fp32 rm .arith n m e
    else packFinite fp32 (if Config.faithfulAway fn rmCode key then .away else .rtz) .arith n m e
  | v => packArith fp32 .rne v

/-- The hard-case entry of R113; the fields for 8-bit codes use their low 8 bits (R117). -/
def hardCase (bank : Bank) (slot : Nat) (fmtd : BitVec 4) (rmsel ca cb : Nat) : Option Nat :=
  let code := fun (h : W64) i => field h.toNat i 16 % 2 ^ laneWidth fmtd
  match bank.hard.find? (fun h => decide (field h.toNat 58 6 = slot ∧ field h.toNat 54 4 = fmtd.toNat ∧
      field h.toNat 52 2 = rmsel ∧ code h 32 = cb ∧ code h 16 = ca)) with
  | some h => some (code h 0)
  | none => none

/-- OF and UF of an inexact finite value whose result is this code (R34, R38); E4M3 overflows to NaN. -/
def codeFlags (f : FloatFmt) (code : Nat) : W32 :=
  match decodeFloat f code with
  | .fin _ m _ => flagIf (decide (m ≠ 0 ∧ m < 2 ^ f.mb)) fUF
  | _ => fOF

/-- |y|·2^-E_REL + 2^-E_ABS. -/
def errBound (s : SlotImage) (y : Num) : Num :=
  match y.abs with
  | .fin _ m e => (addNum .rne (.fin false m (e - s.eRel)) (.fin false 1 (-(s.eAbs : Int)))).1
  | v => v

/-- The end of a loaded slot (R113): code, flags, and whether a hard-case entry answered. A y of ±∞, from which R113 forms no
bracket, is rounded as it is, with no lookup and no count, and sets neither OF nor DZ (log 110). lo = hi compares codes, so −0 and +0
differ (log 161). -/
def slotRound (bank : Bank) (slot : Nat) (s : SlotImage) (fmtd : BitVec 4) (rm : RMode) (rmsel ca cb : Nat) (y : Num) :
    Nat × W32 × Bool :=
  let f := fmtF fmtd
  if fmtd = 0 ∨ !y.isFin then let p := packArith f rm y; (p.1, p.2, false)
  else
    let e := errBound s y
    let lo := packArith f rm (addNum .rne y e.neg).1
    let hi := packArith f rm (addNum .rne y e).1
    if lo.1 = hi.1 then (lo.1, lo.2, false)
    else
      let c := (hardCase bank slot fmtd rmsel ca cb).getD
        ((Config.wResult 0x22 (ca + 65536 * cb) (slot + 64 * rmsel + 256 * fmtd.toNat)).toNat % 2 ^ laneWidth fmtd)
      (c, codeFlags f c, true)

/-- One lane of a slot function (R110 to R113): code, flags, and whether a hard-case entry answered; none for a built-in
slot in a 16-bit or 8-bit format, where the spec does not say which inputs its hard-case entries hold. Every result that the
special-value map of Table 05-2 does not give sets NX (R112, log 108); a loaded slot's ±∞ or NaN from finite operands, and its NaN from
operands none of which is NaN, set NF (R36). -/
def slotLane (bank : Bank) (slot : Nat) (fmtd : BitVec 4) (rm : RMode) (rmsel : Nat) (ca cb : Nat) (a b : Num) :
    Nat × W32 × Option Bool :=
  let s := tget {} bank.slots slot
  let f := fmtF fmtd
  let fin := fun (p : Num × W32) => let q := packArith f rm p.1; (q.1, p.2 ||| q.2)
  if a.isNan || (s.arity2 && b.isNan) then (canonNan f, snanFlags (if s.arity2 then [a, b] else [a]), some false)
  else if s.builtin then
    let code := s.spec a
    if code ≠ 0 then let r := fin (specialValue s code a); (r.1, r.2, some false)
    else
      match a with
      | .fin n m e =>
        if (slot = 3 ∨ slot = 4) ∧ !n ∧ m = 2 ^ Nat.log2 m ∧ e = -(Nat.log2 m : Int) then (0, fNX, some false)
        else
          let v := builtinFn slot n m e
          let p := if fmtd = 0 then faithful32 slot rm rmsel (operandKey a) v.1 else packArith f rm v.1
          (p.1, v.2 ||| p.2 ||| fNX, if fmtd = 0 then some false else none)
      | _ => (canonNan f, 0, some false)
  else
    match runOps bank (s.spec a) a b (s.ops.take s.len) wInit with
    | .special code => let r := fin (specialValue s code a); (r.1, r.2, some false)
    | .value y =>
      let r := slotRound bank slot s fmtd rm rmsel ca cb y
      let v := decodeFloat f r.1
      let nf := decide (r.2.1 &&& fNF ≠ 0) || v.isNan || (!v.isFin && a.isFin && (!s.arity2 || b.isFin))
      (r.1, (r.2.1 &&& ~~~fNF) ||| fNX ||| flagIf nf fNF ||| flagIf (y.isNan) fNV, some r.2.2)

/-- The rounding-mode selector of a hard-case entry. -/
def rmSel (rm : BitVec 3) : Nat := if rm.toNat < 4 then rm.toNat else 0

/-- Lanes that count hard-case answers: results written, SFU_CNT_HARD raised by the known answers and, where a built-in
slot computed in a short format, by an open number of at most those lanes. -/
def writeHard (e : GEnv) (t : Tile) (g : GrateWord) (w n : Nat) (f : Nat → Nat × W32 × Option Bool) : GRes :=
  let act := (List.range n).filter (fun i => t.active g i)
  let known := act.countP (fun i => (f i).2.2 == some true)
  let opens := act.countP (fun i => (f i).2.2 == none)
  let t1 := t.writeLanes g w n (fun i => ((f i).1, (f i).2.1))
  let extra := (Config.freeWord e.free).toNat % (opens + 1)
  { t := t1.bump 0x0350 (known + extra), drew := decide (0 < opens), sfu := act.length, hard := known + extra }

/-- VSFU and VSFU2. -/
def gSfu (e : GEnv) (t : Tile) (g : GrateWord) : GRes :=
  let w := laneWidth g.fmt
  let n := t.vle (wideOf g)
  let a := t.lanes g.va.toNat w n
  let b := t.srcB g w n
  let slot := g.imm.toNat % 64
  let two := (tget {} e.bank.slots slot).arity2
  writeHard e t g (laneWidth g.fmtd) n (fun i =>
    let x := nth 0 a i
    let y := if two then nth 0 b i else 0
    slotLane e.bank slot g.fmtd (rmOf g.rm 0) (rmSel g.rm) x y (decodeFloat (fmtF g.fmt) x) (decodeFloat (fmtF g.fmt) y))

/-- VGATE and VGATEA: f(b) as the slot's FP32 value in RNE, then one rounding of the product (and sum). -/
def gGate (add : Bool) (e : GEnv) (t : Tile) (g : GrateWord) : Tile :=
  let w := laneWidth g.fmt
  let n := t.vle (wideOf g)
  let a := t.lanes g.va.toNat w n
  let b := t.srcB g w n
  let c := t.lanes g.vc.toNat w n
  let rm := rmOf g.rm 0
  let dec := fun l i => decodeFloat (fmtF g.fmt) (nth 0 l i)
  t.writeLanes g (laneWidth g.fmtd) n (fun i =>
    let f := slotLane e.bank (g.imm.toNat % 64) 0 .rne 0 (nth 0 b i) 0 (dec b i) Num.zero
    let y := decodeFloat fp32 f.1
    let r := if add then fmaNum rm (dec a i) y (dec c i) else mulNum (dec a i) y
    let p := packArith (fmtF g.fmtd) rm r.1
    (p.1, f.2.1 ||| r.2 ||| p.2))

/-- VDIV. -/
def gDiv (t : Tile) (g : GrateWord) : Tile := gFloat (fun _ a b _ => divNum a b) t g

/-- VSQRT. -/
def gSqrt (t : Tile) (g : GrateWord) : Tile := gFloat (fun _ a _ _ => sqrtNum a) t g

/-- VRSQRT of one value: exact in 16-bit and 8-bit results, faithful in FP32 (R109). -/
def rsqrtTo (fmtd : BitVec 4) (rm : RMode) (a : Num) : Nat × W32 :=
  let v := rsqrtNum a
  let p := if fmtd = 0 then faithful32 64 rm 0 (operandKey a) v.1 else packArith (fmtF fmtd) rm v.1
  (p.1, v.2 ||| p.2)

/-- VRSQRT. -/
def gRsqrt (t : Tile) (g : GrateWord) : Tile :=
  let n := t.vle (wideOf g)
  let a := t.lanes g.va.toNat (laneWidth g.fmt) n
  t.writeLanes g (laneWidth g.fmtd) n (fun i => rsqrtTo g.fmtd (rmOf g.rm 0) (decodeFloat (fmtF g.fmt) (nth 0 a i)))

/-! ## Statistics -/

/-- A statistics triple. -/
structure Triple where
  n : Nat
  mean : W32
  m2 : W32
  deriving DecidableEq, Repr

/-- What a statistics step reports besides its value: flags, clamps, a saturated count. -/
structure StatEv where
  fl : W32 := 0
  clamps : Nat := 0
  sat : Bool := false
  deriving DecidableEq, Repr

/-- Events joined. -/
def StatEv.add (a b : StatEv) : StatEv := { fl := a.fl ||| b.fl, clamps := a.clamps + b.clamps, sat := a.sat || b.sat }

/-- A natural number as an exact value. -/
def natNum (n : Nat) : Num := .fin false n 0

/-- The clamp of R123: a negative M2 becomes +0 and counts, -0 becomes +0 uncounted. -/
def clampM2 (q : W32) : W32 × Nat :=
  match val32 q with
  | .fin true m _ => (0, if m = 0 then 0 else 1)
  | .inf true => (0, 1)
  | _ => (q, 0)

/-- rne_div of exact values to FP32. -/
def rneDiv (a b : Num) : W32 × W32 := pack32 .rne (divNum a b)

/-- One VSTAT update (R123). -/
def statUpdate (x : W32) (tr : Triple) : Triple × StatEv :=
  if tr.n = 2 ^ 32 - 1 then (tr, { sat := true })
  else
    let n1 := tr.n + 1
    let d := sub32 x tr.mean
    let q1 := rneDiv (val32 d.1) (natNum n1)
    let mean1 := add32 tr.mean q1.1
    let r := sub32 x mean1.1
    let q := fma32 d.1 r.1 tr.m2
    let c := clampM2 q.1
    ({ n := n1, mean := mean1.1, m2 := c.1 },
     { fl := d.2 ||| q1.2 ||| mean1.2 ||| r.2 ||| q.2, clamps := c.2 })

/-- The merge of two triples (R124). -/
def statCombine (a b : Triple × StatEv) : Triple × StatEv :=
  if a.1.n = 0 then (b.1, a.2.add b.2)
  else if b.1.n = 0 then (a.1, a.2.add b.2)
  else
    let n := a.1.n + b.1.n
    let d := sub32 b.1.mean a.1.mean
    let q := rneDiv (natNum b.1.n) (natNum n)
    let mean := fma32 d.1 q.1 a.1.mean
    let g := rneDiv (natNum (a.1.n * b.1.n)) (natNum n)
    let s := add32 a.1.m2 b.1.m2
    let dd := mul32 d.1 d.1
    let dg := mul32 dd.1 g.1
    let m := add32 s.1 dg.1
    let c := clampM2 m.1
    ({ n := min n (2 ^ 32 - 1), mean := mean.1, m2 := c.1 },
     (a.2.add b.2).add { fl := d.2 ||| q.2 ||| mean.2 ||| g.2 ||| s.2 ||| dd.2 ||| dg.2 ||| m.2, clamps := c.2,
                         sat := decide (2 ^ 32 - 1 < n) })

/-- The SFU counters and sticky bits that statistics set (R123, R124). -/
def statEvents (t : Tile) (e : StatEv) : Tile :=
  let t1 := t.raise e.fl
  let t2 := if e.clamps = 0 then t1 else (t1.orReg 0x0340 0x100).bump 0x0348 e.clamps
  if e.sat then t2.orReg 0x0340 0x400 else t2

/-- The triples of n lanes in v[r] to v[r + 2]. -/
def triples (t : Tile) (r n : Nat) : List Triple :=
  let a := t.lanes r 32 n
  let b := t.lanes (r + 1) 32 n
  let c := t.lanes (r + 2) 32 n
  (List.range n).map (fun i => { n := nth 0 a i, mean := BitVec.ofNat 32 (nth 0 b i), m2 := BitVec.ofNat 32 (nth 0 c i) })

/-- Three result registers written, lanes given; none keeps a lane. -/
def put3 (t : Tile) (r : Nat) (l : List (Option (Nat × Nat × Nat))) : Tile :=
  ((t.putLanes r 32 (l.map (fun o => o.map (fun p => p.1)))).putLanes (r + 1) 32
    (l.map (fun o => o.map (fun p => p.2.1)))).putLanes (r + 2) 32 (l.map (fun o => o.map (fun p => p.2.2)))

/-- VSTAT. -/
def gStat (t : Tile) (g : GrateWord) : Tile :=
  let n := t.vle 32
  let a := t.lanes g.va.toNat (laneWidth g.fmt) n
  let rs := (List.zipWith (fun i tr =>
    if t.active g i then
      let v := decodeFloat (fmtF g.fmt) (nth 0 a i)
      let u := statUpdate (BitVec.ofNat 32 (packArith fp32 .rne v).1) tr
      (some (u.1.n, u.1.mean.toNat, u.1.m2.toNat), u.2.add { fl := snanFlags [v] })
    else (none, {})) (List.range n) (triples t g.vd.toNat n))
  statEvents (put3 t g.vd.toNat (rs.map (fun p => p.1))) (rs.foldl (fun acc p => acc.add p.2) {})

/-- An FP32 result: a NaN is the canonical one (R29). -/
def canon32 (v : W32) : W32 := if (val32 v).isNan then 0x7FC00000 else v

/-- NV where one of these FP32 codes, taken as an operand, is a signalling NaN (R29). -/
def snan32 (l : List W32) : W32 := snanFlags (l.map val32)

/-- The output of VSTATM for a merged triple (Table 05-4); n = 0 and n = 1 outcomes set no NF (R36). -/
def statOutput (out : Nat) (eps : W32) (tr : Triple) : (Nat × Nat × Nat) × W32 :=
  let mean := if tr.n = 0 then 0 else canon32 tr.mean
  let nv := if tr.n = 0 then 0 else snan32 [tr.mean]
  let keep := fun (v : W32) (fl : W32) => ((tr.n, mean.toNat, v.toNat), nv ||| (if tr.n ≤ 1 then fl &&& ~~~fNF else fl))
  match out with
  | 1 => if tr.n = 0 then keep 0 0 else let v := rneDiv (val32 tr.m2) (natNum tr.n); keep v.1 v.2
  | 2 => if tr.n ≤ 1 then keep 0 0 else let v := rneDiv (val32 tr.m2) (natNum (tr.n - 1)); keep v.1 v.2
  | 3 =>
    let v := if tr.n = 0 then ((0 : W32), (0 : W32)) else rneDiv (val32 tr.m2) (natNum tr.n)
    let s := if tr.n = 0 then (eps, (0 : W32)) else add32 v.1 eps
    let r := rsqrtTo 0 .rne (val32 s.1)
    keep (BitVec.ofNat 32 r.1) (v.2 ||| s.2 ||| r.2)
  | _ => if tr.n = 0 then keep 0 0 else keep (canon32 tr.m2) (snan32 [tr.m2])

/-- VSTATM. -/
def gStatM (t : Tile) (g : GrateWord) : Tile :=
  let k := g.imm.toNat % 16
  let out := field g.imm.toNat 4 2
  let n := t.vle 32
  let ins := List.zipWith (fun i tr => if t.active g i then some (tr, ({} : StatEv)) else none)
    (List.range n) (triples t g.va.toNat n)
  let ms := (segments k n ins).map (fun s => (treeFold statCombine k s).getD ({ n := 0, mean := 0, m2 := 0 }, {}))
  let rs := ms.map (fun m => let o := statOutput out (t.xget g.vb.toNat) m.1; (some o.1, m.2.add { fl := o.2 }))
  statEvents (put3 t g.vd.toNat (rs.map (fun p => p.1))) (rs.foldl (fun acc p => acc.add p.2) {})

/-! ## Soft maximum -/

/-- The fixed exponential of an exact difference (faithful FP32, no flags). -/
def fixedExp (d : Num) : W32 :=
  match d with
  | .fin n m e => BitVec.ofNat 32 (faithful32 65 .rne 0 (operandKey d) (expNum n m e)).1
  | .inf n => if n then 0 else 0x7F800000
  | .nan _ => 0x7FC00000

/-- The fixed logarithm (faithful FP32): NaN below 0. -/
def fixedLn (v : Num) : W32 :=
  match v with
  | .fin n m e =>
    if m = 0 then 0xFF800000
    else if n then 0x7FC00000
    else BitVec.ofNat 32 (faithful32 66 .rne 0 (operandKey v) (lnNum m e)).1
  | .inf n => if n then 0x7FC00000 else 0x7F800000
  | .nan _ => 0x7FC00000

/-- exp(a - b), the argument formed exactly. -/
def expDiff (a b : W32) : W32 := fixedExp (addNum .rne (val32 a) (val32 b).neg).1

/-- The codes of the soft maximum's constants. -/
def negInf32 : W32 := 0xFF800000
def posInf32 : W32 := 0x7F800000
def nan32 : W32 := 0x7FC00000
def one32 : W32 := 0x3F800000

/-- Whether an FP32 code is NaN. -/
def isNan32 (a : W32) : Bool := (val32 a).isNan

/-- One VSMXU update (R126); a signalling m of the running pair sets NV as a signalling logit does (R29, log 109). -/
def smxUpdate (x : W32) (p : W32 × W32) : (W32 × W32) × W32 :=
  if isNan32 p.1 || isNan32 x then ((nan32, nan32), snan32 [p.1])
  else if x = posInf32 then
    if p.1 = posInf32 then let s := add32 p.2 one32; ((p.1, s.1), s.2) else ((posInf32, one32), 0)
  else if p.1 = posInf32 ∨ x = negInf32 then (p, 0)
  else
    let m1 := (max32 p.1 x).1
    let s := fma32 p.2 (expDiff p.1 m1) (expDiff x m1)
    ((m1, s.1), s.2)

/-- The merge of two pairs (R127). -/
def smxCombine (a b : (W32 × W32) × W32) : (W32 × W32) × W32 :=
  let fl := a.2 ||| b.2
  if isNan32 a.1.1 || isNan32 b.1.1 then ((nan32, nan32), fl ||| snan32 [a.1.1, b.1.1])
  else
    let m := (max32 a.1.1 b.1.1).1
    if m = posInf32 then
      let s := add32 (if a.1.1 = posInf32 then a.1.2 else 0) (if b.1.1 = posInf32 then b.1.2 else 0)
      ((m, s.1), fl ||| s.2)
    else if m = negInf32 then ((m, 0), fl)
    else
      let y := mul32 b.1.2 (expDiff b.1.1 m)
      let s := fma32 a.1.2 (expDiff a.1.1 m) y.1
      ((m, s.1), fl ||| y.2 ||| s.2)

/-- The pairs of n lanes in v[r], v[r + 1]. -/
def pairs (t : Tile) (r n : Nat) : List (W32 × W32) :=
  List.zipWith (fun a b => (BitVec.ofNat 32 a, BitVec.ofNat 32 b)) (t.lanes r 32 n) (t.lanes (r + 1) 32 n)

/-- VSMXU. -/
def gSmxU (t : Tile) (g : GrateWord) : Tile :=
  let n := t.vle 32
  let a := t.lanes g.va.toNat (laneWidth g.fmt) n
  let rs := List.zipWith (fun i p =>
    if t.active g i then
      let v := decodeFloat (fmtF g.fmt) (nth 0 a i)
      let u := smxUpdate (BitVec.ofNat 32 (packArith fp32 .rne v).1) p
      (some u.1, u.2 ||| snanFlags [v])
    else (none, 0)) (List.range n) (pairs t g.vd.toNat n)
  ((t.putLanes g.vd.toNat 32 (rs.map (fun r => r.1.map (fun p => p.1.toNat)))).putLanes (g.vd.toNat + 1) 32
    (rs.map (fun r => r.1.map (fun p => p.2.toNat)))).raise (rs.foldl (fun acc r => acc ||| r.2) 0)

/-- The log-sum-exp of (M, S) (R127). -/
def logSumExp (m s : W32) : W32 × W32 :=
  if isNan32 m then (nan32, 0)
  else if m = posInf32 ∨ m = negInf32 then (m, 0)
  else add32 m (fixedLn (val32 s))

/-- VSMXF stage 0 (R127). -/
def gSmxMerge (t : Tile) (g : GrateWord) : Tile :=
  let k := g.imm.toNat % 16
  let n := t.vle 32
  let ins := List.zipWith (fun i p => if t.active g i then some (p, (0 : W32)) else none) (List.range n) (pairs t g.va.toNat n)
  let ms := (segments k n ins).map (fun s => (treeFold smxCombine k s).getD ((negInf32, 0), 0))
  let rs := ms.map (fun m =>
    let l := logSumExp m.1.1 m.1.2
    (((canon32 m.1.1).toNat, (canon32 m.1.2).toNat, l.1.toNat), m.2 ||| l.2 ||| snan32 [m.1.1, m.1.2],
      decide (m.1.1 = negInf32)))
  let empties := rs.countP (fun r => r.2.2)
  let t1 := (put3 t g.vd.toNat (rs.map (fun r => some r.1))).raise (rs.foldl (fun acc r => acc ||| r.2.1) 0)
  if empties = 0 then t1 else (t1.orReg 0x0340 0x200).bump 0x034C empties

/-- One probability (R128). -/
def smxProb (fmtd : BitVec 4) (rm : RMode) (m s : W32) (a : Num) : Nat × W32 :=
  let f := fmtF fmtd
  if isNan32 m || a.isNan then (canonNan f, snanFlags [val32 m, a])
  else if m = negInf32 then (0, 0)
  else
    let q := if m = posInf32 then
        if a = .inf false then divNum Num.one (val32 s) else (Num.zero, 0)
      else
        let e := fixedExp (addNum .rne a (val32 m).neg).1
        divNum (val32 e) (val32 s)
    let p := packArith f rm q.1
    (p.1, q.2 ||| p.2)

/-- VSMXF stage 1 (R128). -/
def gSmxProb (t : Tile) (g : GrateWord) : Tile :=
  let k := g.imm.toNat % 16
  let n := t.vle 32
  let a := t.lanes g.va.toNat (laneWidth g.fmt) n
  let ps := pairs t g.vc.toNat n
  t.writeLanes g (laneWidth g.fmtd) n (fun i =>
    let p := nth (0, 0) ps (i / 2 ^ k)
    smxProb g.fmtd (rmOf g.rm 0) p.1 p.2 (decodeFloat (fmtF g.fmt) (nth 0 a i)))

end Sys2Proof.Machine
end

