-- ==== Sys2Proof/Machine/GrateMove.lean ====
section
/-! DEFINITION. The grate's scalar, flag, flue, scratch and ash opcodes (R82 to R84, R89, R90, R98 to R101, R108). -/

namespace Sys2Proof.Machine

/-! ## Flues (R156 to R158) -/

/-- The stream s of a firebox. -/
def Tile.stream (t : Tile) (s : Nat) : Stream := tget {} t.streams s

/-- The stream s replaced. -/
def Tile.setStream (t : Tile) (s : Nat) (v : Stream) : Tile := { t with streams := tset t.streams s v }

/-- KIND of a stream descriptor (Table 07-2). -/
def sdKind (sd : Nat) : Nat := field sd 28 4
/-- ORDER. -/
def sdOrder (sd : Nat) : Nat := field sd 27 1
/-- PERSIST. -/
def sdPersist (sd : Nat) : Bool := field sd 26 1 == 1
/-- WATCH. -/
def sdWatch (sd : Nat) : Bool := field sd 25 1 == 1
/-- CONV. -/
def sdConv (sd : Nat) : Bool := field sd 24 1 == 1
/-- CFMT. -/
def sdCfmt (sd : Nat) : BitVec 4 := BitVec.ofNat 4 (field sd 20 4)
/-- RM. -/
def sdRm (sd : Nat) : BitVec 3 := BitVec.ofNat 3 (field sd 17 3)
/-- SAT. -/
def sdSat (sd : Nat) : Bool := field sd 16 1 == 1
/-- SCAT. -/
def sdScat (sd : Nat) : Bool := field sd 15 1 == 1
/-- IDX_SIDE. -/
def sdIdxSide (sd : Nat) : Nat := field sd 14 1
/-- IDX_NEG. -/
def sdIdxNeg (sd : Nat) : Nat := field sd 12 2
/-- IDX_OOR. -/
def sdIdxOor (sd : Nat) : Nat := field sd 10 2
/-- GDIM. -/
def sdGdim (sd : Nat) : Nat := field sd 7 3
/-- RING_LINK. -/
def sdRingLink (sd : Nat) : Bool := field sd 6 1 == 1
/-- DESC_B. -/
def sdDescB (sd : Nat) : Nat := field sd 48 16
/-- DESC_A. -/
def sdDescA (sd : Nat) : Nat := field sd 32 16
/-- FL_UNITS. -/
def sdUnits (sd : Nat) : Nat := field sd 88 8
/-- RING_S. -/
def sdRingS (sd : Nat) : Nat := field sd 80 8
/-- DESC_IDX. -/
def sdDescIdx (sd : Nat) : Nat := field sd 64 16
/-- RA_BASE. -/
def sdRaBase (sd : Nat) : Nat := field sd 96 12

/-- The bytes that n entries of a format take in a flue, block scales counted. -/
def flueBytes (fmt : BitVec 4) (n : Nat) : Nat :=
  (n * elemWidth fmt + 7) / 8 + (if scaleBlock fmt = 0 then 0 else (n + scaleBlock fmt - 1) / scaleBlock fmt)

/-- Entries that the flue holds: those taken by the bellows from a store flue stay until their write is complete (R158). -/
def Stream.heldEntries (st : Stream) : Nat := st.entries.length + (if sdKind st.sd = 1 then st.buf.length else 0)

/-- Flue units holding entries (FL_USED). -/
def Stream.used (st : Stream) (fmt : BitVec 4) : Nat := (flueBytes fmt st.heldEntries + 4095) / 4096

/-- Entries that no pass in flight holds. -/
def Stream.avail (st : Stream) : Nat := st.entries.length - st.claimed

/-- Whether the flue has room for n more entries. -/
def Stream.room (st : Stream) (fmt : BitVec 4) (n : Nat) : Bool :=
  decide (flueBytes fmt (st.heldEntries + n) ≤ st.units * 4096)

/-- A flue after entries left it: an empty flue of an IDLE or DONE stream returns its units (R156); units beyond those of
the present arm, kept for entries of an earlier one, return once they are not needed (R161). -/
def Stream.trim (st : Stream) (fmt : BitVec 4) : Stream :=
  if st.heldEntries = 0 && (st.state == 0 || st.state == 3) then { st with units := 0 }
  else if decide (sdUnits st.sd < st.units) && decide (st.used fmt ≤ sdUnits st.sd) && (st.state == 1 || st.state == 2) then
    { st with units := sdUnits st.sd }
  else st

/-- A lane code of a flue element: an INT4 element sign-extended to 8 bits (R82). -/
def laneOfEntry (fmt : BitVec 4) (code : Nat) : Nat :=
  if fmt = 6 then (if 8 ≤ code % 16 then code % 16 + 240 else code % 16) else code % 2 ^ laneWidth fmt

/-- An element code from a lane. -/
def entryOfLane (fmt : BitVec 4) (code : Nat) : Nat := code % 2 ^ elemWidth fmt

/-- The firebox with the grate's wait marks cleared. -/
def Tile.noWait (t : Tile) : Tile := t.setReg 0x0300 (clrBit (clrBit (t.reg 0x0300) 1) 2)

/-- FLRD. -/
def gFlrd (t0 : Tile) (g : GrateWord) : GRes :=
  let t := t0.noWait
  let s := g.imm.toNat % 256
  let st := t.stream s
  let n := t.vle (laneWidth g.fmt)
  if st.avail < n then { t := t.orReg 0x0300 2, wait := true }
  else
    let es := (st.entries.drop st.claimed).take n
    let st1 := ({ st with entries := st.entries.take st.claimed ++ st.entries.drop (st.claimed + n) } : Stream).trim g.fmt
    let t1 := t.setStream s st1
    let t2 := t1.writeLanes g (laneWidth g.fmt) n (fun i => (laneOfEntry g.fmt (nth (0, 0) es i).1, 0))
    let b := scaleBlock g.fmt
    if b = 0 then { t := t2 }
    else
      { t := t2.putLanes g.vc.toNat 8 ((List.range ((n + b - 1) / b)).map (fun j => some ((nth (0, 0) es (b * j)).2 % 256))) }

/-- FLWR. An inactive lane delivers +0 where MZ = 1; where MZ = 0 the spec gives the element no value, and a free one
stands there (log 13). -/
def gFlwr (e : GEnv) (t0 : Tile) (g : GrateWord) : GRes :=
  let t := t0.noWait
  let s := g.imm.toNat % 256
  let st := t.stream s
  let w := laneWidth g.fmt
  let n := t.vle w
  if !st.room g.fmt n then { t := t.orReg 0x0300 2, wait := true }
  else
    let a := t.lanes g.va.toNat w n
    let b := scaleBlock g.fmt
    let sc := if b = 0 then [] else t.lanes g.vc.toNat 8 ((n + b - 1) / b)
    let es := (List.range n).map (fun i =>
      let code := if t.active g i then nth 0 a i else if g.mz then 0
        else leNat ((List.range (w / 8)).map (fun k => Config.freeByte e.free (4 * i + k)))
      (entryOfLane g.fmt code, if b = 0 then 0 else nth 0 sc (i / b)))
    let t1 := t.setStream s { st with entries := st.entries ++ es }
    let bad := sdWatch st.sd && es.any (fun p => !(decodeElem g.fmt p.1).isFin || (isScaled g.fmt && p.2 == 255))
    { t := if bad then t1.raise fNF else t1, drew := (List.range n).any (fun i => !t.active g i && !g.mz) }

/-! ## Tile scratch -/

/-- Bytes of tile scratch (Table 00-2). -/
def scratchSize : Nat := 3 * 2 ^ 20

/-- The fault of R90: SCR_RNG, nothing written, the grate stopped. -/
def scratchFault (t : Tile) : GRes := { t := { t.orReg 0x0300 0x20 with grateStop := true }, fault := true }

/-- LDS: the byte address x[a] + 64·IMM is used as it is (log 112). -/
def gLds (t0 : Tile) (g : GrateWord) : GRes :=
  let t := t0.noWait
  let w := laneWidth g.fmt
  let n := t.vle w
  let a := (t.xget g.va.toNat).toNat + 64 * g.imm.toNat
  if scratchSize < a + n * (w / 8) then scratchFault t
  else
    let l := groupLe (w / 8) n (mreadN t.scratch a (n * (w / 8)))
    { t := t.writeLanes g w n (fun i => (nth 0 l i, 0)) }

/-- The scratch address and the bytes that STS stores: inactive lanes keep memory (MZ = 0) or store +0 (R84). -/
def stsBytes (t : Tile) (g : GrateWord) : Nat × List Byte :=
  let w := laneWidth g.fmt
  let n := t.vle w
  let a := (t.xget g.va.toNat).toNat + 64 * g.imm.toNat
  let b := t.srcB g w n
  let old := groupLe (w / 8) n (mreadN t.scratch a (n * (w / 8)))
  (a, (List.range n).flatMap (fun i =>
    leBytes (w / 8) (if t.active g i then nth 0 b i else if g.mz then 0 else nth 0 old i)))

/-- STS. -/
def gSts (e : GEnv) (t0 : Tile) (g : GrateWord) : GRes :=
  let t := t0.noWait
  let p := stsBytes t g
  if scratchSize < p.1 + p.2.length then scratchFault t
  else if e.guard.any (fun r => decide (p.1 < r.2 ∧ r.1 < p.1 + p.2.length)) then { t := t, refused := true }
  else { t := { t with scratch := mwrite t.scratch p.1 p.2 } }

/-! ## The ash queue -/

/-- The head stage, where one is visible. -/
def Tile.ashHead (t : Tile) : Option AshStage :=
  match t.ash with
  | st :: _ => if st.visible then some st else none
  | [] => none

/-- Visible stages at the front of the queue. -/
def Tile.ashVis (t : Tile) : Nat := (t.ash.takeWhile (fun st => st.visible)).length

/-- GRATE_STATUS as it reads (Table 04-8): a started instruction completes within its step, so BUSY reads 0. -/
def Tile.grateStatus (t : Tile) : W32 :=
  t.reg 0x0300 ||| BitVec.ofNat 32 (t.ashVis * 2 ^ 16 + (if t.ashVis = 0 then 8 else 0))

/-- GRATE_CFG.COMPAT. -/
def Tile.compat (t : Tile) : Bool := (t.reg 0x0304).getLsbD 1

/-- ASHWAIT. -/
def gAshWait (t0 : Tile) : GRes :=
  let t := t0.noWait
  if t.ashVis = 0 then { t := t.orReg 0x0300 4, wait := true } else { t := t }

/-- An empty read: native sets ASH_UNDR (R100), compatibility mode CEMPTY (R101). -/
def Tile.emptyRead (t : Tile) : Tile :=
  if t.compat then (t.orReg 0x0300 0x10).bump 0x0318 1 else (t.orReg 0x0300 0x200).bump 0x0314 1

/-- The 512 lanes of chunk c of a tile, by rows or by columns (R98). -/
def ashChunk (d : Tile64) (c : Nat) (cols : Bool) : List W32 :=
  (List.range 512).map (fun l =>
    let p := 8 * c + l / 64
    let q := l % 64
    nth 0 d (if cols then 64 * q + p else 64 * p + q))

/-- ASHRD: 512 lanes whatever VL; a lane that MEN makes inactive follows R84 (log 84). -/
def gAshRd (t0 : Tile) (g : GrateWord) : Tile :=
  let t := t0.noWait
  let put := fun (t : Tile) (l : List W32) => t.writeLanes g 32 512 (fun i => ((nth 0 l i).toNat, 0))
  match t.ashHead with
  | some st =>
    let l := ashChunk st.data (g.imm.toNat % 8) (g.imm.getLsbD 3)
    { put t l with ashHold := l, ashHoldHdr := st.header }
  | none => (put t (if t.compat then [] else t.ashHold)).emptyRead

/-- ASHHDR. An IMM above 1 has no stated value: a free word stands there (log 84). -/
def gAshHdr (e : GEnv) (t0 : Tile) (g : GrateWord) : GRes :=
  let t := t0.noWait
  let pick := fun (h : W64) =>
    if g.imm = 0 then BitVec.ofNat 32 (field h.toNat 0 32)
    else if g.imm = 1 then BitVec.ofNat 32 (field h.toNat 32 32)
    else BitVec.ofNat 32 (Config.freeWord e.free).toNat
  { t := match t.ashHead with
      | some st => t.xset g.vd.toNat (pick st.header)
      | none => (t.xset g.vd.toNat (if t.compat then 0 else pick t.ashHoldHdr)).emptyRead
    drew := decide (1 < g.imm.toNat) }

/-- ASHPOP. -/
def gAshPop (t0 : Tile) : Tile :=
  let t := t0.noWait
  match t.ashHead with
  | some _ => { t with ash := t.ash.drop 1 }
  | none => if t.compat then t else (t.orReg 0x0300 0x200).bump 0x0314 1

/-! ## Flags -/

/-- FLAGRD. -/
def gFlagRd (t : Tile) (g : GrateWord) : Tile :=
  t.xset g.vd.toNat (if g.imm = 1 then t.grateStatus else t.reg 0x0100)

/-- FLAGCLR (R108). -/
def gFlagClr (t : Tile) (g : GrateWord) : Tile :=
  let v := t.xget g.va.toNat
  if g.imm = 1 then t.setReg 0x0300 (t.reg 0x0300 &&& ~~~(v &&& 0x310))
  else t.setReg 0x0100 (t.reg 0x0100 &&& ~~~(v &&& 0x0BF))

end Sys2Proof.Machine
end

