-- ==== Sys2Proof/Machine/Streams.lean ====
section
/-! DEFINITION. Streams (R154 to R183): the refusals of an arm, the delivery order, index policies, the transfer of one
element, unit writes, re-arms, faults and aborts. -/

namespace Sys2Proof.Machine

/-! ## Descriptors of a stream -/

/-- No descriptor (Table 07-2). -/
def noDesc : Nat := 0xFFFF

/-- A descriptor of a context by number. -/
def Ctx.desc? (cx : Ctx) (n : Nat) : Option Desc := if n = noDesc then none else cx.descs[n]?

/-- A descriptor of a context by number; one that does not exist reads as an empty one. -/
def Ctx.desc (cx : Ctx) (n : Nat) : Desc := (cx.desc? n).getD {}

/-- DESC_A of a stream under its present bases (R169). -/
def Stream.descA (st : Stream) (cx : Ctx) : Desc :=
  { cx.desc (sdDescA st.sd) with base := st.base, scaleBase := st.scaleBase }

/-- Whether the stream has an index. -/
def sdIndexed (sd : Nat) : Bool := sdDescIdx sd != noDesc

/-- The index count N. -/
def idxCount (cx : Ctx) (sd : Nat) : Nat := (cx.desc (sdDescIdx sd)).count

/-- Whether the index selects positions of the destination: a store, or a copy with IDX_SIDE = 1. -/
def idxOnDest (sd : Nat) : Bool := sdIndexed sd && (sdKind sd == 1 || (sdKind sd == 2 && sdIdxSide sd == 1))

/-- The extents of a descriptor's gather view: EXTENT_GDIM becomes N (R165). -/
def viewExtents (cx : Ctx) (sd : Nat) (d : Desc) : List Nat := setNth d.extents (sdGdim sd) (idxCount cx sd)

/-- The memory format of the descriptor that a stream reads or writes through the flue. -/
def sdMemFmt (cx : Ctx) (sd : Nat) : BitVec 4 := (cx.desc (sdDescA sd)).fmt

/-- The flue format (R157). -/
def sdFlueFmt (cx : Ctx) (sd : Nat) : BitVec 4 := if sdConv sd then sdCfmt sd else sdMemFmt cx sd

/-- The extents that a stream pass walks: DESC_A's, or its gather view where the index is on its side; a store's view is
on DESC_A too (R165). -/
def walkExtents (cx : Ctx) (sd : Nat) : List Nat :=
  let a := cx.desc (sdDescA sd)
  if sdIndexed sd && !(sdKind sd == 2 && sdIdxSide sd == 1) then viewExtents cx sd a else a.extents

/-- Index tuples of a stream pass. -/
def walkCount (cx : Ctx) (sd : Nat) : Nat := (walkExtents cx sd).foldl (· * ·) 1

/-- The tuple at a position of block order over a face of e1 rows and e0 columns (R157). -/
def blockTuple (e0 e1 : Nat) (cols : Bool) (r : Nat) : Nat × Nat :=
  let br := r / (64 * e0)
  let hr := min 64 (e1 - 64 * br)
  let r1 := r - br * 64 * e0
  let bc := r1 / (hr * 64)
  let wc := min 64 (e0 - 64 * bc)
  let r2 := r1 - bc * hr * 64
  if cols then (64 * bc + r2 / hr, 64 * br + r2 % hr) else (64 * bc + r2 % wc, 64 * br + r2 / wc)

/-- The tuple at a position of the delivery order (R157). -/
def deliveryTuple (layout order : Nat) (ext : List Nat) (pos : Nat) : List Nat :=
  if layout = 1 then
    let e0 := nth 1 ext 0
    let e1 := nth 1 ext 1
    let p := blockTuple e0 e1 (order == 1) (pos % (e0 * e1))
    p.1 :: p.2 :: tupleOf (ext.drop 2) (pos / (e0 * e1))
  else tupleOf ext pos

/-- The tuple that a stream takes at a position. -/
def streamTuple (cx : Ctx) (sd pos : Nat) : List Nat :=
  deliveryTuple (cx.desc (sdDescA sd)).layout (sdOrder sd) (walkExtents cx sd) pos

/-- The cursor as STR_CURSOR shows it: the logical index of the tuple at the cursor (R177), past the end the count; the step
number of a ring stream (R173). -/
def cursorOf (cx : Ctx) (sd pos : Nat) : Nat :=
  if sdKind sd = 3 then pos
  else if walkCount cx sd ≤ pos then walkCount cx sd else indexOfTuple (walkExtents cx sd) (streamTuple cx sd pos)

/-! ## Refusals of an arm (R156, R161) -/

/-- Whether descriptor d may be read. -/
def Desc.canRead (d : Desc) : Bool := Nat.testBit d.acc 0
/-- Whether descriptor d may be written. -/
def Desc.canWrite (d : Desc) : Bool := Nat.testBit d.acc 1

/-- The format that a stream's conversion starts from and the one that it ends in: a load's memory and flue, a store's flue and
memory, a copy's two descriptors; a ring moves slices as they are. -/
def sdFormats (cx : Ctx) (sd : Nat) : BitVec 4 × BitVec 4 :=
  if sdKind sd = 0 then (sdMemFmt cx sd, sdFlueFmt cx sd)
  else if sdKind sd = 1 then (sdFlueFmt cx sd, sdMemFmt cx sd)
  else if sdKind sd = 2 then (sdMemFmt cx sd, (cx.desc (sdDescB sd)).fmt)
  else (sdMemFmt cx sd, sdMemFmt cx sd)

/-- Whether SR is defined for a conversion: FP32 to BF16, FP16, E4M3, E5M2 or an MX format (R39). -/
def srDefined (src dst : BitVec 4) : Bool := src == 0 && (decide (1 ≤ dst.toNat ∧ dst.toNat ≤ 4) || isMx dst)

/-- Whether a stream's RM is one that its conversion may take: one of Table 02-5, and SR only where R39 defines it or where
no element is ever rounded: equal formats, and not a store's or a copy's MX blocks, which R153 may have encoded again (log 95). -/
def streamRmOk (cx : Ctx) (sd : Nat) : Bool :=
  let f := sdFormats cx sd
  decide ((sdRm sd).toNat ≤ 4) && (sdRm sd != 4 || (f.1 == f.2 && !(isMx f.1 && (sdKind sd == 1 || sdKind sd == 2))) || srDefined f.1 f.2)

/-- Whether a stream descriptor passes the checks of R161 in a context; RA_BASE and RING_S are checked at use. -/
def streamOk (cx : Ctx) (sd : Nat) : Bool :=
  let k := sdKind sd
  let a := cx.desc? (sdDescA sd)
  let b := cx.desc? (sdDescB sd)
  let x := cx.desc? (sdDescIdx sd)
  let da := a.getD {}
  let db := b.getD {}
  let dx := x.getD {}
  let data := if idxOnDest sd && k == 2 then db else da
  let flue := sdFlueFmt cx sd
  -- encodings and reserved fields
  decide (k ≤ 3) && field sd 0 6 == 0 && field sd 108 20 == 0 && sdCfmt sd != 0xF && streamRmOk cx sd &&
  decide (sdIdxNeg sd ≤ 2) && decide (sdIdxOor sd ≤ 2) &&
  a.isSome && (if k = 2 ∨ k = 3 then b.isSome else sdDescB sd == noDesc) &&
  (sdDescIdx sd == noDesc || x.isSome) &&
  (if k = 2 then sdUnits sd == 0 else decide (1 ≤ sdUnits sd ∧ sdUnits sd ≤ 64)) &&
  (k == 2 || sdIdxSide sd == 0) &&
  -- access
  (if k = 1 then da.canWrite else da.canRead) && (k != 2 || db.canWrite) && (k != 3 || db.canWrite) &&
  -- ORDER
  (sdOrder sd == 0 || (da.layout == 1 && !isScaled da.fmt && !(k != 2 && isScaled flue))) &&
  -- copies (R152)
  (k != 2 || (let ea := if sdIndexed sd && sdIdxSide sd == 0 then viewExtents cx sd da else da.extents
      let eb := if sdIndexed sd && sdIdxSide sd == 1 then viewExtents cx sd db else db.extents
      ea == eb)) &&
  !(sdWatch sd && k == 0) &&
  !(sdScat sd && !(decide (data.fmt.toNat ≤ 2) && data.layout == 0)) &&
  (sdDescIdx sd == noDesc || (dx.fmt == 0 && dx.canRead && decide (dx.count ≤ 2 ^ 32) && decide (sdGdim sd < data.ndim) && k != 3)) &&
  decide (walkCount cx sd ≤ 2 ^ 48) && !(sdRingLink sd && !sdPersist sd) &&
  -- a ring's slices and buffer pair: each half is the size of one slice (R173, log 93)
  (k != 3 || (nth 0 da.extents (da.ndim - 1) == 256 && nth 0 db.extents (db.ndim - 1) == 2 &&
    da.extents.take (da.ndim - 1) == db.extents.take (db.ndim - 1) && da.fmt == db.fmt && db.space == 1 && da.space != 1))

/-! ## Values in transit -/

/-- The value of an element with its block scale, and the flags of its decoding: exact, but for an SB16 element, which is decoded
to FP32 with RNE (R24, R27). -/
def elemNum (fmt : BitVec 4) (code scale : Nat) : Num × W32 :=
  if isMx fmt then mxValue fmt code scale
  else if fmt = 0xE then (val32 (sbDecode code scale).1, (sbDecode code scale).2)
  else (decodeElem fmt code, 0)

/-- Whether an element is not finite, its block scale counted. -/
def elemBad (fmt : BitVec 4) (code scale : Nat) : Bool := !(elemNum fmt code scale).1.isFin

/-- What a conversion of a stream needs: rounding, saturation, and the indices of R40. -/
structure ConvEnv where
  rm : BitVec 3
  sat : Bool
  seed : Nat
  step : Nat
  tensor : Nat
  deriving DecidableEq, Repr

/-- The rounding mode for the element of a logical index. -/
def ConvEnv.mode (e : ConvEnv) (i : Nat) : RMode := rmOf e.rm (if e.rm = 4 then randomBits e.seed e.step e.tensor i else 0)

/-- One element converted to a format without scales (R32, R33); in its own format it passes unchanged. -/
def convElem (e : ConvEnv) (src dst : BitVec 4) (code scale i : Nat) : Nat × W32 :=
  if src = dst then (code, 0)
  else
    let v := elemNum src code scale
    let r := convertNum dst (e.mode i) e.sat v.1
    (r.1 % 2 ^ elemWidth dst, v.2 ||| r.2)

/-- An element on its way into a block: its logical index there, the format that its code and scale are in. -/
structure BlockElem where
  idx : Nat
  fmt : BitVec 4
  code : Nat
  scale : Nat
  deriving DecidableEq, Repr

/-- The elements of one scale block, absent ones as none, in a scaled format (R153): unchanged where they come in that format
with one scale, and else decoded and encoded again. A block of no elements has the scale of zeros, 127 (log 96). Scale, codes,
flags. -/
def convBlock (e : ConvEnv) (dst : BitVec 4) (blk : List (Option BlockElem)) : Nat × List Nat × W32 :=
  let here := blk.filterMap id
  let one := match here with
    | [] => none
    | h :: _ => if here.all (fun k => k.fmt == dst && k.scale == h.scale) then some h.scale else none
  match one with
  | some sc => (sc, blk.map (fun o => match o with | some k => k.code | none => 0), 0)
  | none =>
    let vs := blk.map (fun o => match o with
      | some k => (some (elemNum k.fmt k.code k.scale).1, e.mode k.idx)
      | none => (none, .rne))
    let f0 := here.foldl (fun f k => f ||| (elemNum k.fmt k.code k.scale).2) 0
    let r := if isMx dst then mxEncode dst vs else sbEncode (vs.map (fun p => p.1))
    (r.1, r.2.1, f0 ||| r.2.2)

/-! ## Where a stream runs -/

/-- A stream's place: its slot, logical tile and number. -/
structure At where
  u : Nat
  t : Nat
  s : Nat
  deriving DecidableEq, Repr

/-- The stream at a place. -/
def State.streamAt (s : State) (a : At) : Stream := (s.tile a.u).stream a.s

/-- The stream at a place replaced. -/
def State.setStreamAt (s : State) (a : At) (v : Stream) : State := s.setTile a.u ((s.tile a.u).setStream a.s v)

/-- The place of stream n of logical tile t. -/
def State.place (s : State) (t : BitVec 8) (n : BitVec 5) : At := ⟨s.unitOf t.toNat, t.toNat, n.toNat⟩

/-- Where the stoker of a firebox stands: 2 in its commit block (R253), 1 in its prologue (R260), 0 elsewhere. -/
def Stoker.place (k : Stoker) : Nat :=
  if k.gatedEnd.isSome then 2
  else match k.proEnd with
    | some e => if k.pc < e then 1 else 0
    | none => 0

/-- Whether a firebox is in its commit block or in its prologue. -/
def Tile.mayPersist (t : Tile) : Bool := t.stoker.place != 0

/-- The scratch ranges that may not be written now: the SPACE 1 PERSIST ranges, but for a commit block or the prologue (R242). -/
def State.guards (s : State) (t : Tile) : List (Nat × Nat) :=
  if !s.sched.running || t.mayPersist then []
  else ((s.ctx s.sched.ctx).allocs.filter (fun a => a.space == 1 && a.cls == 1)).map (fun a => (a.base, a.base + a.size))

/-- Whether a byte range meets a guarded range. -/
def meetsGuard (g : List (Nat × Nat)) (a n : Nat) : Bool := g.any (fun r => decide (a < r.2 ∧ r.1 < a + n))

/-- The access of n bytes at an address of a space, page by page, whose contents are looked at or not; the first one that may
not proceed is returned with its address. Lines on a channel in a retraining window make it wait (R204, R205, log 121). -/
def State.reachAs (s : State) (u c sp a n : Nat) (write look : Bool) : State × Option (Access × Nat) :=
  if sp ≠ 0 then (s, none)
  else
    let step := fun (acc : State × Option (Access × Nat)) (p : Nat) =>
      match acc.2 with
      | some _ => acc
      | none =>
        let r := acc.1.access (some u) c p write
        match r.2 with
        | .go tier f =>
          let lo := max a (p * pageBytes)
          let hi := min (a + n) ((p + 1) * pageBytes)
          if r.1.spanHeld tier f (lo % pageBytes) (hi - lo) then (r.1, some (.wait, lo))
          else if look && r.1.spanBad tier f (lo % pageBytes) (hi - lo) then (r.1, some (.fault 4, lo)) else (r.1, none)
        | x => (r.1, some (x, max a (p * pageBytes)))
    (List.range ((a + n + pageBytes - 1) / pageBytes - a / pageBytes)).foldl (fun acc i => step acc (a / pageBytes + i)) (s, none)

/-- The access of n bytes at an address of a space; a read looks at the contents. -/
def State.reach (s : State) (u c sp a n : Nat) (write : Bool) : State × Option (Access × Nat) :=
  s.reachAs u c sp a n write (!write)

/-- The element code and scale at a tuple of a descriptor, as they lie in memory. -/
def State.readElem (s : State) (u c : Nat) (d : Desc) (t : List Nat) : Nat × Nat :=
  let p := d.place t
  let code :=
    if p.single then leNat (s.spaceRead u c d.space p.unit p.unitBytes)
    else if bitPlanes d.fmt then
      (List.range (elemWidth d.fmt)).foldl (fun acc b =>
        acc + 2 ^ b * bnat ((nth 0 (s.spaceRead u c d.space (p.unit + p.positions / 8 * b + p.pos / 8) 1) 0).getLsbD (p.pos % 8))) 0
    else leNat (s.spaceRead u c d.space (p.unit + p.pos * (elemWidth d.fmt / 8)) (elemWidth d.fmt / 8))
  (code, match p.scale with | some a => leNat (s.spaceRead u c d.space a 1) | none => 0)

/-- The first access to the bytes that an element lies in and to its scale that may not proceed. A write touches its whole unit
with the unit's scales (R138, R153), and looks at the contents where it adds to them or keeps some of them. -/
def State.reachElemAs (s : State) (u c : Nat) (d : Desc) (t : List Nat) (write look : Bool) : State × Option (Access × Nat) :=
  let p := d.place t
  let r := if write || p.single || bitPlanes d.fmt then s.reachAs u c d.space p.unit p.unitBytes write look
    else s.reachAs u c d.space (p.unit + p.pos * (elemWidth d.fmt / 8)) (elemWidth d.fmt / 8) write look
  match r.2, p.scale, (d.unitScales t).head? with
  | none, some a, some first =>
    if write then r.1.reachAs u c d.space first (d.unitScales t).length write look else r.1.reachAs u c d.space a 1 write look
  | _, _, _ => r

/-- The first access to a tuple's element that may not proceed; a read looks at the contents. -/
def State.reachElem (s : State) (u c : Nat) (d : Desc) (t : List Nat) (write : Bool) : State × Option (Access × Nat) :=
  s.reachElemAs u c d t write (!write)

/-! ## Index policies (R165, R166) -/

/-- Where an index sends a position. -/
inductive Mapped where
  | at (k : Nat)
  | zero
  | fault (code : Nat)
  deriving DecidableEq, Repr

/-- map(x) for extent E under the policies of a stream (Table 07-3). -/
def mapIndex (sd : Nat) (e : Nat) (x : Int) : Mapped :=
  if 0 ≤ x ∧ x < e then .at x.toNat
  else
    let pol := if x < 0 then sdIdxNeg sd else sdIdxOor sd
    if pol = 1 then .at (x % (e : Int)).toNat else if pol = 2 then .zero else .fault (if x < 0 then 5 else 6)

/-- The index element at position p. -/
def State.indexAt (s : State) (u c sd p : Nat) : Int :=
  let dx := (s.ctx c).desc (sdDescIdx sd)
  signed 32 (s.readElem u c dx (tupleOf dx.extents p)).1

/-- The descriptor that the index selects on. -/
def dataDesc (cx : Ctx) (st : Stream) : Desc := if idxOnDest st.sd && sdKind st.sd == 2 then cx.desc (sdDescB st.sd) else st.descA cx

/-- The mapped position of a tuple along GDIM. -/
def State.mapTuple (s : State) (u c : Nat) (st : Stream) (t : List Nat) : Mapped :=
  if sdIndexed st.sd then
    mapIndex st.sd ((dataDesc (s.ctx c) st).extent (sdGdim st.sd)) (s.indexAt u c st.sd (nth 0 t (sdGdim st.sd)))
  else .at (nth 0 t (sdGdim st.sd))

/-- Whether a tuple is where a position's index is counted: every other index is 0. -/
def countsHere (gd : Nat) (t : List Nat) : Bool := (List.range t.length).all (fun d => d == gd || nth 0 t d == 0)

/-- The counts of an index position (R166, R167): STR_CNT_IDX, NEG_SEEN and OOR_SEEN, and for a gather a saved fetch where an
earlier position of its window maps to the same row. -/
def State.countIndex (s : State) (a : At) (c : Nat) (t : List Nat) : State :=
  let st := s.streamAt a
  let gd := sdGdim st.sd
  if !(sdIndexed st.sd && countsHere gd t) then s
  else
    let e := (dataDesc (s.ctx c) st).extent gd
    let p := nth 0 t gd
    let x := s.indexAt a.u c st.sd p
    let out := decide (x < 0) || decide ((e : Int) ≤ x)
    let s1 := if out then s.setStreamAt a { st with
        cntIdx := st.cntIdx + 1, sticky := setBit st.sticky (if x < 0 then 9 else 10) } else s
    match mapIndex st.sd e x with
    | .at k =>
      if !idxOnDest st.sd && (List.range (p % 64)).any (fun i =>
          decide (mapIndex st.sd e (s.indexAt a.u c st.sd (p / 64 * 64 + i)) = .at k)) then
        s1.setTile a.u ((s1.tile a.u).bump 0x038C 1)
      else s1
    | _ => s1

/-! ## Writes -/

/-- The conversion environment of a stream towards a destination tensor. -/
def State.convEnv (s : State) (c sd tensor : Nat) : ConvEnv :=
  { rm := sdRm sd, sat := sdSat sd, seed := (s.ctx c).seed, step := (s.ctx c).stepCommitted + 1, tensor := tensor }

/-- The format in which elements are in transit to a destination: the flue's for a store, the source's for a copy. -/
def transitFmt (cx : Ctx) (sd : Nat) : BitVec 4 := if sdKind sd = 1 then sdFlueFmt cx sd else sdMemFmt cx sd

/-- The destination of a store or copy. -/
def destDesc (cx : Ctx) (st : Stream) : Desc := if sdKind st.sd = 1 then st.descA cx else cx.desc (sdDescB st.sd)

/-- The destination tuple of an element of the walk, none where a scatter drops it. -/
def State.destTuple (s : State) (u c : Nat) (st : Stream) (t : List Nat) : Option (List Nat) :=
  if idxOnDest st.sd then
    match s.mapTuple u c st t with
    | .at k => some (setNth t (sdGdim st.sd) k)
    | _ => none
  else some t

/-- The poison marks of the lines from a to b of a context's DVA space gone: a write covers them whole (R199). -/
def State.healLines (s : State) (c a b : Nat) : State :=
  if s.mem.poison.isEmpty then s
  else
    let marks := (List.range (b / 64 - (a + 63) / 64)).filterMap (fun i =>
      let l := (a + 63) / 64 + i
      let e := s.pentry c (l / 1024)
      if eV e then some (eTier e, eFrame e * 1024 + l % 1024) else none)
    { s with mem := { s.mem with poison := s.mem.poison.filter (fun p => p.1 == 2 || !marks.contains p) } }

/-- The bytes that a stream writes in DVA space: writes that follow one another without a gap count as one write of the lines that they
cover (R199, log 119). -/
def State.runWrite (s : State) (a : At) (c addr n : Nat) : State :=
  let st := s.streamAt a
  let lo := if st.runTo = addr ∧ n ≠ 0 then st.runFrom else addr
  (s.setStreamAt a { st with runFrom := lo, runTo := addr + n }).healLines c lo (addr + n)

/-- Bytes written by a stream to a space: a write into a guarded scratch range writes nothing and raises FAIL (R242). The writes
of a stream that the commit block or the prologue armed are that block's, to their end (R255). -/
def State.streamPut (s : State) (a : At) (c sp addr : Nat) (bs : List Byte) : State :=
  if sp = 1 && (s.streamAt a).armedIn == 0 && meetsGuard (s.guards (s.tile a.u)) addr bs.length then s.raiseFail
  else if sp = 0 then (s.spaceWrite a.u c sp addr bs).runWrite a c addr bs.length
  else s.spaceWrite a.u c sp addr bs

/-- An element added to a stored one with one RNE rounding in the element format (R145, R168). -/
def accumulate (fmt : BitVec 4) (old : Nat × W32) (v : Nat × W32) : Nat × W32 :=
  match floatOf fmt with
  | some f =>
    let sum := addNum .rne (decodeFloat f old.1) (decodeFloat f v.1)
    let q := packArith f .rne sum.1
    (q.1, old.2 ||| v.2 ||| sum.2 ||| q.2)
  | none => (v.1, old.2 ||| v.2)

/-- One element that lies alone written with its flags; a watched store of a non-finite value sets NF (R36). -/
def State.writeElem (s : State) (a : At) (c : Nat) (st : Stream) (d : Desc) (t : List Nat) (r : Nat × W32) : State :=
  let p := d.place t
  let nf := if sdWatch st.sd && !(decodeElem d.fmt r.1).isFin then fNF else 0
  let s1 := s.streamPut a c d.space p.unit (leBytes p.unitBytes r.1)
  s1.setTile a.u ((s1.tile a.u).raise (r.2 ||| nf))

/-- An element in transit in the destination's format. -/
def State.converted (s : State) (c : Nat) (st : Stream) (d : Desc) (t : List Nat) (code scale : Nat) : Nat × W32 :=
  convElem (s.convEnv c st.sd d.tensorId) (transitFmt (s.ctx c) st.sd) d.fmt code scale (indexOfTuple d.extents t)

/-- The stored element of a tuple, with no flag. -/
def State.stored (s : State) (a : At) (c : Nat) (d : Desc) (t : List Nat) : Nat × W32 := ((s.readElem a.u c d t).1, 0)

/-- One element written alone: plain, or added to what its address holds under OVL 1 (R145). -/
def State.putElem (s : State) (a : At) (c : Nat) (st : Stream) (d : Desc) (t : List Nat) (code scale : Nat) : State :=
  let v := s.converted c st d t code scale
  s.writeElem a c st d t (if d.ovl = 1 ∧ !idxOnDest st.sd then accumulate d.fmt (s.stored a c d t) v else v)

/-- The elements that a scatter window sends to one tuple, in ascending position order (R168): with SCAT = 1 each is added to
the running value, with SCAT = 0 the last one wins; the tuple is written once. -/
def State.putRow (s : State) (a : At) (c : Nat) (st : Stream) (d : Desc) (t : List Nat) (es : List (Nat × Nat)) : State :=
  if sdScat st.sd then
    s.writeElem a c st d t (es.foldl (fun old e => accumulate d.fmt old (s.converted c st d t e.1 e.2)) (s.stored a c d t))
  else match es.getLast? with
    | some e => s.putElem a c st d t e.1 e.2
    | none => s

/-- A whole granule or block written from elements in transit (R153): (destination tuple, code, scale). A position that a tuple
reaches and no element names, which only a scatter leaves, keeps the element that it holds. -/
def State.putUnit (s : State) (a : At) (c : Nat) (st : Stream) (d : Desc) (t : List Nat)
    (elems : List (List Nat × Nat × Nat)) : State :=
  let cx := s.ctx c
  let p := d.place t
  let src := transitFmt cx st.sd
  let env := s.convEnv c st.sd d.tensorId
  let named := fun (q : List Nat) => elems.find? (fun e => e.1 == q)
  let here := (d.unitTuples t).map (fun o => o.map (fun q =>
    let i := indexOfTuple d.extents q
    (q, match named q with
      | some e => (⟨i, src, e.2.1, e.2.2⟩ : BlockElem)
      | none => let v := s.readElem a.u c d q; ⟨i, d.fmt, v.1, v.2⟩)))
  let watched := fun (o : Option (List Nat × BlockElem)) (code scale : Nat) => match o with
    | some k => sdWatch st.sd && (named k.1).isSome && elemBad d.fmt code scale
    | none => false
  if scaleBlock d.fmt = 0 then
    let rs := here.map (fun o => match o with
      | some k => convElem env k.2.fmt d.fmt k.2.code k.2.scale k.2.idx
      | none => (0, 0))
    let s1 := s.streamPut a c d.space p.unit (packCodes d.fmt p.positions (rs.map (fun r => r.1)))
    let nf := if (List.zip here rs).any (fun r => watched r.1 r.2.1 0) then fNF else 0
    s1.setTile a.u ((s1.tile a.u).raise (rs.foldl (fun f r => f ||| r.2) nf))
  else
    let outs := (d.unitScales t).map (fun sa =>
      let mine := here.map (fun o => o.filter (fun k => decide ((d.place k.1).scale = some sa)))
      (sa, mine, convBlock env d.fmt (mine.map (fun o => o.map (fun k => k.2)))))
    let codes := (List.range p.positions).map (fun n =>
      match outs.find? (fun o => (nth none o.2.1 n).isSome) with
      | some o => nth 0 o.2.2.2.1 n
      | none => 0)
    let s1 := s.streamPut a c d.space p.unit (packCodes d.fmt p.positions codes)
    let s2 := outs.foldl (fun s o => s.streamPut a c d.space o.1 [BitVec.ofNat 8 o.2.2.1]) s1
    let nf := if outs.any (fun o => (List.zip o.2.1 o.2.2.2.1).any (fun r => watched r.1 r.2 o.2.2.1)) then fNF else 0
    s2.setTile a.u ((s2.tile a.u).raise (outs.foldl (fun f o => f ||| o.2.2.2.2) nf))

/-! ## When elements are written -/

/-- How a store or copy groups its writes: element by element, by granule or block, by scatter window, or at the pass's end. -/
inductive Group where
  | each
  | unit
  | window
  | whole
  deriving DecidableEq, Repr

/-- The grouping of a stream's writes (R153, R168, R177). A scatter writes by windows whatever its destination (log 97); an overlap
written out of logical order is written at the pass's end. -/
def groupOf (cx : Ctx) (st : Stream) : Group :=
  let d := destDesc cx st
  let walkLinear := (cx.desc (sdDescA st.sd)).layout == 0
  if idxOnDest st.sd then .window
  else if granule d.fmt = 1 ∧ d.layout = 0 then (if d.ovl != 0 && !walkLinear then .whole else .each)
  else .unit

/-- The end of the scatter window of a position in delivery order (R167): 64 positions of GDIM with the elements below it. In
block order a window of dimension 0 is a block, and a window of dimension 1 is a block row. -/
def windowEnd (cx : Ctx) (sd pos : Nat) : Nat :=
  let ext := walkExtents cx sd
  let g := sdGdim sd
  let e0 := nth 1 ext 0
  let e1 := nth 1 ext 1
  if (cx.desc (sdDescA sd)).layout = 1 ∧ g ≤ 1 then
    let face := pos / (e0 * e1) * (e0 * e1)
    let r := pos - face
    let br := r / (64 * e0)
    let high := min 64 (e1 - 64 * br)
    let row := face + br * 64 * e0
    if g = 1 then row + high * e0
    else
      let bc := (pos - row) / (high * 64)
      row + bc * high * 64 + high * min 64 (e0 - 64 * bc)
  else
    let low := (ext.take g).foldl (· * ·) 1
    let run := low * nth 1 ext g
    let r := pos % run
    min (pos - r + (r / (64 * low) + 1) * (64 * low)) (pos - r + run)

/-- Elements in transit with their destination tuples; those that a scatter drops are left out. -/
def State.aimed (s : State) (a : At) (c : Nat) (st : Stream) (l : List (Nat × Nat × Nat)) : List (List Nat × Nat × Nat) :=
  l.filterMap (fun e =>
    (s.destTuple a.u c st (streamTuple (s.ctx c) st.sd e.1)).map (fun q => (q, e.2.1, e.2.2)))

/-- Elements in transit written one by one in the order given. -/
def State.putEach (s : State) (a : At) (c : Nat) (st : Stream) (l : List (Nat × Nat × Nat)) : State :=
  let d := destDesc (s.ctx c) st
  (s.aimed a c st l).foldl (fun s e => s.putElem a c st d e.1 e.2.1 e.2.2) s

/-- Elements in transit written by whole units, each unit from the elements that reach it; the last of several for one tuple
stands (R168). -/
def State.putUnits (s : State) (a : At) (c : Nat) (st : Stream) (l : List (Nat × Nat × Nat)) : State :=
  let d := destDesc (s.ctx c) st
  let es := s.aimed a c st l
  ((es.map (fun e => (d.place e.1).unit)).eraseDups).foldl (fun s un =>
    match (es.filter (fun e => (d.place e.1).unit == un)).reverse with
    | e :: r => s.putUnit a c st d e.1 (e :: r)
    | [] => s) s

/-- The elements of a scatter window applied (R168): each tuple, or each granule or block, is written once, in the order in
which the window first names it. -/
def State.putWindow (s : State) (a : At) (c : Nat) (st : Stream) (l : List (Nat × Nat × Nat)) : State :=
  let d := destDesc (s.ctx c) st
  if granule d.fmt = 1 ∧ d.layout = 0 then
    let es := s.aimed a c st l
    ((es.map (fun e => e.1)).eraseDups).foldl (fun s q =>
      s.putRow a c st d q ((es.filter (fun e => e.1 == q)).map (fun e => e.2))) s
  else s.putUnits a c st l

/-- Elements written as the grouping asks. -/
def State.putAs (s : State) (a : At) (c : Nat) (st : Stream) (g : Group) (l : List (Nat × Nat × Nat)) : State :=
  match g with
  | .window => s.putWindow a c st l
  | .unit => s.putUnits a c st l
  | _ => s.putEach a c st l

/-- Whether a write looks at what its address holds: it adds to it, or a scatter keeps a part of a unit. -/
def looksAt (st : Stream) (d : Desc) : Bool :=
  if idxOnDest st.sd then sdScat st.sd || !(granule d.fmt == 1 && d.layout == 0) else d.ovl == 1

/-- Whether every access of writes to come may proceed; the first that may not. -/
def State.reachAll (s : State) (a : At) (c : Nat) (st : Stream) (l : List (Nat × Nat × Nat)) : State × Option (Access × Nat) :=
  let d := destDesc (s.ctx c) st
  l.foldl (fun acc e => match acc.2 with
    | some _ => acc
    | none =>
      match acc.1.destTuple a.u c st (streamTuple (acc.1.ctx c) st.sd e.1) with
      | some q => acc.1.reachElemAs a.u c d q true (looksAt st d)
      | none => acc) (s, none)

/-- The cursor position of a store or copy: the first element not yet written. -/
def cursorAt (pos : Nat) (buf : List (Nat × Nat × Nat)) : Nat := buf.foldl (fun m e => min m e.1) pos

/-- Why a transfer stops before an element. -/
inductive Stop where
  | none
  | wait
  | access (x : Access) (addr : Nat)
  | index (code : Nat)
  deriving DecidableEq, Repr

/-- The elements that wait in the bellows, written as their grouping allows after the element at `pos` − 1 was taken. -/
def State.flushStream (s : State) (a : At) (c : Nat) : State × Stop :=
  let st := s.streamAt a
  let cx := s.ctx c
  let d := destDesc cx st
  let last := walkCount cx st.sd ≤ st.pos
  let close := fun (s : State) (rest : List (Nat × Nat × Nat)) =>
    let st2 := s.streamAt a
    let st3 : Stream := { st2 with buf := rest, cursorPos := cursorAt st2.pos rest }
    s.setStreamAt a (st3.trim (sdFlueFmt cx st.sd))
  let go := fun (ready rest : List (Nat × Nat × Nat)) =>
    let r := s.reachAll a c st ready
    match r.2 with
    | some p => (r.1, Stop.access p.1 p.2)
    | none => (close (r.1.putAs a c st (groupOf cx st) ready) rest, Stop.none)
  match groupOf cx st with
  | .each => go st.buf []
  | .window =>
    match st.buf.head? with
    | some e => if windowEnd cx st.sd e.1 ≤ st.pos then go st.buf [] else (s, .none)
    | none => (s, .none)
  | .whole =>
    if !last then (s, .none)
    else
      -- ascending logical index (R145)
      let keyed := st.buf.map (fun e => (indexOfTuple (walkExtents cx st.sd) (streamTuple cx st.sd e.1), e))
      go ((sortPairs (keyed.zipIdx.map (fun k => (k.1.1, k.2)))).filterMap (fun p => (keyed[p.2]?).map (fun k => k.2))) []
  | .unit =>
    match st.buf.getLast? with
    | none => (s, .none)
    | some e =>
      -- the unit of the element taken last, whole once every tuple that reaches it is here
      let unitOf := fun (e : Nat × Nat × Nat) => (d.place (streamTuple cx st.sd e.1)).unit
      let un := unitOf e
      let mine := st.buf.filter (fun x => unitOf x == un)
      let need := ((d.unitTuples (streamTuple cx st.sd e.1)).filterMap id).length
      if mine.length < need then (s, .none)
      else go mine (st.buf.filter (fun x => unitOf x != un))

/-! ## Slices of a ring (R173) -/

/-- Elements of one slice: the outermost dimension counts slices (R173). -/
def Desc.sliceCount (d : Desc) : Nat := (d.extents.take (d.ndim - 1)).foldl (· * ·) 1

/-- Bytes of one slice that lies as one run. -/
def sliceBytes (d : Desc) : Nat := d.sliceCount * elemWidth d.fmt / 8

/-- The first tuple of outermost index i. -/
def Desc.sliceHead (d : Desc) (i : Nat) : List Nat := (d.extents.take (d.ndim - 1)).map (fun _ => 0) ++ [i]

/-- The address of outermost index i of a descriptor. -/
def outerAddr (d : Desc) (i : Nat) : Nat := (d.place (d.sliceHead i)).unit

/-- The address of the first block scale of outermost index i. -/
def outerScale (d : Desc) (i : Nat) : Nat := (d.place (d.sliceHead i)).scale.getD 0

/-- Whether every slice lies as one run of bytes: linear layout, the strides of its extents, whole granules. -/
def Desc.packedSlice (d : Desc) : Bool :=
  d.layout == 0 && (decide (2 ≤ d.ndim) || granule d.fmt == 1) && d.extent 0 % granule d.fmt == 0 &&
  (List.range (d.ndim - 1)).all (fun k => d.stride k == (((d.extents.take k).foldl (· * ·) 1 : Nat) : Int))

/-- The first access to slice i of a descriptor that may not proceed. -/
def State.sliceReach (s : State) (u c : Nat) (d : Desc) (i : Nat) : State × Option (Access × Nat) :=
  if d.packedSlice then
    let r := s.reach u c d.space (outerAddr d i) (sliceBytes d) false
    if r.2.isSome || scaleBlock d.fmt == 0 then r
    else r.1.reach u c d.space (outerScale d i) (d.sliceCount / scaleBlock d.fmt) false
  else
    (List.range d.sliceCount).foldl (fun acc j => if acc.2.isSome then acc
      else acc.1.reachElem u c d (tupleOf (d.extents.take (d.ndim - 1)) j ++ [i]) false) (s, none)

/-! ## One element (R177, R178) -/

/-- Elements in the bellows delivered to a load flue: one by one, or by whole scale blocks where a conversion makes them. The
indices of R40 are DESC_A's TENSOR_ID and the index in the walked view, since a flue has no descriptor (log 98). -/
def State.flushLoad (s : State) (a : At) (c : Nat) : State × Stop :=
  let st := s.streamAt a
  let cx := s.ctx c
  let src := sdMemFmt cx st.sd
  let dst := sdFlueFmt cx st.sd
  let d := st.descA cx
  let env := s.convEnv c st.sd d.tensorId
  let ext := walkExtents cx st.sd
  let done := fun (es : List (Nat × Nat)) (f : W32) =>
    let st2 : Stream := { st with entries := st.entries ++ es, buf := [], cursorPos := st.pos }
    let s1 := s.setStreamAt a st2
    (s1.setTile a.u ((s1.tile a.u).raise f), Stop.none)
  let b := scaleBlock dst
  if src = dst ∨ b = 0 then
    let rs := st.buf.map (fun e =>
      let i := indexOfTuple ext (streamTuple cx st.sd e.1)
      let r := convElem env src dst e.2.1 e.2.2 i
      ((r.1, e.2.2), r.2))
    done (rs.map (fun r => r.1)) (rs.foldl (fun f r => f ||| r.2) 0)
  else
    let t := streamTuple cx st.sd (st.pos - 1)
    let i0 := nth 0 t 0
    if (i0 + 1) % b = 0 ∨ i0 + 1 = nth 1 ext 0 then
      let r := convBlock env dst (st.buf.map (fun e =>
        some ⟨indexOfTuple ext (streamTuple cx st.sd e.1), src, e.2.1, e.2.2⟩))
      done (r.2.1.map (fun q => (q, r.1))) r.2.2
    else (s, .none)

/-- What stops the index of a tuple of an indexed stream: its element's access, or an index fault. -/
def State.reachIndex (s : State) (a : At) (c : Nat) (st : Stream) (t : List Nat) : State × Stop :=
  if !sdIndexed st.sd then (s, .none)
  else
    let dx := (s.ctx c).desc (sdDescIdx st.sd)
    let r := s.reachElem a.u c dx (tupleOf dx.extents (nth 0 t (sdGdim st.sd))) false
    match r.2 with
    | some p => (r.1, .access p.1 p.2)
    | none => match r.1.mapTuple a.u c st t with
      | .fault k => (r.1, .index k)
      | _ => (r.1, .none)

/-- The source element of the next position of a load or copy, none where an index policy makes it zero. -/
def State.sourceElem (s : State) (a : At) (c : Nat) (st : Stream) (t : List Nat) : State × (Stop ⊕ (Nat × Nat)) :=
  let cx := s.ctx c
  let d := st.descA cx
  let read := fun (s : State) (q : List Nat) =>
    let r := s.reachElem a.u c d q false
    match r.2 with
    | some p => (r.1, Sum.inl (Stop.access p.1 p.2))
    | none => (r.1, Sum.inr (r.1.readElem a.u c d q))
  let r := s.reachIndex a c st t
  match r.2 with
  | .none =>
    if !sdIndexed st.sd || idxOnDest st.sd then read r.1 t
    else match r.1.mapTuple a.u c st t with
      | .at k => read r.1 (setNth t (sdGdim st.sd) k)
      | _ => (r.1, .inr (0, 127))
  | stop => (r.1, .inl stop)

/-- A write that an access stops: the element is not taken; what the translation left stays. -/
def State.notTaken (s old : State) (a : At) : State :=
  let tl := s.tile a.u
  let kept := (old.tile a.u).reg 0x038C
  s.setTile a.u ((if tl.reg 0x038C = kept then tl else tl.setReg 0x038C kept).setStream a.s (old.streamAt a))

/-- One element taken by a running stream, and what can be delivered or written after it. -/
def State.transferOne (s : State) (a : At) (c : Nat) : State × Stop :=
  let st := s.streamAt a
  let cx := s.ctx c
  if st.state ≠ 1 ∨ st.stall then (s, .wait)
  else if walkCount cx st.sd ≤ st.pos then
    -- elements that waited for an access
    if st.buf.isEmpty then (s, .wait) else s.flushStream a c
  else
    let t := streamTuple cx st.sd st.pos
    let k := sdKind st.sd
    if k = 0 then
      if !st.room (sdFlueFmt cx st.sd) (st.buf.length + 1) then (s, .wait)
      else
        let r := s.sourceElem a c st t
        match r.2 with
        | .inl stop => (r.1, stop)
        | .inr e =>
          let s1 := r.1.countIndex a c t
          let st1 := s1.streamAt a
          (s1.setStreamAt a { st1 with pos := st.pos + 1, buf := st1.buf ++ [(st.pos, e.1, e.2)] }).flushLoad a c
    else if k = 1 then
      match st.entries.drop st.claimed with
      | [] => (s, .wait)
      | e :: rest =>
        let r := s.reachIndex a c st t
        match r.2 with
        | .none =>
          let s1 := r.1.countIndex a c t
          let st1 := s1.streamAt a
          let st2 : Stream := { st1 with
            pos := st.pos + 1, entries := st1.entries.take st.claimed ++ rest, buf := st1.buf ++ [(st.pos, e.1, e.2)] }
          let r2 := (s1.setStreamAt a st2).flushStream a c
          match r2.2 with
          | .none => r2
          | x => (r2.1.notTaken s a, x)
        | stop => (r.1, stop)
    else if k = 2 then
      let r := s.sourceElem a c st t
      match r.2 with
      | .inl stop => (r.1, stop)
      | .inr e =>
        let s1 := r.1.countIndex a c t
        let st1 := s1.streamAt a
        let r2 := (s1.setStreamAt a { st1 with pos := st.pos + 1, buf := st1.buf ++ [(st.pos, e.1, e.2)] }).flushStream a c
        match r2.2 with
        | .none => r2
        | x => (r2.1.notTaken s a, x)
    else
      -- a ring moves slices, not elements: what stops it is the fetch of a slice from DESC_A
      match (s.tile a.u).ring.want with
      | some w =>
        let r := s.sliceReach a.u c (st.descA cx) w.1
        match r.2 with
        | some p => (r.1, .access p.1 p.2)
        | none => (r.1, .wait)
      | none => (s, .wait)

/-- Up to n elements, stopping before the first that cannot proceed. What its access does to the caches and counts comes with the
command of its fault, or with the transfer that completes it. -/
def State.transfer (s : State) (a : At) (c : Nat) : Nat → State × Stop
  | 0 => (s, .none)
  | n + 1 =>
    let r := s.transferOne a c
    match r.2 with
    | .none => r.1.transfer a c n
    | x => (s, x)

/-- What stops the next element of a stream; the state is as its translation leaves it. -/
def State.nextStop (s : State) (a : At) (c : Nat) : State × Stop :=
  let st := s.streamAt a
  let r := (s.setStreamAt a { st with stall := false }).transferOne a c
  (r.1, r.2)

/-! ## Faults and aborts (R179 to R181) -/

/-- The stream held at a fault: FAULT_STALL, and STR_FAULT with the code and the address. -/
def State.stallAt (s : State) (a : At) (code addr : Nat) : State :=
  let st := s.streamAt a
  s.setStreamAt a { st with stall := true, fault := BitVec.ofNat 32 (code * 2 ^ 28), faultDva := addr }

/-- Whether a stream writes memory for the commit block: its abort there is COMMIT_FAIL (R257). -/
def Stream.blockWrites (st : Stream) : Bool := st.armedIn == 2 && (sdKind st.sd == 1 || sdKind st.sd == 2)

/-- The stream aborted (R181): STATE, STR_FAULT with ABORT, the frozen cursor, and the report of class STREAM with stream,
code and logical tile (Table 13-1), whose reaction raises FAIL; in a write of the commit block COMMIT_FAIL too (R257). -/
def State.abortStream (s : State) (a : At) (code addr : Nat) : State :=
  let st := s.streamAt a
  let s1 := s.setStreamAt a { st with
    state := 4, stall := false, fault := BitVec.ofNat 32 (code * 2 ^ 28 + 2 ^ 27), faultDva := addr }
  let s2 := if st.blockWrites then s1.blockFail else s1
  s2.report (srcId 7 a.u) (BitVec.ofNat 32 (a.s * 2 ^ 27 + code * 2 ^ 23 + a.t))

/-! ## Arms and re-arms (R156, R161, R169, R170) -/

/-- Free units of a firebox's flue store. -/
def Tile.freeUnits (t : Tile) : Nat := 64 - (t.streams.foldl (fun n p => n + p.2.units) 0)

/-- A stream armed: cursor 0, slot empty, STR_FAULT, STR_CURSOR and the fault DVA cleared (R161, R183). Entries of a DONE
load stay ahead. -/
def Stream.armed (st : Stream) (cx : Ctx) (c sd : Nat) : Stream :=
  let d := cx.desc (sdDescA sd)
  { st with
    sd := sd, ctx := c, state := 1, pos := 0, cursorPos := 0, base := d.base, scaleBase := d.scaleBase, slot := none,
    stall := false, fault := 0, faultDva := 0, buf := [], disarm := false, pendArm := none, mov := none, full := false,
    runFrom := 0, runTo := 0, armedIn := 0,
    units := max st.units (sdUnits sd) }

/-- A stream as an arm finds it: what the flue of an ABORTED stream holds is discarded, and its units return (R161). -/
def Stream.discarded (st : Stream) : Stream :=
  if st.state = 4 then { st with units := 0, entries := [], claimed := 0, buf := [] } else st

/-- An arm whose units are free, or ARM_WAIT (R156). -/
def Tile.armStream (t : Tile) (n : Nat) (cx : Ctx) (c sd : Nat) : Tile :=
  let st := (t.stream n).discarded
  let t1 := t.setStream n st
  if sdUnits sd - st.units ≤ t1.freeUnits then t.setStream n (st.armed cx c sd)
  else t.setStream n { st with state := 5, pendArm := some sd, ctx := c }

/-- The range test of a re-arm's bases (R141). -/
def rearmOk (cx : Ctx) (sd base scale : Nat) : Bool :=
  let d := cx.desc (sdDescA sd)
  ({ d with base := base, scaleBase := if scale = 0 then d.scaleBase else scale } : Desc).rangeOk

/-- A stream that starts its next pass from its slot (R169). -/
def Stream.takeSlot (st : Stream) : Stream :=
  match st.slot with
  | some (b, sc) =>
    { st with base := b, scaleBase := if sc = 0 then st.scaleBase else sc, slot := none, pos := 0, cursorPos := 0,
              buf := [], state := 1 }
  | none => st

/-- A re-arm entry offered to a stream that may take one and whose slot is empty: a PARKED stream takes it at once (R169). -/
def Stream.offer (st : Stream) (base scale : Nat) : Stream :=
  let st1 := { st with slot := some (base, scale) }
  if st.state = 2 then st1.takeSlot else st1

/-- A refusal under R170: RA_REFUSED and BLW_CNT_RAREF. -/
def Tile.refuseRearm (t : Tile) (n : Nat) : Tile :=
  let st := t.stream n
  (t.setStream n { st with sticky := setBit st.sticky 11 }).bump 0x0390 1

/-- Whether a stream takes re-arm entries: persistent, RUNNING or PARKED (R169). -/
def Stream.takesRearm (st : Stream) : Bool := sdPersist st.sd && (st.state == 1 || st.state == 2)

/-! ## The committed stream state (R171) -/

/-- The record of a stream. -/
def Stream.save (st : Stream) : StreamSave :=
  { sd := st.sd, state := st.state, pos := st.pos, cursor := st.cursorPos, base := st.base, scaleBase := st.scaleBase,
    slot := st.slot, units := st.units }

/-- A stream returned to a record; its flue is empty. What was taken and not written is taken again. -/
def Stream.restoreFrom (st : Stream) (v : StreamSave) (c : Nat) : Stream :=
  { st with sd := v.sd, ctx := c, state := v.state, pos := v.cursor, cursorPos := v.cursor, base := v.base,
            scaleBase := v.scaleBase, slot := v.slot, units := v.units, entries := [], claimed := 0, buf := [],
            stall := false, disarm := false, pendArm := none }

/-- A stream outside the committed state: IDLE, its flue emptied and its units returned; STR_FAULT and STR_CURSOR stay. -/
def Stream.toIdle (st : Stream) : Stream :=
  { st with state := 0, units := 0, entries := [], claimed := 0, buf := [], slot := none, stall := false, disarm := false,
            pendArm := none }

/-- The committed stream state of a context's running job: the persistent streams that run or are parked. -/
def State.savedStreams (s : State) (c : Nat) : Table StreamSave :=
  (List.range 256).flatMap (fun t =>
    (s.ltile t).streams.filterMap (fun p =>
      if p.2.ctx = c && sdPersist p.2.sd && (p.2.state == 1 || p.2.state == 2) then some (32 * t + p.1, p.2.save) else none))

/-- Every stream of the job returned to the committed stream state; a stream of `keep` (tile, stream) keeps what it
reached, its flue emptied (R171, R181, R259). -/
def State.restoreStreams (s : State) (c : Nat) (saved : Table StreamSave) (keep : List (Nat × Nat)) : State :=
  (List.range 256).foldl (fun s t =>
    let tl := s.ltile t
    let keys := (tl.streams.map (fun p => p.1) ++ (saved.filterMap (fun (p : Nat × StreamSave) => if p.1 / 32 = t then some (p.1 % 32) else none))).dedup
    if keys.isEmpty then s
    else s.setLtile t (keys.foldl (fun (tl : Tile) n =>
      let st := tl.stream n
      tl.setStream n (match tfind saved (32 * t + n) with
        | some v => if keep.contains (t, n) then
            { st with entries := [], claimed := 0, buf := [], pos := st.cursorPos, stall := false }
          else st.restoreFrom v c
        | none => if keep.contains (t, n) && (st.state == 1 || st.state == 2) then
            { st with entries := [], claimed := 0, buf := [], pos := st.cursorPos, stall := false }
          else st.toIdle)) tl)) s

end Sys2Proof.Machine
end

