-- ==== Sys2Proof/Machine/Packet.lean ====
section
/-! DEFINITION. What stands around a Uadal frame on a link (R266, R269, R271): the Ethernet header with at most one tag, the IP header,
the UDP header and its checksum. -/

namespace Sys2Proof.Machine

/-! ## Checksums -/

/-- The 16-bit words of a list of bytes summed, the last one padded with a zero byte. -/
def sum16 : List Byte → Nat
  | a :: b :: r => 256 * a.toNat + b.toNat + sum16 r
  | [a] => 256 * a.toNat
  | [] => 0

/-- A sum of words with its carries added in, twice. -/
def fold16 (n : Nat) : Nat :=
  let a := n % 65536 + n / 65536
  a % 65536 + a / 65536

/-- The bytes that a UDP checksum takes in before the datagram: the addresses, the protocol and the length. -/
def pseudoHeader (v6 : Bool) (src dst n : Nat) : List Byte :=
  if v6 then beBytes 16 src ++ beBytes 16 dst ++ beBytes 4 n ++ beBytes 4 17
  else beBytes 4 src ++ beBytes 4 dst ++ beBytes 2 17 ++ beBytes 2 n

/-! ## Sending -/

/-- What a packet's IP header and tag hold beside its length: the IP mode, the addresses, DSCP, and what no rule states (ECN, hop limit
or time to live, flow label, identification, the don't-fragment bit). -/
structure IpHead where
  v6 : Bool
  src : Nat
  dst : Nat
  dscp : Nat
  ecn : Nat := 0
  hops : Nat := 64
  flow : Nat := 0
  ident : Nat := 0
  whole : Nat := 0
  deriving DecidableEq, Repr

/-- An IP header over n bytes: no option, no extension header, no fragment (R266). -/
def IpHead.bytes (h : IpHead) (n : Nat) : List Byte :=
  let tos := h.dscp % 64 * 4 + h.ecn % 4
  if h.v6 then
    beBytes 4 (6 * 2 ^ 28 + tos * 2 ^ 20 + h.flow % 2 ^ 20) ++ beBytes 2 n ++ beBytes 1 17 ++ beBytes 1 h.hops ++ beBytes 16 h.src ++
      beBytes 16 h.dst
  else
    let a := beBytes 2 (0x4500 + tos) ++ beBytes 2 (20 + n) ++ beBytes 2 h.ident ++ beBytes 2 (h.whole % 2 * 2 ^ 14) ++ beBytes 2 (h.hops % 256 * 256 + 17)
    let b := beBytes 4 h.src ++ beBytes 4 h.dst
    a ++ beBytes 2 (65535 - fold16 (sum16 (a ++ b))) ++ b

/-- A UDP datagram: its header, its checksum, which is always there, and its payload (R271). -/
def udpBytes (h : IpHead) (sport dport : Nat) (p : List Byte) : List Byte :=
  let n := 8 + p.length
  let a := beBytes 2 sport ++ beBytes 2 dport ++ beBytes 2 n
  let c := 65535 - fold16 (sum16 (pseudoHeader h.v6 h.src h.dst n ++ a ++ p))
  a ++ beBytes 2 (if c = 0 then 65535 else c) ++ p

/-- A frame on a link: MAC addresses, the tag where there is one (TCI), and the packet. -/
def etherBytes (dstMac srcMac : Nat) (tci : Option Nat) (h : IpHead) (datagram : List Byte) : List Byte :=
  beBytes 6 dstMac ++ beBytes 6 srcMac ++ (match tci with | some t => beBytes 2 0x8100 ++ beBytes 2 t | none => []) ++
    beBytes 2 (if h.v6 then 0x86DD else 0x0800) ++ h.bytes datagram.length ++ datagram

/-! ## Arrivals -/

/-- What comes of a frame on a link: the payload of a Uadal datagram, a drop that UAD_CNT_DROP counts (R266), or nothing. -/
inductive Arrival where
  | payload (bytes : List Byte)
  | counted
  | ignored
  deriving DecidableEq, Repr

/-- IPv6 next headers that are extension headers. -/
def extensionHeaders : List Nat := [0, 43, 44, 50, 51, 60, 135, 139, 140]

/-- A UDP datagram that arrives: to the Uadal port, whole, with a right checksum (R271). -/
def udpArrives (v6 : Bool) (src dst port : Nat) (d : List Byte) : Arrival :=
  let n := beAt d 4 2
  if beAt d 2 2 = port ∧ 8 ≤ n ∧ n ≤ d.length ∧ beAt d 6 2 ≠ 0 ∧ fold16 (sum16 (pseudoHeader v6 src dst n ++ d.take n)) = 65535 then
    .payload (slice d 8 (n - 8))
  else .ignored

/-- An IP packet that arrives for an own address: one that is a fragment, or carries options or extension headers, is dropped and
counted (R266). -/
def ipArrives (v6 : Bool) (own port : Nat) (p : List Byte) : Arrival :=
  if v6 then
    if field (beAt p 0 1) 4 4 ≠ 6 ∨ beAt p 24 16 ≠ own then .ignored
    else if extensionHeaders.contains (beAt p 6 1) then .counted
    else if beAt p 6 1 ≠ 17 then .ignored
    else udpArrives true (beAt p 8 16) own port (slice p 40 (beAt p 4 2))
  else if field (beAt p 0 1) 4 4 ≠ 4 ∨ beAt p 16 4 ≠ own then .ignored
  else if field (beAt p 0 1) 0 4 ≠ 5 ∨ beAt p 6 2 % 8192 ≠ 0 ∨ Nat.testBit (beAt p 6 2) 13 then .counted
  else if beAt p 9 1 ≠ 17 ∨ fold16 (sum16 (p.take 20)) ≠ 65535 then .ignored
  else udpArrives false (beAt p 12 4) own port (slice p 20 (beAt p 2 2 - 20))

/-- A frame that arrives on a link: at most 9,216 bytes after its headers, at most one tag (R266). `own` is the address of the chimney,
none while it has none. -/
def linkArrives (v6 : Bool) (own : Option Nat) (port : Nat) (l : List Byte) : Arrival :=
  let o := if beAt l 12 2 = 0x8100 then 18 else 14
  let etype := beAt l (o - 2) 2
  match own with
  | none => .ignored
  | some a =>
    if 9216 + o < l.length ∨ etype = 0x8100 ∨ etype = 0x88A8 then .counted
    else if etype ≠ (if v6 then 0x86DD else 0x0800) then .ignored
    else ipArrives v6 a port (l.drop o)

end Sys2Proof.Machine
end

