-- ==== Sys2Proof/Machine/Uadal.lean ====
section
/-! DEFINITION. Uadal frames and pair states (R271 to R273, R285 to R295): a frame's bytes, the checks on arrival, the
transmit store, acknowledgements, retransmission, chimneys and links. -/

namespace Sys2Proof.Machine

/-! ## Frames -/

/-- Whether the reserved bits of a type header are 0, its encodings are not reserved, and its length is the type's
(Tables 11-4, 11-5, 11-7, 11-8, R289, R291). -/
def typeHeaderOk (typ : Nat) (p : List Byte) : Bool :=
  let data := p.length - 12
  let dataOk := decide (12 ≤ p.length) && data % 8 == 0 && decide (data ≤ 8192) && decide (beAt p 8 2 + data ≤ 65536)
  if typ = 0 then p.length == 28 && field (beAt p 0 4) 21 4 == 0 && beAt p 12 2 == 0 && beAt p 20 2 == 0
  else if typ = 1 then p.length == 24 && field (beAt p 0 4) 18 12 == 0 && field (beAt p 0 4) 30 2 != 3 && beAt p 4 2 == 0
  else if typ = 2 then
    decide (16 ≤ p.length) && beAt p 2 2 == 0 && field (beAt p 8 4) 28 3 == 0 && field (beAt p 12 4) 5 10 == 0
  else if typ = 3 then dataOk && field (beAt p 4 4) 28 4 == 0 && beAt p 10 2 == 0
  else if typ = 4 then dataOk && field (beAt p 8 4) 4 12 == 0 && decide (field (beAt p 8 4) 0 4 ≤ 9)
  else p.length == 12

/-- The frame that bytes spell, none where R273 drops them whatever the receiver. -/
def parseFrame (l : List Byte) : Option Frame :=
  let w := beAt l 0 4
  let n := l.length - 28
  let p := slice l 24 n
  let typ := field w 24 4
  if decide (28 ≤ l.length) && field w 28 4 == 1 && decide (typ ≤ 5) && field w 16 5 == 0 && field w 0 16 == n &&
      decide (beAt l 4 4 < 2 ^ 20) && decide (beAt l 8 4 < 2 ^ 20) && leAt l (24 + n) 4 == (crc32c (l.take (24 + n))).toNat &&
      typeHeaderOk typ p then
    some { typ := typ, rtx := Nat.testBit w 23, chsel := field w 22 1, syn := Nat.testBit w 21, src := beAt l 4 4, dst := beAt l 8 4,
           cluster := beAt l 12 2, epoch := beAt l 14 2, seq := beAt l 16 4, payload := p }
  else none

/-- The bytes of a frame sent on a chimney at a beat (Table 11-2): header, payload, CRC-32C. -/
def frameBytes (f : Frame) (chimney beat : Nat) : List Byte :=
  let h := beBytes 4 (2 ^ 28 + 2 ^ 24 * f.typ + 2 ^ 23 * bnat f.rtx + 2 ^ 22 * (chimney % 2) + 2 ^ 21 * bnat f.syn +
      f.payload.length % 65536) ++
    beBytes 4 f.src ++ beBytes 4 f.dst ++ beBytes 2 f.cluster ++ beBytes 2 f.epoch ++ beBytes 4 f.seq ++ beBytes 4 beat
  h ++ f.payload ++ leBytes 4 (crc32c (h ++ f.payload)).toNat

/-- This module's DEVID, none while unset (R268, R297). -/
def State.devid (s : State) : Option Nat := s.settingOpt 0x0100

/-- N; 1 while it is unset. -/
def State.clusterSize (s : State) : Nat := (s.settingOpt 0x0102).getD 1

/-- Whether the links run: they train after stage 3 of kindling, until the feed is lost (Table 16-7, R411). -/
def State.linksAlive (s : State) : Bool := decide (3 ≤ s.pwr.stage) && !s.pwr.lost && !s.pwr.dark

/-- Whether a snap stop halts the Uadal and RoCEv2 engines while the links stay locked (Table 15-9). -/
def State.snapHalted (s : State) : Bool := s.linksAlive && getField (s.bar 0x30040) 0 2 == 2

/-- Whether the engines of the ports run. -/
def State.portsUp (s : State) : Bool := s.linksAlive && !s.snapHalted

/-- Whether the IP mode is IPv6. -/
def State.ip6 (s : State) : Bool := s.setting 0x0104 == 1

/-- The module's address on a chimney, none while DEVID or the prefix is unset (R269). -/
def State.ownAddr (s : State) (p : Nat) : Option Nat :=
  match s.devid with
  | none => none
  | some d =>
    if s.ip6 then
      match s.settingOpt (0x0110 + 2 * p), s.settingOpt (0x0111 + 2 * p) with
      | some lo, some hi => some ((hi * 2 ^ 64 + lo) % 2 ^ 108 * 2 ^ 20 + d)
      | _, _ => none
    else (s.settingOpt (0x0114 + p)).map (fun x => x % 2 ^ 12 * 2 ^ 20 + d)

/-- The gateway of a chimney (Table 14-13): 128 bits, IPv4-mapped in IPv4 mode. -/
def State.gateway (s : State) (p : Nat) : Nat := s.setting (0x0118 + 2 * p) + 2 ^ 64 * s.setting (0x0119 + 2 * p)

/-- A frame received on a chimney, counted (event 0x111). -/
def State.frameIn (s : State) (ch : Nat) : State := s.count (0x150 + ch % 2) 0x111 1

/-- A frame dropped and counted in UAD_CNT_DROP. -/
def State.dropFrame (s : State) : State := s.bumpIo 0x201C 1

/-- A frame that arrives in a snap stop: it waits in the receive buffer, or finds it full and is dropped; how much the buffer
holds is open (R394, log 46). -/
def State.holdFrame (s : State) (c : Instr) : State :=
  if Config.freeBool s.free then ({ s with net := { s.net with rxHeld := s.net.rxHeld ++ [c] } } : State).draw
  else s.draw.dropFrame

/-- A frame that arrives on a chimney: the Uadal frame for this module, or none with the state after its drop (R266, R271, R273). A frame
that is no Uadal datagram for the module's address is none of the engine's. -/
def State.admitAny (s : State) (ch : Nat) (l : List Byte) : State × Option Frame :=
  if !s.portsUp then (s, none)
  else
    let s1 := s.frameIn ch
    match linkArrives s.ip6 (s.ownAddr ch) (s.setting 0x0120) l with
    | .ignored => (s1, none)
    | .counted => (s1.dropFrame, none)
    | .payload u => match parseFrame u with
      | none => (s1.dropFrame, none)
      | some f =>
        if f.cluster != s.setting 0x0103 || s.devid != some f.dst then (s1.dropFrame, none) else (s1, some f)

/-- A frame of a kind that arrives. -/
def State.admitFrame (s : State) (ch typ : Nat) (l : List Byte) : State × Option Frame :=
  let r := s.admitAny ch l
  (r.1, match r.2 with | some f => if f.typ = typ then some f else none | none => none)

/-- CH_STATUS_p. -/
def chReg (p : Nat) : Nat := 0x2008 + 4 * (p % 2)

/-- ACTIVE of a chimney: it carries traffic. -/
def State.chActive (s : State) (p : Nat) : Bool := (s.ior 0x2004).getLsbD (p % 2)

/-- Links of a chimney with PCS lock. -/
def State.linksUp (s : State) (p : Nat) : Nat := getField (s.ior (chReg p)) 0 4

/-- The hash of R271: COLL frames take CHUNK too. -/
def State.hashOf (_s : State) (f : Frame) : Nat :=
  (Config.portHash f.src f.dst f.typ (if f.typ = 2 then beAt f.payload 4 4 else 0)).toNat

/-- DSCP of a frame (R271). -/
def State.dscpOf (s : State) (f : Frame) : Nat := if f.typ ≤ 1 then s.setting 0x0122 else s.setting 0x0121

/-- The link of a chimney that a frame takes, among those that are up, by the hash of its source port (R293). -/
def State.linkFor (s : State) (ch : Nat) (f : Frame) : Nat :=
  let up := (List.range 4).filter (fun i => Nat.testBit (s.linksUp ch) i)
  nth 0 up (Config.linkPick (s.hashOf f) up.length % max 1 up.length)

/-- The address of a module on a chimney by its DEVID (R269): this module's prefix and the DEVID. -/
def State.addrOf (s : State) (own d : Nat) : Nat := own - s.devid.getD 0 + d

/-- A frame as it leaves: to the gateway, with the tag where one is set, and the ports and DSCP of R271. -/
def State.wireBytes (s : State) (ch own mac : Nat) (f : Frame) : List Byte :=
  let d := s.dscpOf f
  let h : IpHead := { v6 := s.ip6, src := own, dst := s.addrOf own f.dst, dscp := d, ecn := Config.packetField 0, hops := Config.packetField 1
                      flow := Config.packetField 2, ident := Config.packetField 3, whole := Config.packetField 4 }
  etherBytes mac (Config.ownMac ch).toNat
    (if s.setting 0x0141 = 0 then none else some ((Config.framePriority d).toNat * 8192 + s.setting 0x0141)) h
    (udpBytes h (49152 + s.hashOf f) (s.setting 0x0120) (frameBytes f ch s.clk.beatNow))

/-- Whether a frame may leave a chimney now: no snap stop halts the engine (R394), the gateway's MAC address is known (R270), the chimney has
an address, and the frame's priority is not paused (R266, log 122). -/
def State.mayLeave (s : State) (ch : Nat) (f : Frame) : Bool :=
  !s.snapHalted && (tfind s.net.macs ch).isSome && (s.ownAddr ch).isSome && !s.net.paused.contains (ch, (Config.framePriority (s.dscpOf f)).toNat)

/-- A frame out on a chimney, counted (event 0x110). -/
def State.sendOut (s : State) (ch : Nat) (o : Out) : State := (s.emit o).count (0x150 + ch % 2) 0x110 1

/-- A Uadal frame out on its link. -/
def State.leave (s : State) (ch : Nat) (f : Frame) : State :=
  s.sendOut ch (.frame ch (s.linkFor ch f) (s.wireBytes ch ((s.ownAddr ch).getD 0) (tget 0 s.net.macs ch) f))

/-- The request for the gateway's MAC address, by ARP (kind 5) or Neighbour Solicitation (kind 6), for each frame that finds it unknown
(R270). -/
def State.askGateway (s : State) (ch : Nat) : State :=
  if thas s.net.macs ch || (s.ownAddr ch).isNone || s.gateway ch == 0 then s
  else s.sendOut ch (.ether ch (5 + bnat s.ip6) (beBytes (if s.ip6 then 16 else 4) (s.gateway ch)))

/-- A frame put on a chimney: it leaves, or waits until it may. -/
def State.putFrame (s : State) (ch : Nat) (f : Frame) : State :=
  if s.mayLeave ch f then s.leave ch f
  else
    let s1 := s.askGateway ch
    { s1 with net := { s1.net with waitOut := s1.net.waitOut ++ [(ch, f)] } }

/-- The chimney of a queue pair: its own, or the other where that one carries no traffic (R294). -/
def State.qpPath (s : State) (q : Nat) : Nat :=
  let c := (Config.qpChimney q).toNat
  if !s.chActive c && s.chActive (c + 1) then (c + 1) % 2 else c

/-- The chimney of an IP packet of a kind: an echo reply's is the request's, any other's is its queue pair's. -/
def State.ipPath (s : State) (kind k : Nat) : Nat := if kind = 2 then k else s.qpPath k

/-- Whether an IP packet that is no Uadal frame may leave a chimney now, under the conditions of a Uadal frame (R266, R270). -/
def State.mayPass (s : State) (ch kind : Nat) : Bool :=
  !s.snapHalted && s.chActive ch && (tfind s.net.macs ch).isSome && (s.ownAddr ch).isSome && !s.net.paused.contains (ch, (Config.ipPriority kind).toNat)

/-- An IP packet that is no Uadal frame out on a chimney. -/
def State.leaveIp (s : State) (ch : Nat) (o : Out) : State := s.sendOut ch (match o with | .ether _ n l => .ether ch n l | o => o)

/-- An IP packet that is no Uadal frame waits. -/
def State.holdIp (s : State) (q : Nat × Nat × Out) : State := { s with net := { s.net with ipOut := s.net.ipOut ++ [q] } }

/-- An IP packet that is no Uadal frame leaves, or waits until it may. -/
def State.putIp (s : State) (kind k : Nat) (o : Out) : State :=
  let ch := s.ipPath kind k
  if s.mayPass ch kind then s.leaveIp ch o else (s.askGateway ch).holdIp (kind, k, o)

/-- The frames and packets that wait and may leave now. -/
def State.release (s : State) : State :=
  let s1 := s.net.waitOut.foldl (fun (s : State) q =>
    if s.mayLeave q.1 q.2 then s.leave q.1 q.2 else { s with net := { s.net with waitOut := s.net.waitOut ++ [q] } })
    ({ s with net := { s.net with waitOut := [] } } : State)
  s1.net.ipOut.foldl (fun (s : State) q =>
    let ch := s.ipPath q.1 q.2.1
    if s.mayPass ch q.1 then s.leaveIp ch q.2.2 else s.holdIp q) { s1 with net := { s1.net with ipOut := [] } }

/-- The gateways whose MAC address a frame or packet waits for are asked. -/
def State.askAll (s : State) : State :=
  [0, 1].foldl (fun (s : State) ch =>
    if s.net.waitOut.any (fun q => q.1 == ch) || s.net.ipOut.any (fun q => s.ipPath q.1 q.2.1 == ch) then s.askGateway ch else s) s

/-- The pair state with a peer (R292). -/
def State.peer (s : State) (d : Nat) : Peer := tget {} s.net.peers d

/-- The pair state with a peer replaced. -/
def State.setPeer (s : State) (d : Nat) (p : Peer) : State := { s with net := { s.net with peers := tset s.net.peers d p } }

/-- A frame of this module to a peer; SYN is 1 until its last reset is confirmed (R292). -/
def State.frameTo (s : State) (d typ epoch seq : Nat) (rtx : Bool) (p : List Byte) : Frame :=
  { typ := typ, rtx := rtx, syn := (s.peer d).syn, src := s.devid.getD 0xFFFFF, dst := d, cluster := s.setting 0x0103,
    epoch := epoch, seq := seq, payload := p }

/-- The chimneys that carry a peer's traffic (R294, R295): those that are active, the other alone after a path loss. -/
def State.chimneysTo (s : State) (d : Nat) : List Nat :=
  let l := [0, 1].filter (fun c => s.chActive c)
  match (s.peer d).pathloss with
  | none => l
  | some c => let m := l.filter (fun x => x != c % 2); if m.isEmpty then l else m

/-- A frame put on a chimney, or on the other where that one does not carry the peer's traffic (R294, R295). -/
def State.sendVia (s : State) (ch : Nat) (f : Frame) : State :=
  let l := s.chimneysTo f.dst
  if l.contains (ch % 2) then s.putFrame (ch % 2) f
  else if l.contains ((ch + 1) % 2) then s.putFrame ((ch + 1) % 2) f
  else s

/-- A frame that is not acknowledged, sent on one chimney. -/
def State.sendOn (s : State) (ch d typ : Nat) (p : List Byte) : State := s.sendVia ch (s.frameTo d typ 0 0 false p)

/-- A FLAG frame on both chimneys (R276). -/
def State.sendBoth (s : State) (d typ : Nat) (p : List Byte) : State :=
  (s.chimneysTo d).foldl (fun s ch => s.putFrame ch (s.frameTo d typ 0 0 false p)) s

/-! ## The transmit store (R290, R293) -/

/-- Gbit/s of a lane by RATE of Table 11-13. -/
def laneRate (r : Nat) : Nat := if r = 1 then 25 else if r = 2 then 50 else if r = 3 then 100 else if r = 4 then 200 else 0

/-- TXW: 20 µs of a chimney's 8 lanes, in bytes. -/
def State.txw (s : State) (ch : Nat) : Nat := 20000 * laneRate (field (s.setting (0x0130 + ch % 2)) 0 3)

/-- Payload bytes that are sent and not acknowledged on a chimney, but for one frame to a peer (R290). -/
def State.bytesOut (s : State) (ch d seq : Nat) : Nat :=
  s.net.peers.foldl (fun n p => p.2.unacked.foldl (fun n f =>
    if 0 < f.sends ∧ f.chimney = ch ∧ ¬(p.1 = d ∧ f.seq = seq) then n + f.payload.length else n) n) 0

/-- The rate of a chimney's links that are up, in Gbit/s: 8 lanes over its links (Table 11-1). -/
def State.upRate (s : State) (p : Nat) : Nat :=
  let c := s.setting (0x0130 + p % 2)
  laneRate (field c 0 3) * (8 / (field c 4 2 + 1)) * ((List.range 4).countP (fun i => Nat.testBit (s.linksUp p) i))

/-- The chimney of the spread of R293: of any w0 + w1 frames in a row, w0 take chimney 0 and w1 chimney 1, where w is a chimney's rate. The
order within them is open (log 154). -/
def State.spread (s : State) (seq : Nat) : Nat :=
  let n := s.upRate 0 + s.upRate 1
  if (seq * s.upRate 0 + Config.spreadPhase) % n < s.upRate 0 then 0 else 1

/-- The chimney that a frame takes: the spread of R293, the other one after a path loss (R295), one that carries traffic
(R294). -/
def State.pickChimney (s : State) (p : Peer) (seq : Nat) : Option Nat :=
  let c := match p.pathloss with | some c => (c + 1) % 2 | none => s.spread seq
  if s.chActive c then some c else if s.chActive (c + 1) then some ((c + 1) % 2) else none

/-- A stored frame put out on a chimney; a retransmission is marked and counted. -/
def State.transmit (s : State) (d ch : Nat) (t : TxFrame) : State :=
  let f := s.frameTo d t.typ t.epoch t.seq (decide (0 < t.sends)) t.payload
  let link := s.linkFor ch f
  let p := s.peer d
  let un := p.unacked.map (fun u => if u.seq = t.seq then
    { u with chimney := ch, link := link, sent := true, sends := u.sends + 1, late := if u.chimney = ch then u.late else 0 } else u)
  let s1 := ((s.setPeer d { p with unacked := un }).putFrame ch f).count 0x152 (0x11E + t.typ) 1
  if 0 < t.sends then (s1.bumpIo 0x2014 1).count 0x152 0x123 1 else s1

/-- Whether a frame sent before, to any peer, waits to be sent again on a chimney: no new frame passes it (R294). -/
def State.resendWaits (s : State) (ch : Nat) : Bool :=
  s.net.peers.any (fun q => q.2.unacked.any (fun t => decide (0 < t.sends) && !t.sent && s.pickChimney q.2 t.seq == some ch))

/-- A waiting frame goes out where the windows of R290 allow it: the frames sent before that wait to be sent again count in them, and
a new frame stays behind them. -/
def State.tryTransmit (s : State) (d : Nat) (t : TxFrame) : State :=
  let p := s.peer d
  if t.sent || !s.portsUp || decide (1024 ≤ (p.unacked.filter (fun u => decide (0 < u.sends) && u.seq != t.seq)).length) then s
  else match s.pickChimney p t.seq with
    | none => s
    | some ch =>
      if (t.sends = 0 ∧ s.resendWaits ch = true) ∨ s.txw ch < s.bytesOut ch d t.seq + t.payload.length then s
      else s.transmit d ch t

/-- The waiting frames to a peer that were sent before, or the new ones, as far as they may go out. -/
def State.pumpSome (s : State) (d : Nat) (again : Bool) : State :=
  ((s.peer d).unacked.filter (fun t => decide (0 < t.sends) == again)).foldl (fun s t => s.tryTransmit d t) s

/-- Every waiting frame to a peer that may go out, frames sent before ahead of new ones (R294). -/
def State.pump (s : State) (d : Nat) : State := (s.pumpSome d true).pumpSome d false

/-- Every waiting frame to any peer that may go out, every peer's frames sent before ahead of every new one (R294). -/
def State.pumpAll (s : State) : State :=
  let l := s.net.peers.map (fun p => p.1)
  l.foldl (fun s d => s.pumpSome d false) (l.foldl (fun s d => s.pumpSome d true) s)

/-- A new COLL, PART or PAR frame to a peer (R290). -/
def State.sendRel (s : State) (d typ epoch : Nat) (payload : List Byte) : State :=
  let p := s.peer d
  let t : TxFrame := { seq := p.txSeq, typ := typ, epoch := epoch, payload := payload }
  (s.setPeer d { p with txSeq := (p.txSeq + 1) % 2 ^ 32, unacked := p.unacked ++ [t] }).pump d

/-- Frames that p picks are out no longer: they wait to be sent again. -/
def State.unsend (s : State) (p : Nat → TxFrame → Bool) : State :=
  { s with net := { s.net with peers := s.net.peers.map (fun q =>
      (q.1, { q.2 with unacked := q.2.unacked.map (fun t => if p q.1 t then { t with sent := false } else t) })) } }

/-! ## Pair states (R291, R292) -/

/-- Serial-number order: a is below b. -/
def serialBelow (a b : Nat) : Bool :=
  let d := (b + 2 ^ 32 - a % 2 ^ 32) % 2 ^ 32
  decide (1 ≤ d ∧ d < 2 ^ 31)

/-- The frames to a peer that wait for a chimney at a reset of its pair state: a reliable one is sent again from the store, an ACK tells of
the old state, and every other is sent as a frame after the reset. -/
def State.resetWaiting (s : State) (d : Nat) : State :=
  { s with net := { s.net with waitOut := (s.net.waitOut.filter (fun q => !(q.2.dst == d && decide (2 ≤ q.2.typ)))).map (fun q =>
      if q.2.dst = d then (q.1, { q.2 with syn := true, src := s.devid.getD 0xFFFFF }) else q) } }

/-- A reset of the pair state: the unacknowledged frames are renumbered from 0 and sent again. -/
def State.resetPair (s : State) (d : Nat) : State :=
  let p := s.peer d
  let un := p.unacked.zipIdx.map (fun q => { q.1 with seq := q.2, sent := false, sends := 0, late := 0 })
  let p1 : Peer := { p with
    txSeq := un.length % 2 ^ 32, unacked := un, cum := 0xFFFFFFFF, map := 0, syn := true, accSyn0 := false, allSyn := true,
    arrivals := 0, missed := [] }
  (((s.resetWaiting d).setPeer d p1).bumpIo 0x2030 1).pump d

/-- CUM moved over the arrivals that follow it, n at most. -/
def advanceCum : Nat → Nat → Nat → Nat × Nat
  | 0, c, m => (c, m)
  | n + 1, c, m => if Nat.testBit m 0 then advanceCum n ((c + 1) % 2 ^ 32) (m / 2) else (c, m)

/-- The ACK frame to a peer (R291), on the chimney of the last arrival. -/
def State.sendAck (s : State) (d : Nat) : State :=
  let p := s.peer d
  let f : Frame := { s.frameTo d 5 0 0 false (beBytes 4 p.cum ++ beBytes 8 (p.map % 2 ^ 64)) with syn := p.allSyn }
  (s.setPeer d { p with arrivals := 0 }).sendVia p.arrCh f

/-- An arrival is noted: the sixteenth since the last ACK sends one. -/
def State.noteArrival (s : State) (d ch : Nat) : State :=
  let p := s.peer d
  let s1 := s.setPeer d { p with arrivals := p.arrivals + 1, arrCh := ch }
  if 16 ≤ p.arrivals + 1 then s1.sendAck d else s1

/-- Whether a frame with SYN resets the pair state (R292). -/
def State.synResets (s : State) (f : Frame) : Bool := f.syn && (s.peer f.src).accSyn0

/-- A reliable frame's place in its sequence: accepted where fresh; a duplicate is dropped and counted (log 29), and so is a fresh frame
that is stale (R287), which is not acknowledged. -/
def State.acceptUnless (s : State) (f : Frame) (ch : Nat) (stale : Bool) : State × Bool :=
  let s0 := if s.synResets f then s.resetPair f.src else s
  let p := s0.peer f.src
  let gap := (f.seq + 2 ^ 32 - (p.cum + 1) % 2 ^ 32) % 2 ^ 32
  if !serialBelow p.cum f.seq || Nat.testBit p.map gap then
    (((s0.bumpIo 0x2018 1).count 0x152 0x124 1).noteArrival f.src ch, false)
  else if 1024 ≤ gap then (s0.dropFrame, false)
  else if stale then (s0.bumpIo 0x2020 1, false)
  else
    let c := advanceCum 1025 p.cum (p.map ||| 2 ^ gap)
    let p1 : Peer := { p with
      cum := c.1, map := c.2, accSyn0 := p.accSyn0 || !f.syn, allSyn := p.allSyn && f.syn }
    ((s0.setPeer f.src p1).noteArrival f.src ch, true)

/-- A PART or PAR frame's place in its sequence. -/
def State.acceptSeq (s : State) (f : Frame) (ch : Nat) : State × Bool := s.acceptUnless f ch false

/-- An ACK frame: ignored while a reset is unconfirmed and it carries SYN 0; else acknowledged frames leave the store and end the missed
periods of their chimney, and a frame that 3 later ones have overtaken is sent again (R291, R295). -/
def State.ackArrives (s : State) (f : Frame) : State :=
  let p := s.peer f.src
  if p.syn && !f.syn then s
  else
    let cum := beAt f.payload 0 4
    let map := beAt f.payload 4 8
    let acked := fun (n : Nat) => !serialBelow cum n || Nat.testBit (map % 2 ^ 64) ((n + 2 ^ 32 - (cum + 1) % 2 ^ 32) % 2 ^ 32)
    let done := fun (t : TxFrame) => decide (0 < t.sends) && acked t.seq
    let heard := fun (ch : Nat) => p.unacked.any (fun t => done t && t.chimney == ch)
    let rest := (p.unacked.filter (fun t => !done t)).map (fun t => if heard t.chimney then { t with late := 0 } else t)
    let p1 : Peer := { p with syn := p.syn && !f.syn, unacked := rest, missed := p.missed.filter (fun m => !heard m.1) }
    let later := fun (n : Nat) => ((List.range 64).filter (fun i => Nat.testBit map i && serialBelow n ((cum + 1 + i) % 2 ^ 32))).length
    let s1 := (s.setPeer f.src p1).unsend (fun d t => d == f.src && t.sent && decide (3 ≤ later t.seq))
    s1.pumpAll

/-- ACK. -/
def execAckFrame (chimney : BitVec 1) (frame : List Byte) (s : State) : Host.Outcome State Fault Refusal :=
  let r := s.admitFrame chimney.toNat 5 frame
  ok (if s.snapHalted then s.holdFrame (.ackFrame chimney frame) else match r.2 with | some f => r.1.ackArrives f | none => r.1)

/-- ACK_TIMER: 2 µs after the first unacknowledged arrival. -/
def execAckTimer (peer : BitVec 20) (s : State) : Host.Outcome State Fault Refusal :=
  ok (if s.portsUp && decide (0 < (s.peer peer.toNat).arrivals) then s.sendAck peer.toNat else s)

/-- PAIR_RESET of a peer that the module knows. -/
def execPairReset (peer : BitVec 20) (s : State) : Host.Outcome State Fault Refusal :=
  ok (if thas s.net.peers peer.toNat then s.resetPair peer.toNat else s)

/-! ## Chimneys, links and paths (R293 to R295) -/

/-- The frames that pick names and that wait for a chimney leave it: TIME and ACK frames go to the other, the rest are sent again or have
gone out on both. -/
def State.moveWaiting (s : State) (p : Nat) (pick : Frame → Bool) : State :=
  let l := s.net.waitOut
  let here := fun (q : Nat × Frame) => q.1 == p && pick q.2
  (l.filter (fun q => here q && (q.2.typ == 1 || q.2.typ == 5))).foldl (fun (s : State) q => s.putFrame ((p + 1) % 2) q.2)
    { s with net := { s.net with waitOut := l.filter (fun q => !here q) } }

/-- A chimney fails: its traffic moves to the other, unacknowledged frames first. -/
def State.failChimney (s : State) (p : Nat) : State :=
  if getField (s.ior (chReg p)) 13 1 = 1 then s
  else
    let s1 := (s.orIo (chReg p) 0x2000).andnIo 0x2004 (BitVec.ofNat 32 (2 ^ (p % 2)))
    let s2 := (s1.orIo 0x2004 4).bumpIo 0x2024 1
    ((((s2.reportCorr (0x150 + p % 2) (s2.ior 0x2024)).moveWaiting (p % 2) (fun _ => true)).unsend
      (fun _ t => t.sent && t.chimney == p % 2)).pumpAll).release

/-- CHIMNEY_FAILURE: none of its links has lock, or each reports a fault, so PCS_FAULT is set (Table 11-13). -/
def execChimneyFailure (chimney : BitVec 1) (s : State) : Host.Outcome State Fault Refusal :=
  ok (if s.linksAlive then (s.orIo (chReg chimney.toNat) 0x4000).failChimney chimney.toNat else s)

/-- Whether every configured link of a chimney is up. -/
def State.allLinksUp (s : State) (p : Nat) : Bool :=
  let n := field (s.setting (0x0130 + p % 2)) 4 2 + 1
  (List.range n).all (fun i => Nat.testBit (s.linksUp p) i)

/-- CHIMNEY_RETURN: 100 ms after all links are up. -/
def execChimneyReturn (chimney : BitVec 1) (s : State) : Host.Outcome State Fault Refusal :=
  let p := chimney.toNat
  ok (if getField (s.ior (chReg p)) 13 1 = 1 && s.allLinksUp p then
      ((s.andnIo (chReg p) 0x2000).orIo 0x2004 (BitVec.ofNat 32 (2 ^ p))).pumpAll.release
    else s)

/-- Whether a link is configured (R265). -/
def State.linkConfigured (s : State) (p l : Nat) : Bool := decide (l ≤ field (s.setting (0x0130 + p % 2)) 4 2)

/-- A link loses lock: PCS_FAULT; its unacknowledged frames are sent again on the others of its chimney. -/
def State.linkLost (s : State) (p l : Nat) : State :=
  if !s.linkConfigured p l then s
  else
    let s1 := (s.andnIo (chReg p) (BitVec.ofNat 32 (2 ^ (l % 4)))).orIo (chReg p) 0x4000
    if s1.linksUp p = 0 then s1
    else (s1.unsend (fun _ t => t.sent && t.chimney == p % 2 && t.link == l)).pumpAll

/-- LINK_DOWN. -/
def execLinkDown (chimney : BitVec 1) (link : BitVec 2) (s : State) : Host.Outcome State Fault Refusal :=
  ok (if s.linksAlive then s.linkLost chimney.toNat link.toNat else s)

/-- A link has lock; a chimney that is not failed carries traffic from its first link on. -/
def State.linkUp (s : State) (p l : Nat) : State :=
  if !s.linkConfigured p l then s
  else
    let s1 := s.orIo (chReg p) (BitVec.ofNat 32 (2 ^ (l % 4)))
    if getField (s1.ior (chReg p)) 13 1 = 1 then s1 else (s1.orIo 0x2004 (BitVec.ofNat 32 (2 ^ (p % 2)))).pumpAll.release

/-- LINK_UP. -/
def execLinkUp (chimney : BitVec 1) (link : BitVec 2) (s : State) : Host.Outcome State Fault Refusal :=
  ok (if s.linksAlive then s.linkUp chimney.toNat link.toNat else s)

/-- RTO_EXPIRY: the frame is sent again; the periods in a row that passed over one frame count against its chimney (R291, R295). -/
def State.rtoExpiry (s : State) (d seq : Nat) : State :=
  let p := s.peer d
  match p.unacked.find? (fun t => t.seq == seq && t.sent) with
  | none => s
  | some t =>
    let s1 := s.setPeer d { p with
      unacked := p.unacked.map (fun u => if u.seq = seq then { u with late := u.late + 1 } else u)
      missed := tset p.missed t.chimney (max (tget 0 p.missed t.chimney) (t.late + 1)) }
    (s1.unsend (fun e u => e == d && u.seq == seq)).pump d

/-- PATHLOSS: two RTO periods in a row without an acknowledgement on a chimney that is up. -/
def State.pathLost (s : State) (d ch : Nat) : State :=
  let p := s.peer d
  if !(s.chActive ch && decide (2 ≤ tget 0 p.missed ch) && p.pathloss.isNone) then s
  else
    let s1 := ((s.setPeer d { p with pathloss := some ch }).orIo 0x2004 0x80).bumpIo 0x2028 1
    (((s1.report (srcId 5 0x152) (BitVec.ofNat 32 d)).moveWaiting ch (fun f => f.dst == d)).unsend
      (fun e t => e == d && t.sent && t.chimney == ch)).pump d

/-- PATHLOSS. -/
def execPathloss (peer : BitVec 20) (chimney : BitVec 1) (s : State) : Host.Outcome State Fault Refusal :=
  ok (s.pathLost peer.toNat chimney.toNat)

/-- PATHLOSS_RETRY: the lost path is tried again. -/
def execPathlossRetry (peer : BitVec 20) (s : State) : Host.Outcome State Fault Refusal :=
  let p := s.peer peer.toNat
  ok (if p.pathloss.isSome then (s.setPeer peer.toNat { p with pathloss := none, missed := [] }).pump peer.toNat else s)

/-- PEER_DEAD: a peer that frames wait for is reported lost; the pair state is reset (R292, R295). -/
def execPeerDead (peer : BitVec 20) (s : State) : Host.Outcome State Fault Refusal :=
  ok (if (s.peer peer.toNat).unacked.isEmpty then s
    else (s.report (srcId 5 0x152) (BitVec.ofNat 32 peer.toNat)).resetPair peer.toNat)

/-! ## Ethernet and IP (R266, R267, R269, R270) -/

/-- A frame that comes while the links run. -/
def State.arrives (s : State) (ch : Nat) : State := if s.portsUp then s.frameIn ch else s

/-- Whether a request names the module's own address. -/
def State.asksMe (s : State) (p : Nat) (v6 : Bool) (target : Nat) : Bool :=
  s.portsUp && v6 == s.ip6 && s.ownAddr p == some target

/-- ARP_REQUEST: ARP (kind 0) or Neighbour Solicitation (kind 1) for an own address is answered. -/
def execArpRequest (chimney : BitVec 1) (v6 : Bool) (target : BitVec 128) (s : State) : Host.Outcome State Fault Refusal :=
  ok (if s.asksMe chimney.toNat v6 target.toNat then
      (s.frameIn chimney.toNat).sendOut chimney.toNat (.ether chimney.toNat (bnat v6) (beBytes (if v6 then 16 else 4) target.toNat))
    else s.arrives chimney.toNat)

/-- ICMP_ECHO_REQUEST: an echo reply (kind 2; ICMPv6 kind 3) with the request's payload, by the gateway. -/
def execIcmpEchoRequest (chimney : BitVec 1) (v6 : Bool) (target : BitVec 128) (payload : List Byte) (s : State) :
    Host.Outcome State Fault Refusal :=
  let s1 := s.arrives chimney.toNat
  ok (if s.asksMe chimney.toNat v6 target.toNat then
      s1.putIp 2 chimney.toNat (.ether chimney.toNat (2 + bnat v6) payload)
    else s1)

/-- ARP_REPLY: the gateway's MAC address, for which frames may have waited; any other sender's is not kept. -/
def execArpReply (chimney : BitVec 1) (v6 : Bool) (sender : BitVec 128) (mac : BitVec 48) (s : State) :
    Host.Outcome State Fault Refusal :=
  let p := chimney.toNat
  let g := if v6 then s.gateway p else s.gateway p % 2 ^ 32
  let s1 := s.arrives p
  ok (if s.portsUp && v6 == s.ip6 && sender.toNat == g then
      ({ s1 with net := { s1.net with macs := tset s1.net.macs p mac.toNat } } : State).release
    else s1)

/-- PAUSE_FRAME: counted, PAUSE_SEEN, otherwise ignored. -/
def execPauseFrame (chimney : BitVec 1) (s : State) : Host.Outcome State Fault Refusal :=
  ok (if s.linksAlive then (s.frameIn chimney.toNat).dropFrame.orIo (chReg chimney.toNat) 0x8000 else s)

/-- PFC_FRAME: transmission on a named priority pauses or resumes; what waited for it leaves. -/
def execPfcFrame (chimney : BitVec 1) (priority : BitVec 3) (pause : Bool) (s : State) : Host.Outcome State Fault Refusal :=
  let k := (chimney.toNat, priority.toNat)
  let l := s.net.paused.filter (fun q => q != k)
  let s1 := s.arrives chimney.toNat
  ok (if s.portsUp && Nat.testBit (s.setting 0x0142) priority.toNat then
      ({ s1 with net := { s1.net with paused := if pause then l ++ [k] else l } } : State).release
    else s1)

/-- A RoCEv2 queue pair. -/
def State.qp (s : State) (q : Nat) : Qp := tget {} s.net.qps q

/-- CONGESTION_NOTIFICATION: an ECN-marked packet is answered with a Congestion Notification Packet (kind 4); a received one
lowers the queue pair's rate, to a value that Annex A17 leaves to the implementation (log 30). -/
def execCongestionNotification (qp : BitVec 6) (cnp : Bool) (s : State) : Host.Outcome State Fault Refusal :=
  let q := qp.toNat
  let v := s.qp q
  let s1 := s.frameIn (s.qpPath q)
  ok (if !s.portsUp then s
    else if cnp then
      ({ s1 with net := { s1.net with qps := tset s1.net.qps q { v with rate := (Config.freeWord s.free).toNat % max 1 v.rate } } } : State).draw
    else s1.putIp 1 q (.ether (s.qpPath q) 4 (leBytes 1 q)))

end Sys2Proof.Machine
end

