-- ==== Sys2Proof/Machine/Ember.lean ====
section
/-! DEFINITION. The ember engine (R299 to R313, R317, R318): policies, cuts, the soot planes, methods, sends to the partner and
the parity group, the cartridge's log, and seals. -/

namespace Sys2Proof.Machine

/-! ## Policies (Tables 12-6 to 12-8) -/

/-- K. -/
def polK (p : List Byte) : Nat := leAt p 0 2
/-- CUT_EVERY. -/
def polEvery (p : List Byte) : Nat := leAt p 6 2
/-- CADENCE: AUTO where true. -/
def polAuto (p : List Byte) : Bool := field (leAt p 4 4) 0 2 == 1
/-- ADOPT. -/
def polAdopt (p : List Byte) : Bool := Nat.testBit (leAt p 4 4) 2
/-- CUT_MIN. -/
def polMin (p : List Byte) : Nat := leAt p 10 2
/-- DIRTY_HI. -/
def polDirty (p : List Byte) : Nat := leAt p 8 2
/-- MIRROR_MAX in bytes. -/
def polMirrorMax (p : List Byte) : Nat := leAt p 0x0C 4 * 2 ^ 20
/-- SNAP_AREA. -/
def polArea (p : List Byte) : Nat := leAt p 0x10 8
/-- MIRROR_STORE. -/
def polMirror (p : List Byte) : Nat := leAt p 0x18 8
/-- PARITY_STORE. -/
def polParity (p : List Byte) : Nat := leAt p 0x20 8
/-- DRAIN_GEN. -/
def polDrain (p : List Byte) : Nat := leAt p 0x2C 4
/-- NENT. -/
def polNent (p : List Byte) : Nat := leAt p 0x30 2
/-- CART_KEEP. -/
def polKeep (p : List Byte) : Nat := leAt p 0x32 2
/-- Offset of the drain record. -/
def polDrainAt (p : List Byte) : Nat := 0x40 + 8 * polNent p
/-- Length of a policy. -/
def polLen (p : List Byte) : Nat := polDrainAt p + 0x30

/-- METHOD of an allocation: 0 AUTO, 1 MIRROR, 2 PARITY. -/
def polMethod (p : List Byte) (id : Nat) : Nat :=
  match (List.range (polNent p)).find? (fun i => leAt p (0x40 + 8 * i) 2 == id) with
  | some i => field (leAt p (0x40 + 8 * i) 8) 16 2
  | none => 0

/-- The byte offset in a policy of the first value outside R324, if any. `ids` are the PERSIST and FROZEN SPACE 0
allocations. -/
def policyBad (p : List Byte) (ids : List Nat) : Option Nat :=
  let gib := 2 ^ 30
  let d := polDrainAt p
  let checks : List (Nat × Bool) :=
    [(0, leAt p 2 2 == 0 && decide (1 ≤ polK p ∧ polK p ≤ 1024)),
     (4, decide (1 ≤ polEvery p ∧ polEvery p ≤ polK p) && field (leAt p 4 4) 3 13 == 0 && decide (field (leAt p 4 4) 0 2 ≤ 1)),
     (8, decide (1 ≤ polMin p ∧ polMin p ≤ polK p) && decide (1 ≤ polDirty p ∧ polDirty p ≤ 1024)),
     (0x0C, decide (1 ≤ leAt p 0x0C 4 ∧ leAt p 0x0C 4 ≤ 65536)),
     (0x10, decide (16 * gib ≤ polArea p ∧ polArea p ≤ 512 * gib)),
     (0x18, decide (polMirror p ≤ 512 * gib)), (0x20, decide (polParity p ≤ 512 * gib)),
     (0x28, decide (1000 ≤ leAt p 0x28 4 ∧ leAt p 0x28 4 ≤ 400000)),
     (0x30, decide (2 ≤ polKeep p ∧ polKeep p ≤ 64) && decide (polNent p ≤ 4096)), (0x34, leAt p 0x34 12 == 0)] ++
    (List.range (polNent p)).map (fun i =>
      let e := leAt p (0x40 + 8 * i) 8
      (0x40 + 8 * i, decide (e < 2 ^ 18) && field e 16 2 != 3 && ids.contains (field e 0 16))) ++
    [(d + 0x14, polDrain p == 0 || decide (1 ≤ leAt p (d + 0x17) 1 ∧ leAt p (d + 0x17) 1 ≤ 64)),
     (d + 0x28, polDrain p == 0 || decide (100 ≤ leAt p (d + 0x28) 4 ∧ leAt p (d + 0x28) 4 ≤ 50000)),
     (d + 0x2C, leAt p (d + 0x2C) 4 == 0), (0, decide (polLen p ≤ p.length))]
  (checks.find? (fun c => !c.2)).map (fun c => c.1)

/-- Whether a policy overrides some tensor to PARITY. -/
def polHasParity (p : List Byte) : Bool :=
  (List.range (polNent p)).any (fun i => field (leAt p (0x40 + 8 * i) 8) 16 2 == 2)

/-- The allocations that a policy may name. -/
def Ctx.polIds (cx : Ctx) : List Nat :=
  (cx.allocs.filter (fun a => a.space == 0 && (a.cls == 1 || a.cls == 2))).map (fun a => a.id)

/-! ## Cadence -/

/-- C and QUIET of a context; before its first policy C is the policy's first. -/
def firstCad (p : List Byte) : Nat × Nat := (if polAuto p then polK p else polEvery p, 0)

/-- C and QUIET in force. -/
def State.cadOf (s : State) (c : Nat) : Nat × Nat := (tfind s.ember.cad c).getD (firstCad (s.ctx c).policy)

/-- C and QUIET set; EMB_CADENCE shows them. -/
def State.setCad (s : State) (c : Nat) (v : Nat × Nat) : State :=
  ({ s with ember := { s.ember with cad := tset s.ember.cad c v } } : State).setIo 0x3018
    (BitVec.ofNat 32 (v.2 % 65536 * 65536 + v.1 % 65536))

/-- The update of R301 at a seal fence under AUTO. -/
def nextCad (k cmin : Nat) (held : Bool) (v : Nat × Nat) : Nat × Nat :=
  if held then (min k (2 * v.1), 0)
  else if v.2 + 1 = 8 then (max cmin (v.1 / 2), 0) else (v.1, v.2 + 1)

/-! ## Pages and planes -/

/-- Whether a page is protected (R299): of a PERSIST or FROZEN allocation, or in tier 3. -/
def State.isProtected (s : State) (c p : Nat) : Bool :=
  eTier (s.pentry c p) == 2 || (match s.allocOfPage c p with | some a => a.cls == 1 || a.cls == 2 | none => false)

/-- The protected pages of a context, ascending. -/
def State.protectedPages (s : State) (c : Nat) : List Nat :=
  (s.mem.pmap.filter (fun e => e.1 / 2 ^ 26 == c && eV e.2 && s.isProtected c (e.1 % 2 ^ 26))).map (fun e => e.1 % 2 ^ 26)

/-- The copy of a page that holds its value at cut g (R304): the one in the lowest plane at or above g; none where the live frame does. -/
def State.copyAt (s : State) (c g p : Nat) : Option Memory :=
  let newest := (s.curGen c).getD g
  ((List.range (min 4 (newest + 1 - g))).findSome? (fun i =>
    s.ember.copies.find? (fun k => k.1 == (g + i) % 4 && k.2.1 == pageKey c p))).map (fun k => k.2.2)

/-- The value of a page at cut g: that copy, or the live frame. -/
def State.valueAt (s : State) (c g p : Nat) : Memory := (s.copyAt c g p).getD (s.pageBody c p)

/-- A plane of a context cleared: its W and C bits, its copies (R302). AREA_FULL ends when a frame of the area is free (log 59). -/
def State.clearPlane (s : State) (c plane : Nat) : State :=
  let l := s.ember.copies.filter (fun k => !(k.1 == plane && k.2.1 / 2 ^ 26 == c))
  let s1 : State := { s with ember := { s.ember with
    wset := s.ember.wset.filter (fun w => !(w.1 == plane && w.2 / 2 ^ 26 == c)), copies := l } }
  if l.length < s.areaFrames then s1.andnIo 0x3000 0x20000 else s1

/-- Pages of a context with W in the plane of a generation. -/
def State.dirty (s : State) (c g : Nat) : List Nat :=
  ((s.ember.wset.filter (fun w => w.1 == g % 4 && w.2 / 2 ^ 26 == c)).map (fun w => w.2 % 2 ^ 26)).mergeSort (· ≤ ·)

/-- CP cleared in every entry of a context, and XC_CNT_CUT counted, in every firebox (R197, R213). -/
def State.clearCps (s : State) (c : Nat) : State :=
  ({ s with mem := { s.mem with hostCache := s.mem.hostCache.clearCp c } } : State).eachUnit (fun t =>
    ({ t with xc := t.xc.clearCp c } : Tile).bump 0x0810 1)

/-! ## Methods (R308) -/

/-- The key of an allocation of a context. -/
def allocKey (c id : Nat) : Nat := c * 65536 + id

/-- The protected tensors of a context: PERSIST and FROZEN allocations, and tier 3 ones, which count as frozen (R188, R299). -/
def Ctx.tensors (cx : Ctx) : List AllocRec := cx.allocs.filter (fun a => a.space == 0 && (a.cls == 1 || a.cls == 2 || a.place == 3))

/-- One tensor's method at a cut (1 MIRROR, 2 PARITY) and its low count. -/
def State.chooseMethod (s : State) (c g : Nat) (p : List Byte) (a : AllocRec) : Nat × Nat :=
  let key := allocKey c a.id
  let old := tget 1 s.ember.methods key
  let low := tget 0 s.ember.lows key
  let ov := polMethod p a.id
  let pages := max 1 (a.size / pageBytes)
  let w := if g = 0 then 0 else ((s.dirty c (g - 1)).filter (fun q =>
    decide (a.base ≤ q * pageBytes ∧ q * pageBytes < a.base + a.size))).length
  let r := w * 1024 / (pages * max 1 (s.cadOf c).1)
  let m : Nat × Nat :=
    if ov ≠ 0 then (ov, low)
    else if a.size < polMirrorMax p then (1, low)
    else if a.cls = 2 ∨ a.place = 3 then (2, low)
    else if old = 2 ∧ polDirty p < r then (1, 0)
    else if old = 1 ∧ 2 * r ≤ polDirty p then (if 4 ≤ low + 1 then (2, 0) else (1, low + 1))
    else (old, 0)
  if s.ember.group.isEmpty then (1, m.2) else m

/-- The method of a page's tensor in a table of methods. -/
def State.pageMethod (s : State) (ms : Table Nat) (c p : Nat) : Nat :=
  match s.allocOfPage c p with
  | some a => tget 1 ms (allocKey c a.id)
  | none => 1

/-! ## The cut (R300 to R302) -/

/-- Whether step `step` of a context is a cut step; the first commit edge without a RESTORE cuts generation 0. -/
def State.cutDue (s : State) (c step : Nat) : Bool :=
  match tfind s.ember.nextGen c with
  | none => true
  | some _ => step % max 1 (s.cadOf c).1 == 0 || s.ember.extra.contains (c, step)

/-- Whether the cartridge in the bay is the module's own and may be written (Table 12-5a), which is not before stage 8 (R423). -/
def State.cartUsable (s : State) : Bool :=
  s.ember.cart.isSome && s.ember.cartState == 1 && !s.ember.cartGone && decide (8 ≤ s.pwr.stage)

/-- CART_STATE changed: vector 18 and a CART report with the new state (Table 13-1). -/
def State.setCartState (s : State) (st : Nat) : State :=
  if s.ember.cartState = st then s
  else ((({ s with ember := { s.ember with cartState := st } } : State).cause 2).report (srcId 3 0x182) (BitVec.ofNat 32 st))

/-- The cartridge's contents changed. -/
def State.editCart (s : State) (f : Cartridge → Cartridge) : State :=
  { s with ember := { s.ember with cart := s.ember.cart.map f } }

/-- The generation in progress on the cartridge is dropped: it stays without a commit record (R320, R321). -/
def State.dropCartWrites (s : State) : State :=
  { s with ember := { s.ember with
    gens := s.ember.gens.map (fun q => if q.cartDone then q else { q with cartOn := false, cartTodo := [], cartTail := 0 }) } }

/-- Whether a drain reads the cartridge: it pins no plane (R331). -/
def State.drainReads (s : State) : Bool := s.ember.drain.isSome && s.ember.drainPins.isNone

/-- The engine stops writing and releases the bay: EJECTING (R320). -/
def State.beginEject (s : State) : State :=
  let s1 := s.dropCartWrites
  ({ s1 with ember := { s1.ember with ejectWait := false } } : State).setCartState 5

/-- Planes and records below the newest generation sealed cluster-wide freed, those that a drain pins excepted (R304). -/
def State.freePlanes (s : State) (c : Nat) : State :=
  match (s.ember.gens.filter (fun r => r.ctx == c && r.fenced)).getLast? with
  | none => s
  | some r =>
    let pinned := fun (h : Nat) => match s.ember.drainPins with | some d => d.1 == c && decide (d.2 ≤ h) | none => false
    let s1 := (List.range 4).foldl (fun (s : State) (i : Nat) =>
      let h := r.gen - 1 - i
      if i + 1 ≤ r.gen ∧ !pinned h ∧ s.ember.tags.contains (4 * c + h % 4, some h) then s.clearPlane c (h % 4) else s) s
    { s1 with ember := { s1.ember with
      gens := s1.ember.gens.filter (fun q => q.ctx != c || decide (r.gen ≤ q.gen) || pinned q.gen) } }

/-- The messages that an ended drain left outstanding are no later drain's (R331). -/
def State.leaveMessages (s : State) : State :=
  { s with net := { s.net with qps := s.net.qps.map (fun q => (q.1, { q.2 with stale := q.2.sent.length })) } }

/-- The drain ends: its pins go, with the copies that they held, so a fault that waits for a frame may be served (R305), and an eject that
waited for it begins (R320). -/
def State.endDrain (s : State) : State :=
  let s1 : State := { s.leaveMessages with ember := { s.ember with drain := none, drainPins := none, drainLeft := 0 } }
  let s2 := match s.ember.drain with
    | some d => (s1.freePlanes d.1).retryHost
    | none => s1
  if s2.ember.ejectWait then s2.beginEject else s2

/-- A drain is abandoned: DRAIN_ERR, EMB_CNT_DRAINSKIP (R331). -/
def State.abandonDrain (s : State) : State :=
  (s.endDrain.orIo 0x3000 0x800).bumpIo 0x3030 1

/-- The drain that pins the plane which a cut needs is abandoned. -/
def State.unpinFor (s : State) (c g : Nat) : State :=
  match s.ember.drainPins with
  | some d => if d.1 = c ∧ d.2 + 4 ≤ g then s.abandonDrain else s
  | none => s

/-- A pending policy takes effect (R325): AUTO that was AUTO keeps C within the new K. -/
def State.takePolicy (s : State) (c : Nat) : State :=
  match tfind s.ember.pendPolicy c with
  | none => s
  | some p =>
    let old := (s.ctx c).policy
    let v := s.cadOf c
    let s1 := (s.setCtx c { s.ctx c with policy := p })
    let s2 : State := { s1 with ember := { s1.ember with pendPolicy := tdel s1.ember.pendPolicy c } }
    s2.setCad c (if polAuto p && polAuto old then (min v.1 (polK p), v.2) else firstCad p)

/-- The first 8 bytes of IMAGE_HASH as a number. -/
def hashHead (cx : Ctx) : BitVec 64 := BitVec.ofNat 64 (leAt cx.imageHash 0 8)

/-- Whether a later truncate record voids a record (R323): it lies above its GEN, or belongs to another job (log 34). -/
def voided (later : List CartRecord) (r : CartRecord) : Bool :=
  later.any (fun t => t.kind == 2 && (decide (t.gen.toNat < r.gen.toNat) || t.imageHash != r.imageHash))

/-- The ordinal of a job's newest record of a generation that is present and not voided, none where there is none (R317). -/
def findRecord (hash : BitVec 64) (gen : Nat) : List CartRecord → Nat → Option Nat
  | [], _ => none
  | r :: l, n =>
    match findRecord hash gen l (n + 1) with
    | some m => some m
    | none => if r.kind ≠ 2 ∧ r.crcOk ∧ r.gen.toNat = gen ∧ r.imageHash = hash ∧ !voided l r then some n else none

/-! ## Places in the log (R189, R317) -/

/-- Bytes that a record takes in the log, with its pages, their tags, its bank images and its stream state. -/
def recordSize (r : CartRecord) : Nat :=
  if r.crcOk then 65544 * (r.pages.length + r.banks.length * Config.imagePages) + r.sstate.length + 80 else 0

/-- The byte offset of a record's commit record, which comes last (R317). -/
def recordAt (r : CartRecord) : Nat := r.ofs + recordSize r - 80

/-- The frames below the end of the highest reserved overflow frame, and the frames above them, which the log has (R189). -/
def State.cartParts (s : State) : Nat × Nat :=
  let top := s.ember.overflow.foldl (fun n f => max n (f.1 + 1)) 0
  (top, s.tierFrames 2 - top)

/-- The lowest place from `base` up to `top` where n bytes meet no record that is kept (log 141). -/
def logPlace (base top : Nat) (log : List CartRecord) (n : Nat) : Option Nat :=
  let kept := log.filter (fun r => r.crcOk)
  ((base :: kept.map (fun r => r.ofs + recordSize r)).mergeSort (· ≤ ·)).find? (fun o =>
    decide (base ≤ o ∧ o + n ≤ top) && kept.all (fun r => decide (o + n ≤ r.ofs ∨ r.ofs + recordSize r ≤ o)))

/-- The kept records of a log set one after another from `base` up. -/
def logCompact : Nat → List CartRecord → List CartRecord
  | _, [] => []
  | base, r :: l => if r.crcOk then { r with ofs := base } :: logCompact (base + recordSize r) l else r :: logCompact base l

/-- A record appended to a log: at a free place, or above the others, which are written closer together. -/
def logAppend (base top : Nat) (log : List CartRecord) (r : CartRecord) : List CartRecord :=
  match logPlace base top log (recordSize r) with
  | some o => log ++ [{ r with ofs := o }]
  | none => logCompact base (log ++ [r])

/-- The kept records that begin below `base` written forward, each to a free place (R189). -/
def logForward (base top : Nat) (log : List CartRecord) : List CartRecord :=
  (List.range log.length).foldl (fun l i => match l[i]? with
    | some r =>
      if r.crcOk && decide (r.ofs < base) then
        match logPlace base top (l.eraseIdx i) (recordSize r) with
        | some o => l.set i { r with ofs := o }
        | none => logCompact base l
      else l
    | none => l) log

/-- The bytes that a log has written forward against another: records that lie elsewhere, and what others have grown by (R207). -/
def movedBytes (old new : List CartRecord) : Nat :=
  (List.zip old new).foldl (fun n p => n + (if p.1.ofs ≠ p.2.ofs then recordSize p.2 else recordSize p.2 - recordSize p.1)) 0

/-- The record at an index of a log, which has grown, moved to a free place where it meets another kept one. -/
def logRefit (base top : Nat) (log : List CartRecord) (i : Nat) : List CartRecord :=
  match log[i]? with
  | none => log
  | some r =>
    let rest := log.eraseIdx i
    if rest.all (fun q => !q.crcOk || decide (r.ofs + recordSize r ≤ q.ofs ∨ q.ofs + recordSize q ≤ r.ofs)) then log
    else match logPlace base top rest (recordSize r) with
      | some a => log.set i { r with ofs := a }
      | none => logCompact base log

/-- The cartridge's log replaced by one whose records may lie elsewhere; what was written forward is counted. -/
def State.setLog (s : State) (log : List CartRecord) : State :=
  s.editCart (fun k => { k with log := log, bytesWritten := k.bytesWritten + movedBytes k.log log })

/-- A record appended to the cartridge's log, and HEAD set to it. -/
def State.appendRecord (s : State) (r : CartRecord) : State :=
  let base := pageBytes * s.cartParts.1
  let top := pageBytes * s.tierFrames 2
  match s.ember.cart with
  | none => s
  | some k => (s.setLog (logAppend base top k.log r)).editCart (fun k => { k with head := k.log.length })

/-- The kept log records that a reservation of overflow frames reaches written forward (R189): only the module's own cartridge is
written (R209). -/
def State.forwardLog (s : State) : State :=
  match s.ember.cart with
  | some k => if s.cartUsable then s.setLog (logForward (pageBytes * s.cartParts.1) (pageBytes * s.tierFrames 2) k.log) else s
  | none => s

/-- A truncate record (R323): it voids every record above its GEN. Its PREV is the record of that generation. -/
def State.truncateCart (s : State) (c gen : Nat) : State :=
  let cx := s.ctx c
  match s.ember.cart with
  | none => s
  | some k =>
    let s1 := (s.appendRecord {
      gen := BitVec.ofNat 32 gen, cutStep := BitVec.ofNat 48 cx.stepCommitted, seed := BitVec.ofNat 64 cx.seed
      devid := BitVec.ofNat 20 (s.devid.getD 0), cluster := BitVec.ofNat 16 (s.setting 0x0103), actGen := s.sfu.actGen
      imageHash := hashHead cx, cadC := BitVec.ofNat 16 (s.cadOf c).1, k := BitVec.ofNat 16 (polK cx.policy)
      quiet := BitVec.ofNat 16 (s.cadOf c).2, kind := 2, beatCut := BitVec.ofNat 64 s.clk.beatNow
      prev := (findRecord (hashHead cx) gen k.log 1).getD 0, pages := [], sstate := [], crcOk := true }).countWritten 80
    (s1.editCart (fun k =>
      { k with
        lastModule := Config.serial
        devid := BitVec.ofNat 20 (s.devid.getD 0)
        cluster := BitVec.ofNat 16 (s.setting 0x0103)
        imageHash := hashHead cx })).setIo 0x3010 (BitVec.ofNat 32 gen)

/-- A FOREIGN cartridge adopted (R322): the log truncated above a generation, a base at the next cut where one is due. -/
def State.adoptCart (s : State) (c gen : Nat) (base : Bool) : State :=
  let s1 := s.truncateCart c gen
  ({ s1 with ember := { s1.ember with cartBase := base } } : State).setCartState 1

/-- Whether a FOREIGN cartridge stands in the bay. -/
def State.foreignCart (s : State) : Bool := s.ember.cart.isSome && !s.ember.cartGone && s.ember.cartState == 2

/-- The truncate record of a command: into the module's own cartridge, or into a FOREIGN one that it adopts. Before stage 8 nothing is
written to the cartridge (R423): the record waits for that stage (log 155). -/
def State.truncateFor (s : State) (c gen : Nat) (base adopts : Bool) : State :=
  if s.pwr.stage < 8 then { s with ember := { s.ember with adoptDue := some (c, gen, base) } }
  else if s.cartUsable then
    let t := s.truncateCart c gen
    { t with ember := { t.ember with cartBase := base } }
  else if adopts && s.foreignCart then s.adoptCart c gen base
  else s

/-- A BLANK cartridge is formatted and adopted at the next cut; a job whose IMAGE_HASH differs from the header's truncates
the log first (Table 12-5a, R323). -/
def State.readyCart (s : State) (c : Nat) : State :=
  let s1 := if s.ember.cart.isSome && s.ember.cartState == 3 && !s.ember.cartGone then
      let t := s.editCart (fun k => { k with magic := 0x454D4243, log := [], head := 0, headerOk := true })
      ({ t with ember := { t.ember with cartBase := true } } : State).setCartState 1
    else s
  match s1.ember.cart with
  | some k =>
    if s1.ember.cartState = 1 ∧ k.imageHash ≠ hashHead (s1.ctx c) then
      let t := s1.truncateCart c 0
      { t with ember := { t.ember with cartBase := true } }
    else s1
  | none => s1

/-! ## The room of the log (R189, R317) -/

/-- The records from ordinal n back to a base, n at most; truncate records pass the chain on (R317). -/
def chainOf (log : List CartRecord) : Nat → Nat → Option (List CartRecord)
  | 0, _ => none
  | fuel + 1, n =>
    if n = 0 then none
    else match log[n - 1]? with
      | none => none
      | some r =>
        if !r.crcOk then none
        else if r.kind = 1 then some [r]
        else (chainOf log fuel r.prev).map (fun l => if r.kind = 2 then l else r :: l)

/-- Entries of lists by key, the first list that has a key giving its entry. -/
def mergeKeys {α : Type} (l : List (List (Nat × α))) : List (Nat × α) :=
  l.foldl (fun acc q => acc ++ q.filter (fun e => !acc.any (fun d => d.1 == e.1))) []

/-- Whether n more bytes fit the log. -/
def State.logHolds (s : State) (n : Nat) : Bool :=
  match s.ember.cart with
  | some k => decide (k.log.foldl (fun m r => m + recordSize r) n ≤ pageBytes * s.cartParts.2)
  | none => true

/-- The generations on the log that a restore can use, newest first, by ordinal (R317, R323). -/
def present (hash : BitVec 64) (log : List CartRecord) : List (Nat × Nat) :=
  (List.range log.length).reverse.filterMap (fun i => match log[i]? with
    | some r => if r.kind ≠ 2 ∧ r.crcOk ∧ r.imageHash = hash ∧ !voided (log.drop (i + 1)) r then some (i + 1, r.gen.toNat) else none
    | none => none)

/-- Whether a generation is not among the unsealed ones of the module. -/
def State.sealedGen (s : State) (g : Nat) : Bool := !s.ember.gens.any (fun r => r.gen == g && !r.isSealed)

/-- The records of a log older than the one of ordinal o given up, and that record made to hold the whole value that its chain gave: the
live pages of the others are written forward into it (log 124). -/
def reclaimed (log : List CartRecord) (o : Nat) : List CartRecord :=
  match chainOf log (log.length + 1) o with
  | none => log
  | some l =>
    log.zipIdx.map (fun q =>
      if q.2 + 1 = o then { q.1 with kind := 1, prev := 0, pages := mergeKeys (l.map (fun r => r.pages)), banks := mergeKeys (l.map (fun r => r.banks)) }
      else if q.2 + 1 < o ∧ q.1.kind ≠ 2 then { q.1 with pages := [], banks := [], sstate := [], crcOk := false } else q.1)

/-- Older log space reclaimed so that every generation from HEAD back through n sealed ones stays (R317); the pages written forward count
as written (R207). -/
def State.reclaimCart (s : State) (n : Nat) : State :=
  match s.ember.cart with
  | none => s
  | some k =>
    let l := (present k.imageHash k.log).filter (fun q => s.sealedGen q.2)
    match l[n - 1]? with
    | none => s
    | some o => s.setLog (logRefit (pageBytes * s.cartParts.1) (pageBytes * s.tierFrames 2) (reclaimed k.log o.1) (o.1 - 1))

/-- Fewer and fewer sealed generations kept, one at least, until n bytes fit. -/
def State.keepFewer (s : State) (n : Nat) : Nat → State
  | 0 => s
  | k + 1 => let t := s.reclaimCart (k + 1); if t.logHolds n || k = 0 then t else t.keepFewer n k

/-- Room for n bytes in the log: by reclaiming, and where that is not enough by keeping fewer than CART_KEEP generations, which counts in
EMB_CNT_CARTLAG (R189, R317). A cartridge that may not be written keeps its log as it is (R209). -/
def State.makeRoom (s : State) (keep n : Nat) : State :=
  if s.logHolds n || !s.cartUsable then s
  else
    let t := s.reclaimCart keep
    if t.logHolds n then t else (t.keepFewer n (keep - 1)).bumpIo 0x302C 1

/-- The write of a generation to the cartridge begins: a base where one is due, and where the one before it is not done
(EMB_CNT_CARTLAG, R317). Its bank image goes with it where the log has none of that table generation (R299). -/
def State.cartBegin (s : State) (c : Nat) (r : GenRec) : State × GenRec :=
  let s1 := s.readyCart c
  if !s1.cartUsable then (s1, r)
  else
    let lag := s1.ember.gens.any (fun q => q.cartOn && !q.cartDone)
    let s2 := s1.dropCartWrites
    let s3 := if lag then s2.bumpIo 0x302C 1 else s2
    let base := s1.ember.cartBase || lag || r.gen == 0
    let log := match s3.ember.cart with | some k => k.log | none => []
    let has := log.any (fun q => q.crcOk && q.imageHash == hashHead (s3.ctx c) && thas q.banks r.actGen)
    let banks := if r.actGen = 0 ∨ (has ∧ !base) then [] else [r.actGen]
    let todo := if base then s3.protectedPages c else r.delta
    let s4 := s3.makeRoom (polKeep (s3.ctx c).policy) (65544 * (todo.length + banks.length * Config.imagePages) + 69 * r.streams.length + 80)
    ({ s4 with ember := { s4.ember with cartBase := false } },
     { r with cartOn := true, cartIsBase := base, cartTodo := todo, cartPages := [], banks := banks, cartTail := 2 })

/-! ## Sends (R303, R309 to R313) -/

/-- DATA bytes of a PART or PAR frame at most (R286). -/
def State.dataMax (s : State) : Nat :=
  let u := s.setting 0x0140 - (if s.ip6 then 40 else 20) - 36
  min 8192 ((u - 12) / 8 * 8)

/-- Pieces of a page: offsets and bytes, n at most. -/
def piecesOf (m : Memory) (step : Nat) : Nat → Nat → List (Nat × List Byte)
  | 0, _ => []
  | n + 1, o =>
    if pageBytes ≤ o then []
    else let k := min (max 8 step) (pageBytes - o); (o, mreadN m o k) :: piecesOf m step n (o + max 8 step)

/-- The payload of a PART frame (Table 11-8). -/
def partPayload (gen ctx page ofs : Nat) (data : List Byte) : List Byte :=
  beBytes 4 gen ++ beBytes 4 (ctx * 2 ^ 26 + page) ++ beBytes 2 ofs ++ beBytes 2 0 ++ data

/-- The payload of a PAR frame. -/
def parPayload (gen stripe ofs frag : Nat) (data : List Byte) : List Byte :=
  beBytes 4 gen ++ beBytes 4 stripe ++ beBytes 2 ofs ++ beBytes 2 frag ++ data

/-- This module's number in its parity group. -/
def State.member (s : State) : Option Nat := indexOf (fun d => s.devid == some d) s.ember.group 0

/-- The stripe of the j-th page of member m (R311). -/
def stripeOf (m j : Nat) : Nat :=
  let data := (List.range 10).filter (fun n => n != m && (n + 1) % 10 != m)
  j / 8 * 10 + nth 0 data (j % 8)

/-- The fragment number of member m in stripe n: its place among the 8 data members. -/
def fragOf (m n : Nat) : Nat :=
  (indexOf (fun k => k == m) ((List.range 10).filter (fun k => k != n % 10 && k != (n + 1) % 10)) 0).getD 0

/-- The place of a page on this module's parity position list (R311). -/
def State.parityIndex (s : State) (c p : Nat) : Nat := (s.ember.parityList.takeWhile (fun k => decide (k < pageKey c p))).length

/-- The bytes of two memories xor'ed over a page. -/
def xorPage (a b : Memory) : Memory :=
  cellsOf 0 (List.zipWith (fun x y => x ^^^ y) (mreadN a 0 pageBytes) (mreadN b 0 pageBytes))

/-- A page sent whole to the partner. -/
def State.sendMirror (s : State) (gen c p : Nat) (m : Memory) : State :=
  match s.ember.partner with
  | none => s
  | some d => (piecesOf m s.dataMax 65536 0).foldl (fun s q => s.sendRel d 3 0 (partPayload gen c p q.1 q.2)) s

/-- The Δ of a page sent to those holders of its stripe that `dest` picks. -/
def State.sendDelta (s : State) (gen c p : Nat) (m : Memory) (dest : Nat → Bool) : State :=
  match s.member with
  | none => s
  | some me =>
    let n := stripeOf me (s.parityIndex c p)
    ([n % 10, (n + 1) % 10].filter (fun h => dest (nth 0 s.ember.group h))).foldl (fun s h =>
      (piecesOf m s.dataMax 65536 0).foldl (fun s q =>
        s.sendRel (nth 0 s.ember.group h) 4 0 (parPayload gen n q.1 (fragOf me n) q.2)) s) s

/-- The bank of a table generation of a context as the module holds its image (R115). -/
def State.heldBank (s : State) (c g : Nat) : Bank :=
  ((s.sfu.images.find? (fun i => i.1 == c && i.2.1 == g)).map (fun i => i.2.2)).getD {}

/-- Page i of that image. -/
def State.imageBody (s : State) (c g i : Nat) : Memory :=
  cellsOf 0 ((List.range pageBytes).map (fun a => Config.imageByte (s.heldBank c g) (i * pageBytes + a)))

/-- The bank images that a generation brings, sent to the partner: each is below the least MIRROR_MAX, so its method is MIRROR
(R299, R308, log 156). -/
def State.sendImages (s : State) (r : GenRec) (l : List Nat) : State :=
  l.foldl (fun (s : State) g => (List.range Config.imagePages).foldl (fun (s : State) i =>
    s.sendMirror r.gen r.ctx (Config.imagePage i).toNat (s.imageBody r.ctx g i)) s) s

/-- A generation's record replaced. -/
def State.setGen (s : State) (r : GenRec) : State :=
  { s with ember := { s.ember with gens := s.ember.gens.map (fun q => if q.ctx = r.ctx ∧ q.gen = r.gen then r else q) } }

/-- The end of a generation's sends, once its last page is sent: its bank images, then the end marks, the partner's and every other
group member's (R313). -/
def State.sendEnds (s : State) (r0 : GenRec) : State :=
  let n := r0.images.length * Config.imagePages
  let r := if s.ember.partner.isSome then { r0 with sentPages := r0.sentPages + n } else r0
  let s1 := match s.ember.partner with
    | some d =>
      let t := if r.images.isEmpty then s else (s.sendImages r r.images).countEmber 0x141 n
      ({ t with ember := { t.ember with imagesSent := t.ember.imagesSent ++ r.images.map (fun g => (r.ctx, g)) } } : State).sendRel d 3 0
        (partPayload r.gen r.ctx r.sentPages 0xFFFF [])
    | none => s
  let s2 := match s1.member with
    | some me => s1.ember.group.zipIdx.foldl (fun (s : State) (q : Nat × Nat) =>
        if q.2 = me then s else s.sendRel q.1 4 0 (parPayload r.gen (tget 0 r.sentFrags q.2) 0xFFFF 0 [])) s1
    | none => s1
  s2.setGen { r with endSent := true }

/-- What a delta page of a generation sends: whether it goes to the partner, whether its Δ goes to the stripe's holders, its
value at the cut, and Δ (R309, R312). -/
def State.pageSends (s : State) (r : GenRec) (p : Nat) : Bool × Bool × Memory × Memory :=
  let m := s.pageMethod r.methods r.ctx p
  let old := s.pageMethod r.oldMethods r.ctx p
  let now := s.valueAt r.ctx r.gen p
  let was : Memory := if old = 2 ∧ 0 < r.gen then s.valueAt r.ctx (r.gen - 1) p else []
  let toPar := decide (m = 2) || (decide (old = 2) && s.member.isSome)
  (m == 1, toPar, now, if toPar then xorPage (if m = 2 then now else []) was else [])

/-- One delta page of a generation sent to its remote target; the last one is followed by the end marks. -/
def State.sendPage (s : State) (r : GenRec) (p : Nat) : State :=
  let d := s.pageSends r p
  let n := s.member.map (fun me => stripeOf me (s.parityIndex r.ctx p))
  let bump := fun (t : Table Nat) => match n with
    | some n => [n % 10, (n + 1) % 10].foldl (fun t h => tset t h (tget 0 t h + 1)) t
    | none => t
  let s1 := if d.1 then s.sendMirror r.gen r.ctx p d.2.2.1 else s
  let s2 := if d.2.1 then s1.sendDelta r.gen r.ctx p d.2.2.2 (fun _ => true) else s1
  let r1 : GenRec := { r with
    todo := r.todo.filter (fun q => q != p)
    sentPages := if d.1 then r.sentPages + 1 else r.sentPages
    sentFrags := if d.2.1 then bump r.sentFrags else r.sentFrags }
  let s3 := (s2.setGen r1).countEmber 0x141 1
  if r1.todo.isEmpty then s3.sendEnds r1 else s3

/-- Every page of a generation sent again to one target (R313): the partner (TYPE 3) or a holder (TYPE 4). -/
def State.resendGen (s0 : State) (r : GenRec) (d typ : Nat) : State :=
  let s := if typ = 3 then s0.sendImages r r.images else s0
  r.delta.foldl (fun s p =>
    let q := s.pageSends r p
    if typ = 3 then (if q.1 then s.sendMirror r.gen r.ctx p q.2.2.1 else s)
    else if q.2.1 then s.sendDelta r.gen r.ctx p q.2.2.2 (fun h => h == d) else s) s

/-- After a replacement's restore the survivors send it its stores again (R329): the whole mirrored set to a replaced partner,
every fragment as Δ from zeros to a replaced holder. -/
def State.resendStores (s : State) (c : Nat) : State :=
  let g := (tget 1 s.ember.nextGen c) - 1
  s.ember.replaced.foldl (fun s d =>
    let imgs := if s.ember.partner = some d then (s.ember.imagesSent.filter (fun i => i.1 == c)).map (fun i => i.2) else []
    (s.protectedPages c).foldl (fun (s : State) p =>
      let m := s.pageMethod s.ember.methods c p
      if m = 1 ∧ s.ember.partner = some d then s.sendMirror g c p (s.valueAt c g p)
      else if m = 2 then s.sendDelta g c p (s.valueAt c g p) (fun h => h == d) else s)
      (s.sendImages { ctx := c, gen := g, cutStep := 0 } imgs)) s

/-- The first JOB_START after a restore: a module whose own stores are empty is the replacement and resynchronises; a survivor
sends (R329). -/
def State.resyncStart (s : State) (c : Nat) : State :=
  if !(s.ctx c).restored then s
  else
    let s1 := s.setCtx c { s.ctx c with restored := false }
    let e := s1.ember
    if (e.partner.isSome || !e.group.isEmpty) && e.mirror.isEmpty && e.parity.isEmpty then
      { s1 with ember := { e with resync := true } }
    else
      let s2 := s1.resendStores c
      { s2 with ember := { s2.ember with replaced := [] } }

/-- The generation whose pages are being sent: the oldest with pages left. -/
def State.sending (s : State) (c : Nat) : Option GenRec := s.ember.gens.find? (fun r => r.ctx == c && !r.todo.isEmpty)

/-- DELTA_PAGE_SEND: the next page in ascending order (R303). -/
def execDeltaPageSend (ctx : BitVec 2) (page : Nat) (s : State) : Host.Outcome State Fault Refusal :=
  ok (match s.sending ctx.toNat with
    | some r => if r.todo.head? = some page ∧ getField (s.bar 0x30040) 0 2 ≠ 2 then s.sendPage r page else s
    | none => s)

/-! ## The cut itself -/

/-- The snapshot cut of a context at the commit edge of its step (Table 10-5, action 2): CP clears, a new generation with its
plane, its methods and its delta. -/
def State.cut (s0 : State) (c : Nat) : State :=
  let s := s0.takePolicy c
  let g := tget 0 s.ember.nextGen c
  let cx := s.ctx c
  let picks := cx.tensors.map (fun a => (allocKey c a.id, s.chooseMethod c g cx.policy a))
  let ms := picks.foldl (fun m q => tset m q.1 q.2.1) s.ember.methods
  let ls := picks.foldl (fun m q => tset m q.1 q.2.2) s.ember.lows
  let changed := (s.protectedPages c).filter (fun p => s.pageMethod ms c p != s.pageMethod s.ember.methods c p)
  let base := decide (g = 0)
  let delta := if base then s.protectedPages c
    else (s.protectedPages c).filter (fun p => (s.dirty c (g - 1)).contains p || changed.contains p)
  let v := s.cadOf c
  let r : GenRec := {
    ctx := c, gen := g, cutStep := cx.stepCommitted, seed := cx.seed, actGen := s.sfu.actGen.toNat, cadC := v.1,
    k := polK cx.policy, quiet := v.2, beatCut := s.clk.beatNow, streams := cx.streams, delta := delta, methods := ms
    oldMethods := if base then [] else s.ember.methods, todo := delta
    images := if s.sfu.actGen = 0 ∨ s.ember.imagesSent.contains (c, s.sfu.actGen.toNat) = true then [] else [s.sfu.actGen.toNat] }
  let s1 := ((s.unpinFor c g).clearPlane c (g % 4)).clearCps c
  let s2 : State := { s1 with ember := { s1.ember with
    nextGen := tset s1.ember.nextGen c (g + 1), methods := ms, lows := ls
    tags := tset s1.ember.tags (4 * c + g % 4) (some g)
    extra := s1.ember.extra.filter (fun x => x != (c, cx.stepCommitted)) } }
  let b := s2.cartBegin c r
  let s3 : State := { b.1 with ember := { b.1.ember with gens := b.1.ember.gens ++ [b.2] } }
  let s4 := s3.setIo 0x3004 (BitVec.ofNat 32 g)
  if delta.isEmpty then s4.sendEnds b.2 else s4

/-! ## The cartridge's log (R317) -/

/-- The bytes of a committed stream state: 69 per stream, a layout of the model's own (log 32). -/
def streamBytes (t : Table StreamSave) : List Byte :=
  t.flatMap (fun e => leBytes 4 e.1 ++ leBytes 16 e.2.sd ++ leBytes 1 e.2.state ++ leBytes 6 e.2.pos ++ leBytes 6 e.2.cursor ++
    leBytes 8 e.2.base ++ leBytes 8 e.2.scaleBase ++ leBytes 1 e.2.units ++
    (match e.2.slot with | some q => leBytes 1 1 ++ leBytes 9 q.1 ++ leBytes 9 q.2 | none => leBytes 19 0))

/-- The committed stream state that bytes hold. -/
def parseStreams (l : List Byte) : Table StreamSave :=
  (List.range (l.length / 69)).map (fun i =>
    let o := 69 * i
    (leAt l o 4,
     { sd := leAt l (o + 4) 16, state := leAt l (o + 20) 1, pos := leAt l (o + 21) 6, cursor := leAt l (o + 27) 6
       base := leAt l (o + 33) 8, scaleBase := leAt l (o + 41) 8, units := leAt l (o + 49) 1
       slot := if leAt l (o + 50) 1 = 1 then some (leAt l (o + 51) 9, leAt l (o + 60) 9) else none }))

/-- The commit record of a generation with what it brings (Table 12-5, R299). -/
def State.commitRecord (s : State) (r : GenRec) (prev : Nat) : CartRecord :=
  { gen := BitVec.ofNat 32 r.gen, cutStep := BitVec.ofNat 48 r.cutStep, seed := BitVec.ofNat 64 r.seed
    devid := BitVec.ofNat 20 (s.devid.getD 0), cluster := BitVec.ofNat 16 (s.setting 0x0103)
    actGen := BitVec.ofNat 16 r.actGen, imageHash := hashHead (s.ctx r.ctx), cadC := BitVec.ofNat 16 r.cadC
    k := BitVec.ofNat 16 r.k, quiet := BitVec.ofNat 16 r.quiet, kind := if r.cartIsBase then 1 else 0
    beatCut := BitVec.ofNat 64 r.beatCut, prev := if r.cartIsBase then 0 else prev
    pages := r.cartPages, sstate := streamBytes r.streams, crcOk := true
    banks := r.banks.map (fun a => (a, s.heldBank r.ctx a)) }

/-- The commit record programmed, then HEAD. -/
def State.writeRecord (s : State) (r : GenRec) : State :=
  let s1 := (match s.ember.cart with | some k => s.appendRecord (s.commitRecord r k.head) | none => s).editCart (fun k =>
    { k with
      lastModule := Config.serial
      devid := BitVec.ofNat 20 (s.devid.getD 0), cluster := BitVec.ofNat 16 (s.setting 0x0103)
      imageHash := hashHead (s.ctx r.ctx) })
  ((s1.setGen { r with cartTail := 0, cartDone := true }).setIo 0x3010 (BitVec.ofNat 32 r.gen)).countWritten 80

/-- A page of a generation as the cartridge takes it: its key, its value at the cut. -/
def State.cartPage (s : State) (r : GenRec) (p : Nat) : Nat × List Byte :=
  (pageKey r.ctx p, mreadN (s.valueAt r.ctx r.gen p) 0 pageBytes)

/-- A page of the generation programmed. -/
def State.programmed (s : State) (r : GenRec) (x : Nat × List Byte) : State :=
  ((s.setGen { r with cartPages := r.cartPages ++ [x] }).countWritten (pageBytes + 8)).countEmber 0x142 16

/-- One write of the generation on the cartridge acknowledged: a page with its value at the cut, the bank images and the stream state, the
commit record. The writes that the cartridge had accepted at a feed loss come from its buffer; CART_TAIL 3 is a generation with a write
that it had not accepted, for which nothing more is written (R319). -/
def State.cartAckOne (s : State) : State :=
  if !s.cartUsable then s
  else match s.ember.gens.find? (fun r => r.cartOn && !r.cartDone) with
    | none => s
    | some r =>
      match r.cartBuf, r.cartTodo with
      | x :: t, _ => s.programmed { r with cartBuf := t } x
      | [], p :: t => s.programmed { r with cartTodo := t } (s.cartPage r p)
      | [], [] => if r.cartTail = 3 then s
        else if r.cartTail = 2 then
          (s.setGen { r with cartTail := 1 }).countWritten (69 * r.streams.length + 65544 * (r.banks.length * Config.imagePages))
        else s.writeRecord r

/-- At a feed loss the cartridge holds in its buffer of 96 MiB the writes that it has accepted, of which the spec gives only the bound: how
many pages of the generation in progress it has accepted, and whether it has accepted what follows them, is open (R319, log 143). -/
def State.cartCut (s : State) (r : GenRec) : State :=
  let n := min r.cartTodo.length ((Config.freeWord s.free).toNat % 1537)
  let all := decide (n = r.cartTodo.length) && (r.cartTail != 2 || Config.freeBool (s.free + 1))
  (s.setGen { r with cartBuf := (r.cartTodo.take n).map (s.cartPage r), cartTodo := [], cartTail := if all then r.cartTail else 3 }).draw.draw

/-- n writes acknowledged. -/
def State.cartAcks (s : State) : Nat → State
  | 0 => s
  | n + 1 => s.cartAckOne.cartAcks n

/-- CARTRIDGE_WRITE_ACK. -/
def execCartridgeWriteAck (writes : Nat) (s : State) : Host.Outcome State Fault Refusal := ok (s.cartAcks writes)

/-! ## Seals (R306) -/

/-- Whether frames of a generation to any peer are unacknowledged. -/
def State.genUnacked (s : State) (gen : Nat) : Bool :=
  s.net.peers.any (fun q => q.2.unacked.any (fun t => (t.typ == 3 || t.typ == 4) && beAt t.payload 0 4 == gen))

/-- Whether CO_FED is set. -/
def State.coFed (s : State) : Bool := (s.ior 0x3000).getLsbD 18

/-- The oldest generation of a context that is not sealed. -/
def State.unsealed (s : State) (c : Nat) : Option GenRec := s.ember.gens.find? (fun r => r.ctx == c && !r.isSealed)

/-- Whether a generation may seal. -/
def State.canSeal (s : State) (r : GenRec) : Bool :=
  r.todo.isEmpty && r.endSent && !s.genUnacked r.gen && (!(s.coFed && s.cartUsable) || r.cartDone)

/-- A generation sealed in this module: GEN_SEALED. Where it is one to be drained, a drain still in progress is abandoned (R331). -/
def State.seal (s : State) (r : GenRec) : State :=
  let every := polDrain (s.ctx r.ctx).policy
  let s1 := (s.setGen { r with isSealed := true }).setIo 0x3008 (BitVec.ofNat 32 r.gen)
  if every ≠ 0 ∧ r.gen % every = 0 ∧ s.ember.drain.isSome then s1.abandonDrain else s1

/-- GENERATION_SEAL. -/
def execGenerationSeal (s : State) : Host.Outcome State Fault Refusal :=
  ok (match s.unsealed s.sched.ctx with
    | some r => if s.canSeal r then s.seal r else s
    | none => s)

/-- The commit record kept for a partner's generation (R318): its MAGIC and GEN, and what no frame of Table 11-8 brings. -/
def partnerRecord (g : Nat) : List Byte := leBytes 4 0x454D4252 ++ leBytes 4 g ++ (List.range 72).map (fun i => Config.remoteByte (2 ^ 29 + g) i)

/-- What came of a generation becomes the sealed version (R310, R311), and a partner's page that left mirror protection is dropped;
GEN_PARTNER and the record kept follow the partner's (R318). -/
def State.promote (s : State) (g : Nat) : State :=
  let up := fun (q : Stored) => match q.next with
    | some n => if n.1 ≤ g then { q with body := n.2, next := none } else q
    | none => q
  let held := match s.ember.partner with
    | some d => s.ember.arrivals.any (fun a => a.peer == 2 * d && a.gen == g)
    | none => false
  let s1 : State := { s with ember := { s.ember with
    mirror := (if held then s.ember.mirror.filter (fun q => q.next.isSome || !Config.mirrorLeaves g q.key) else s.ember.mirror).map up
    parity := s.ember.parity.map up
    partnerRecs := if held then [(g, partnerRecord g)] else s.ember.partnerRecs
    arrivals := s.ember.arrivals.filter (fun a => decide (g < a.gen)) } }
  if held then s1.setIo 0x3014 (BitVec.ofNat 32 g) else s1

/-- The seal fence of a context's newest generation (R301, R304, R306): sealed cluster-wide, older planes freed, the cadence
of AUTO updated from whether an edge was held. -/
def State.sealFence (s : State) (c : Nat) (held : Bool) : State :=
  match s.ember.gens.find? (fun r => r.ctx == c && r.isSealed && !r.fenced) with
  | none => s
  | some r =>
    let p := (s.ctx c).policy
    let s1 := ((s.setGen { r with fenced := true }).setIo 0x300C (BitVec.ofNat 32 r.gen)).promote r.gen
    let s3 := s1.freePlanes c
    let s4 := if s3.ember.copies.length < s3.areaFrames then s3.andnIo 0x3000 0x20000 else s3
    let s5 := s4.retryHost
    if polAuto p then s5.setCad c (nextCad (polK p) (polMin p) held (s5.cadOf c)) else s5

end Sys2Proof.Machine
end

