-- ==== Sys2Proof/Machine/Kwaop.lean ====
section
/-! DEFINITION. Kwaop messages (R360 to R372): the header, the payload of each opcode, the checks of R363, the conflict
test of R364, dispatch, and the response. -/

namespace Sys2Proof.Machine

/-! ## Messages -/

/-- VER of a message. -/
def msgVer (m : List Byte) : Nat := leAt m 3 1
/-- OP. -/
def msgOp (m : List Byte) : Nat := leAt m 0 2
/-- CRIT. -/
def msgCrit (m : List Byte) : Bool := Nat.testBit (leAt m 0 4) 23
/-- CMD_TAG. -/
def msgTag (m : List Byte) : Nat := leAt m 4 4
/-- INLINE_LEN. -/
def msgInline (m : List Byte) : Nat := leAt m 8 4
/-- COUNTER (v2). -/
def msgCounter (m : List Byte) : Nat := leAt m 0x10 8
/-- EXT_ADDR, in the place the version gives it (R360, R371). -/
def msgExtAddr (m : List Byte) : Nat := if msgVer m = 1 then leAt m 0x10 8 else leAt m 0x28 8
/-- EXT_LEN. -/
def msgExtLen (m : List Byte) : Nat := if msgVer m = 1 then leAt m 0x18 4 else leAt m 0x30 4
/-- OUT_LEN. -/
def msgOutLen (m : List Byte) : Nat := if msgVer m = 1 then leAt m 0x1C 4 else leAt m 0x34 4
/-- OUT_ADDR. -/
def msgOutAddr (m : List Byte) : Nat := if msgVer m = 1 then leAt m 0x20 8 else leAt m 0x38 8
/-- Length of the header. -/
def msgHeader (m : List Byte) : Nat := if msgVer m = 1 then 0x28 else 0x40
/-- The longest inline payload. -/
def msgInlineMax (m : List Byte) : Nat := if msgVer m = 1 then 3032 else 3008

/-- The inline payload. -/
def inlinePayload (m : List Byte) : List Byte := slice m (msgHeader m) (min (msgInline m) (msgInlineMax m))

/-- The external payload as read by DMA: none where EXT_ADDR is 0. -/
def extPayload (m ext : List Byte) : List Byte := if msgExtAddr m = 0 then [] else ext.take (msgExtLen m)

/-- The payload: the inline bytes, then the external ones (R360). -/
def payload (m ext : List Byte) : List Byte := inlinePayload m ++ extPayload m ext

/-- The record of a message in flight, posted at a beat. -/
def inflightOf (m : List Byte) (beat : Nat) : Inflight :=
  { op := msgOp m, tag := msgTag m, outLen := msgOutLen m, outAddr := msgOutAddr m, beat := beat, msg := m }

/-- Opcodes of Table 14-8, each with whether it is critical. -/
def kwaopOps : List (Nat × Bool) :=
  [(0x0001, false), (0x0010, true), (0x0011, true), (0x0012, false), (0x0013, false), (0x0020, true), (0x0021, false),
   (0x0022, true), (0x0023, true), (0x0024, true), (0x0030, true), (0x0031, true), (0x0040, true), (0x0041, false),
   (0x0050, true), (0x0060, true), (0x0070, false), (0x0071, false), (0x0072, false), (0x0073, true), (0x0074, true),
   (0x0080, false), (0x0090, true), (0x00A0, true), (0x00B0, true), (0x00C0, false), (0x00C1, false)]

/-- The fields of the slot images from offset o on, n at most: their masks, header and entries (Tables 14-11, 05-2, R114, R117). -/
def imageWords : Nat → List Byte → Nat → List (Nat × Nat × Nat)
  | 0, _, _ => []
  | n + 1, p, o =>
    if p.length ≤ o then []
    else
      let nhard := leAt p (o + 2) 2
      let ncoef := field (leAt p (o + 4) 4) 16 13
      let e := o + 0x20 + (4 * leAt p (o + 0x10) 1 + 7) / 8 * 8
      [(o, 4, 0xFFFF003F), (o + 4, 4, 0x1FFF0FFF), (o + 8, 8, 0), (o + 0x11, 1, 3), (o + 0x18, 4, 0x1FFFFF), (o + 0x1C, 4, 0)] ++
      (List.range ncoef).map (fun i => (e + 8 * i, 8, 2 ^ 49 - 1)) ++
      (List.range nhard).map (fun i => (e + 8 * (ncoef + i), 8, 0xFFF0FFFFFFFFFFFF)) ++
      imageWords n p (e + 8 * (ncoef + nhard))

/-- The fields of a policy at offset o (Tables 12-6 to 12-8). -/
def policyWords (p : List Byte) (o : Nat) : List (Nat × Nat × Nat) :=
  let n := leAt p (o + 0x30) 2
  [(o, 4, 0xFFFF), (o + 4, 4, 0xFFFF0007), (o + 0x34, 4, 0), (o + 0x38, 8, 0), (o + 0x40 + 8 * n + 0x2C, 4, 0)] ++
  (List.range n).map (fun i => (o + 0x40 + 8 * i, 8, 0x3FFFF))

/-- The payload words that Table 14-8 fixes, those of the tables a row names among them: offset, bytes, mask of the bits that are named. -/
def payloadWords (op : Nat) (p : List Byte) : List (Nat × Nat × Nat) :=
  if op = 0x0001 then [(0, 4, 0xFF)]
  else if op = 0x0010 ∨ op = 0x0011 then [(0, 4, 3)]
  else if op = 0x0012 then [(0, 8, 3)]
  else if op = 0x0013 ∨ op = 0x0021 then [(0, 8, 3), (8, 8, 2 ^ 48 - 1)]
  else if op = 0x0020 then (0, 8, 3) :: policyWords p 8
  else if op = 0x0022 then [(0, 4, 0x33)]
  else if op = 0x0023 then [(0, 4, 1), (4, 4, 2 ^ 20 - 1)]
  else if op = 0x0024 then (0, 4, 1) :: (0x2C, 4, 0) :: (List.range 10).map (fun i => (4 + 4 * i, 4, 2 ^ 20 - 1))
  else if op = 0x0031 ∨ op = 0x0050 then [(0, 8, 0)]
  else if op = 0x0040 ∨ op = 0x00A0 then
    (0, 8, 0x3F) :: (List.range (leAt p 0 1 % 64)).map (fun i => (8 + 16 * i, 8, 0xFFFF))
  else if op = 0x0041 then [(0, 8, 0x3F01)]
  else if op = 0x0060 then [(0, 4, 0xFF01FFFF)]
  else if op = 0x0070 then [(0, 4, 0x3FFFFF), (4, 4, 0x3FF)]
  else if op = 0x0071 ∨ op = 0x0072 then [(0, 8, 1)]
  else if op = 0x0073 then [(0, 4, 3)]
  else if op = 0x0074 then [(0, 4, 0x1FF), (4, 4, 0x1FF)]
  else if op = 0x0090 then
    let kind := leAt p 0 4 % 4
    [(0, 4, 3), (4, 4, if kind = 0 then 0x301FF else if kind = 1 then 0xF1F1 else 0x3FFFF)]
  else if op = 0x00B0 then [(0, 8, 0x3FFFF), (8, 8, 2 ^ 48 - 1)] ++ imageWords p.length p 0x10
  else if op = 0x00C0 then
    [(0, 8, 3), (8, 8, 0xFFFEFFFF), (0x30, 8, 0)] ++ (List.range 8).map (fun d => (0x3C + 16 * d, 4, 0))
  else if op = 0x00C1 then (0, 8, 0xFF1F13) ::
    (if Nat.testBit (leAt p 0 4) 4 then [] else [(8, 4, 0xFFFFFFC0), (0x14, 4, 0xFFF)])
  else []

/-- Where the bytes end that a row of Table 14-8 names; none where the payload's own lengths say so. -/
def payloadEnd (op : Nat) (p : List Byte) : Option Nat :=
  if op = 0x0030 ∨ op = 0x0080 then some 0
  else if op ∈ [0x0001, 0x0010, 0x0011, 0x0060, 0x0073] then some 4
  else if op ∈ [0x0022, 0x0070, 0x0074] then some 8
  else if op ∈ [0x0012, 0x0013, 0x0021, 0x0023, 0x0031, 0x0071] then some 16
  else if op = 0x0072 ∨ op = 0x00C1 then some 24
  else if op = 0x0050 then some 48
  else if op = 0x0024 then some 0x38
  else if op = 0x0020 then some (8 + 0x40 + 8 * leAt p (8 + 0x30) 2 + 0x30)
  else if op = 0x0040 ∨ op = 0x00A0 then some (8 + 16 * (leAt p 0 1 % 64))
  else if op = 0x0041 then some (8 + 2 * (leAt p 1 1 % 64))
  else if op = 0x0090 then some (if leAt p 0 4 % 4 = 2 then 16 else 8)
  else if op = 0x00C0 then some (8 + 176)
  else none

/-- Whether every reserved payload bit is 0, the bytes that the row does not name among them (R14, R368); where the external payload is an
image only the inline bytes are the row's. -/
def payloadClear (op : Nat) (inl p : List Byte) : Bool :=
  (payloadWords op p).all (fun w => (leAt p w.1 w.2.1) ||| w.2.2 == w.2.2) &&
  (op != 0x0090 || leAt p 0 4 % 4 != 3) &&
  (match payloadEnd op p with
    | some n => ((if op = 0x0010 ∨ op = 0x0011 ∨ op = 0x0030 then inl else p).drop n).all (fun b => b == 0)
    | none => true)

/-- Whether the header's reserved fields are 0 (R14); on a command that is not critical COUNTER and TAG are 0 where CRIT is 0
(Table 14-5), a critical one without CRIT being check 2's (R363). -/
def headerClear (m : List Byte) (critical : Bool) : Bool :=
  (leAt m 0 4 / 2 ^ 16 % 2 ^ 7 == 0) && (leAt m 0x0C 4 == 0) &&
  (if msgVer m = 1 then !msgCrit m else critical || msgCrit m || (leAt m 0x10 8 == 0 && leAt m 0x18 16 == 0))

/-- The entries of SET_WRITE and PORT_CONFIG. -/
def payloadEntries (p : List Byte) : List (BitVec 16 × BitVec 64) :=
  (List.range (leAt p 0 1 % 64)).map (fun i =>
    (BitVec.ofNat 16 (leAt p (8 + 16 * i) 2), BitVec.ofNat 64 (leAt p (16 + 16 * i) 8)))

/-- The command that an opcode and payload spell; `ext` is the external payload alone (images). -/
def parseCommand (k : Slot) (op : Nat) (p ext : List Byte) : Option Instr :=
  let ctx : BitVec 2 := BitVec.ofNat 2 (leAt p 0 1)
  let w0 := leAt p 0 4
  if op = 0x0001 then some (.devInfo k (BitVec.ofNat 8 w0))
  else if op = 0x0010 then some (.jobLoad k ctx ext)
  else if op = 0x0011 then some (.schedLoad k ctx ext)
  else if op = 0x0012 then some (.jobStart k ctx (BitVec.ofNat 64 (leAt p 8 8)))
  else if op = 0x0013 then some (.jobStop k ctx (BitVec.ofNat 48 (leAt p 8 6)))
  else if op = 0x0020 then some (.snapPolicySet k ctx (p.drop 8))
  else if op = 0x0021 then some (.snapNow k ctx (BitVec.ofNat 48 (leAt p 8 6)))
  else if op = 0x0022 then some (.restore k ctx (BitVec.ofNat 2 (w0 / 16)) (BitVec.ofNat 32 (leAt p 4 4)))
  else if op = 0x0023 then
    some (.partnerSet k (Nat.testBit w0 0) (BitVec.ofNat 20 (leAt p 4 4)) (BitVec.ofNat 64 (leAt p 8 8)))
  else if op = 0x0024 then
    some (.parityGroupSet k (Nat.testBit w0 0) ((List.range 10).map (fun i => BitVec.ofNat 20 (leAt p (4 + 4 * i) 4)))
      (BitVec.ofNat 64 (leAt p 0x30 8)))
  else if op = 0x0030 then some (.fwStage k ext)
  else if op = 0x0031 then some (.fwActivate k (BitVec.ofNat 64 (leAt p 8 8)))
  else if op = 0x0040 then some (.setWrite k (payloadEntries p))
  else if op = 0x0041 then
    some (.setStore k (Nat.testBit w0 0)
      ((List.range (w0 / 256 % 64)).map (fun i => BitVec.ofNat 16 (leAt p (8 + 2 * i) 2))))
  else if op = 0x0050 then some (.keyRotate k (slice p 8 40))
  else if op = 0x0060 then
    some (.faultForce k (BitVec.ofNat 16 w0) (Nat.testBit w0 16) (BitVec.ofNat 8 (w0 / 2 ^ 24)))
  else if op = 0x0070 then
    some (.ctrConfig k (BitVec.ofNat 16 w0) (BitVec.ofNat 3 (w0 / 2 ^ 16)) (Nat.testBit w0 19) (Nat.testBit w0 20)
      (Nat.testBit w0 21) (BitVec.ofNat 10 (leAt p 4 4)))
  else if op = 0x0071 then
    if Nat.testBit w0 0 then some (.ctrFreeze k (BitVec.ofNat 64 (leAt p 8 8)))
    else some (.ctrRelease k (BitVec.ofNat 64 (leAt p 8 8)))
  else if op = 0x0072 then
    some (.traceConfig k (Nat.testBit w0 0) (BitVec.ofNat 64 (leAt p 8 8)) (BitVec.ofNat 64 (leAt p 0x10 8)))
  else if op = 0x0073 then
    if Nat.testBit w0 0 then some (.gstopBeat k (Nat.testBit w0 1)) else some (.gstopSnap k (Nat.testBit w0 1))
  else if op = 0x0074 then some (.scanDump k (BitVec.ofNat 9 w0) (BitVec.ofNat 9 (leAt p 4 4)))
  else if op = 0x0080 then some (.cartEject k)
  else if op = 0x0090 then
    let w4 := leAt p 4 4
    if w0 % 4 = 0 then some (.clkSelectDomain k (BitVec.ofNat 9 w4) (BitVec.ofNat 2 (w4 / 2 ^ 16)))
    else if w0 % 4 = 1 then
      some (.clkSelectRef k (BitVec.ofNat 1 w4) (BitVec.ofNat 4 (w4 / 16)) (BitVec.ofNat 1 (w4 / 256))
        (BitVec.ofNat 4 (w4 / 4096)))
    else if w0 % 4 = 2 then some (.clkSelectBeatDiv k (BitVec.ofNat 18 w4) (BitVec.ofNat 64 (leAt p 8 8)))
    else none
  else if op = 0x00A0 then some (.portConfig k (payloadEntries p))
  else if op = 0x00B0 then
    some (.tableLoad k (BitVec.ofNat 16 w0) (BitVec.ofNat 2 (w0 / 2 ^ 16)) (BitVec.ofNat 48 (leAt p 8 6)) (p.drop 0x10))
  else if op = 0x00C0 then some (.descCreate k ctx (p.drop 8))
  else if op = 0x00C1 then
    let s : BitVec 5 := BitVec.ofNat 5 (w0 / 256)
    let t : BitVec 8 := BitVec.ofNat 8 (w0 / 2 ^ 16)
    if Nat.testBit w0 4 then
      some (.streamArmRearm k ctx s t (BitVec.ofNat 64 (leAt p 8 8)) (BitVec.ofNat 64 (leAt p 0x10 8)))
    else some (.streamArm k ctx s t (BitVec.ofNat 128 (leAt p 8 16)))
  else none

/-! ## Conflict keys (Table 14-7) -/

/-- A conflict key. -/
inductive Key where
  | context (c : Nat)
  | setting (id : Nat)
  | domain (d : Nat)
  | tilePower
  | beat
  | firmware
  | cartridge
  | tables
  | peers
  | counterBlock (b : Nat)
  | observation
  | hostKey
  | sidebandKey
  | source (s : Nat)
  deriving DecidableEq, Repr

/-- ADOPT of a policy header (Table 12-6): bits [3:2] of the word at 0x04. -/
def policyAdopt (p : List Byte) : Nat := field (leAt p 4 4) 2 2

/-- The keys that a command belongs to. -/
def keysOf : Instr → List Key
  | .jobLoad _ c _ => [.context c.toNat]
  | .schedLoad _ c _ => [.context c.toNat]
  | .jobStart _ c _ => [.context c.toNat, .tilePower]
  | .jobStop _ c _ => [.context c.toNat]
  | .snapPolicySet _ c p => .context c.toNat :: (if policyAdopt p = 1 then [.cartridge] else [])
  | .snapNow _ c _ => [.context c.toNat]
  | .restore _ c src _ => .context c.toNat :: (if src = 1 ∨ src = 3 then [.cartridge] else [])
  | .descCreate _ c _ => [.context c.toNat]
  | .streamArm _ c _ _ _ => [.context c.toNat]
  | .streamArmRearm _ c _ _ _ _ => [.context c.toNat]
  | .setWrite _ es =>
    es.map (fun e => .setting e.1.toNat) ++
      (if es.any (fun e => decide (0x30 ≤ e.1.toNat ∧ e.1.toNat ≤ 0x33)) then [.tilePower] else [])
  | .setStore _ all ids =>
    if all then .tilePower :: ((settingIds.filter isStored).map (fun i => .setting i))
    else ids.map (fun i => .setting i.toNat) ++
      (if ids.any (fun i => decide (0x30 ≤ i.toNat ∧ i.toNat ≤ 0x33)) then [.tilePower] else [])
  | .portConfig _ es => es.map (fun e => .setting e.1.toNat)
  | .clkSelectRef _ _ _ _ _ => [.setting 0x0200]
  | .clkSelectDomain _ d _ => .domain d.toNat :: (if d.toNat ≤ 271 then [.tilePower] else [])
  | .clkSelectBeatDiv _ _ _ => [.beat]
  | .fwStage _ _ => [.firmware]
  | .fwActivate _ _ => [.firmware]
  | .cartEject _ => [.cartridge]
  | .tableLoad _ _ _ _ _ => [.tables]
  | .partnerSet _ _ _ _ => [.peers]
  | .parityGroupSet _ _ _ _ => [.peers]
  | .ctrConfig _ b _ _ _ _ _ => [.counterBlock b.toNat]
  | .ctrFreeze _ _ => [.observation]
  | .ctrRelease _ _ => [.observation]
  | .traceConfig _ _ _ _ => [.observation]
  | .gstopSnap _ _ => [.observation]
  | .gstopBeat _ _ => [.observation]
  | .scanDump _ _ _ => [.observation]
  | .keyRotate (.mailbox _) _ => [.hostKey]
  | .keyRotate _ _ => [.sidebandKey]
  | .faultForce _ s _ _ => [.source s.toNat]
  | _ => []

/-! ## Keys, tags and counters (R365, R366) -/

/-- The key of a master: the host key for a mailbox, the sideband key else. -/
def State.keyOf (s : State) : Slot → List Byte
  | .mailbox _ => s.ctl.key0.getD Config.hostKey
  | _ => s.ctl.key1.getD Config.sidebandKey

/-- The TAG that R365 gives a message: 128 bits of HMAC-SHA-256 over the header with TAG 0 and the payloads. -/
def msgMac (key m ext : List Byte) : List Byte :=
  (hmac key (slice m 0 0x18 ++ List.replicate 16 0 ++ slice m 0x28 0x18 ++ payload m ext)).take 16

/-- LAST of a counter space (R366). -/
def State.lastOf (s : State) (x : Nat) : Nat := tget 0 s.ctl.last x

/-- PERS of a counter space. -/
def State.persOf (s : State) (x : Nat) : Nat := tget 0 s.ctl.pers x

/-- The counter c of space x is consumed: PERS is stored first where c reaches PERS + 4,096 (R366, R375). -/
def State.consume (s : State) (x c : Nat) : State :=
  let s1 : State := if s.persOf x + 4096 ≤ c then
    { s with ctl := { s.ctl with pers := tset s.ctl.pers x c, storeCnt := s.ctl.storeCnt + 1 } } else s
  { s1 with ctl := { s1.ctl with last := tset s1.ctl.last x c } }

/-- Whether v1 messages are taken on this slot now (R371): KWAOP_V1_EN as the last dispatch edge found it (Table 14-12). -/
def State.v1Here (s : State) : Slot → Bool
  | .mailbox n => decide (12 ≤ n.toNat) && s.ctl.v1En
  | _ => false

/-- Checks 1 and 2 of R363: the status that refuses the message, or none. -/
def State.checkMsg (s : State) (k : Slot) (m ext : List Byte) : Option Nat :=
  let op := msgOp m
  match kwaopOps.find? (fun e => e.1 == op) with
  | none => some stNOPERM
  | some (_, critical) =>
    let v1 := msgVer m == 1 && s.v1Here k
    let sb := match k with | .mailbox _ => false | _ => true
    if !(msgVer m == 2 || v1) || !headerClear m critical || decide (msgInlineMax m < msgInline m) ||
        !payloadClear op (inlinePayload m) (payload m ext) || (sb && (msgExtAddr m != 0 || msgOutAddr m != 0)) then some stNOPERM
    else if v1 then (if critical then some stAUTH else none)
    else if !critical && !msgCrit m then none
    else if !msgCrit m || slice m 0x18 16 != msgMac (s.keyOf k) m ext then some stAUTH
    else if msgCounter m ≤ s.lastOf (slotSpace k) then some stSTALE
    else none

/-- The message's dispatch is recorded with the edge's beat. -/
def State.markDispatched (s : State) (k : Slot) : State :=
  match getSlot s.ctl.inflight k with
  | some f =>
    { s with ctl := { s.ctl with inflight := putSlot s.ctl.inflight k { f with dispatched := true, beat := s.clk.beatNow } } }
  | none => s

/-- Checks 1 and 2 run on one message: its counter is consumed and its command returned, or its refusal recorded. A v1 message
that passes check 1 sets V1_SEEN, a critical one that AUTH_FAIL refuses too (log 91). -/
def State.checkIn (s0 : State) (k : Slot) (m ext : List Byte) : State × Option Instr :=
  let s := s0.markDispatched k
  match s.checkMsg k m ext with
  | some st => ((if msgVer m = 1 ∧ st = stAUTH then s.orBar 0x10014 8 else s).deny k st, none)
  | none =>
    let s1 := if msgVer m = 1 then s.orBar 0x10014 8
      else if msgCrit m then s.consume (slotSpace k) (msgCounter m) else s
    match parseCommand k (msgOp m) (payload m ext) (extPayload m ext) with
    | some c => (s1, some c)
    | none => (s1.deny k stNOPERM, none)

/-- A command that has passed checks 1 to 3: it runs as the row of its own. -/
def State.makeReady (s : State) (k : Slot) (c : Instr) : State :=
  { s with ctl := { s.ctl with ready := putSlot s.ctl.ready k c } }

/-- Whether a rank 0 action of firmware runs at this edge: a thermal or power reaction, while its condition lasts or the slow level
that it raised is above 0 (R362, Tables 13-3, 16-5, 16-6, log 145). -/
def State.rank0 (s : State) : Bool :=
  decide (95 ≤ s.pwr.tj) || s.pwr.feedHold || s.pwr.coolHold || decide (0 < s.clk.slowPower) || decide (0 < s.clk.slowThermal)

/-- Whether a command meets another at a key: it belongs to it; under Observation CTR_CONFIG meets every other member, and of its own kind
those that name its block (Table 14-7). -/
def touches (c : Instr) (key : Key) : Bool :=
  (keysOf c).contains key || (match key, c with
    | .observation, .ctrConfig .. => true
    | .counterBlock _, _ => (keysOf c).contains .observation
    | _, _ => false)

/-- The rank that wins a key among the commands of an edge, in rank order. -/
def winner (rank0 : Bool) (cs : List (Slot × Instr)) (key : Key) : Option (Nat × Option Slot) :=
  if rank0 && key == .tilePower then some (0, none)
  else match cs.find? (fun p => touches p.2 key) with
    | some p => some (slotRank p.1, some p.1)
    | none => none

/-- The lowest rank that beats a command for a key it belongs to, if any (R364). -/
def beatenBy (rank0 : Bool) (cs : List (Slot × Instr)) (p : Slot × Instr) : Option Nat :=
  ((keysOf p.2).filterMap (fun key =>
    match winner rank0 cs key with
    | some (r, w) => if w = some p.1 then none else some r
    | none => none)).foldl (fun acc r => some (match acc with | some a => min a r | none => r)) none

/-- The conflict test on the commands of an edge, in rank order. -/
def State.resolve (s : State) (cs : List (Slot × Instr)) : State :=
  cs.foldl (fun s p => match beatenBy s.rank0 cs p with
    | some r => s.denyAt p.1 stSUPERSEDED r
    | none => s.makeReady p.1 p.2) s

/-- The slots in rank order (R362). -/
def rankOrder : List Slot := [.sideband, .poker] ++ (List.range 16).map (fun n => .mailbox (BitVec.ofNat 4 n))

/-- The external payload that DMA brought for a slot. -/
def dmaOf (dma : List (Slot × List Byte)) (k : Slot) : List Byte := (getSlot dma k).getD []

/-- The messages due at this edge, in rank order: posted in an earlier beat and not dispatched (R362). -/
def State.due (s : State) : List (Slot × Inflight) :=
  rankOrder.filterMap (fun k => match getSlot s.ctl.inflight k with
    | some f => if !f.dispatched && decide (f.beat < s.clk.beatNow) then some (k, f) else none
    | none => none)

/-- Keys delivered by KEY_ROTATE check the messages of the edges after it (R367), and KWAOP_V1_EN acts from then on (Table 14-12). -/
def State.promoteKeys (s : State) : State :=
  let c := s.ctl
  { s with ctl := { c with
      key0 := match c.nextKey0 with | some k => some k | none => c.key0
      key1 := match c.nextKey1 with | some k => some k | none => c.key1
      nextKey0 := none, nextKey1 := none, v1En := s.setting 0x0050 == 1 } }

/-- Dispatch at an edge (R362 to R364). -/
def State.dispatch (s0 : State) (dma : List (Slot × List Byte)) : State :=
  let s := s0.promoteKeys
  let r := s.due.foldl (fun (a : State × List (Slot × Instr)) p =>
    let q := a.1.checkIn p.1 p.2.msg (dmaOf dma p.1)
    (q.1, match q.2 with | some c => a.2 ++ [(p.1, c)] | none => a.2)) (s, [])
  r.1.resolve r.2

/-- The external payload of a message that is dispatched at once, as its DMA reads it: bytes of host memory, which are open (log 146). -/
def State.dmaNow (s : State) (m : List Byte) : List Byte := (List.range (msgExtLen m)).map (Config.freeByte s.free)

/-- A message posted: DEV_INFO is dispatched at once, any other at the next edge (R362). -/
def State.post (s : State) (k : Slot) (m : List Byte) : State :=
  let s1 : State := { s with ctl := { s.ctl with
    inflight := putSlot s.ctl.inflight k (inflightOf m s.clk.beatNow), results := delSlot s.ctl.results k } }
  if msgOp m = 1 then
    let q := (if msgExtAddr m = 0 then s1 else s1.draw).checkIn k m (s1.dmaNow m)
    match q.2 with | some c => q.1.makeReady k c | none => q.1
  else s1

/-! ## The response (R359, R361, Table 14-6) -/

/-- The 1,024 bytes of the response area. Data above 992 bytes goes to OUT_ADDR and is not inline. -/
def response (f : Inflight) (r : Reply) : List Byte :=
  let data := if r.data.length ≤ 992 then r.data else []
  slice (leBytes 2 r.status ++ leBytes 2 f.op ++ leBytes 4 f.tag ++ leBytes 4 r.data.length ++ leBytes 4 r.detail ++
    leBytes 8 f.beat ++ leBytes 8 0 ++ data) 0 1024

/-- Whether reply data of n bytes can be returned for a slot (R361). -/
def State.fits (s : State) (k : Slot) (n : Nat) : Bool :=
  decide (n ≤ 992) || (match getSlot s.ctl.inflight k with
    | some f => f.outAddr != 0 && decide (n ≤ f.outLen)
    | none => false)

/-- Reply OK with data, or NOT_PERMITTED where the data has no room (R361). -/
def State.okFits (s : State) (k : Slot) (data : List Byte) : State :=
  if s.fits k data.length then s.okData k data else s.deny k stNOPERM

/-- Mailbox states: 0 IDLE, 1 BUSY, 2 DONE. -/
def State.mbState (s : State) (n : Nat) : Nat := tget 0 s.ctl.mbState n

/-- The state of mailbox n changed. -/
def State.setMb (s : State) (n st : Nat) : State :=
  { s with ctl := { s.ctl with mbState := tset s.ctl.mbState n st } }

/-- The lower-case hexadecimal digits of bytes, as ASCII. -/
def hexText (l : List Byte) : List Byte :=
  l.flatMap (fun b => [b.toNat / 16, b.toNat % 16].map (fun d => BitVec.ofNat 8 (if d < 10 then 48 + d else 87 + d)))

/-- ASCII text as bytes. -/
def ascii (t : String) : List Byte := t.toList.map (fun c => BitVec.ofNat 8 c.toNat)

/-- The poker's prompt (R377). -/
def prompt : List Byte := ascii "poker> "

end Sys2Proof.Machine
end

