-- ==== Sys2Proof/Machine/Bay.lean ====
section
/-! DEFINITION. The cartridge bay (R207 to R209, R316, R319 to R321, R351, R353, R376): insertion, the header, the life record,
ejects, removals and the latch. -/

namespace Sys2Proof.Machine

/-! ## The life record (Table 08-4) -/

/-- DAYS_LEFT. -/
def daysLeft (k : Cartridge) : Nat :=
  if k.rate7d = 0 then 0xFFFFFFFF
  else min 0xFFFFFFFF ((ratedBytes k.ctype.toNat - k.bytesWritten) / (k.rate7d.toNat * 10 ^ 6 * 86400))

/-- The 32 bytes of the life record. An empty bay reads STATE 4 and zeros. -/
def lifeBytes : Option Cartridge → List Byte
  | none => leBytes 4 0x400 ++ leBytes 28 0
  | some k => leBytes 4 (usedBp k * 65536 + lifeState k * 256 + k.ctype.toNat) ++ leBytes 4 k.spareBp.toNat ++
      leBytes 8 k.bytesWritten ++ leBytes 8 (ratedBytes k.ctype.toNat) ++ leBytes 4 k.rate7d.toNat ++ leBytes 4 (daysLeft k)

/-- The 52 bytes of the header (Table 12-4); a header whose CRC fails holds another CRC. -/
def headerBytes (k : Cartridge) : List Byte :=
  let h := leBytes 4 k.magic.toNat ++ leBytes 4 k.ctype.toNat ++ leBytes 8 k.serial.toNat ++ leBytes 8 k.lastModule.toNat ++
    leBytes 4 k.devid.toNat ++ leBytes 4 (k.cluster.toNat * 65536) ++ leBytes 8 k.imageHash.toNat ++
    leBytes 8 (if k.head = 0 then 0 else ((k.log[k.head - 1]?).map recordAt).getD 0)
  h ++ leBytes 4 (crc32c h ^^^ (if k.headerOk then 0 else 1)).toNat

/-! ## Insertion (R316) -/

/-- The generation of the record at HEAD, as GEN_CART shows it. -/
def headGen (k : Cartridge) : Nat := if k.head = 0 then 0 else ((k.log[k.head - 1]?).map (fun r => r.gen.toNat)).getD 0

/-- CART_STATE of a header (Table 12-5a). A worn cartridge is read-only whoever wrote it (R209, log 35). -/
def headerState (k : Cartridge) : Nat :=
  if k.magic ≠ 0x454D4243 then (if lifeState k = 3 then 4 else 3)
  else if !k.headerOk || !(k.ctype == 1 || k.ctype == 2) then 7
  else if lifeState k = 3 then 4
  else if k.lastModule = Config.serial then 1 else 2

/-- The life record of the cartridge area of BAR0 (R208). -/
def State.showLife (s : State) (k : Cartridge) : State :=
  (List.range 8).foldl (fun (s : State) i => s.setBar (0x50020 + 4 * i) (BitVec.ofNat 32 (leAt (lifeBytes (some k)) (4 * i) 4))) s

/-- The header read: CART_STATE, GEN_CART, the life record; the first generation written is a base. -/
def State.readHeader (s : State) : State :=
  match s.ember.cart with
  | none => s
  | some k =>
    let s1 : State := { s with ember := { s.ember with cartRead := true, cartBase := true, cartGone := false } }
    ((s1.showLife k).setIo 0x3010 (BitVec.ofNat 32 (if headerState k = 3 ∨ headerState k = 7 then 0 else headGen k))).setCartState (headerState k)

/-- CART_INSERT into an empty bay. -/
def execCartInsert (c : Cartridge) (s : State) : Host.Outcome State Fault Refusal :=
  ok (if s.ember.cart.isSome then s
    else { s with ember := { s.ember with cart := some c, cartRead := false, cartGone := false, adoptDue := none } })

/-- CART_HEADER_READ, where an insertion waits for it and the mantel runs. -/
def execCartHeaderRead (s : State) : Host.Outcome State Fault Refusal :=
  ok (if s.ember.cart.isSome && !s.ember.cartRead && decide (3 ≤ s.pwr.stage) then s.readHeader else s)

/-- CARTRIDGE_LIFE_UPDATE (R208, R209): the record with its new rate and spares; a change of STATE is reported, and WORN shows
in CART_STATE. -/
def State.lifeUpdate (s : State) (rate7d : BitVec 32) (spareBp : BitVec 16) : State :=
  match s.ember.cart with
  | none => s
  | some k =>
    let k1 : Cartridge := { k with rate7d := rate7d, spareBp := spareBp }
    let old := getField (s.bar 0x50020) 8 8
    let s1 := s.editCart (fun _ => k1)
    let s2 := s1.showLife k1
    let worn := lifeState k1 == 3 && decide (1 ≤ s2.ember.cartState ∧ s2.ember.cartState ≤ 3)
    if worn then s2.dropCartWrites.setCartState 4
    else if lifeState k1 ≠ old then s2.report (srcId 3 0x182) (BitVec.ofNat 32 s2.ember.cartState) else s2

/-- CARTRIDGE_LIFE_UPDATE. -/
def execCartridgeLifeUpdate (rate7d : BitVec 32) (spareBp : BitVec 16) (s : State) : Host.Outcome State Fault Refusal :=
  ok (s.lifeUpdate rate7d spareBp)

/-! ## Ejects (R320, R351) -/

/-- Whether the bay holds a cartridge that is not released. -/
def State.cartHeld (s : State) : Bool := s.ember.cart.isSome && !s.ember.cartGone

/-- CART_EJECT: the reply waits for READY. -/
def State.cartEject (s : State) (k : Slot) : State :=
  if !s.cartHeld then s.deny k stABSENT
  else if s.drainReads then s.deny k stBUSY
  else if s.ember.cartState = 6 then s.ok k
  else
    let s1 := s.wait k (.cartEject k)
    if s.ember.cartState = 5 then s1 else s1.beginEject

/-- CART_EJECT. -/
def execCartEject (slot : Slot) (s : State) : Host.Outcome State Fault Refusal := ok (s.cartEject slot)

/-- The slots whose CART_EJECT waits, answered. -/
def State.answerEjects (s : State) (f : State → Slot → State) : State :=
  (s.ctl.waiting.filter (fun p => match p.2 with | .cartEject _ => true | _ => false)).foldl (fun s p => f s p.1) s

/-- CART_READY: within 10 ms of EJECTING the bay is released. -/
def execCartReady (s : State) : Host.Outcome State Fault Refusal :=
  ok (if s.ember.cartState = 5 then ((s.setCartState 6).emit .bayReleased).answerEjects (fun s k => s.ok k) else s)

/-- A short press of ATTN (R351): ATTN_CNT; an eject, which waits for a drain that reads the cartridge; three fast flashes
where the bay is empty; nothing while an eject is pending; ignored before
stage 8 of kindling (R424). -/
def State.attnPress (s0 : State) : State :=
  let s : State := { ((s0.bumpBar 0x50004 1).orBar 0x50000 1) with flt := { s0.flt with attnDown := false, flashes := !s0.cartHeld } }
  if s0.pwr.stage < 8 then s0
  else if !s.cartHeld || s.ember.cartState = 5 || s.ember.cartState = 6 || s.ember.ejectWait then s
  else if s.drainReads then { s with ember := { s.ember with ejectWait := true } }
  else s.beginEject

/-- ATTN_PRESS. -/
def execAttnPress (s : State) : Host.Outcome State Fault Refusal := ok s.attnPress

/-! ## Removals (R321, R353, R423) -/

/-- A surprise removal begins: SURPRISE, its count; the write in progress is dropped. -/
def State.surprise (s : State) : State :=
  let s1 := (s.dropCartWrites.orIo 0x3000 0x4000).bumpIo 0x3028 1
  { s1 with ember := { s1.ember with cartGone := true, ejectWait := false } }

/-- The bay is empty; a CART_EJECT that still waits has no cartridge left. -/
def State.bayEmpty (s : State) : State :=
  let s1 : State := { s with ember := { s.ember with cart := none, cartRead := false, cartGone := false, ejectWait := false } }
  ((s1.setIo 0x3010 0).setCartState 0).answerEjects (fun s k => s.deny k stABSENT)

/-- SURPRISE_REMOVAL: the cartridge leaves in a state other than READY, after kindling; its opened latch may have begun it. -/
def execSurpriseRemoval (s : State) : Host.Outcome State Fault Refusal :=
  ok (if s.ember.cart.isNone || s.ember.cartState = 6 || decide (s.pwr.stage < 8) then s
    else if s.ember.cartGone then s.bayEmpty
    else
      let s1 := s.surprise.bayEmpty
      if s.ember.cartState = 0 then s1.report (srcId 3 0x182) 0 else s1)

/-- CART_REMOVED: the cartridge leaves in READY, or during kindling. -/
def execCartRemoved (s : State) : Host.Outcome State Fault Refusal :=
  ok (if s.ember.cart.isSome && (s.ember.cartState == 6 || decide (s.pwr.stage < 8)) then s.dropCartWrites.bayEmpty else s)

/-- LATCH_OPEN: while not READY it starts a surprise removal, reported as CART with the state that stands. -/
def execLatchOpen (s : State) : Host.Outcome State Fault Refusal :=
  let s1 : State := { s with flt := { s.flt with latchOpen := true } }
  ok (if s.flt.latchOpen || !s.cartHeld || s.ember.cartState = 6 || decide (s.pwr.stage < 8) then s1
    else s1.surprise.report (srcId 3 0x182) (BitVec.ofNat 32 s.ember.cartState))

/-- LATCH_CLOSE: a cartridge that the open latch had given up is read again, as if inserted (log 36). -/
def execLatchClose (s : State) : Host.Outcome State Fault Refusal :=
  let s1 : State := { s with flt := { s.flt with latchOpen := false } }
  ok (if s1.ember.cartGone then { s1 with ember := { s1.ember with cartRead := false, cartGone := false } } else s1)

end Sys2Proof.Machine
end

