-- ==== Sys2Proof/Machine/Settings.lean ====
section
/-! DEFINITION. Settings (R373 to R375): ranges, joint rules, SET_WRITE, SET_STORE, and the commands on keys (R367). -/

namespace Sys2Proof.Machine

/-- IDs that SET_WRITE may name: those of Table 14-12 not marked PORT_CONFIG or CLK_SELECT. -/
def isSetWrite (id : Nat) : Bool := settingIds.contains id && decide (id < 0x0100)

/-- IDs of PORT_CONFIG items (Table 14-13). -/
def isPortItem (id : Nat) : Bool := settingIds.contains id && decide (0x0100 ≤ id ∧ id ≤ 0x0161)

/-- A value that means none (Table 14-13). -/
def noneValue : Nat := 0xFFFFFFFFFFFFFFFF

/-- A link configuration of Table 11-1, coded as CH_STATUS: RATE [2:0], NLINK [5:4], FEC [7:6]. -/
def linkConfigOk (v : Nat) : Bool :=
  let rate := field v 0 3
  let nlink := field v 4 2
  let fec := field v 6 2
  decide (v < 256) && !Nat.testBit v 3 &&
  (if rate = 1 then nlink == 1 && decide (fec ≤ 1)
   else decide (2 ≤ rate ∧ rate ≤ 4) && nlink != 2 && fec == 2)

/-- The range of a setting by itself (Tables 14-12, 14-13, 11-10). -/
def settingRange (id v : Nat) : Bool :=
  if id = 0x0001 then decide (8 ≤ v ∧ v ≤ 16)
  else if id = 0x0002 ∨ id = 0x0044 ∨ id = 0x0050 ∨ id = 0x0104 then decide (v ≤ 1)
  else if id = 0x0010 then v % 65536 == 0 && decide (v + 2 ^ 34 ≤ 2 ^ 42)
  else if id = 0x0011 then decide (v ≤ 3)
  else if id = 0x0020 then decide (1 ≤ v ∧ v ≤ 168)
  else if id = 0x0021 then decide (1 ≤ v ∧ v ≤ 64)
  else if id = 0x0030 then decide (v ≤ 15)
  else if id = 0x0031 then decide (100 ≤ v ∧ v ≤ 100000)
  else if id = 0x0032 ∨ id = 0x0033 then decide (600 ≤ v ∧ v ≤ 1800)
  else if id = 0x0040 then decide (1 ≤ v ∧ v ≤ 1000)
  else if id = 0x0041 then decide (v ≤ 0x7FFE)
  else if id = 0x0042 then decide (1 ≤ v ∧ v ≤ 0xE)
  else if id = 0x0043 then decide (1 ≤ v ∧ v ≤ 1440)
  else if id = 0x0051 then decide (v ≤ 2)
  else if id = 0x0052 then decide (9600 ≤ v ∧ v ≤ 3000000)
  else if id = 0x0100 ∨ id = 0x0101 then decide (v < 2 ^ 20)
  else if id = 0x0102 then decide (1 ≤ v ∧ v ≤ 1048576)
  else if id = 0x0103 then decide (v < 2 ^ 16)
  else if id = 0x0111 ∨ id = 0x0113 then decide (v < 2 ^ 44)
  else if id = 0x0114 ∨ id = 0x0115 then decide (v < 2 ^ 12)
  else if id = 0x0120 then decide (1024 ≤ v ∧ v ≤ 65535)
  else if id = 0x0121 ∨ id = 0x0122 then decide (v ≤ 63)
  else if id = 0x0130 ∨ id = 0x0131 then linkConfigOk v
  else if id = 0x0140 then decide (1500 ≤ v ∧ v ≤ 9216)
  else if id = 0x0141 then decide (v ≤ 4094)
  else if id = 0x0142 then decide (v < 256) && decide (((List.range 8).filter (fun i => Nat.testBit v i)).length ≤ 2)
  else if id = 0x0150 then decide (v < 2 ^ 20) || v == noneValue
  else if id = 0x0151 then decide (v ≤ 1023)
  else if id = 0x0152 then decide (v < 2 ^ 21) || v == noneValue
  else if id = 0x0154 ∨ id = 0x0155 then decide (-10000 ≤ signed 64 v ∧ signed 64 v ≤ 10000)
  else if id = 0x0160 then decide (5 ≤ v ∧ v ≤ 5000)
  else if id = 0x0161 then decide (1 ≤ v ∧ v ≤ 1000)
  else settingIds.contains id

/-- Entries of SET_WRITE or PORT_CONFIG as numbers. -/
def entryNats (es : List (BitVec 16 × BitVec 64)) : List (Nat × Nat) := es.map (fun e => (e.1.toNat, e.2.toNat))

/-- The settings after every entry is applied; a later entry for one item wins (R374). -/
def State.withEntries (s : State) (es : List (Nat × Nat)) : State :=
  es.foldl (fun s e => s.putSetting e.1 (BitVec.ofNat 64 e.2)) s

/-- The joint rules of R374: the items each joins, and whether it holds. A rule over an unset item holds. -/
def State.jointRules (s : State) : List (List Nat × Bool) :=
  let differ := fun (l : List (Nat × Nat)) =>
    l.any (fun p => match s.settingOpt p.1, s.settingOpt p.2 with
      | some a, some b => a != b
      | none, none => false
      | _, _ => true) ||
    l.any (fun p => (s.settingOpt p.1).isNone || (s.settingOpt p.2).isNone)
  [([0x0032, 0x0033], decide (s.setting 0x0032 ≤ s.setting 0x0033)),
   ([0x0101, 0x0102], match s.settingOpt 0x0101, s.settingOpt 0x0102 with
      | some b, some n => decide (b + n ≤ 2 ^ 20)
      | _, _ => true),
   ([0x0100, 0x0104], match s.settingOpt 0x0100 with
      | some d => s.setting 0x0104 != 0 || (d != 0 && d != 0xFFFFF)
      | none => true),
   ([0x0110, 0x0111, 0x0112, 0x0113], differ [(0x0110, 0x0112), (0x0111, 0x0113)]),
   ([0x0114, 0x0115], differ [(0x0114, 0x0115)])]

/-- The smallest of a list of numbers. -/
def least : List Nat → Option Nat
  | [] => none
  | a :: r => match least r with | some b => some (min a b) | none => some a

/-- The DETAIL of a refusal under R374, or none where the command may be applied. -/
def State.entriesRefused (s : State) (es : List (Nat × Nat)) (allowed : Nat → Bool) : Option Nat :=
  match indexOf (fun e => !(allowed e.1 && settingRange e.1 e.2)) es 0 with
  | some i => some i
  | none =>
    least (((s.withEntries es).jointRules).filterMap (fun r =>
      if r.2 then none else indexOf (fun e => r.1.contains e.1) es 0))

/-! ## The damper's level (R235, R236) -/

/-- EFF_LVL. -/
def State.effLvl (s : State) : Nat := getField (s.bar 0x40028) 8 4

/-- EFF_LVL and FAST_ACT follow the levels; a change of EFF_LVL is sent to all 272 firebox domains with the tick at which it applies, from 16
to 31 ticks on (R236, log 117). -/
def State.showDamper (s : State) : State :=
  let n := max s.clk.fastLevel (getField (s.bar 0x40028) 16 4)
  let s1 := (s.barField 0x40028 8 4 n).barField 0x40028 0 1 (bnat s.clk.fastOn)
  if n = s.effLvl then s1
  else
    let m : LevelMsg := { level := n, tick := s.clk.ticks + 16 + (Config.freeWord s.free).toNat % 16 }
    ({ s1 with clk := { s1.clk with levels := tpush m 272 0 s1.clk.levels, lvlSent := s1.clk.lvlSent + 1 } } : State).draw

/-- A slow level that firmware has written takes effect at a beat edge (R235). -/
def State.takeSlow (s : State) : State :=
  match s.clk.slowNext with
  | some n => (({ s with clk := { s.clk with slowNext := none } } : State).barField 0x40028 16 4 n).showDamper
  | none => s

/-- FAST_LVL written: at once, also for a fast level that is in force (Table 14-12); one that already falls goes on from where it is. -/
def State.fastWritten (s : State) (v : Nat) : State :=
  let s1 := s.barField 0x40028 12 4 v
  if s.clk.fastOn ∧ !s.clk.fastDecay then ({ s1 with clk := { s1.clk with fastLevel := v } } : State).showDamper else s1

/-- Whether a message came by a mailbox, as those of host software do. -/
def isMailbox : Slot → Bool
  | .mailbox _ => true
  | _ => false

/-- What a setting written does at once (Table 14-12): FAST_LVL acts in DAMP_STATUS, and REMOVE_OK grants a removal
that was requested, where host software writes it, while every context is IDLE or STOPPED and no restore or drain runs (R352). -/
def State.settingWritten (s : State) (k : Slot) (busy : Bool) (e : Nat × Nat) : State :=
  if e.1 = 0x0030 then s.fastWritten e.2
  else if e.1 = 0x0044 ∧ e.2 = 1 ∧ isMailbox k ∧ s.barBit 0x20000 0 ∧ !s.anyRunning ∧ !busy then (s.orBar 0x20000 2).cause 1
  else s

/-- The entries that are applied: of two that name one item the later (R374). -/
def lastEntries : List (Nat × Nat) → List (Nat × Nat)
  | [] => []
  | e :: l => if l.any (fun x => x.1 == e.1) then lastEntries l else e :: lastEntries l

/-- SET_WRITE (R374). A change of the BAR2 window replies once every access received before it has completed (R212). `busy` says whether a restore or a drain is in progress. -/
def State.setWrite (s : State) (k : Slot) (es : List (Nat × Nat)) (busy : Bool) : State :=
  if es.length = 0 ∨ 32 < es.length then s.deny k stNOPERM
  else match s.entriesRefused es isSetWrite with
    | some i => s.denyAt k stNOPERM i
    | none =>
      let s1 := (lastEntries es).foldl (fun s e => s.settingWritten k busy e) (s.withEntries es)
      if es.any (fun e => e.1 == 0x0010 || e.1 == 0x0011) && !s1.mem.heldHost.isEmpty then
        ({ s1 with mem := { s1.mem with heldHost := s1.mem.heldHost.map (fun h => { h with awaited := h.awaited ++ [k] }) } } : State).wait k
          (.setWrite k (es.map (fun e => (BitVec.ofNat 16 e.1, BitVec.ofNat 64 e.2))))
      else s1.ok k

/-- SET_STORE (R375): BUSY within 4 s of the previous one; a setting not marked Stored is refused (log 22). -/
def State.setStore (s : State) (k : Slot) (all : Bool) (ids : List Nat) : State :=
  if 32 < ids.length ∨ (!all && ids.any (fun i => !(settingIds.contains i && isStored i))) then s.deny k stNOPERM
  else if (match s.ctl.storeTick with
      | some t => decide (s.clk.ticks < t + 4 * ticksPerSecond)
      | none => false) then s.deny k stBUSY
  else
    let names := if all then settingIds.filter isStored else ids
    let st := names.foldl (fun m i => match s.settingOpt i with
      | some v => tset m i (BitVec.ofNat 64 v)
      | none => tdel m i) s.ctl.stored
    let n := s.ctl.storeCnt + 1
    ({ s with ctl := { s.ctl with stored := st, storeCnt := n, storeTick := some s.clk.ticks } } : State).okData k
      (leBytes 4 n.toNat)

/-- At kindling every setting takes its stored value, or its default if it was never stored (R375). -/
def State.loadSettings (s : State) : State :=
  let s1 : State := { s with ctl := { s.ctl with settings := s.ctl.stored } }
  { s1 with ctl := { s1.ctl with v1En := s1.setting 0x0050 == 1 } }

/-- KEY_ROTATE (R367): the master's key is replaced, for messages dispatched from the next edge on; the setting store holds it, which
STORE_CNT counts (R375). -/
def State.keyRotate (s : State) (k : Slot) (wrapped : List Byte) : State :=
  match aesUnwrap (s.keyOf k) wrapped with
  | some key =>
    if wrapped.length = 40 then
      (match k with
        | .mailbox _ => ({ s with ctl := { s.ctl with nextKey0 := some key, storeCnt := s.ctl.storeCnt + 1 } } : State)
        | _ => ({ s with ctl := { s.ctl with nextKey1 := some key, storeCnt := s.ctl.storeCnt + 1 } } : State)).ok k
    else s.deny k stAUTH
  | none => s.deny k stAUTH

end Sys2Proof.Machine
end

