-- ==== Sys2Proof/Machine/Clock.lean ====
section
/-! DEFINITION. The reference tick, the beat's length, time transfer and the dampers (R216 to R219, R229 to R237, R277, R278,
R408). -/

namespace Sys2Proof.Machine

/-! ## Reference sources (R216 to R219) -/

/-- The number of a source, in order of preference. -/
def srcNum : RefSource → Nat
  | .pri => 0
  | .alt => 1
  | .xo => 2

/-- The bit of REF_STATUS that judges a source stable. -/
def stableBit (n : Nat) : Nat := if n = 0 then 9 else if n = 1 then 10 else 11

/-- The most preferred stable source; XO, in holdover, where no recovered one is. -/
def State.bestSource (s : State) : Nat := if s.barBit 0x40020 9 then 0 else if s.barBit 0x40020 10 then 1 else 2

/-- The time parent: DEVID, and the chimney that carries the exchanges (Table 11-10, log 43). -/
def State.timeParent (s : State) : Option (Nat × Nat) :=
  let v := s.setting 0x0152
  if v = 0xFFFFFFFFFFFFFFFF then none else some (v % 2 ^ 20, v / 2 ^ 20 % 2)

/-- REF_MODE and the lane fields follow the source in use: REF_MODE stays 3 until the first completed exchange, or, without a
time parent, until a recovered source is stable (R230). -/
def State.showSource (s : State) : State :=
  let n := s.clk.src
  let v := s.setting 0x0200
  let was := getField (s.bar 0x40020) 0 2
  let mode := if was = 3 ∧ ((s.timeParent.isSome ∧ !s.clk.everAligned) ∨ n = 2) then 3 else n
  let port := if n = 0 then field v 0 1 else if n = 1 then field v 8 1 else 0
  let lane := if n = 0 then field v 4 4 else if n = 1 then field v 12 4 else 0
  ((s.barField 0x40020 0 2 mode).barField 0x40020 19 1 port).barField 0x40020 20 4 lane

/-- A move to another source: counted and reported; by a loss it sets REF_LOSS; a move to XO enters holdover. -/
def State.moveSource (s : State) (n : Nat) (byLoss : Bool) : State :=
  if n = s.clk.src then s
  else
    let s1 := ({ s with clk := { s.clk with src := n } } : State).bumpBar 0x4002C 1
    let s2 := if byLoss then s1.orBar 0x40020 0x100 else s1
    let s3 := if n = 2 then s2.bumpBar 0x40030 1 else s2
    s3.showSource.reportCorr 0x190 (s3.bar 0x4002C)

/-- A source loses its judgement; the source in use is left for the next stable one. -/
def State.loseSource (s : State) (n : Nat) : State :=
  let s1 := s.andnBar 0x40020 (BitVec.ofNat 32 (2 ^ stableBit n))
  if n = s.clk.src then s1.moveSource s1.bestSource true else s1

/-- REFERENCE_SOURCE_LOSS: of the source in use. -/
def execReferenceSourceLoss (s : State) : Host.Outcome State Fault Refusal :=
  ok (if s.clk.started then s.loseSource s.clk.src else s)

/-- SOURCE_LOSS of a named source. -/
def execSourceLoss (src : RefSource) (s : State) : Host.Outcome State Fault Refusal :=
  ok (if s.clk.started then s.loseSource (srcNum src) else s)

/-- SOURCE_STABLE: judged stable, and returned to where it is more preferred (R218). -/
def execSourceStable (src : RefSource) (s : State) : Host.Outcome State Fault Refusal :=
  let s1 := s.orBar 0x40020 (BitVec.ofNat 32 (2 ^ stableBit (srcNum src)))
  ok (if !s.clk.started then s
    else if s1.bestSource < s1.clk.src then s1.moveSource s1.bestSource false
    else s1.showSource)

/-- CLK_SELECT, KIND 1 (R216): equal ports and lanes above 7 are refused. A source that is now another lane is judged anew. -/
def State.selectRef (s : State) (k : Slot) (rp rl ap al : Nat) : State :=
  if rp = ap ∨ 7 < rl ∨ 7 < al then s.deny k stNOPERM
  else
    let old := s.setting 0x0200
    let v := rp + 16 * rl + 256 * ap + 4096 * al
    let s1 := s.putSetting 0x0200 (BitVec.ofNat 64 v)
    let drop := fun (s : State) (n : Nat) (changed : Bool) =>
      if changed then s.andnBar 0x40020 (BitVec.ofNat 32 (2 ^ stableBit n)) else s
    let s2 := drop (drop s1 0 (field old 0 8 != field v 0 8)) 1 (field old 8 8 != field v 8 8)
    (s2.moveSource s2.bestSource false).showSource.ok k

/-- CLK_SELECT, KIND 1. -/
def execClkSelectRef (slot : Slot) (refPort : BitVec 1) (refLane : BitVec 4) (altPort : BitVec 1) (altLane : BitVec 4)
    (s : State) : Host.Outcome State Fault Refusal :=
  ok (s.selectRef slot refPort.toNat refLane.toNat altPort.toNat altLane.toNat)

/-- CLK_SELECT, KIND 2 (R229). -/
def State.selectBeatDiv (s : State) (k : Slot) (d bEff : Nat) : State :=
  if s.barBit 0x40010 31 then s.deny k stBUSY
  else if d < 320 ∨ 163840 < d ∨ bEff < s.clk.beatNow + 16 then s.deny k stNOPERM
  else ((s.setBar 0x40010 (BitVec.ofNat 32 (2 ^ 31 + d))).setBar64 0x40018 bEff).ok k

/-- CLK_SELECT, KIND 2. -/
def execClkSelectBeatDiv (slot : Slot) (d : BitVec 18) (bEff : BitVec 64) (s : State) : Host.Outcome State Fault Refusal :=
  ok (s.selectBeatDiv slot d.toNat bEff.toNat)

/-! ## Time transfer (R230 to R232, R277, R278) -/

/-- BEAT_DIV. -/
def State.beatDiv (s : State) : Nat := (s.bar 0x4000C).toNat

/-- A TIME payload (Table 11-5). -/
def timePayload (msg bdiv tseq ts pbeat : Nat) : List Byte :=
  beBytes 4 (msg * 2 ^ 30 + bdiv) ++ beBytes 4 (tseq % 65536) ++ beBytes 8 ts ++ beBytes 8 pbeat

/-- TSEQ of a TIME payload. -/
def timeSeq (p : List Byte) : Nat := beAt p 6 2

/-- MSG. -/
def timeMsg (p : List Byte) : Nat := field (beAt p 0 4) 30 2

/-- A timestamp's beat, phase and 1/64 ticks (R278). -/
def tsParts (t : Nat) : Nat × Nat × Nat := (t / 2 ^ 24 % 2 ^ 40, t / 64 % 2 ^ 18, t % 64)

/-- The difference a − b of two timestamps in 1/64 ticks. -/
def State.tsDiff (s : State) (a b : Nat) : Int :=
  let x := tsParts a
  let y := tsParts b
  let beats := signed 40 (x.1 + 2 ^ 40 - y.1)
  64 * (beats * s.beatDiv + ((x.2.1 : Int) - y.2.1)) + ((x.2.2 : Int) - y.2.2)

/-- TIME_EXCHANGE_START: SYNC to a child. The chimney is the one that the child's exchanges use, which the parent is not told:
open (log 44). -/
def execTimeExchangeStart (child : BitVec 20) (t1 : W64) (s : State) : Host.Outcome State Fault Refusal :=
  let s1 : State := { s with clk := { s.clk with tseq := (s.clk.tseq + 1) % 65536 } }
  ok (if s.portsUp && s.clk.started then
      s1.draw.sendOn (bnat (Config.freeBool s1.free)) child.toNat 1 (timePayload 0 s.beatDiv s1.clk.tseq t1.toNat s.clk.beatNow)
    else s)

/-- An exchange dropped and counted in UAD_CNT_TTDROP. -/
def State.dropExchange (s : State) : State :=
  { s with clk := { s.clk with exch := none } }.bumpIo 0x202C 1

/-- SYNC from the time parent: DREQ goes back on its chimney. -/
def State.syncArrives (s : State) (f : Frame) (t2 t3 : Nat) : State :=
  match s.timeParent with
  | none => s
  | some (d, ch) =>
    let p := f.payload
    if timeMsg p ≠ 0 ∨ f.src ≠ d ∨ !s.clk.started then s
    else if field (beAt p 0 4) 0 18 ≠ s.beatDiv then s.dropExchange
    else
      let e : TimeExch := { tseq := timeSeq p, t1 := beAt p 8 8, t2 := t2, t3 := t3, pbeat := some (beAt p 16 8) }
      ({ s with clk := { s.clk with exch := some e } } : State).sendOn ch d 1 (timePayload 1 0 e.tseq 0 0)

/-- SYNC. -/
def execSyncFrame (chimney : BitVec 1) (frame : List Byte) (t2 t3 : W64) (s : State) : Host.Outcome State Fault Refusal :=
  let r := s.admitFrame chimney.toNat 1 frame
  ok (if s.snapHalted then s.holdFrame (.syncFrame chimney frame t2 t3) else match r.2 with | some f => r.1.syncArrives f t2.toNat t3.toNat | none => r.1)

/-- DREQ: RESP goes back with t4, on the chimney it came by. -/
def execDreqFrame (chimney : BitVec 1) (frame : List Byte) (t4 : W64) (s : State) : Host.Outcome State Fault Refusal :=
  let r := s.admitFrame chimney.toNat 1 frame
  ok (if s.snapHalted then s.holdFrame (.dreqFrame chimney frame t4) else match r.2 with
    | some f =>
      if timeMsg f.payload = 1 then r.1.sendOn chimney.toNat f.src 1 (timePayload 2 0 (timeSeq f.payload) t4.toNat 0) else r.1
    | none => r.1)

/-- A pending change of BEAT_DIV applied from its beat on, where a step of BEAT_NOW has passed it too (R229). -/
def State.applyBeatDiv (s : State) : State :=
  if s.barBit 0x40010 31 && decide (s.bar64 0x40018 ≤ s.clk.beatNow) then
    ((s.setBar 0x4000C (BitVec.ofNat 32 (getField (s.bar 0x40010) 0 18))).setBar 0x40010 0).setBar64 0x40018 0
  else s

/-- BEAT_NOW and BEAT_PHASE set from a time in 1/64 ticks since beat 0. -/
def State.setTime (s : State) (t : Int) : State :=
  let ticks := (t / 64).toNat
  let d := max 1 s.beatDiv
  ({ s with clk := { s.clk with beatNow := ticks / d % 2 ^ 64, phase := ticks % d, slewLeft := 0 } } : State).applyBeatDiv

/-- The module's own time in 1/64 ticks. -/
def State.ownTime (s : State) : Int := 64 * ((s.clk.beatNow : Int) * s.beatDiv + s.clk.phase)

/-- The parent's time now by an exchange: the module's own time less θ (R231). Where a Uadal frame gave PBEAT, its whole BEAT_NOW is
counted from there: the parent's time at t1, on to t2 as θ has it, and on to now. -/
def State.parentTime (s : State) (e : TimeExch) (theta : Int) : Int :=
  match e.pbeat with
  | some pb =>
    let x := tsParts e.t1
    let now := s.clk.beatNow % 2 ^ 40 * 2 ^ 24 + s.clk.phase % 2 ^ 18 * 64
    64 * ((pb : Int) * s.beatDiv + x.2.1) + x.2.2 + (s.tsDiff e.t2 e.t1 - theta) + s.tsDiff now e.t2
  | none => s.ownTime - theta

/-- An exchange completed with t4 on a chimney (R231, R232, R278): filtered by its delay, then θ is taken: at the first the
beat unit takes the parent's time; below 1 µs it is slewed away; above, ALIGN_LOST, and a step where no job runs. Half a
1/64 tick of θ rounds either way (log 45). -/
def State.completeExchange (s0 : State) (e : TimeExch) (t4 ch : Nat) : State :=
  let s : State := { s0 with clk := { s0.clk with exch := none } }
  let a := s.tsDiff e.t2 e.t1
  let b := s.tsDiff t4 e.t3
  let delay2 := a + b
  let best := s.clk.delays.foldl (fun (m : Option Int) d => some (match m with | some x => min x d | none => d)) none
  if (match best with | some m => decide (m + 400 < delay2) | none => false) then s.dropExchange
  else
    let half := (a - b) / 2 + (if (a - b) % 2 = 1 ∧ Config.freeBool s.free then 1 else 0)
    let theta := half - signed 64 (s.setting (0x0154 + ch))
    let first := !s.clk.everAligned
    let l := (s.clk.delays ++ [delay2]).drop ((s.clk.delays.length + 1) - 64)
    let s1 := (({ s with clk := { s.clk with delays := l, theta := theta, everAligned := true } } : State).draw).setBar 0x40024
      (BitVec.ofInt 32 theta)
    if first then
      let s2 := s1.setTime (s1.parentTime e theta)
      (s2.barField 0x40020 0 2 s2.clk.src).showSource
    else if theta.natAbs < 10000 then { s1 with clk := { s1.clk with slewLeft := theta } }
    else
      let s2 := (s1.orBar 0x40020 0x1000).report (srcId 4 0x190) (s1.bar 0x40024)
      if s2.anyRunning then { s2 with clk := { s2.clk with slewLeft := theta } }
      else s2.setTime (s2.parentTime e theta)

/-- RESP from the time parent, of the exchange in progress. -/
def State.respArrives (s : State) (f : Frame) (ch : Nat) : State :=
  match s.clk.exch, s.timeParent with
  | some e, some (d, _) =>
    if timeMsg f.payload = 2 ∧ f.src = d ∧ timeSeq f.payload = e.tseq ∧ e.pbeat.isSome then
      s.completeExchange e (beAt f.payload 8 8) ch
    else s
  | _, _ => s

/-- RESP. -/
def execRespFrame (chimney : BitVec 1) (frame : List Byte) (s : State) : Host.Outcome State Fault Refusal :=
  let r := s.admitFrame chimney.toNat 1 frame
  ok (if s.snapHalted then s.holdFrame (.respFrame chimney frame) else match r.2 with | some f => r.1.respArrives f chimney.toNat | none => r.1)

/-- PTP_MESSAGE (R231): Sync gives t2, Follow_Up gives t1 and sends Delay_Req at t3, Delay_Resp gives t4. LINK_ASYM is that of
the time parent's chimney, chimney 0 where none is set. -/
def State.ptp (s : State) (m : PtpMsg) : State :=
  let put := fun (e : TimeExch) => { s with clk := { s.clk with exch := some e } }
  match m, s.clk.exch with
  | .sync q t2, _ => put { tseq := q.toNat, t1 := 0, t2 := t2.toNat, t3 := 0, pbeat := none, full := false }
  | .followUp q t1 t3, some e =>
    if e.tseq = q.toNat ∧ e.pbeat.isNone then
      (put { e with t1 := t1.toNat, t3 := t3.toNat, full := true }).emit (.time 1 [e.tseq])
    else s
  | .delayResp q t4, some e =>
    if e.tseq = q.toNat ∧ e.pbeat.isNone ∧ e.full then
      s.completeExchange e t4.toNat (match s.timeParent with | some p => p.2 | none => 0)
    else s
  | _, none => s

/-- PTP_MESSAGE. -/
def execPtpMessage (m : PtpMsg) (s : State) : Host.Outcome State Fault Refusal :=
  ok (if s.portsUp && s.clk.started then s.ptp m else s)

/-- PHASE_SLEW_STEP: the DCO phase moves by 0.1 ns toward alignment. -/
def execPhaseSlewStep (s : State) : Host.Outcome State Fault Refusal :=
  let x := s.clk.slewLeft
  ok { s with clk := { s.clk with slewLeft := if 0 < x then x - 1 else if x < 0 then x + 1 else 0 } }

/-- ALIGN_TIMEOUT: a module with a time parent completed no exchange for 100 ms. -/
def execAlignTimeout (s : State) : Host.Outcome State Fault Refusal :=
  ok (if s.clk.started && s.timeParent.isSome then (s.orBar 0x40020 0x1000).report (srcId 4 0x190) (s.bar 0x40024) else s)

/-! ## Dampers and the tile clock (R235 to R237, R408, R413, R414, R417) -/

/-- PWR_CAP_N_FALL; no effect during kindling (R414). -/
def State.capFall (s : State) : State :=
  if s.pwr.stage < 8 ∨ s.clk.pwrLow then { s with clk := { s.clk with pwrLow := true } }
  else
    let s1 : State := { s with clk := { s.clk with pwrLow := true, fastOn := true, fastDecay := false, fastLevel := s.setting 0x0030 } }
    ((s1.orBar 0x40028 2).bumpBar 0x40034 1).showDamper

/-- PWR_CAP_N_FALL. -/
def execPwrCapNFall (s : State) : Host.Outcome State Fault Refusal := ok s.capFall

/-- PWR_CAP_N_RISE. -/
def execPwrCapNRise (s : State) : Host.Outcome State Fault Refusal := ok { s with clk := { s.clk with pwrLow := false } }

/-- FAST_HOLD_EXPIRY: the fast level begins to fall; one at 0 is in force no more. -/
def execFastHoldExpiry (s : State) : Host.Outcome State Fault Refusal :=
  ok (if !s.clk.pwrLow && s.clk.fastOn then
      ({ s with clk := { s.clk with fastOn := decide (0 < s.clk.fastLevel), fastDecay := decide (0 < s.clk.fastLevel) } } : State).showDamper
    else s)

/-- FAST_LEVEL_STEP: one level down. -/
def execFastLevelStep (s : State) : Host.Outcome State Fault Refusal :=
  ok (if s.clk.fastDecay then
      let n := s.clk.fastLevel - 1
      ({ s with clk := { s.clk with fastLevel := n, fastOn := decide (0 < n), fastDecay := decide (0 < n) } } : State).showDamper
    else s)

/-- A level one up or one down, from 0 to 15. -/
def levelStep (up down : Bool) (n : Nat) : Nat := if up then min 15 (n + 1) else if down then n - 1 else n

/-- SLOW_DAMPER_UPDATE: at most once per beat; the larger of the power and the thermal demand, at least 8 while a feed or a
coolant condition lasts. The level takes effect at the next beat edge (R235). -/
def State.slowUpdate (s : State) (watts : Nat) : State :=
  if s.clk.slowWritten = some s.clk.beatNow then s
  else
    let pw := levelStep (decide (2700 < watts)) (decide (watts < 2550)) s.clk.slowPower
    let th := levelStep (decide (95 ≤ s.pwr.tj)) (decide (s.pwr.tj < 90)) s.clk.slowThermal
    let held := if s.pwr.feedHold || s.pwr.coolHold then 8 else 0
    let s1 : State := { s with clk := { s.clk with slowPower := pw, slowThermal := th, slowWritten := some s.clk.beatNow } }
    { s1 with clk := { s1.clk with slowNext := some (max held (max pw th)) } }

/-- SLOW_DAMPER_UPDATE. -/
def execSlowDamperUpdate (meanWatts : Nat) (s : State) : Host.Outcome State Fault Refusal := ok (s.slowUpdate meanWatts)

/-- EFF_LVL_APPLY: from the tick that was sent with it on a firebox takes the oldest change it has not taken (R226, R236). A domain that is
held, halted by a snap stop or without a clock leaves it in the crossing. -/
def State.levelApply (s : State) (u : Nat) : State :=
  match tget [] s.clk.levels u with
  | [] => s
  | m :: r => if s.domRuns u && decide (m.tick ≤ s.clk.ticks) then
      ({ s with clk := { s.clk with levels := tset s.clk.levels u r } } : State).setTile u { s.tile u with damper := m.level }
    else s

/-- EFF_LVL_APPLY. -/
def execEffLvlApply (unit : Nat) (s : State) : Host.Outcome State Fault Refusal :=
  guardPart (unitOk unit) .noSuchUnit (s.levelApply unit)

/-- TILE_FREQUENCY_CHANGE: within TILE_FMIN and TILE_FMAX, at a beat edge. -/
def execTileFrequencyChange (mhz : BitVec 16) (s : State) : Host.Outcome State Fault Refusal :=
  ok (if s.clk.phase = 0 ∧ s.setting 0x0032 ≤ mhz.toNat ∧ mhz.toNat ≤ s.setting 0x0033 then
      { s with clk := { s.clk with tileMhz := mhz.toNat } }
    else s)

end Sys2Proof.Machine
end

