-- ==== Sys2Proof/Machine/GrateForm.lean ====
section
/-! DEFINITION. The form of a grate instruction word (R86, R87): for each opcode of Table 04-3 the fields that it uses and the
values they may take. -/

namespace Sys2Proof.Machine

/-- What a register field of a row names. -/
inductive RegUse where
  | unused
  | vector
  | mask
  | scalar
  /-- Source b: a vector, or with BS = 1 a scalar. -/
  | either
  /-- The shift or lane number s: IMM, or with BS = 1 a scalar. -/
  | shift
  /-- The even scalar pair that holds i0 (R96, R97). -/
  | pair
  deriving DecidableEq, Repr

/-- What FMTD of a row may be. -/
inductive FmtdUse where
  | unused
  /-- A row whose result is in FMT: FMTD is unused and 0 (log 54). -/
  | same
  /-- An F row: FMT, or FP32 (R90). -/
  | widen
  | oneOf (set : Nat)
  deriving DecidableEq, Repr

/-- A row of Table 04-3: the FMT codes as a bit set, FMTD, whether RM rounds, whether lanes take a mask, the register fields,
and whether it uses IMM (log 84). -/
structure GrateRow where
  fmts : Nat := 1
  fmtd : FmtdUse := .unused
  rm : Bool := false
  men : Bool := true
  d : RegUse := .unused
  a : RegUse := .unused
  b : RegUse := .unused
  c : RegUse := .unused
  imm : Bool := false
  deriving DecidableEq, Repr

/-- FP32, BF16, FP16, E4M3 and E5M2. -/
def setF : Nat := 0x1F
/-- FMT 0x0 to 0xE. -/
def setW : Nat := 0x7FFF
/-- The MX formats. -/
def setMx : Nat := 0x3F00
/-- FP32, BF16 and FP16. -/
def setScan : Nat := 0x07

/-- A row of moves, scalars, flags and the ash queue. -/
def grateRowMove (op : Nat) : Option GrateRow :=
  match op with
  | 0x00 => some { men := false }
  | 0x01 => some { fmts := setW, fmtd := .same, men := false, imm := true }
  | 0x02 => some { men := false, d := .scalar, imm := true }
  | 0x03 => some { men := false, d := .scalar, imm := true }
  | 0x04 => some { men := false, d := .scalar, a := .scalar, b := .scalar }
  | 0x05 => some { fmts := setW, fmtd := .same, men := false, d := .scalar, a := .vector, imm := true }
  | 0x06 => some { men := false, d := .scalar, imm := true }
  | 0x07 => some { men := false, a := .scalar, imm := true }
  | 0x08 => some { fmts := setW, fmtd := .same, d := .vector, a := .vector }
  | 0x09 => some { fmts := setW, fmtd := .same, d := .vector, c := .vector, imm := true }
  | 0x0A => some { fmts := setW, fmtd := .same, a := .vector, c := .vector, imm := true }
  | 0x0B => some { fmts := setW, fmtd := .same, d := .vector, a := .scalar, imm := true }
  | 0x0C => some { fmts := setW, fmtd := .same, a := .scalar, b := .either, imm := true }
  | 0x0D => some { men := false }
  | 0x0E => some { d := .vector, imm := true }
  | 0x0F => some { men := false, d := .scalar, imm := true }
  | 0x10 => some { men := false }
  | _ => none

/-- A row of F arithmetic and of lane integers. -/
def grateRowArith (op : Nat) : Option GrateRow :=
  let f2 : GrateRow := { fmts := setF, fmtd := .widen, rm := true, d := .vector, a := .vector, b := .either }
  let w2 : GrateRow := { fmts := setW, fmtd := .same, d := .vector, a := .vector, b := .either }
  match op with
  | 0x20 => some f2
  | 0x21 => some f2
  | 0x22 => some f2
  | 0x23 => some { f2 with c := .vector }
  | 0x24 => some { f2 with c := .vector }
  | 0x25 => some { f2 with c := .vector }
  | 0x26 => some f2
  | 0x27 => some f2
  | 0x28 => some { f2 with b := .unused }
  | 0x29 => some { f2 with b := .unused }
  | 0x2A => some { f2 with c := .vector }
  | 0x2B => some { f2 with c := .vector }
  | 0x30 => some w2
  | 0x31 => some w2
  | 0x32 => some w2
  | 0x33 => some w2
  | 0x34 => some w2
  | 0x35 => some w2
  | 0x36 => some { w2 with b := .unused, imm := true }
  | 0x37 => some { w2 with b := .unused, imm := true }
  | 0x38 => some { w2 with b := .unused, imm := true }
  | _ => none

/-- A row of compares, selections, masks and permutes. -/
def grateRowPerm (op : Nat) : Option GrateRow :=
  let cmp : GrateRow := { fmts := setW, fmtd := .same, d := .mask, a := .vector, b := .either }
  let mk : GrateRow := { d := .mask, a := .mask }
  let w1 : GrateRow := { fmts := setW, fmtd := .same, d := .vector, a := .vector }
  match op with
  | 0x40 => some cmp
  | 0x41 => some cmp
  | 0x42 => some cmp
  | 0x43 => some cmp
  | 0x44 => some { cmp with fmts := setF, b := .unused, imm := true }
  | 0x45 => some { w1 with b := .either, imm := true }
  | 0x46 => some { mk with b := .mask }
  | 0x47 => some { mk with b := .mask }
  | 0x48 => some { mk with b := .mask }
  | 0x49 => some mk
  | 0x4A => some { mk with d := .scalar }
  | 0x4B => some { mk with a := .unused, imm := true }
  | 0x50 => some { w1 with b := .vector }
  | 0x51 => some { w1 with b := .shift, imm := true }
  | 0x52 => some { w1 with b := .shift, imm := true }
  | 0x53 => some { w1 with b := .shift, c := .vector, imm := true }
  | 0x54 => some { w1 with b := .shift, c := .vector, imm := true }
  | 0x55 => some { w1 with b := .either }
  | 0x56 => some w1
  | 0x57 => some w1
  | _ => none

/-- A row of reductions, scans, conversions, draws and special functions. -/
def grateRowSfu (op : Nat) : Option GrateRow :=
  let red : GrateRow := { fmts := setF, fmtd := .widen, rm := true, d := .vector, a := .vector, imm := true }
  let scan : GrateRow := {
    fmts := setScan, fmtd := .widen, rm := true, d := .vector, a := .vector, b := .either, c := .vector, imm := true }
  let cv : GrateRow := { rm := true, d := .vector, a := .vector, c := .vector }
  let sf : GrateRow := { fmts := setF, fmtd := .widen, rm := true, d := .vector, a := .vector }
  match op with
  | 0x60 => some red
  | 0x61 => some red
  | 0x62 => some red
  | 0x63 => some red
  | 0x64 => some { red with fmtd := .oneOf 1, rm := false }
  | 0x68 => some scan
  | 0x69 => some { scan with a := .unused }
  | 0x6A => some { scan with a := .unused }
  | 0x70 => some { sf with b := .either, imm := true }
  | 0x71 => some { sf with b := .either, c := .vector, imm := true }
  | 0x78 => some { fmts := 0x7F, fmtd := .oneOf 0x7F, rm := true, d := .vector, a := .vector, b := .pair, imm := true }
  | 0x79 => some { cv with fmtd := .oneOf setMx, b := .pair, imm := true }
  | 0x7A => some { cv with fmts := setMx, fmtd := .oneOf 1 }
  | 0x7B => some { cv with fmtd := .oneOf 0x4000, rm := false }
  | 0x7C => some { cv with fmts := 0x4000, fmtd := .oneOf 1, rm := false }
  | 0x7D => some { fmtd := .oneOf 1, d := .vector, b := .pair, imm := true }
  | 0x7E => some { fmtd := .oneOf 0x4006, d := .vector, b := .pair, imm := true }
  | 0x80 => some { sf with imm := true }
  | 0x81 => some { sf with b := .either, imm := true }
  | 0x82 => some { sf with b := .either }
  | 0x83 => some sf
  | 0x84 => some sf
  | 0x85 => some { fmts := setScan, fmtd := .oneOf 1, d := .vector, a := .vector }
  | 0x86 => some { fmtd := .oneOf 1, d := .vector, a := .vector, b := .shift, imm := true }
  | 0x87 => some { fmts := setF, fmtd := .oneOf 1, d := .vector, a := .vector }
  | 0x88 => some { sf with c := .vector, imm := true }
  | _ => none

/-- The row of an opcode; none outside Table 04-3. -/
def grateRow (op : Nat) : Option GrateRow :=
  if op < 0x20 then grateRowMove op else if op < 0x40 then grateRowArith op else if op < 0x60 then grateRowPerm op else grateRowSfu op

/-- Whether RM = SR is allowed (R39, R87). -/
def srAllowed (op : Nat) (g : GrateWord) : Bool :=
  op == 0x79 || (op == 0x78 && g.fmt == 0 && g.fmtd != 0 && decide (g.fmtd.toNat ≤ 4))

/-- Whether a word draws random numbers, from i0 (R96, R97). -/
def drawsRandom (op : Nat) (g : GrateWord) : Bool := op == 0x7D || op == 0x7E || g.rm == 4

/-- Whether a register field holds what its use allows (Table 04-2). -/
def RegUse.fits (u : RegUse) (r : Nat) (bs draws : Bool) : Bool :=
  match u with
  | .unused => r == 0
  | .vector => true
  | .mask => decide (r < 8)
  | .scalar => decide (r < 16)
  | .either => !bs || decide (r < 16)
  | .shift => if bs then decide (r < 16) else r == 0
  | .pair => if draws then decide (r < 16) && r % 2 == 0 else r == 0

/-- Whether BS may be 1. -/
def RegUse.takesBs : RegUse → Bool
  | .either => true
  | .shift => true
  | _ => false

/-- Whether FMTD is within the row. -/
def FmtdUse.fits (u : FmtdUse) (g : GrateWord) : Bool :=
  match u with
  | .unused => g.fmtd == 0
  | .same => g.fmtd == 0
  | .widen => g.fmtd == g.fmt || g.fmtd == 0
  | .oneOf set => Nat.testBit set g.fmtd.toNat

/-- The widest lane width among the vector sources and the vector result (R83). -/
def widest (r : GrateRow) (g : GrateWord) : Nat :=
  match r.fmtd with
  | .unused => if r.fmts = 1 && r.a != .vector && r.d != .vector then 8 else laneWidth g.fmt
  | .same => laneWidth g.fmt
  | .widen => max (laneWidth g.fmt) (laneWidth g.fmtd)
  | .oneOf _ => max (if r.a = .vector then laneWidth g.fmt else 8) (laneWidth g.fmtd)

/-- log2 of a power of two up to 2^11. -/
def log2Of2 (n : Nat) : Nat := (List.range 12).foldl (fun k i => if 2 ^ i ≤ n then i else k) 0

/-- The conditions that R87 and R123 to R128 place on single opcodes; a row without destination lanes for inactive source lanes uses no MZ,
which is then reserved (R87). -/
def grateSpecial (op : Nat) (r : GrateRow) (g : GrateWord) : Bool :=
  let imm := g.imm.toNat
  let seg := imm % 16
  let out := imm / 16 % 4
  if op = 0x01 then decide (1 ≤ imm ∧ imm ≤ 16384 / laneWidth g.fmt)
  else if op = 0x06 ∨ op = 0x07 then decide (imm ≤ 1)
  else if op = 0x09 ∨ op = 0x0A then decide (imm % 256 ≤ 31) && (isScaled g.fmt || g.vc == 0)
  else if op = 0x57 then g.men && !g.mz
  else if op = 0x4A then !g.mz
  else if 0x60 ≤ op ∧ op ≤ 0x64 then !g.mz && decide (seg ≤ log2Of2 (16384 / widest r g))
  else if op = 0x68 ∨ op = 0x69 ∨ op = 0x6A then !(Nat.testBit imm 0 && g.men)
  else if op = 0x7D ∨ op = 0x7E then decide (0xF000 ≤ imm)
  else if op = 0x85 then decide (g.vd.toNat ≤ 29) && !g.mz
  else if op = 0x86 then !g.mz && decide (seg ≤ 9) && decide (g.vd.toNat ≤ 29) && decide (g.va.toNat ≤ 29) && g.bs == (out == 3)
  else if op = 0x87 then decide (g.vd.toNat ≤ 30) && !g.mz
  else if op = 0x88 then
    (if out = 0 then !g.mz && decide (seg ≤ 9) && decide (g.va.toNat ≤ 30) && decide (g.vd.toNat ≤ 29) && g.fmt == 0 && g.fmtd == 0
     else out == 1 && decide (g.vc.toNat ≤ 30))
  else true

/-- Whether a grate word has the form that R86 and R87 ask of its opcode; the conditions on VL stand apart. -/
def grateFormOk (op : Nat) (g : GrateWord) : Bool :=
  match grateRow op with
  | none => false
  | some r =>
    Nat.testBit r.fmts g.fmt.toNat && r.fmtd.fits g && decide (g.rm.toNat ≤ 4) && (r.rm || g.rm == 0) &&
    (g.rm != 4 || srAllowed op g) && (r.men || (!g.men && g.msk == 0 && !g.mz)) && (!g.bs || r.b.takesBs) &&
    r.d.fits g.vd.toNat g.bs false && r.a.fits g.va.toNat g.bs false && r.b.fits g.vb.toNat g.bs (drawsRandom op g) &&
    r.c.fits g.vc.toNat g.bs false && (r.imm || g.imm == 0) && grateSpecial op r g

/-- Whether a grate word meets the conditions of R87 on VLe, for one value of VL. -/
def grateVlOk (op : Nat) (g : GrateWord) (vl : Nat) : Bool :=
  let n := min vl (16384 / laneWidth g.fmt)
  if op = 0x50 then g.vb != 31 || decide (n ≤ 1024)
  else if (op = 0x09 ∨ op = 0x0A) && isScaled g.fmt then n % scaleBlock g.fmt == 0
  else true

/-- The grate instruction in a 64-bit word (Table 04-2). -/
def parseGrate (w : W64) : GrateWord :=
  let n := w.toNat
  { fmt := BitVec.ofNat 4 (n / 2 ^ 52), fmtd := BitVec.ofNat 4 (n / 2 ^ 48), rm := BitVec.ofNat 3 (n / 2 ^ 45)
    sat := Nat.testBit n 44, men := Nat.testBit n 43, msk := BitVec.ofNat 3 (n / 2 ^ 40), mz := Nat.testBit n 39
    vd := BitVec.ofNat 5 (n / 2 ^ 34), va := BitVec.ofNat 5 (n / 2 ^ 29), vb := BitVec.ofNat 5 (n / 2 ^ 24)
    vc := BitVec.ofNat 5 (n / 2 ^ 19), bs := Nat.testBit n 18, imm := BitVec.ofNat 16 n }

/-- Whether a 64-bit word is a grate instruction without a fault of form; bits [17:16] are RSVD. -/
def grateWordOk (w : W64) : Bool := field w.toNat 16 2 == 0 && grateFormOk (field w.toNat 56 8) (parseGrate w)

/-- The command that an opcode of Table 04-3 spells for a firebox with these fields (R86). -/
def opcodeCommand (op : Nat) (t : BitVec 8) (w : GrateWord) : Option Instr :=
  match op with
  | 0x00 => some (.nop t w)
  | 0x01 => some (.setvl t w)
  | 0x02 => some (.xli t w)
  | 0x03 => some (.xlih t w)
  | 0x04 => some (.xadd t w)
  | 0x05 => some (.xmv t w)
  | 0x06 => some (.flagrd t w)
  | 0x07 => some (.flagclr t w)
  | 0x08 => some (.vmov t w)
  | 0x09 => some (.flrd t w)
  | 0x0A => some (.flwr t w)
  | 0x0B => some (.lds t w)
  | 0x0C => some (.sts t w)
  | 0x0D => some (.ashwait t w)
  | 0x0E => some (.ashrd t w)
  | 0x0F => some (.ashhdr t w)
  | 0x10 => some (.ashpop t w)
  | 0x20 => some (.vadd t w)
  | 0x21 => some (.vsub t w)
  | 0x22 => some (.vmul t w)
  | 0x23 => some (.vfma t w)
  | 0x24 => some (.vfms t w)
  | 0x25 => some (.vfnma t w)
  | 0x26 => some (.vmin t w)
  | 0x27 => some (.vmax t w)
  | 0x28 => some (.vabs t w)
  | 0x29 => some (.vneg t w)
  | 0x2A => some (.vclamp t w)
  | 0x2B => some (.vlerp t w)
  | 0x30 => some (.viadd t w)
  | 0x31 => some (.visub t w)
  | 0x32 => some (.vimul t w)
  | 0x33 => some (.vand t w)
  | 0x34 => some (.vor t w)
  | 0x35 => some (.vxor t w)
  | 0x36 => some (.vshl t w)
  | 0x37 => some (.vshr t w)
  | 0x38 => some (.vsra t w)
  | 0x40 => some (.vcmpeq t w)
  | 0x41 => some (.vcmpne t w)
  | 0x42 => some (.vcmplt t w)
  | 0x43 => some (.vcmple t w)
  | 0x44 => some (.vclass t w)
  | 0x45 => some (.vsel t w)
  | 0x46 => some (.mand t w)
  | 0x47 => some (.mor t w)
  | 0x48 => some (.mxor t w)
  | 0x49 => some (.mnot t w)
  | 0x4A => some (.mpop t w)
  | 0x4B => some (.mprefix t w)
  | 0x50 => some (.vperm t w)
  | 0x51 => some (.vbcl t w)
  | 0x52 => some (.vrot t w)
  | 0x53 => some (.vslup t w)
  | 0x54 => some (.vsldn t w)
  | 0x55 => some (.vzip t w)
  | 0x56 => some (.vunzip t w)
  | 0x57 => some (.vcmpr t w)
  | 0x60 => some (.vrsum t w)
  | 0x61 => some (.vrmax t w)
  | 0x62 => some (.vrmin t w)
  | 0x63 => some (.vramax t w)
  | 0x64 => some (.vrargmax t w)
  | 0x68 => some (.vscanlr t w)
  | 0x69 => some (.vscansum t w)
  | 0x6A => some (.vscanmax t w)
  | 0x70 => some (.vgate t w)
  | 0x71 => some (.vgatea t w)
  | 0x78 => some (.vcvt t w)
  | 0x79 => some (.vcvtmx t w)
  | 0x7A => some (.vdcmx t w)
  | 0x7B => some (.vcvtsb t w)
  | 0x7C => some (.vdcsb t w)
  | 0x7D => some (.vrngu t w)
  | 0x7E => some (.vrngb t w)
  | 0x80 => some (.vsfu t w)
  | 0x81 => some (.vsfu2 t w)
  | 0x82 => some (.vdiv t w)
  | 0x83 => some (.vsqrt t w)
  | 0x84 => some (.vrsqrt t w)
  | 0x85 => some (.vstat t w)
  | 0x86 => some (.vstatm t w)
  | 0x87 => some (.vsmxu t w)
  | 0x88 => some (if field w.imm.toNat 4 2 = 0 then .vsmxfMerge t w else .vsmxfProbabilities t w)
  | _ => none

/-- The command that a grate word of a tile program spells (Table 04-2); none for a word with a fault of form. -/
def grateCommand (t : BitVec 8) (w : W64) : Option Instr :=
  if grateWordOk w then opcodeCommand (field w.toNat 56 8) t (parseGrate w) else none

end Sys2Proof.Machine
end

