-- ==== Sys2Proof/Machine/Stoker.lean ====
section
/-! DEFINITION. The stoker: which word it may issue, how a word ends, loops, fences of a step execution, and the stoker and
schedule words that steer it (R154, R155, R163, R244 to R254). -/

namespace Sys2Proof.Machine

/-! ## Program words -/

/-- The class byte of a tile program word (R154). -/
def wordOp (w : W64) : Nat := field w.toNat 56 8

/-- The words of a program with their index, the four descriptor words of each PASS left out (R154). -/
def opWords : Nat → Nat → List W64 → List (Nat × W64)
  | _, _, [] => []
  | i, skip, w :: r =>
    if 0 < skip then opWords (i + 1) (skip - 1) r
    else (i, w) :: opWords (i + 1) (if wordOp w = 0xF0 then 4 else 0) r

/-- The tile program of a logical tile in the running context's image. -/
def Ctx.program (cx : Ctx) (t : Nat) : List W64 := tget [] cx.prog t

/-- The signed step beat T of a schedule word. -/
def wordBeat (w : W64) : Int := signed 16 (field w.toNat 0 16)

/-- The words of a class block: from ENTRY to its JOIN; a program without a JOIN there has no block (R244). -/
def classBlock (ws : List (Nat × W64)) (entry : Nat) : List (Nat × W64) :=
  let r := ws.filter (fun p => decide (entry ≤ p.1))
  let b := r.takeWhile (fun p => wordOp p.2 != 0xD6)
  if b.length < r.length then b ++ (r.drop b.length).take 1 else []

/-- ENTRY of a class table entry (R246). -/
def classEntry (e : W64) : Nat := field e.toNat 0 32

/-- Indices of the words of a program that lie in class blocks; a program without a CLASS word enters none (R246). -/
def Ctx.classWords (cx : Ctx) (ws : List (Nat × W64)) : List Nat :=
  if ws.any (fun p => wordOp p.2 == 0xD5) then cx.classes.flatMap (fun e => (classBlock ws (classEntry e)).map (fun p => p.1)) else []

/-- The fence that a word is, if it is one (R249): FENCE with its B, FLAG without, STEP with a barrier. -/
def fenceOf (w : W64) : Option FenceMark :=
  let op := wordOp w
  if op = 0xD1 then some { op := op, beat := wordBeat w, barrier := w.getLsbD 16 }
  else if op = 0xD2 then some { op := op, beat := wordBeat w, barrier := false }
  else if op = 0xD4 then some { op := op, beat := wordBeat w, barrier := true }
  else none

/-- LEN of a program's prologue, 0 without one (R244). -/
def prologueLen : List W64 → Nat
  | w :: _ => if wordOp w = 0xD9 then field w.toNat 0 16 else 0
  | [] => 0

/-- The first word after the prologue. -/
def bodyIndex (l : List W64) : Nat :=
  match l with
  | w :: _ => if wordOp w = 0xD9 then prologueLen l + 1 else 0
  | [] => 0

/-- The fences that count for NR from the start of a step execution (R249): those of the prologue where it runs, and those
of the body outside class blocks. -/
def Ctx.fencesOf (cx : Ctx) (t : Nat) (pro : Bool) : List FenceMark :=
  let l := cx.program t
  let ws := opWords 0 0 l
  let b := bodyIndex l
  let inClass := cx.classWords ws
  (ws.filter (fun p => !inClass.contains p.1 && (pro || decide (b ≤ p.1)))).filterMap (fun p => fenceOf p.2)

/-- The stoker at the start of a step execution: at the prologue where it runs, else at the word after it. -/
def Stoker.startStep (k : Stoker) (cx : Ctx) (t : Nat) (pro : Bool) : Stoker :=
  let l := cx.program t
  { k with
    pc := if pro then 0 else bodyIndex l, loops := [], atBeat := none, fences := cx.fencesOf t pro, proEnd := none,
    bodyStart := bodyIndex l, gatedEnd := none, recomp := none, abandoned := false, halted := false, stepDone := false,
    waitWord := false, preempt := false, ahead := [] }

/-! ## Fences -/

/-- Whether what a fence's words gave a writing stream is written: the stream has left the pass that takes the last of it, or has
taken every element of it there and waits for no access. A pass that waits in the re-arm slot is still to come. -/
def Tile.written (t : Tile) (w : Nat × Nat × Nat) : Bool :=
  let st := t.stream w.1
  st.state != 1 || ((st.cntPass + 1).toNat != w.2.1 && (st.cntPass.toNat != w.2.1 || (decide (w.2.2 ≤ st.pos) && !st.stall)))

/-- Whether a fence is met: the stoker has passed it, every pass before it has committed and what was given to stores and copies
is written (log 99); an abandoned step's fences are met (R246, R249, R254, R255). -/
def FenceMark.met (t : Tile) (m : FenceMark) : Bool :=
  t.stoker.abandoned || (m.passed && m.waits.isEmpty && m.streams.all t.written)

/-- SCHED_NOW − STEP_BASE (R243). -/
def State.stepBeat (s : State) : Int := s.sched.now - s.sched.base

/-- Whether p holds of every logical tile. -/
def State.everyTile (s : State) (p : Tile → Bool) : Bool := (List.range 256).all (fun t => p (s.ltile t))

/-- Whether every fence that q picks is met in every tile. -/
def State.fencesMet (s : State) (q : FenceMark → Bool) : Bool :=
  s.everyTile (fun tl => tl.stoker.fences.all (fun m => !q m || m.met tl))

/-- Whether a pass of this PASS_SEQ has committed: it leaves every fence's waits. -/
def Stoker.passDone (k : Stoker) (seq : Nat) : Stoker :=
  { k with fences := k.fences.map (fun m => { m with waits := m.waits.erase seq }) }

/-- The first fence of (op, T) not passed is passed with the passes and the writes that it waits for. Nothing changes where none
is left. -/
def markFirst (op : Nat) (beat : Int) (waits : List Nat) (streams : List (Nat × Nat × Nat)) : List FenceMark → List FenceMark
  | [] => []
  | m :: r =>
    if m.op = op ∧ m.beat = beat ∧ !m.passed then { m with passed := true, waits := waits, streams := streams } :: r
    else m :: markFirst op beat waits streams r

/-- PASS_SEQs of the passes that a firebox has issued and not committed, those of an ended step left out. -/
def Tile.openPasses (t : Tile) : List Nat :=
  t.hobs.flatMap (fun h => (h.2.fly.filter (fun f => !f.dropped)).map (fun f => f.d.passSeq.toNat))

/-- The writing streams under way with what a fence waits for (log 99): the stream pass and the element in it. A store writes the
elements that it has been given, those past its pass in the pass of its slot; a copy writes its whole pass and the slot's. -/
def State.openWrites (s : State) (t : Tile) : List (Nat × Nat × Nat) :=
  t.streams.filterMap (fun p =>
    let st := p.2
    let next := (st.cntPass + 1).toNat
    if st.state != 1 then none
    else if sdKind st.sd = 1 then
      let given := st.pos + (st.entries.length - st.claimed)
      let n := walkCount (s.ctx st.ctx) st.sd
      if st.slot.isSome && !st.disarm && decide (n < given) then some (p.1, next, given - n) else some (p.1, st.cntPass.toNat, min n given)
    else if sdKind st.sd = 2 then some (p.1, if st.slot.isSome && !st.disarm then next else st.cntPass.toNat, 2 ^ 48)
    else none)

/-- A fence word passed, with the writes that it waits for: inside a loop body only on the last iteration. A fence that a RECOMP
replays is not counted for NR again, though it orders the words around it (R249). -/
def Tile.passFence (t : Tile) (op : Nat) (beat : Int) (writes : List (Nat × Nat × Nat)) : Tile :=
  if t.stoker.loops.any (fun f => decide (1 < f.left ∧ f.start ≤ t.stoker.pc ∧ t.stoker.pc < f.start + f.len)) then t
  else
    let marks := t.stoker.fences
    let marks1 := if t.stoker.recomp.isNone then markFirst op beat t.openPasses writes marks
      else marks ++ (marks.filter (fun m => m.op == op && m.beat == beat && !m.replayed)).map (fun m =>
        { m with passed := true, waits := t.openPasses, streams := writes, replayed := true })
    { t with stoker := { t.stoker with fences := marks1 } }

/-! ## Issue -/

/-- GS_STATE is not RUN, or a stop's edge has come; at the edge of a release the stokers resume (R394, R397, R398). -/
def State.stopped (s : State) : Bool :=
  match s.obs.gsEdge with
  | some (e, release) =>
    if release then getField (s.bar 0x30040) 0 2 != 0 && decide (s.clk.beatNow < e)
    else getField (s.bar 0x30040) 0 2 != 0 || decide (e ≤ s.clk.beatNow)
  | none => getField (s.bar 0x30040) 0 2 != 0 || s.barBit 0x30040 4

/-- Whether the beat of the last AT has come, as the local copy of the firebox's domain shows (R227), and no barrier at or before it
is unmet in any tile (R244). -/
def State.atOpen (s : State) (u : Nat) (k : Stoker) : Bool :=
  !s.sched.running ||
    match k.atBeat with
    | none => true
    | some b => decide (s.sched.base + b ≤ s.localNow u) && s.fencesMet (fun m => m.barrier && decide (m.beat ≤ b))

/-- Whether the step of the running job waits at its boundary for the check of the bank that it is to use (R120). -/
def State.tableWait (s : State) : Bool :=
  s.sched.running && match s.sfu.checking with
    | some (_, c, _, step, _) => c == s.sched.ctx && step == s.stepNow
    | none => false

/-- Whether the stoker of logical tile t may start a word or a held pass now: its domain has a clock (R223), the edge that began the
step has taken effect there (R256), and no table check holds the step (R120). -/
def State.stokerRuns (s : State) (t : Nat) : Bool :=
  let k := (s.ltile t).stoker
  let u := s.unitOf t
  s.pwr.diesUp && s.clocked u && (!s.sched.running || s.edgeSeen u) && !s.tableWait && !s.stopped && !s.sched.desync && !k.abandoned && !k.halted &&
    !k.stepDone && !k.quiesced && s.atOpen u k

/-- Whether the stoker starts its next word now: it runs and holds no pass at issue (R78, R159). -/
def State.issues (s : State) (t : Nat) : Bool :=
  s.stokerRuns t && (s.ltile t).hobs.all (fun h => h.2.held.isNone)

/-- Loops that end at a word: the next iteration, or the loops around it (R155). -/
def closeLoops (pc : Nat) : List LoopFrame → Nat × List LoopFrame
  | [] => (pc, [])
  | f :: r =>
    if pc = f.start + f.len then
      if 1 < f.left then (f.start, { f with left := f.left - 1 } :: r) else closeLoops pc r
    else (pc, f :: r)

/-- The stoker at a word, where the loops that end there close (R155). -/
def Stoker.arrive (k : Stoker) (pc : Nat) : Stoker :=
  let c := closeLoops pc k.loops
  { k with pc := c.1, loops := c.2 }

/-- The stoker at the next word in program order: loops close, a replay returns to the word after its RECOMP (R251), a commit
block and the prologue end. -/
def Stoker.goto (k : Stoker) (pc : Nat) : Stoker :=
  let k1 := k.arrive pc
  let k2 := match k1.recomp with
    | some r => if k1.pc = r.2.1 then ({ k1 with recomp := none } : Stoker).arrive r.1 else k1
    | none => k1
  let k3 := if k2.gatedEnd = some k2.pc then { k2 with gatedEnd := none } else k2
  if k3.proEnd = some k3.pc then { k3 with proEnd := none } else k3

/-- How a word ends: it waits; the words it takes are complete; control goes on at a word. -/
inductive WordEnd where
  | wait
  | next (n : Nat)
  | jump (pc : Nat)
  deriving DecidableEq, Repr

/-- A word of tile t: nothing where the stoker does not start it; else its effect on the module, and on the stoker. -/
def State.word (s : State) (t : BitVec 8) (f : State → State × WordEnd) : State :=
  if !s.issues t.toNat then s
  else
    let r := f s
    let tl := r.1.ltile t.toNat
    let k := { tl.stoker with waitWord := false }
    let k1 := match r.2 with
      | .wait => { k with waitWord := true }
      | .next n => k.goto (k.pc + n)
      | .jump pc => { k with pc := pc }
    r.1.setLtile t.toNat { tl with stoker := k1 }

/-- A word that changes only its own firebox. -/
def State.tileWord (s : State) (t : BitVec 8) (f : Tile → Tile × WordEnd) : State :=
  s.word t (fun s => let r := f (s.ltile t.toNat); (s.setLtile t.toNat r.1, r.2))

/-- The stream that a word's flue or stream field names: in a RECOMP, ACT_S is replaced by RC_S (R251). -/
def Stoker.subst (k : Stoker) (n : Nat) : Nat :=
  match k.recomp with
  | some r => if n = r.2.2.1 then r.2.2.2 else n
  | none => n

/-! ## Stoker words (Table 07-1) -/

/-- LOOP. -/
def Tile.loopWord (t : Tile) (count len : Nat) : Tile × WordEnd :=
  if count = 0 ∨ len = 0 then (t, .next 1)
  else
    let k := t.stoker
    ({ t with stoker := { k with loops := ⟨k.pc + 1, len, count⟩ :: k.loops } }, .next 1)

/-- LOOP: the next LEN words run COUNT times. -/
def execLoop (t : BitVec 8) (count len : BitVec 16) (s : State) : Host.Outcome State Fault Refusal :=
  ok (s.tileWord t (fun tl => tl.loopWord count.toNat len.toNat))

/-- SWAIT on one firebox: SWAIT_HOLD while a named stream is not IDLE, PARKED or DONE. -/
def Tile.swait (t : Tile) (mask : W32) : Tile × WordEnd :=
  let open_ := (List.range 32).any (fun n =>
    mask.getLsbD n && !((t.stream n).state == 0 || (t.stream n).state == 2 || (t.stream n).state == 3))
  if open_ then (t.setReg 0x0380 (setBit (t.reg 0x0380) 1), .wait)
  else (t.setReg 0x0380 (clrBit (t.reg 0x0380) 1), .next 1)

/-- SWAIT. -/
def execSwait (t : BitVec 8) (mask : BitVec 32) (s : State) : Host.Outcome State Fault Refusal :=
  ok (s.tileWord t (fun tl => tl.swait mask))

/-! ## Schedule words (Table 10-4) -/

/-- AT: the following words start no earlier than step beat T. -/
def execSchedAt (t : BitVec 8) (beat : BitVec 16) (s : State) : Host.Outcome State Fault Refusal :=
  ok (s.tileWord t (fun tl => ({ tl with stoker := { tl.stoker with atBeat := some beat.toInt } }, .next 1)))

/-- A fence word of logical tile t passed. -/
def State.passFence (s : State) (t op : Nat) (beat : Int) : State :=
  s.setLtile t ((s.ltile t).passFence op beat (s.openWrites (s.ltile t)))

/-- FENCE. -/
def execFence (t : BitVec 8) (_barrier : Bool) (beat : BitVec 16) (s : State) : Host.Outcome State Fault Refusal :=
  ok (s.word t (fun s => (s.passFence t.toNat 0xD1 beat.toInt, .next 1)))

/-- FLAG: a fence; the flag bits go out in a round once it is met in every tile (R253). -/
def execFlagWord (t : BitVec 8) (beat : BitVec 16) (s : State) : Host.Outcome State Fault Refusal :=
  ok (s.word t (fun s => (s.passFence t.toNat 0xD2 beat.toInt, .next 1)))

/-- The fences of a commit block passed without running: every word of it counts as complete (R253). -/
def State.skipBlock (s : State) (t len : Nat) : State :=
  let k := (s.ltile t).stoker
  ((opWords 0 0 ((s.ctx s.sched.ctx).program t)).filter (fun p => decide (k.pc < p.1 ∧ p.1 ≤ k.pc + len))).foldl (fun s p =>
    match fenceOf p.2 with
    | some m => s.passFence t m.op m.beat
    | none => s) s

/-- GATED: waits for the cluster OR; a clear gate runs the commit block, a shut one skips it (R253). -/
def State.gatedWord (s : State) (t len : Nat) : State × WordEnd :=
  if s.sched.running && !s.sched.gateKnown then (s, .wait)
  else if s.sched.gateNf || s.sched.gateFail then (s.skipBlock t len, .next (len + 1))
  else
    let tl := s.ltile t
    (s.setLtile t { tl with stoker := { tl.stoker with gatedEnd := some (tl.stoker.pc + 1 + len) } }, .next 1)

/-- GATED. -/
def execGated (t : BitVec 8) (len : BitVec 16) (s : State) : Host.Outcome State Fault Refusal :=
  ok (s.word t (fun s => s.gatedWord t.toNat len.toNat))

/-- STEP: the step's last fence; control returns to the word after the prologue (R244). -/
def execStepWord (t : BitVec 8) (beat : BitVec 16) (s : State) : Host.Outcome State Fault Refusal :=
  ok (s.word t (fun s =>
    let s1 := s.passFence t.toNat 0xD4 beat.toInt
    let t1 := s1.ltile t.toNat
    (s1.setLtile t.toNat { t1 with stoker := { t1.stoker with stepDone := true } }, .jump t1.stoker.bodyStart)))

/-- CLASS on an element: the block's entry, and its fences count from now; a bad class raises FAIL and the tile starts no
further word of the step (R246). -/
def State.classAt (s : State) (t v : Nat) : State × WordEnd :=
  let tl := s.ltile t
  let cx := s.ctx s.sched.ctx
  if 16 ≤ v ∨ cx.nclass ≤ v then
    ((s.setLtile t { tl with stoker := { tl.stoker with halted := true } }).raiseFail, .wait)
  else
    let e := classEntry (nth 0 cx.classes v)
    let ws := opWords 0 0 (cx.program t)
    let more := (classBlock ws e).filterMap (fun p => fenceOf p.2)
    (s.setLtile t { tl with stoker := { tl.stoker with fences := more ++ tl.stoker.fences } }, .jump e)

/-- CLASS: one 32-bit element of flue S; the word waits while the flue holds none. -/
def State.classStep (s : State) (t n : Nat) : State × WordEnd :=
  let tl := s.ltile t
  let st := tl.stream n
  match st.entries.drop st.claimed with
  | [] => (s, .wait)
  | e :: rest =>
    let st1 : Stream := { st with entries := st.entries.take st.claimed ++ rest }
    (s.setLtile t (tl.setStream n (st1.trim (sdFlueFmt (s.ctx st.ctx) st.sd)))).classAt t e.1

/-- CLASS. -/
def execClassWord (t : BitVec 8) (n : BitVec 5) (s : State) : Host.Outcome State Fault Refusal :=
  ok (s.word t (fun s => s.classStep t.toNat n.toNat))

/-- JOIN: continues at word ADDR. -/
def execJoin (t : BitVec 8) (addr : BitVec 32) (s : State) : Host.Outcome State Fault Refusal :=
  ok (s.tileWord t (fun tl =>
    let k := tl.stoker.goto addr.toNat
    ({ tl with stoker := k }, .jump k.pc)))

/-- LAYER: tags the following words. -/
def execLayer (t : BitVec 8) (phase : BitVec 2) (id : BitVec 16) (s : State) : Host.Outcome State Fault Refusal :=
  ok (s.tileWord t (fun tl => ({ tl with stoker := { tl.stoker with phase := phase.toNat, layer := id.toNat } }, .next 1)))

/-- The forward range of a layer in a program (R251): the index of its LAYER word with PHASE 0, and of the next LAYER word. -/
def forwardRange (l : List W64) (id : Nat) : Option (Nat × Nat) :=
  let ws := opWords 0 0 l
  let isFwd := fun (p : Nat × W64) => wordOp p.2 == 0xD7 && field p.2.toNat 0 16 == id && field p.2.toNat 16 2 == 0
  match ws.find? isFwd with
  | none => none
  | some p =>
    match ws.find? (fun q => decide (p.1 < q.1) && wordOp q.2 == 0xD7) with
    | some q => some (p.1, q.1)
    | none => some (p.1, l.length)

/-- The layer table entry of an ID: ACT_S and RC_S (R251). -/
def layerStreams (l : List W64) (id : Nat) : Option (Nat × Nat) :=
  (l.find? (fun e => field e.toNat 0 16 == id)).map (fun e => (field e.toNat 24 5, field e.toNat 32 5))

/-! ## The path ahead -/

/-- The bytes of the descriptor that follows a PASS word at index i. -/
def passBytes (l : List W64) (i : Nat) : List Byte := ((l.drop (i + 1)).take 4).flatMap (fun w => leBytes 8 w.toNat)

/-- A pass descriptor from its bytes (Table 03-7). -/
def parsePass (b : List Byte) : PassDesc :=
  let w0 := leAt b 0 4
  let w4 := leAt b 4 4
  let w8 := leAt b 8 4
  let wc := leAt b 12 4
  { hob := BitVec.ofNat 2 (w0 / 2 ^ 30), split := Nat.testBit w0 29, statNew := Nat.testBit w0 28, chkEn := Nat.testBit w0 27
    accIn := BitVec.ofNat 2 (w0 / 2 ^ 25), final := Nat.testBit w0 24, accSlotIn := BitVec.ofNat 3 (w0 / 2 ^ 21)
    accSlotOut := BitVec.ofNat 3 (w0 / 2 ^ 18), fmtA := BitVec.ofNat 4 (w0 / 2 ^ 12), fmtB := BitVec.ofNat 4 (w0 / 2 ^ 8)
    strmSrc := BitVec.ofNat 2 (w0 / 2 ^ 6), statSrc := BitVec.ofNat 2 (w0 / 2 ^ 4), gsbCap := BitVec.ofNat 2 (w0 / 4)
    gsbRel := Nat.testBit w0 1, flueB := BitVec.ofNat 8 (w4 / 2 ^ 24), flueA := BitVec.ofNat 8 (w4 / 2 ^ 16)
    flueInit := BitVec.ofNat 8 (w4 / 2 ^ 8), mValid := BitVec.ofNat 7 (w8 / 2 ^ 16), nValid := BitVec.ofNat 7 (w8 / 2 ^ 8)
    kValid := BitVec.ofNat 7 w8, quadEn := BitVec.ofNat 4 (wc / 2 ^ 16), tileTag := BitVec.ofNat 16 wc
    passSeq := BitVec.ofNat 32 (leAt b 16 4) }

/-- The word that the stoker reaches after the one it stands at, as far as the program and the gate (shut or clear, none while it
is not known) decide it: a loop body ahead is walked once, and STEP, CLASS and an unknown gate end the walk. -/
def Stoker.onward (k : Stoker) (cx : Ctx) (l : List W64) (gate : Option Bool) : Option Stoker :=
  match l[k.pc]? with
  | none => none
  | some w =>
    let op := wordOp w
    if op = 0xF0 then some (k.goto (k.pc + 5))
    else if op = 0xD3 then gate.map (fun shut => k.goto (k.pc + 1 + if shut then field w.toNat 0 16 else 0))
    else if op = 0xD4 ∨ op = 0xD5 then none
    else if op = 0xD6 then some (k.goto (field w.toNat 0 32))
    else if op = 0xD8 then
      match forwardRange l (field w.toNat 0 16), layerStreams cx.layers (field w.toNat 0 16) with
      | some r, some a => some { k with pc := r.1, recomp := some (k.pc + 1, r.2, a.1, a.2) }
      | _, _ => some (k.goto (k.pc + 1))
    else some (k.goto (k.pc + 1))

/-- The gate of the step as the stokers see it: shut or clear, none while they would wait. -/
def State.gateSeen (s : State) : Option Bool :=
  if s.sched.running && !s.sched.gateKnown then none else some (s.sched.gateNf || s.sched.gateFail)

/-- The words from the stoker's own on along its path, at most n of them, each with the stoker as it stands there. A loop in progress
turns back at most once. -/
def Stoker.path (cx : Ctx) (l : List W64) (gate : Option Bool) : Nat → Stoker → List Stoker
  | 0, _ => []
  | n + 1, k => k :: match k.onward cx l gate with
    | some j => Stoker.path cx l gate n { j with loops := j.loops.map (fun f => { f with left := min f.left 2 }) }
    | none => []

/-- RECOMP: the layer's forward range is run again with ACT_S replaced by RC_S. A layer without an entry or a range, which
JOB_LOAD refuses, replays nothing. -/
def State.recompWord (s : State) (t id : Nat) : State × WordEnd :=
  let tl := s.ltile t
  let cx := s.ctx s.sched.ctx
  match forwardRange (cx.program t) id, layerStreams cx.layers id with
  | some r, some l =>
    (s.setLtile t { tl with stoker := { tl.stoker with recomp := some (tl.stoker.pc + 1, r.2, l.1, l.2) } }, .jump r.1)
  | _, _ => (s, .next 1)

/-- RECOMP. -/
def execRecomp (t : BitVec 8) (id : BitVec 16) (s : State) : Host.Outcome State Fault Refusal :=
  ok (s.word t (fun s => s.recompWord t.toNat id.toNat))

/-- PRO: the next LEN words are the prologue. -/
def execPro (t : BitVec 8) (len : BitVec 16) (s : State) : Host.Outcome State Fault Refusal :=
  ok (s.tileWord t (fun tl =>
    let e := tl.stoker.pc + 1 + len.toNat
    ({ tl with stoker := { tl.stoker with proEnd := some e, bodyStart := e } }, .next 1)))

end Sys2Proof.Machine
end

