-- ==== Sys2Proof/Machine/Exchange.lean ====
section
/-! DEFINITION. Exchange slots (R279 to R288): the fold over shards, COLL frames, and the result. -/

namespace Sys2Proof.Machine

/-- An exchange entry (Table 11-6). -/
structure Exch where
  tOpen : Int
  slot : Nat
  kind : Nat
  wide : Bool
  nlev : Nat
  shards : Nat
  dst : Nat
  src : Nat
  radices : List Nat
  deriving DecidableEq, Repr

/-- The entry at an offset of section 9. -/
def parseExch (l : List Byte) (o : Nat) : Exch :=
  let w0 := leAt l o 4
  let w4 := leAt l (o + 4) 4
  let w8 := leAt l (o + 8) 4
  { tOpen := signed 16 (field w0 16 16), slot := field w0 0 16, kind := field w4 30 2, wide := Nat.testBit w4 29,
    nlev := field w4 24 4, shards := field w4 0 24, dst := field w8 16 16, src := field w8 0 16,
    radices := (List.range (min 8 (field w4 24 4))).map (fun j => leAt l (o + 12 + 2 * j) 2) }

/-- The exchange schedule of a context. -/
def Ctx.exchs (cx : Ctx) : List Exch := (List.range (cx.exch.length / 32)).map (fun i => parseExch cx.exch (32 * i))

/-- The entry of a slot. -/
def Ctx.exchOf (cx : Ctx) (slot : Nat) : Option Exch := cx.exchs.find? (fun e => e.slot == slot)

/-- The product of the first n radices: shards below one value of level n. -/
def Exch.span (e : Exch) (n : Nat) : Nat := (e.radices.take n).foldl (· * ·) 1

/-- L / N, at least 1. -/
def State.perRank (s : State) (e : Exch) : Nat := max 1 (e.shards / s.clusterSize)

/-- The rank that holds val[lev][i] (R283): the holder of the last shard of its group. -/
def State.holder (s : State) (e : Exch) (lev i : Nat) : Nat := ((i + 1) * e.span lev - 1) / s.perRank e

/-- This module's rank (R268). -/
def State.rank (s : State) : Nat := s.devid.getD 0 - s.setting 0x0101

/-- Elements of one shard: E. -/
def Ctx.exchElems (cx : Ctx) (e : Exch) : Nat := (cx.desc e.dst).count

/-- Chunks of a slot. -/
def Ctx.chunks (cx : Ctx) (e : Exch) : Nat := (cx.exchElems e + 2047) / 2048

/-- Elements of a chunk. -/
def Ctx.chunkLen (cx : Ctx) (e : Exch) (c : Nat) : Nat := min 2048 (cx.exchElems e - 2048 * c)

/-- Lists of 64 or fewer. -/
def blocksOf : Nat → List W32 → List (List W32)
  | 0, _ => []
  | n + 1, l => if l.isEmpty then [] else l.take 64 :: blocksOf n (l.drop 64)

/-- The encoding of a block as it travels (Table 11-7): SB16 under R26 in narrow mode, FP32 in wide mode. -/
def encodeBlock (wide : Bool) (l : List W32) : List Byte :=
  if wide then l.flatMap (fun v => leBytes 4 v.toNat)
  else
    let r := sbEncode (l.map (fun v => some (val32 v)))
    r.2.1.flatMap (fun q => leBytes 2 q) ++ leBytes 1 r.1

/-- The values of an encoded block, and the flags that decoding them raises (R27). -/
def decodeBlock (wide : Bool) (b : List Byte) : List W32 × W32 :=
  if wide then ((List.range 64).map (fun i => BitVec.ofNat 32 (leAt b (4 * i) 4)), 0)
  else
    let l := (List.range 64).map (fun i => sbDecode (leAt b (2 * i) 2) (leAt b 128 1))
    (l.map (fun p => p.1), l.foldl (fun f p => f ||| p.2) 0)

/-- The blocks of the values of a chunk. -/
def encodeChunk (wide : Bool) (l : List W32) : List (List Byte) := (blocksOf 32 l).map (encodeBlock wide)

/-- The n values of the blocks of a chunk, and the flags that decoding raises. -/
def decodeChunk (wide : Bool) (n : Nat) (bs : List (List Byte)) : List W32 × W32 :=
  let l := bs.map (decodeBlock wide)
  ((l.flatMap (fun p => p.1)).take n, l.foldl (fun f p => f ||| p.2) 0)

/-- q of R282 over the values of a chunk: encoded, then decoded. -/
def quantise (wide : Bool) (l : List W32) : List W32 := (decodeChunk wide l.length (encodeChunk wide l)).1

/-! ## Memory of a slot -/

/-- The place that a slot's descriptors lie in: the firebox of logical tile 0 where the space is not DVA (log 31). -/
def State.exUnit (s : State) : Nat := s.unitOf 0

/-- Element x of shard j of the source, as FP32; the outermost index is the shard's place in this rank. -/
def State.srcElem (s : State) (cx : Ctx) (e : Exch) (j x : Nat) : W32 :=
  let d := cx.desc e.src
  let inner := d.extents.dropLast
  let t := tupleOf inner x ++ [j % s.perRank e]
  BitVec.ofNat 32 (s.readElem s.exUnit s.sched.ctx d t).1

/-- The values of a chunk of shard j, encoded: val[0][j]. -/
def State.level0 (s : State) (cx : Ctx) (e : Exch) (c j : Nat) : List (List Byte) :=
  encodeChunk e.wide ((List.range (cx.chunkLen e c)).map (fun i => s.srcElem cx e j (2048 * c + i)))

/-- The source tuples of a chunk of shard j. -/
def State.srcTuples (s : State) (cx : Ctx) (e : Exch) (c j : Nat) : List (List Nat) :=
  (List.range (cx.chunkLen e c)).map (fun i => tupleOf (cx.desc e.src).extents.dropLast (2048 * c + i) ++ [j % s.perRank e])

/-- The destination tuples of a chunk. -/
def Ctx.dstTuples (cx : Ctx) (e : Exch) (c : Nat) : List (List Nat) :=
  (List.range (cx.chunkLen e c)).map (fun i => tupleOf (cx.desc e.dst).extents (2048 * c + i))

/-- The address of an FP32 element: alone, or at its position in a block (R148). -/
def Desc.elemAt (d : Desc) (t : List Nat) : Nat := let p := d.place t; if p.single then p.unit else p.unit + 4 * p.pos

/-- The access of the exchange to an element, by the conditions of R193 on its page map entry; a write touches its whole block
(R153). Uncorrectable lines give code 4 to a read (R199, R206); a moving page and a retraining window hold it (R202, R204, R205). -/
def State.exAccess (s : State) (d : Desc) (t : List Nat) (write : Bool) : Access :=
  let p := d.place t
  let a := if write then p.unit else d.elemAt t
  let n := if write then p.unitBytes else 4
  let c := s.sched.ctx
  let e := s.pentry c (a / pageBytes)
  let f := if s.groupFails c (a / pageBytes / 8) then 3 else s.entryFault c e false write
  if d.space ≠ 0 then .go 0 0
  else if f ≠ 0 then .fault f
  else if eMov e then .hold
  else if s.spanHeld (eTier e) (eFrame e) (a % pageBytes) n then .wait
  else if !write && s.spanBad (eTier e) (eFrame e) (a % pageBytes) n then .fault 4
  else .go (eTier e) (eFrame e)

/-- The pages that are not present served before the exchange uses them (R187, R188). -/
def State.exServe (s : State) (d : Desc) (ts : List (List Nat)) (write : Bool) : State :=
  ts.foldl (fun s t => if s.exAccess d t write = .fault 2 then (s.serveAbsent s.sched.ctx (d.elemAt t / pageBytes)).getD s else s) s

/-- An access of the exchange that code 3 or 4 stops: FAIL is raised for the step, which abandons the slot (log 139); firmware counts a
page map fault (R193), a page map line lost in both copies is a module fault, and an uncorrectable line is marked (R199). -/
def State.exFail (s : State) (d : Desc) (t : List Nat) (code : Nat) : State :=
  let p := d.elemAt t / pageBytes
  let c := s.sched.ctx
  let e := s.pentry c p
  if s.sched.failStep.isSome then s
  else if code = 4 then
    let l := (eTier e, eFrame e * 1024 + d.elemAt t % pageBytes / 64)
    ({ s with mem := { s.mem with poison := if s.mem.poison.contains l || eTier e == 2 then s.mem.poison else s.mem.poison ++ [l] } } : State).raiseFail
  else if s.groupFails c (p / 8) then (s.moduleFault (0x130 + s.pmFrame c (p / 8) false % 16)).raiseFail
  else if s.entryBad c e then ({ s with mem := { s.mem with pmFaults := s.mem.pmFaults + 1 } } : State).raiseFail
  else s.raiseFail

/-- The accesses of the exchange to the elements of some tuples: whether they all proceed, with absent pages served; an access that is
held, or whose page cannot be served, waits. -/
def State.exReach (s : State) (d : Desc) (ts : List (List Nat)) (write : Bool) : State × Bool :=
  let s1 := s.exServe d ts write
  match ts.findSome? (fun t => match s1.exAccess d t write with | .go _ _ => none | x => some (x, t)) with
  | none => (s1, true)
  | some (.fault k, t) => (if k = 2 then s1 else s1.exFail d t k, false)
  | some _ => (s1, false)

/-- The flags of R27 that the exchange raises, in logical tile 0 as its NF (log 123). -/
def State.raiseEx (s : State) (f : W32) : State := if f = 0 then s else s.setLtile 0 ((s.ltile 0).raise f)

/-- The positions of a block that no tuple reaches, written with zeros beside its elements (R153). -/
def State.padBlock (s : State) (d : Desc) (t : List Nat) : State :=
  (d.unitTuples t).zipIdx.foldl (fun s o =>
    if o.1.isNone then s.spaceWrite s.exUnit s.sched.ctx d.space ((d.place t).unit + 4 * o.2) (leBytes 4 0) else s) s

/-- One tuple for each block that the tuples lie in; none where each element lies alone. -/
def Desc.blockTuples (d : Desc) (ts : List (List Nat)) : List (List Nat) :=
  if d.layout = 1 then ts.foldl (fun l t => if l.any (fun q => (d.place q).unit == (d.place t).unit) then l else l ++ [t]) [] else []

/-- Elements of the destination written from element x on, blocks whole (R153); a non-finite one sets NF of logical tile 0 (R281). -/
def State.writeDst (s : State) (cx : Ctx) (e : Exch) (x : Nat) (vals : List W32) : State :=
  let d := cx.desc e.dst
  let ts := (List.range vals.length).map (fun i => tupleOf d.extents (x + i))
  let s0 := (List.zip ts vals).foldl (fun s v =>
    s.spaceWrite s.exUnit s.sched.ctx d.space (d.elemAt v.1) (leBytes 4 v.2.toNat)) s
  let s1 := (d.blockTuples ts).foldl (fun s t => s.padBlock d t) s0
  if vals.any (fun v => !(val32 v).isFin) then s1.setLtile 0 ((s1.ltile 0).raise fNF) else s1

/-! ## Frames (R285, R286) -/

/-- U: the payload limit of a frame. -/
def State.uadLimit (s : State) : Nat := s.setting 0x0140 - (if s.ip6 then 40 else 20) - 36

/-- Bytes of a block. -/
def blockBytes (wide : Bool) : Nat := if wide then 256 else 129

/-- The COLL frames of one chunk, n at most, from block `first` on. -/
def State.sendChunkFrom (s : State) (e : Exch) (dst : Nat) (h : Nat × Nat × Nat × Nat) : Nat → Nat → List (List Byte) → State
  | 0, _, _ => s
  | n + 1, first, bs =>
    if bs.isEmpty then s
    else
      let k := max 1 (min (32 - first) ((s.uadLimit - 16) / blockBytes e.wide))
      let now := bs.take k
      let p := beBytes 2 e.slot ++ beBytes 2 0 ++ beBytes 4 h.1 ++ beBytes 4 (2 ^ 31 * h.2.1 + 2 ^ 24 * h.2.2.1 + h.2.2.2) ++
        beBytes 4 (2 ^ 16 * now.length + 2 ^ 15 * bnat e.wide + first) ++ now.flatten
      (s.sendRel dst 2 (s.sched.base.toNat % 65536) p).sendChunkFrom e dst h n (first + k) (bs.drop k)

/-- The blocks of a chunk sent to a rank: chunk, PH, LEV, POS (Table 11-7). -/
def State.sendChunk (s : State) (e : Exch) (toRank chunk ph lev pos : Nat) (bs : List (List Byte)) : State :=
  s.sendChunkFrom e (s.setting 0x0101 + toRank) (chunk, ph, lev, pos) 32 0 bs

/-! ## The fold -/

/-- The slot record. -/
def State.slotOf (s : State) (n : Nat) : ExSlot := tget { isOpen := false } s.net.slots n

/-- The slot record replaced; SLOT_BUSY shows an open slot. -/
def State.setSlotOf (s : State) (n : Nat) (v : ExSlot) : State :=
  let s1 : State := { s with net := { s.net with slots := tset s.net.slots n v } }
  if s1.net.slots.any (fun p => p.2.isOpen) then s1.orIo 0x2004 8 else s1.andnIo 0x2004 8

/-- A key's entry in an association list of values. -/
def valAt (l : List ((Nat × Nat × Nat) × List (List Byte))) (k : Nat × Nat × Nat) : Option (List (List Byte)) :=
  (l.find? (fun p => p.1 == k)).map (fun p => p.2)

/-- The blocks of the held frames of a chunk, where every block has come. -/
def heldChunk (sl : ExSlot) (len chunk : Nat) (result : Bool) (lev pos : Nat) : Option (List (List Byte)) :=
  let fs := sl.held.filter (fun r => r.chunk == chunk && r.result == result && r.lev == lev && r.pos == pos)
  let bs := (List.range ((len + 63) / 64)).map (fun b => match fs.find? (fun r => decide (r.first ≤ b ∧ b < r.first + r.blocks.length)) with
    | some r => r.blocks[b - r.first]?
    | none => none)
  if bs.all (fun b => b.isSome) then some (bs.filterMap id) else none

/-- The chain of ranks that the result of a group takes (R283): the holder of its last member, then those of members 0 to
g − 2. -/
def State.chain (s : State) (e : Exch) (lev grp : Nat) : List Nat :=
  let g := nth 1 e.radices (lev - 1)
  s.holder e (lev - 1) (grp * g + g - 1) :: (List.range (g - 1)).map (fun m => s.holder e (lev - 1) (grp * g + m))

/-- Whether a rank holds a value of a level, and so has the result before that level's groups are served. -/
def State.holdsLevel (s : State) (e : Exch) (lev r : Nat) : Bool :=
  (List.range (e.shards / max 1 (e.span lev))).any (fun i => s.holder e lev i == r)

/-- The ranks that a rank sends the result to, in order: level k down to 1, along each chain; no rank receives it twice. -/
def State.resultTargets (s : State) (e : Exch) (me : Nat) : List Nat :=
  ((List.range e.nlev).reverse.flatMap (fun l =>
    let lev := l + 1
    (List.range (e.shards / max 1 (e.span lev))).flatMap (fun grp =>
      let c := s.chain e lev grp
      (List.zip c c.tail).filterMap (fun p =>
        if p.1 = me ∧ p.2 ≠ me ∧ !s.holdsLevel e lev p.2 then some p.2 else none)))).eraseDups

/-- The result of a chunk is here: it is written, once its pages may be, and its blocks are sent on as they came; the slot completes with
its last chunk. -/
def State.takeResult (s : State) (cx : Ctx) (e : Exch) (chunk : Nat) (bs : List (List Byte)) : State :=
  let sl := s.slotOf e.slot
  let g := s.exReach (cx.desc e.dst) (cx.dstTuples e chunk) true
  if sl.results.any (fun r => r.1 == chunk) then s
  else if !g.2 then g.1
  else
    let v := decodeChunk e.wide (cx.chunkLen e chunk) bs
    let rs := sl.results ++ [(chunk, bs)]
    let full := decide (cx.chunks e ≤ rs.length)
    let s1 := (g.1.writeDst cx e (2048 * chunk) v.1).raiseEx v.2
    let s2 := s1.setSlotOf e.slot { sl with results := rs, complete := full, isOpen := !full }
    (s2.resultTargets e s2.rank).foldl (fun s r => s.sendChunk e r chunk 1 0 0 bs) s2

/-- The result of a chunk taken where it lies here: the value of level k, or the held frames that bring it. -/
def State.finishChunk (s : State) (cx : Ctx) (e : Exch) (chunk : Nat) : State :=
  let sl := s.slotOf e.slot
  match valAt sl.vals (chunk, e.nlev, 0) with
  | some bs => s.takeResult cx e chunk bs
  | none => match heldChunk sl (cx.chunkLen e chunk) chunk true 0 0 with
    | some bs => if decide (chunk < cx.chunks e) && sl.isOpen then s.takeResult cx e chunk bs else s
    | none => s

/-- One node of the fold at this rank (R282, R283): acc of member pos of a level's group, from the acc of the member before it,
which lies here or has come in a frame. Nothing happens while an input is missing. -/
def State.foldAt (s : State) (cx : Ctx) (e : Exch) (chunk lev pos : Nat) : State :=
  let sl := s.slotOf e.slot
  let g := nth 1 e.radices (lev - 1)
  let m := pos % max 1 g
  let len := cx.chunkLen e chunk
  if !(sl.isOpen && decide (1 ≤ lev ∧ lev ≤ e.nlev ∧ pos < e.shards / max 1 (e.span (lev - 1)) ∧ chunk < cx.chunks e) &&
      s.holder e (lev - 1) pos == s.rank) || (valAt sl.accs (chunk, lev, pos)).isSome then s
  else
    let g0 := if lev = 1 then s.exReach (cx.desc e.src) (s.srcTuples cx e chunk pos) false else (s, true)
    let s := g0.1
    if !g0.2 then s else
    let own := if lev = 1 then some (s.level0 cx e chunk pos) else valAt sl.vals (chunk, lev - 1, pos)
    let prev := if m = 0 then some [] else if s.holder e (lev - 1) (pos - 1) = s.rank then valAt sl.accs (chunk, lev, pos - 1)
      else heldChunk sl len chunk false lev (pos - 1)
    match own, prev with
    | some v, some a =>
      let x := decodeChunk e.wide len a
      let y := decodeChunk e.wide len v
      let acc := if m = 0 then v else encodeChunk e.wide (List.zipWith (fun x y => (add32 x y).1) x.1 y.1)
      let last := decide (m + 1 = max 1 g)
      let s1 := (s.raiseEx (x.2 ||| y.2)).setSlotOf e.slot { sl with
        accs := sl.accs ++ [((chunk, lev, pos), acc)]
        vals := if last then sl.vals ++ [((chunk, lev, pos / max 1 g), acc)] else sl.vals }
      if last || s1.holder e (lev - 1) (pos + 1) = s1.rank then s1
      else s1.sendChunk e (s1.holder e (lev - 1) (pos + 1)) chunk 0 lev pos acc
    | _, _ => s

/-- COLL_CHUNK_FOLD: the node, then the result of the chunk where it is now here. -/
def execCollChunkFold (slot : BitVec 16) (chunk lev pos : Nat) (s : State) : Host.Outcome State Fault Refusal :=
  let cx := s.ctx s.sched.ctx
  ok (match cx.exchOf slot.toNat with
    | some e => if s.sched.running && s.pwr.diesUp && getField (s.bar 0x30040) 0 2 != 2 then (s.foldAt cx e chunk lev pos).finishChunk cx e chunk else s
    | none => s)

/-- SLOT_START: step beat T_OPEN has come, as the engine's copy of the beat shows it (R227, log 140), and its fence is met in every tile
(R281). -/
def State.slotStart (s : State) (n : Nat) : State :=
  match (s.ctx s.sched.ctx).exchOf n with
  | none => s
  | some e =>
    if s.sched.running && !s.sched.desync && !s.sched.abandoned && !thas s.net.slots n && decide (s.sched.base + e.tOpen ≤ s.localNow 318) && s.edgeSeen 318 &&
        s.fencesMet (fun m => m.op == 0xD1 && m.barrier && m.beat == e.tOpen) then
      s.setSlotOf n {}
    else s

/-- SLOT_START. -/
def execSlotStart (slot : BitVec 16) (s : State) : Host.Outcome State Fault Refusal := ok (s.slotStart slot.toNat)

/-- Whether every slot of the step is complete (R281). -/
def State.slotsDone (s : State) : Bool := (s.ctx s.sched.ctx).exchs.all (fun e => (s.slotOf e.slot).complete)

/-- Whether a COLL frame meets the receiver's slot, LEV, POS and MODE (R287). -/
def State.collFits (s : State) (cx : Ctx) (e : Exch) (src : Nat) (p : List Byte) : Bool :=
  let w := beAt p 8 4
  let v := beAt p 12 4
  let result := Nat.testBit w 31
  let lev := field w 24 4
  let pos := field w 0 24
  let nblk := field v 16 16
  let first := field v 0 5
  let from_ := src - s.setting 0x0101
  decide (s.setting 0x0101 ≤ src ∧ from_ < s.clusterSize) && Nat.testBit v 15 == e.wide && decide (1 ≤ nblk ∧ first + nblk ≤ 32) && p.length == 16 + nblk * blockBytes e.wide &&
  decide (beAt p 4 4 < cx.chunks e) &&
  (if result then lev == 0 && pos == 0 && (s.resultTargets e from_).contains s.rank
   else decide (1 ≤ lev ∧ lev ≤ e.nlev) && decide ((pos + 1) % max 1 (nth 1 e.radices (lev - 1)) ≠ 0) &&
     decide (pos + 1 < e.shards / max 1 (e.span (lev - 1))) && s.holder e (lev - 1) pos == from_ &&
     s.holder e (lev - 1) (pos + 1) == s.rank && from_ != s.rank)

/-- Whether a COLL frame is stale: of another step execution, or of a slot that is not open (R287). -/
def State.collStale (s : State) (f : Frame) : Bool :=
  let n := beAt f.payload 0 2
  !s.sched.running || f.epoch != s.sched.base.toNat % 65536 || ((s.ctx s.sched.ctx).exchOf n).isNone || !(s.slotOf n).isOpen

/-- A COLL frame that was accepted: disagreeing, or held (R287); a result whose blocks are all here is taken. -/
def State.collArrives (s : State) (f : Frame) : State :=
  let p := f.payload
  let n := beAt p 0 2
  let cx := s.ctx s.sched.ctx
  match cx.exchOf n with
  | none => s
  | some e =>
    let sl := s.slotOf n
    if !s.collFits cx e f.src p then (s.orIo 0x2004 0x40).raiseFail
    else
      let w := beAt p 8 4
      let v := beAt p 12 4
      let b := blockBytes e.wide
      let chunk := beAt p 4 4
      let r : CollRx := { chunk := chunk, result := Nat.testBit w 31, lev := field w 24 4, pos := field w 0 24, first := field v 0 5
                          blocks := (List.range (field v 16 16)).map (fun i => slice p (16 + b * i) b) }
      let s1 := s.setSlotOf n { sl with held := sl.held ++ [r] }
      if r.result then s1.finishChunk cx e chunk else s1

/-- COLL_FRAME_RECEIVE: a stale frame is dropped and counted, and is not acknowledged. -/
def execCollFrameReceive (chimney : BitVec 1) (frame : List Byte) (s : State) : Host.Outcome State Fault Refusal :=
  let a := s.admitFrame chimney.toNat 2 frame
  ok (if s.snapHalted then s.holdFrame (.collFrameReceive chimney frame) else match a.2 with
    | some f =>
      let r := a.1.acceptUnless f chimney.toNat (a.1.collStale f)
      if r.2 then r.1.collArrives f else r.1
    | none => a.1)

/-- The destination of an abandoned slot: free bytes (R288, log 33). -/
def State.loseDst (s : State) (cx : Ctx) (e : Exch) : State :=
  let d := cx.desc e.dst
  ((List.range d.count).foldl (fun (s : State) i =>
    s.spaceWrite s.exUnit s.sched.ctx d.space (d.elemAt (tupleOf d.extents i))
      ((List.range 4).map (fun k => Config.freeByte s.free (4 * i + k)))) s).draw

/-- Every open slot abandoned (R288): complete, ABANDONED set where one was open, its destination undefined, its frames out of
the transmit store. -/
def State.abandonSlots (s0 : State) : State :=
  let cx := s0.ctx s0.sched.ctx
  let open_ := s0.net.slots.any (fun p => p.2.isOpen)
  let s := (cx.exchs.filter (fun e => (s0.slotOf e.slot).isOpen)).foldl (fun (s : State) e => s.loseDst cx e) s0
  let s1 : State := { s with net := { s.net with
      slots := cx.exchs.foldl (fun m e => tset m e.slot { tget { isOpen := false } m e.slot with isOpen := false, complete := true }) s.net.slots
      peers := s.net.peers.map (fun q => (q.1, { q.2 with unacked := q.2.unacked.filter (fun t => t.typ != 2) }))
      waitOut := s.net.waitOut.filter (fun q => q.2.typ != 2) } }
  let s2 := s1.andnIo 0x2004 8
  if open_ then s2.orIo 0x2004 0x10 else s2

end Sys2Proof.Machine
end

