-- ==== Sys2Proof/Machine/FlagNet.lean ====
section
/-! DEFINITION. The flag channel (R248, R274 to R276): rounds joined up a tree, the cluster's OR sent down. -/

namespace Sys2Proof.Machine

/-- The payload of a FLAG frame (Table 11-4). -/
def flagPayload (down : Bool) (r : Round) : List Byte :=
  beBytes 4 (2 ^ 31 * bnat down + 2 ^ 30 * bnat r.nr + 2 ^ 29 * bnat r.fail + 2 ^ 28 * bnat r.fv + 2 ^ 27 * bnat r.nf +
    2 ^ 26 * bnat r.stepFail + 2 ^ 25 * bnat r.gstop + r.cnt % 2 ^ 21) ++
  beBytes 8 r.edge ++ beBytes 8 (r.failStep % 2 ^ 48) ++ beBytes 8 (r.flagStep % 2 ^ 48)

/-- The round of a FLAG payload, and DIR. -/
def parseRound (p : List Byte) : Bool × Round :=
  let w := beAt p 0 4
  (Nat.testBit w 31,
   { edge := beAt p 4 8, nr := Nat.testBit w 30, fail := Nat.testBit w 29, fv := Nat.testBit w 28, nf := Nat.testBit w 27,
     stepFail := Nat.testBit w 26, gstop := Nat.testBit w 25, cnt := field w 0 21, failStep := beAt p 12 8 % 2 ^ 48,
     flagStep := beAt p 20 8 % 2 ^ 48 })

/-- EDGE of a GSTOP frame (R395). -/
def gstopMark : Nat := 0xFFFFFFFFFFFFFFFF

/-- The flag parent; none at the root. -/
def State.flagParent (s : State) : Option Nat :=
  match s.settingOpt 0x0150 with
  | some v => if v = noneValue then none else some v
  | none => none

/-- The OR of two rounds of an edge: the lowest FAIL_STEP of those that set FAIL, the FLAG_STEP of one with FV. -/
def joinRounds (a b : Round) : Round :=
  { edge := a.edge, nr := a.nr || b.nr, fail := a.fail || b.fail, fv := a.fv || b.fv,
    nf := (a.fv && a.nf) || (b.fv && b.nf), stepFail := (a.fv && a.stepFail) || (b.fv && b.stepFail),
    gstop := a.gstop || b.gstop, cnt := a.cnt + b.cnt,
    failStep := if a.fail && b.fail then min a.failStep b.failStep else if a.fail then a.failStep
      else if b.fail then b.failStep else 0,
    flagStep := if a.fv then a.flagStep else if b.fv then b.flagStep else 0 }

/-- Whether rounds with FV = 1 carry different FLAG_STEPs. -/
def flagConflict (l : List Round) : Bool :=
  l.any (fun a => l.any (fun b => a.fv && b.fv && a.flagStep != b.flagStep))

/-- The OR of an edge, where the module holds it. -/
def State.orOf (s : State) (e : Nat) : Option Round := s.net.ors.find? (fun r => r.edge == e)

/-- The module holds the OR of an edge. -/
def State.holdOr (s : State) (r : Round) : State :=
  { s with net := { s.net with ors := s.net.ors ++ [r], sentUp := s.net.sentUp.filter (fun q => q.edge != r.edge) } }

/-- The children whose up frames of an edge have come. -/
def State.childrenOf (s : State) (e : Nat) : List Nat := (s.net.ups.filter (fun u => u.2.edge == e)).map (fun u => u.1)

/-- The down frame to every child. -/
def State.sendDown (s : State) (r : Round) : State :=
  (s.childrenOf r.edge).foldl (fun s c => s.sendBoth c 0 (flagPayload true r)) s

/-- The own round and every child's of an edge are joined once all are there (R275). -/
def State.tryJoin (s : State) (e : Nat) : State :=
  match s.net.own.find? (fun r => r.edge == e) with
  | none => s
  | some own =>
    let ups := (s.net.ups.filter (fun u => u.2.edge == e)).map (fun u => u.2)
    if ups.length < s.setting 0x0151 then s
    else
      let s1 : State := { s with net := { s.net with own := s.net.own.filter (fun r => r.edge != e) } }
      if flagConflict (own :: ups) then s1.orIo 0x2004 0x20
      else
        let r := ups.foldl joinRounds own
        match s1.flagParent with
        | some p => ({ s1 with net := { s1.net with sentUp := s1.net.sentUp ++ [r] } } : State).sendBoth p 0 (flagPayload false r)
        | none => if r.cnt = s1.clusterSize then (s1.holdOr r).sendDown r else s1

/-- The module's round of an edge is sent; records of edges long past are dropped. -/
def State.sendRound (s : State) (r : Round) : State :=
  let fresh := fun (e : Nat) => decide (r.edge ≤ e + 64)
  let n := s.net
  ({ s with net := { n with
      own := n.own.filter (fun q => fresh q.edge) ++ [r]
      ups := n.ups.filter (fun u => fresh u.2.edge)
      upSeen := n.upSeen.filter (fun u => fresh u.1.2)
      ors := n.ors.filter (fun q => fresh q.edge)
      sentUp := n.sentUp.filter (fun q => fresh q.edge) } } : State).tryJoin r.edge

/-- How often each chimney has brought the up frame of a source and edge. -/
def State.upCount (s : State) (src e : Nat) : Nat × Nat :=
  ((s.net.upSeen.find? (fun u => u.1 == (src, e))).map (fun u => u.2)).getD (0, 0)

/-- An up frame noted by the chimney that CHSEL names: whether it is the first copy of its sending, which goes out on both (R276). -/
def State.noteUp (s : State) (src e ch : Nat) : State × Bool :=
  let n := s.upCount src e
  let m := if ch = 0 then (n.1 + 1, n.2) else (n.1, n.2 + 1)
  ({ s with net := { s.net with upSeen := s.net.upSeen.filter (fun u => u.1 != (src, e)) ++ [((src, e), m)] } },
   decide (max n.1 n.2 < if ch = 0 then m.1 else m.2))

/-- An up round from a child: the first copy is used and the second dropped; a repeat of an edge whose down frame was sent is answered
with it (R275, R276). -/
def State.upArrives (s0 : State) (src ch : Nat) (r : Round) : State :=
  let q := s0.noteUp src r.edge ch
  let s := q.1
  if !q.2 then s
  else match s.orOf r.edge with
  | some o => s.sendBoth src 0 (flagPayload true o)
  | none =>
    if s.net.ups.any (fun u => u.1 == src && u.2.edge == r.edge) then s
    else ({ s with net := { s.net with ups := s.net.ups ++ [(src, r)] } } : State).tryJoin r.edge

/-- FLAG_UP_RECEIVE. -/
def execFlagUpReceive (chimney : BitVec 1) (frame : List Byte) (s : State) : Host.Outcome State Fault Refusal :=
  let a := s.admitFrame chimney.toNat 0 frame
  ok (if s.snapHalted then s.holdFrame (.flagUpReceive chimney frame) else match a.2 with
    | some f =>
      let r := parseRound f.payload
      if r.1 || (r.2.gstop && r.2.edge == gstopMark) then a.1 else a.1.upArrives f.src f.chsel r.2
    | none => a.1)

/-- A down round from the parent: the module holds the OR, forwards it, and FLAG_RTT takes the measured round trip, a time
that the model does not measure (log 30). -/
def State.downArrives (s : State) (r : Round) : State :=
  if (s.orOf r.edge).isSome then s
  else (((s.holdOr r).setIo 0x2010 ((Config.freeWord s.free).setWidth 32)).draw).sendDown r

/-- FLAG_DOWN_RECEIVE. -/
def execFlagDownReceive (chimney : BitVec 1) (frame : List Byte) (s : State) : Host.Outcome State Fault Refusal :=
  let a := s.admitFrame chimney.toNat 0 frame
  ok (if s.snapHalted then s.holdFrame (.flagDownReceive chimney frame) else match a.2 with
    | some f =>
      let r := parseRound f.payload
      if !r.1 || (r.2.gstop && r.2.edge == gstopMark) || s.flagParent != some f.src then a.1 else a.1.downArrives r.2
    | none => a.1)

/-- FLAG_UP_REPEAT: every up frame whose down frame has not come is sent again. -/
def execFlagUpRepeat (s : State) : Host.Outcome State Fault Refusal :=
  ok (if !s.portsUp then s else match s.flagParent with
    | some p => s.net.sentUp.foldl (fun s r => s.sendBoth p 0 (flagPayload false r)) s
    | none => s)

end Sys2Proof.Machine
end

