-- ==== Sys2Proof/Machine/StreamCmds.lean ====
section
/-! DEFINITION. The stream commands: the stoker's ARM, REARM, RING and DISARM, what the bellows do, faults inside a transfer,
the weight ring, and the host's DESC_CREATE and STREAM_ARM (R133, R156, R161 to R183, R242). -/

namespace Sys2Proof.Machine

/-- Where stream n of logical tile t stands. -/
def State.at (s : State) (t n : Nat) : At := ⟨s.unitOf t, t, n⟩

/-- Whether the bellows of a tile run: its die is up, its domain has a clock and has seen the edge that began the step (R255), nothing is
stopped, no migration quiesces it (R343, R394, R397). -/
def State.bellowsRun (s : State) (t : Nat) : Bool :=
  s.pwr.diesUp && s.clocked (s.unitOf t) && (!s.sched.running || s.edgeSeen (s.unitOf t)) && !s.stopped && !(s.ltile t).stoker.quiesced

/-! ## ARM, REARM, DISARM (R156, R161, R169, R170) -/

/-- Whether an arm may begin: IDLE, DONE or ABORTED, or the same arm waiting for units. -/
def Stream.armable (st : Stream) : Bool := st.state == 0 || st.state == 3 || st.state == 4 || st.state == 5

/-- A stream that a word of the firebox's own program arms or re-arms: where that word stands (R255). -/
def Tile.markArm (tl : Tile) (n : Nat) : Tile := tl.setStream n { tl.stream n with armedIn := tl.stoker.place }

/-- ARM: the word waits while the stream is in use or units are missing; an arm that R161 refuses, or an entry that the table
lacks, has no effect (JOB_LOAD refuses such a program). -/
def State.armWord (s : State) (t sdi n : Nat) : State × WordEnd :=
  let cx := s.ctx s.sched.ctx
  let tl := s.ltile t
  let k := tl.stoker.subst n
  match cx.sdt[sdi]? with
  | none => (s, .next 1)
  | some sd =>
    if !streamOk cx sd then (s, .next 1)
    else if !(tl.stream k).armable then (s, .wait)
    else
      let t1 := (tl.armStream k cx s.sched.ctx sd).markArm k
      (s.setLtile t t1, if (t1.stream k).state = 5 then .wait else .next 1)

/-- A stream word that the stoker reaches: one that the bellows have acted on ahead is complete (R163). -/
def State.streamWord (s : State) (t : BitVec 8) (f : State → State × WordEnd) : State :=
  s.word t (fun s =>
    let tl := s.ltile t.toNat
    let k := tl.stoker
    if k.ahead.contains k.pc then (s.setLtile t.toNat { tl with stoker := { k with ahead := k.ahead.erase k.pc } }, .next 1) else f s)

/-- ARM. -/
def execArm (t : BitVec 8) (sd : BitVec 14) (n : BitVec 5) (s : State) : Host.Outcome State Fault Refusal :=
  ok (s.streamWord t (fun s => s.armWord t.toNat sd.toNat n.toNat))

/-- ARM_WAIT_END: the waiting ARM word completes once enough units are free (R156). -/
def State.armWaitEnd (s : State) (t n : Nat) : State × WordEnd :=
  let tl := s.ltile t
  let st := tl.stream n
  match st.pendArm with
  | none => (s, .wait)
  | some sd =>
    let t1 := (tl.armStream n (s.ctx st.ctx) st.ctx sd).markArm n
    (s.setLtile t t1, if (t1.stream n).state = 5 then .wait else .next 1)

/-- ARM_WAIT_END. -/
def execArmWaitEnd (t : BitVec 8) (n : BitVec 5) (s : State) : Host.Outcome State Fault Refusal :=
  ok (if (s.ltile t.toNat).stream n.toNat |>.state |> (· = 5) then s.word t (fun s => s.armWaitEnd t.toNat n.toNat) else s)

/-- SCALE_BASE that a re-arm entry gives: 0 leaves the stream's own (R155). -/
def Stream.newScale (st : Stream) (scale : Nat) : Nat := if scale = 0 then st.scaleBase else scale

/-- The cursor of a stream that took an entry at once shows 0; a stream's slot offered an entry. -/
def Tile.offerTo (tl : Tile) (n base scale : Nat) : Tile := tl.setStream n ((tl.stream n).offer base scale)

/-- REARM (R169, R170): refused on a stream that takes no entry or, with WAIT = 0, whose slot is full; waits on a full slot
with WAIT = 1; a failing range test raises FAIL; else the entry goes to the slot. -/
def State.rearmWord (s : State) (t ra : Nat) (wait : Bool) (n : Nat) : State × WordEnd :=
  let cx := s.ctx s.sched.ctx
  let tl := s.ltile t
  let k := tl.stoker.subst n
  let st := tl.stream k
  match (tget [] cx.rearm t)[ra]? with
  | none => (s, .next 1)
  | some e =>
    if !st.takesRearm then (s.setLtile t (tl.refuseRearm k), .next 1)
    else if st.slot.isSome then
      if wait then (s, .wait) else (s.setLtile t (tl.refuseRearm k), .next 1)
    else if !rearmOk (s.ctx st.ctx) st.sd e.1 (st.newScale e.2) then (s.raiseFail, .next 1)
    else (s.setLtile t ((tl.offerTo k e.1 e.2).markArm k), .next 1)

/-- REARM. -/
def execRearm (t : BitVec 8) (ra : BitVec 12) (wait : Bool) (n : BitVec 5) (s : State) : Host.Outcome State Fault Refusal :=
  ok (s.streamWord t (fun s => s.rearmWord t.toNat ra.toNat wait n.toNat))

/-- DISARM: a waiting slot entry is dropped; a stream in a pass becomes IDLE at its end, any other at once. -/
def Tile.disarm (tl : Tile) (fmt : BitVec 4) (n : Nat) : Tile :=
  let st := { tl.stream n with slot := none }
  tl.setStream n (if st.state = 1 then { st with disarm := true }
    else ({ st with state := 0, stall := false, pendArm := none } : Stream).trim fmt)

/-- The flue format of stream n of a tile. -/
def State.flueFmt (s : State) (tl : Tile) (n : Nat) : BitVec 4 := sdFlueFmt (s.ctx (tl.stream n).ctx) (tl.stream n).sd

/-- DISARM. -/
def execDisarm (t : BitVec 8) (n : BitVec 5) (s : State) : Host.Outcome State Fault Refusal :=
  ok (s.word t (fun s =>
    let tl := s.ltile t.toNat
    (s.setLtile t.toNat (tl.disarm (s.flueFmt tl n.toNat) n.toNat), .next 1)))

/-- PERSIST_WRITE_REFUSED: a write into a SPACE 1 PERSIST range outside a commit block or the prologue writes nothing and
raises FAIL (R242); where no such range is guarded now there is none to refuse. -/
def execPersistWriteRefused (t : BitVec 8) (s : State) : Host.Outcome State Fault Refusal :=
  ok (if (s.guards (s.ltile t.toNat)).isEmpty then s else s.raiseFail)

/-! ## What the bellows do (R158, R162, R169, R177, R178) -/

/-- What a stream's access meets noted: one that a page move holds is counted once, by the element and the page that it is held at
(R202); one that proceeds is held no longer. -/
def State.noteMov (s : State) (a : At) (x : Stop) : State :=
  let st := s.streamAt a
  match x with
  | .access .hold addr =>
    if st.mov = some (st.pos, addr / pageBytes) then s
    else
      let s1 := s.setStreamAt a { st with mov := some (st.pos, addr / pageBytes) }
      s1.setTile a.u ((s1.tile a.u).bump 0x080C 1)
  | _ => if st.mov.isSome then s.setStreamAt a { st with mov := none } else s

/-- STREAM_TRANSFER: up to n elements, each delivered or written as its grouping allows; the transfer stops before the first
element that cannot proceed. -/
def execStreamTransfer (t : BitVec 8) (n : BitVec 5) (count : Nat) (s : State) : Host.Outcome State Fault Refusal :=
  ok (if s.bellowsRun t.toNat then
      let r := s.transfer (s.at t.toNat n.toNat) (s.streamAt (s.at t.toNat n.toNat)).ctx count
      r.1.noteMov (s.at t.toNat n.toNat) r.2
    else s)

/-- Whether a stream stands at the end of its stream pass with every transfer complete. -/
def Stream.passOver (st : Stream) (cx : Ctx) : Bool :=
  st.state == 1 && !st.stall && sdKind st.sd != 3 && decide (walkCount cx st.sd ≤ st.pos) && st.buf.isEmpty

/-- A stream at the end of its pass (R162, R169): STR_CNT_PASS, then IDLE after DISARM, DONE without PERSIST, the slot's entry
taken, or PARKED. -/
def Stream.endPass (st : Stream) (fmt : BitVec 4) : Stream :=
  let st1 := { st with cntPass := st.cntPass + 1 }
  let st2 : Stream :=
    if st.disarm then { st1 with state := 0, disarm := false, slot := none }
    else if !sdPersist st.sd then { st1 with state := 3 }
    else if st.slot.isSome then st1.takeSlot
    else { st1 with state := 2 }
  st2.trim fmt

/-- STREAM_PASS_END. -/
def execStreamPassEnd (t : BitVec 8) (n : BitVec 5) (s : State) : Host.Outcome State Fault Refusal :=
  let tl := s.ltile t.toNat
  let st := tl.stream n.toNat
  ok (if s.works (s.unitOf t.toNat) && st.passOver (s.ctx st.ctx) then s.setLtile t.toNat (tl.setStream n.toNat (st.endPass (s.flueFmt tl n.toNat))) else s)

/-! ## Faults inside a transfer (R179 to R181) -/

/-- TRANSLATION_MISS: the cache (a firebox slot, or 272 for the host cache) reads its group's line from the primary or the
copy (R194); a group that is cached is not read. -/
def execTranslationMiss (cache : Nat) (ctx : BitVec 2) (page : Nat) (s : State) : Host.Outcome State Fault Refusal :=
  let x : Xlat := if cache < 272 then some cache else none
  guardPart (decide (cache ≤ 272)) .noSuchUnit
    (if ((s.xcOf x).find ctx.toNat (page % 2 ^ 26 / 8)).isSome || (decide (cache < 272) && !s.works cache) then s else (s.xcFill x ctx.toNat (page % 2 ^ 26 / 8)).1)

/-- COPY_ON_WRITE_FAULT: where the stream's next write needs a copy, the ember engine makes it, CP is set and the write may
proceed; with the snapshot area full the stream is held (R179, R197, R305). -/
def State.cowFault (s : State) (a : At) (c : Nat) : State :=
  let r := s.nextStop a c
  match r.2 with
  | .access .cow addr =>
    let s1 := r.1.setTile a.u ((r.1.tile a.u).bump 0x0384 1)
    let s2 := (s1.stallAt a 1 addr).count a.u 0x35 1
    let q := s2.cow c (addr / pageBytes) (!(s2.streamAt a).full)
    match q.2 with
    | .done =>
      let s3 := q.1.xcMark (some a.u) c (addr / pageBytes)
      s3.setStreamAt a { s3.streamAt a with stall := false, full := false }
    | .full => q.1.setStreamAt a { q.1.streamAt a with full := true }
  | _ => s

/-- COPY_ON_WRITE_FAULT. -/
def execCopyOnWriteFault (t : BitVec 8) (n : BitVec 5) (s : State) : Host.Outcome State Fault Refusal :=
  ok (if s.bellowsRun t.toNat then s.cowFault (s.at t.toNat n.toNat) (s.streamAt (s.at t.toNat n.toNat)).ctx else s)

/-- A translation fault of a code: the cursor is held, STR_FAULT records it, BLW_CNT_PF counts it (R179). -/
def State.pageFault (s : State) (a : At) (c code : Nat) : State :=
  let r := s.nextStop a c
  match r.2 with
  | .access (.fault k) addr =>
    if k = code then
      let s1 := r.1.stallAt a code addr
      s1.setTile a.u ((s1.tile a.u).bump 0x0388 1)
    else s
  | _ => s

/-- PAGE_NOT_PRESENT_FAULT. -/
def execPageNotPresentFault (t : BitVec 8) (n : BitVec 5) (s : State) : Host.Outcome State Fault Refusal :=
  ok (if s.bellowsRun t.toNat then s.pageFault (s.at t.toNat n.toNat) (s.streamAt (s.at t.toNat n.toNat)).ctx 2 else s)

/-- PROTECTION_FAULT. -/
def execProtectionFault (t : BitVec 8) (n : BitVec 5) (s : State) : Host.Outcome State Fault Refusal :=
  ok (if s.bellowsRun t.toNat then s.pageFault (s.at t.toNat n.toNat) (s.streamAt (s.at t.toNat n.toNat)).ctx 3 else s)

/-- FAULT_SERVED: firmware maps the page of a not-present fault (first touch, or a rebuilt tier 3 page) and the stream
resumes; any other held fault resumes as it stands. A page that cannot be mapped stays held. -/
def State.faultServed (s : State) (a : At) : State :=
  let st := s.streamAt a
  let c := st.ctx
  let p := st.faultDva / pageBytes
  let release := fun (s : State) => s.setStreamAt a { s.streamAt a with stall := false }
  if !st.stall then s
  else if getField st.fault 28 4 = 2 then
    match s.serveAbsent c p with | some s1 => release s1 | none => s
  else release s

/-- FAULT_SERVED. -/
def execFaultServed (t : BitVec 8) (n : BitVec 5) (s : State) : Host.Outcome State Fault Refusal :=
  ok (s.faultServed (s.at t.toNat n.toNat))

/-- An index fault counts its index (R166): STR_CNT_IDX and NEG_SEEN or OOR_SEEN. -/
def Stream.countFault (st : Stream) (code : Nat) : Stream :=
  { st with cntIdx := st.cntIdx + 1, sticky := setBit st.sticky (if code = 5 then 9 else 10) }

/-- STREAM_ABORT with a code of Table 07-4 (R181): a data error on a read; a page fault that the stream is held at and firmware
declares unrecoverable; an index fault at the next element. The faulting DVA is that of the access or of the held fault; where
the spec names none a free value stands there (log 25). With no such cause nothing changes. -/
def State.abortWith (s : State) (a : At) (code : Nat) : State :=
  let st := s.streamAt a
  let r := s.nextStop a st.ctx
  let free := fun (s : State) => (s.abortStream a code ((Config.freeWord s.free).toNat % 2 ^ 42)).draw
  if code = 4 then
    match r.2 with
    | .access (.fault 4) addr => if st.stall then free s else r.1.abortStream a code addr
    | _ => free s
  else if code = 2 ∨ code = 3 then
    if st.stall && getField st.fault 28 4 == code then s.abortStream a code st.faultDva else s
  else if !st.stall && decide (r.2 = .index code) then free (s.setStreamAt a (st.countFault code))
  else s

/-- STREAM_ABORT. -/
def execStreamAbort (t : BitVec 8) (n : BitVec 5) (code : BitVec 4) (s : State) : Host.Outcome State Fault Refusal :=
  let st := s.streamAt (s.at t.toNat n.toNat)
  ok (if st.state = 1 && s.works (s.unitOf t.toNat) then s.abortWith (s.at t.toNat n.toNat) code.toNat else s)

/-! ## The weight ring (R172 to R176) -/

/-- Streams linked to ring stream n of a firebox (R175). -/
def Tile.linked (tl : Tile) (n : Nat) : List Nat :=
  (List.range 32).filter (fun k => sdRingLink (tl.stream k).sd && sdRingS (tl.stream k).sd == n && (tl.stream k).state != 0)

/-- Entry RA_BASE + 2·SLICE + BUF offered to a linked stream: refused where the stream takes none, dropped where its range
test fails (R169, R175). -/
def State.linkOne (s : State) (t slice buf n : Nat) : State :=
  let tl := s.ltile t
  let st := tl.stream n
  let cx := s.ctx st.ctx
  match (tget [] cx.rearm t)[sdRaBase st.sd + 2 * slice + buf]? with
  | none => s
  | some e =>
    if !st.takesRearm then s.setLtile t (tl.refuseRearm n)
    else if !rearmOk cx st.sd e.1 (st.newScale e.2) then s
    else s.setLtile t (tl.offerTo n e.1 e.2)

/-- Every linked stream offered its entry. -/
def State.linkAll (s : State) (t n slice buf : Nat) : State :=
  ((s.ltile t).linked n).foldl (fun s k => s.linkOne t slice buf k) s

/-- Slice i of descriptor d as slot u and context c see it, written into half b of the buffer pair of a ring stream: by runs of
bytes where both lie so, else element by element with equal index tuples, in logical order under OVL (R145), granules and blocks
whole (R152, R153). -/
def State.copySlice (s : State) (a : At) (u c : Nat) (d : Desc) (i b : Nat) : State :=
  let st := s.streamAt a
  let db := (s.ctx st.ctx).desc (sdDescB st.sd)
  if d.packedSlice && db.packedSlice && db.ovl == 0 then
    let s1 := s.streamPut a st.ctx 1 (outerAddr db b) (s.spaceRead u c d.space (outerAddr d i) (sliceBytes d))
    if scaleBlock d.fmt = 0 then s1
    else s1.streamPut a st.ctx 1 (outerScale db b) (s.spaceRead u c d.space (outerScale d i) (d.sliceCount / scaleBlock d.fmt))
  else
    let ext := d.extents.take (d.ndim - 1)
    let es := (List.range d.sliceCount).map (fun j => (tupleOf ext j ++ [b], s.readElem u c d (tupleOf ext j ++ [i])))
    if granule d.fmt = 1 ∧ db.layout = 0 then es.foldl (fun s e => s.putElem a st.ctx st db e.1 e.2.1 e.2.2) s
    else
      ((es.map (fun e => (db.place e.1).unit)).dedup).foldl (fun s un =>
        match es.filter (fun e => (db.place e.1).unit == un) with
        | e :: r => s.putUnit a st.ctx st db e.1 (e :: r)
        | [] => s) s

/-- The slice that a firebox's ring waits to fetch. -/
def State.setWant (s : State) (u : Nat) (w : Option (Nat × Nat)) : State :=
  let tl := s.tile u
  s.setTile u { tl with ring := { tl.ring with want := w } }

/-- Slice i fetched from DESC_A into half b of the buffer pair; the fetch waits while the stream stands at a fault or an access
may not proceed, which the fault commands then find (R179). -/
def State.fetchSlice (s : State) (a : At) (i b : Nat) : State × Bool :=
  let st := s.streamAt a
  let da := st.descA (s.ctx st.ctx)
  let r := s.sliceReach a.u st.ctx da i
  if st.stall || r.2.isSome then (s.setWant a.u (some (i, b)), false)
  else ((r.1.copySlice a a.u st.ctx da i b).setWant a.u none, true)

/-- RING: starts a rotation of a running ring stream: step 0 loads the slice of the tile's own number into buffer 0, and linked
streams receive their entries. The word waits while a rotation runs, while the stream does not, while a linked slot is full, or
while the load is held. -/
def State.ringWord (s : State) (t n : Nat) : State × WordEnd :=
  let tl := s.ltile t
  let k := n
  let st := tl.stream k
  if tl.ring.active || st.state != 1 || sdKind st.sd != 3 || (tl.linked k).any (fun j => (tl.stream j).slot.isSome) then (s, .wait)
  else
    let r := s.fetchSlice (s.at t k) t 0
    if !r.2 then (r.1, .wait)
    else
      let tl1 := r.1.ltile t
      let st1 : Stream := { tl1.stream k with pos := 0, cursorPos := 0 }
      let s1 := r.1.setLtile t { tl1.setStream k st1 with ring := { active := true, s := k, step := 0, inUse := 0, slice := t } }
      (s1.linkAll t k t 0, .next 1)

/-- RING. -/
def execRingStart (t : BitVec 8) (n : BitVec 5) (s : State) : Host.Outcome State Fault Refusal :=
  ok (s.streamWord t (fun s => s.ringWord t.toNat n.toNat))

/-- The active station upstream of a slot: the next lower slot that holds a logical tile, round from 271 (R172). -/
def State.upstream (s : State) (u : Nat) : Option Nat :=
  ((List.range 272).map (fun i => (u + 271 - i) % 272)).find? (fun v => (s.tileOf v).isSome)

/-- RING_SLICE_RECEIVE: the in-use slice of the upstream station, whose domain runs (R226), arrives in the other half of the buffer pair; a scratch word with
an uncorrectable error makes the bellows fetch the slice from DESC_A by its number (R173, R174). -/
def State.ringReceive (s : State) (t n : Nat) (ue : Bool) : State :=
  let a := s.at t n
  let tl := s.tile a.u
  match s.upstream a.u with
  | none => s
  | some v =>
    let up := s.tile v
    if !s.works v || !tl.ring.active || tl.ring.s != n || (tl.stream n).state != 1 || tl.ring.recv.isSome || decide (255 ≤ tl.ring.step) ||
        !up.ring.active || (up.stream up.ring.s).state != 1 || up.ring.sent || up.ring.step != tl.ring.step then s
    else
      let b := 1 - tl.ring.inUse
      let ust := up.stream up.ring.s
      let udb := (s.ctx ust.ctx).desc (sdDescB ust.sd)
      let r := if ue then
          let f := s.fetchSlice a up.ring.slice b
          (if f.2 then f.1.setTile a.u ((f.1.tile a.u).bump 0x0394 1) else f.1, f.2)
        else (s.copySlice a v ust.ctx udb up.ring.inUse b, true)
      if !r.2 then r.1
      else
        let t1 := r.1.tile a.u
        let s1 := r.1.setTile a.u { t1 with ring := { t1.ring with recv := some up.ring.slice } }
        let u1 := s1.tile v
        ((s1.setTile v { u1 with ring := { u1.ring with sent := true } }).emit (.ringSlice t up.ring.slice)).count a.u 0x36 1

/-- RING_SLICE_RECEIVE. -/
def execRingSliceReceive (t : BitVec 8) (n : BitVec 5) (ue : Bool) (s : State) : Host.Outcome State Fault Refusal :=
  ok (if s.bellowsRun t.toNat then s.ringReceive t.toNat n.toNat ue else s)

/-- RING_STEP_END: with the receive buffer full, the in-use slice sent and every linked stream at the end of its pass, the
buffers swap and linked streams receive their entries; step 255 ends the stream pass (R173, R175). -/
def State.ringStepEnd (s : State) (t n : Nat) : State :=
  let tl := s.ltile t
  let g := tl.ring
  let ended := fun (st : Stream) => (st.state == 2 || st.state == 3) && st.slot.isNone
  let free := (tl.linked n).all (fun k => ended (tl.stream k))
  if !g.active || g.s != n || (tl.stream n).state != 1 || !free then s
  else if g.step = 255 then
    let st : Stream := { tl.stream n with cursorPos := 256 }
    s.setLtile t { tl.setStream n (st.endPass (s.flueFmt tl n)) with ring := {} }
  else
    match g.recv with
    | none => s
    | some sl =>
      if !g.sent then s
      else
        let st : Stream := { tl.stream n with pos := g.step + 1, cursorPos := g.step + 1 }
        let s1 := s.setLtile t { tl.setStream n st with
          ring := { g with step := g.step + 1, inUse := 1 - g.inUse, slice := sl, recv := none, sent := false } }
        s1.linkAll t n sl (1 - g.inUse)

/-- RING_STEP_END. -/
def execRingStepEnd (t : BitVec 8) (n : BitVec 5) (s : State) : Host.Outcome State Fault Refusal :=
  ok (if s.bellowsRun t.toNat then s.ringStepEnd t.toNat n.toNat else s)

/-! ## Host commands (R133, R161, R164) -/

/-- Whether a byte range of a space lies within one allocation record of a context (R242). -/
def Ctx.owner (cx : Ctx) (d : Desc) : Option AllocRec :=
  cx.allocs.find? (fun a => a.space == d.space && decide (a.base ≤ d.allocBase ∧ d.allocBase + d.allocSize ≤ a.base + a.size))

/-- DESC_CREATE: validated under R146; the descriptor number is the reply. A context without a loaded image or with a full table
is refused (R133). -/
def State.descCreate (s : State) (k : Slot) (c : Nat) (l : List Byte) : State :=
  let cx := s.ctx c
  let v := validateDesc l
  if !cx.jobLoaded then s.deny k stNOPERM
  else if 16384 ≤ cx.descs.length then s.deny k stNOPERM
  else if v ≠ 0 then s.deny k v
  else
    let s1 := s.setCtx c { cx with descs := cx.descs ++ [parseDesc l] }
    s1.okData k (leBytes 2 cx.descs.length)

/-- DESC_CREATE. -/
def execDescCreate (k : Slot) (ctx : BitVec 2) (desc : List Byte) (s : State) : Host.Outcome State Fault Refusal :=
  ok (s.descCreate k ctx.toNat desc)

/-- Whether the tiles hold the context's job: it was started and is the last one started (log 26). -/
def State.hostJob (s : State) (c : Nat) : Bool :=
  (s.ctx c).jobLoaded && s.sched.ctx == c && (s.ctx c).state != 0

/-- STREAM_ARM (R161, R164, R242): refused for a stream that R161 refuses or that writes a PERSIST, FROZEN or INPUT allocation;
BUSY while the stream is in use or its units are not free, and for a firebox whose bellows do not run (log 149). -/
def State.hostArm (s : State) (k : Slot) (c n t sd : Nat) : State :=
  let cx := s.ctx c
  let tl := s.ltile t
  let st := tl.stream n
  let dest := if sdKind sd = 1 then cx.desc? (sdDescA sd) else if sdKind sd = 2 then cx.desc? (sdDescB sd) else none
  let guarded := match dest with
    | some d => cx.allocs.any (fun a => a.space == d.space && a.cls != 0 &&
        decide (d.allocBase < a.base + a.size ∧ a.base < d.allocBase + d.allocSize))
    | none => false
  if !s.hostJob c || !streamOk cx sd || guarded then s.deny k stNOPERM
  else if st.state = 5 || !st.armable || !s.works (s.unitOf t) then s.deny k stBUSY
  else
    let t1 := tl.armStream n cx c sd
    if (t1.stream n).state = 5 then s.deny k stBUSY
    else (s.setLtile t t1).ok k

/-- STREAM_ARM. -/
def execStreamArm (k : Slot) (ctx : BitVec 2) (n : BitVec 5) (t : BitVec 8) (sd : BitVec 128) (s : State) :
    Host.Outcome State Fault Refusal :=
  ok (s.hostArm k ctx.toNat n.toNat t.toNat sd.toNat)

/-- STREAM_ARM as a re-arm (R164, R169, R170). -/
def State.hostRearm (s : State) (k : Slot) (c n t base scale : Nat) : State :=
  let cx := s.ctx c
  let tl := s.ltile t
  let st := tl.stream n
  if !s.hostJob c || !st.takesRearm then s.deny k stNOPERM
  else if !s.works (s.unitOf t) then s.deny k stBUSY
  else if st.slot.isSome then s.deny k stREARM
  else if !rearmOk cx st.sd base (st.newScale scale) then s.deny k stRANGE
  else (s.setLtile t (tl.offerTo n base scale)).ok k

/-- STREAM_ARM_REARM. -/
def execStreamArmRearm (k : Slot) (ctx : BitVec 2) (n : BitVec 5) (t : BitVec 8) (base scaleBase : BitVec 64) (s : State) :
    Host.Outcome State Fault Refusal :=
  ok (s.hostRearm k ctx.toNat n.toNat t.toNat base.toNat scaleBase.toNat)

end Sys2Proof.Machine
end

