-- ==== Sys2Proof/Machine/Hob.lean ====
section
/-! DEFINITION. The hobs: passes, their issue and commit, the fold, the gradient share buffer, checks and replays
(R41 to R46, R52 to R81, R158, R159, R425). -/

namespace Sys2Proof.Machine

/-! ## Shape of a pass (R425) -/

/-- Rows and columns of a pass's square: 64 in whole mode, 32 in split mode. -/
def passSide (d : PassDesc) : Nat := if d.split then 32 else 64

/-- The quadrants that a pass runs; in whole mode the one array. -/
def passQuads (d : PassDesc) : List Nat := if d.split then (List.range 4).filter (fun q => d.quadEn.getLsbD q) else [0]

/-- Entries of a whole operand: one square for each quadrant that runs. -/
def passOperand (d : PassDesc) : Nat := (passQuads d).length * passSide d * passSide d

/-- FLUE_B entries that a pass takes. -/
def passNeedB (d : PassDesc) : Nat := if d.strmSrc = 0 then passOperand d else 0
/-- FLUE_A entries that a pass takes. -/
def passNeedA (d : PassDesc) : Nat := if d.statNew && d.statSrc == 0 then passOperand d else 0
/-- FLUE_INIT entries that a pass takes. -/
def passNeedI (d : PassDesc) : Nat := if d.accIn = 2 then 4096 else 0

/-- The GSB halves that a pass names in STRM_SRC, STAT_SRC or GSB_CAP. -/
def passNames (d : PassDesc) (half : Nat) : Bool :=
  d.strmSrc.toNat == half + 1 || d.statSrc.toNat == half + 1 || d.gsbCap.toNat == half + 1

/-- The stationary operand of a pass as its processing elements hold it: one that nothing has written holds +0 (log 5). -/
def FlyPass.stationary (f : FlyPass) : List (Nat × Nat) :=
  f.stat ++ List.replicate (passOperand f.d - f.stat.length) (0, 0)

/-! ## The fold (R42, R43, R56) -/

/-- One step of the fold: one exact product added with one FP32 RNE rounding. -/
def foldStep (acc : Num × W32) (p : Num × Num) : Num × W32 :=
  let r := fmaNum .rne p.1 p.2 acc.1
  let q := packArith fp32 .rne r.1
  (decodeFloat fp32 q.1, acc.2 ||| r.2 ||| q.2)

/-- The exact sum of a block's products, and its flags. -/
def blockSum : List (Num × Num) → Num × W32
  | [] => (Num.zero, 0)
  | [p] => mulNum p.1 p.2
  | p :: r =>
    let m := mulNum p.1 p.2
    let t := blockSum r
    let s := addNum .rne m.1 t.1
    (s.1, m.2 ||| t.2 ||| s.2)

/-- One MX block added with one rounding (R43). -/
def foldBlock (acc : Num × W32) (b : List (Num × Num)) : Num × W32 :=
  let s := blockSum b
  let r := addNum .rne acc.1 s.1
  let q := packArith fp32 .rne r.1
  (decodeFloat fp32 q.1, acc.2 ||| s.2 ||| r.2 ||| q.2)

/-- One output element: the fold over a streamed row and a stationary column, both cut to K_VALID. -/
def foldElem (mx : Bool) (init : W32) (row col : List Num) : W32 × W32 :=
  let ps := List.zip row col
  let a0 : Num × W32 := (val32 init, 0)
  let r := if mx then (chunks 32 ((ps.length + 31) / 32) ps).foldl foldBlock a0 else ps.foldl foldStep a0
  (BitVec.ofNat 32 (packArith fp32 .rne r.1).1, r.2)

/-- A pass's operand of one quadrant as lines of values cut to K_VALID: rows of the streamed operand, columns of the stationary
one (R425). -/
def operandLines (side k : Nat) (fmt : BitVec 4) (es : List (Nat × Nat)) : List (List (Num × W32)) :=
  (chunks side side es).map (fun l => (l.take k).map (fun e => elemNum fmt e.1 e.2))

/-- One quadrant's lines, number i of those that run. -/
def quadLines (d : PassDesc) (fmt : BitVec 4) (es : List (Nat × Nat)) (i : Nat) : List (List (Num × W32)) :=
  operandLines (passSide d) d.kValid.toNat fmt ((es.drop (i * (passSide d) * (passSide d))).take ((passSide d) * (passSide d)))

/-- The initial tile of a pass: +0, the named slot, or the entries of FLUE_INIT. -/
def passInit (h : Hob) (f : FlyPass) : Tile64 :=
  if f.d.accIn = 1 then tget [] h.slots f.d.accSlotIn.toNat
  else if f.d.accIn = 2 then f.init.map (fun e => BitVec.ofNat 32 e.1)
  else []

/-- Where output (r, c) of the tile comes from: its quadrant's number among those that run, m and n; none where it is +0
(R56, and the placement of split mode). -/
def outPlace (d : PassDesc) (r c : Nat) : Option (Nat × Nat × Nat) :=
  let q := if d.split then 2 * (r / 32) + c / 32 else 0
  let m := r % (passSide d)
  let n := c % (passSide d)
  if d.mValid.toNat ≤ m ∨ d.nValid.toNat ≤ n then none
  else (indexOf (fun x => x == q) (passQuads d) 0).map (fun i => (i, m, n))

/-- The output tile of a pass and the flags of its arithmetic. -/
def passOutput (h : Hob) (f : FlyPass) : Tile64 × W32 :=
  let d := f.d
  let y := passInit h f
  let n := (passQuads d).length
  let rows := (List.range n).map (fun i => quadLines d d.fmtB f.strm i)
  let cols := (List.range n).map (fun i => quadLines d d.fmtA f.stationary i)
  let strip := fun (l : List (List (Num × W32))) (v : Nat) =>
    (l.take v).foldl (fun w r => r.foldl (fun w p => w ||| p.2) w) (0 : W32)
  let fl := rows.foldl (fun w l => w ||| strip l d.mValid.toNat) (cols.foldl (fun w l => w ||| strip l d.nValid.toNat) 0)
  let mx := isMx d.fmtB
  let rs := (List.range 4096).map (fun p =>
    match outPlace d (p / 64) (p % 64) with
    | none => ((0 : W32), (0 : W32))
    | some (i, m, c) =>
      foldElem mx (nth 0 y p) ((nth [] (nth [] rows i) m).map (fun (v : Num × W32) => v.1)) ((nth [] (nth [] cols i) c).map (fun (v : Num × W32) => v.1)))
  (rs.map (fun r => r.1), rs.foldl (fun w r => w ||| r.2) fl)

/-! ## Checks (R68 to R71) -/

/-- What one check says (R68). -/
inductive Verdict where
  | pass
  | skip
  | mismatch
  deriving DecidableEq, Repr

/-- check(s, t, mag) under a tolerance exponent (R68). -/
def checkSums (tol : Nat) (s t mag : Num) : Verdict :=
  if !s.isFin || !t.isFin || !mag.isFin then .skip
  else
    let diff := (addNum .rne s t.neg).1.abs
    let most := (addNum .rne (mulNum (.fin false 1 (-(tol : Int))) mag).1 (.fin false 1 (-140))).1
    if ltNum most diff then .mismatch else .pass

/-- A value as FP32 holds it. -/
def round32 (v : Num) : Num := decodeFloat fp32 (packArith fp32 .rne v).1

/-- A sum, each partial one through `rd`: FP32 rounding, or none. -/
def sumBy (rd : Num → Num) (l : List Num) : Num := l.foldl (fun a v => rd (addNum .rne a v).1) Num.zero

/-- A sum of products. -/
def dotBy (rd : Num → Num) (l : List (Num × Num)) : Num := l.foldl (fun a p => rd (fmaNum .rne p.1 p.2 a).1) Num.zero

/-- The values of one quadrant that its checks read: streamed rows by m, stationary columns by n, each along k; the accumulator
input and the output by m and n; M_VALID, N_VALID, K_VALID. -/
structure QuadVals where
  xs : List (List Num)
  as : List (List Num)
  yin : Nat → Nat → Num
  y : Nat → Nat → Num
  mv : Nat
  nv : Nat
  kv : Nat

/-- Σ over n of a[k][n], or of its magnitude: c[k] and ca[k]. -/
def QuadVals.colSum (q : QuadVals) (rd : Num → Num) (g : Num → Num) (k : Nat) : Num :=
  sumBy rd ((q.as.take q.nv).map (fun c => g (nth Num.zero c k)))

/-- Σ over m of x[m][k], or of its magnitude: u[k] and ua[k]. -/
def QuadVals.rowSum (q : QuadVals) (rd : Num → Num) (g : Num → Num) (k : Nat) : Num :=
  sumBy rd ((q.xs.take q.mv).map (fun r => g (nth Num.zero r k)))

/-- What one check sums: s, t, mag, the magnitudes of s's terms, and the checksums that it multiplies. -/
structure CheckTerms where
  s : Num
  t : Num
  mag : Num
  sAbs : Num
  lanes : List Num
  deriving DecidableEq, Repr

/-- The sums of a check of output line ys with input line is, an operand line along k and the checksums of the other operand. -/
def checkTerms (rd : Num → Num) (ys is line c ca : List Num) : CheckTerms :=
  let dot := fun (g : Num → Num) (w : List Num) => dotBy rd (List.zip (line.map g) w)
  { s := sumBy rd ys, t := rd (addNum .rne (sumBy rd is) (dot id c)).1
    mag := rd (addNum .rne (sumBy rd (is.map Num.abs)) (dot Num.abs ca)).1, sAbs := sumBy rd (ys.map Num.abs), lanes := ca }

/-- The column check of output row m. -/
def QuadVals.rowTerms (q : QuadVals) (rd : Num → Num) (m : Nat) : CheckTerms :=
  let line := fun (f : Nat → Nat → Num) => (List.range q.nv).map (fun n => f m n)
  checkTerms rd (line q.y) (line q.yin) (nth [] q.xs m) ((List.range q.kv).map (q.colSum rd id)) ((List.range q.kv).map (q.colSum rd Num.abs))

/-- The row check of output column n. -/
def QuadVals.colTerms (q : QuadVals) (rd : Num → Num) (n : Nat) : CheckTerms :=
  let line := fun (f : Nat → Nat → Num) => (List.range q.mv).map (fun m => f m n)
  checkTerms rd (line q.y) (line q.yin) (nth [] q.as n) ((List.range q.kv).map (q.rowSum rd id)) ((List.range q.kv).map (q.rowSum rd Num.abs))

/-- 2^128 · (1 + 2^-15), which no sum of positive terms reaches exactly without overflow in FP32, whatever its order: at most 130
roundings change it by less than 2^-16 (R69). -/
def surelyOver : Num := .fin false (2 ^ 15 + 1) 113
/-- 2^128 · (1 - 2^-15), below which no order of such a sum overflows. -/
def surelyUnder : Num := .fin false (2 ^ 15 - 1) 113

/-- A check on exact sums. It is surely skipped where a value is not finite or a sum overflows in every order; it surely is not
where the magnitudes bound every partial sum; else R68, which leaves the order open, leaves it open (none). -/
def CheckTerms.verdict (c : CheckTerms) (tol : Nat) : Option Verdict :=
  let high := fun (v : Num) => !v.isFin || !ltNum v surelyOver
  let low := fun (v : Num) => v.isFin && ltNum v surelyUnder
  let sHigh := (addNum .rne surelyOver (mulNum (.fin false 1 (-15)) c.sAbs).1).1
  match checkSums tol c.s c.t c.mag with
  | .skip => some .skip
  | v =>
    if c.lanes.any high || high c.mag || !ltNum c.s.abs sHigh then some .skip
    else if c.lanes.all low && low c.mag && low c.sAbs then some v
    else none

/-- What the checks of quadrant i of a pass, among those that run, read; `out` is its output tile. -/
def quadVals (h : Hob) (f : FlyPass) (out : Tile64) (i : Nat) : QuadVals :=
  let d := f.d
  let y := passInit h f
  let q := nth 0 (passQuads d) i
  let pos := fun (m n : Nat) => if d.split then (32 * (q / 2) + m) * 64 + 32 * (q % 2) + n else 64 * m + n
  let vals := fun (l : List (List (Num × W32))) => l.map (fun r => r.map (fun p => p.1))
  { xs := vals (quadLines d d.fmtB f.strm i), as := vals (quadLines d d.fmtA (f.stationary) i)
    yin := fun m n => val32 (nth 0 y (pos m n)), y := fun m n => val32 (nth 0 out (pos m n))
    mv := d.mValid.toNat, nv := d.nValid.toNat, kv := d.kValid.toNat }

/-- Every check of a pass. -/
def passChecks (h : Hob) (f : FlyPass) (out : Tile64) : List CheckTerms :=
  (List.range (passQuads f.d).length).flatMap (fun i =>
    let q := quadVals h f out i
    (List.range q.mv).map (q.rowTerms id) ++ (List.range q.nv).map (q.colTerms id))

/-- The checks of a pass that surely are skipped, and those that some order of their sums skips (R71). -/
def passSkips (h : Hob) (f : FlyPass) (out : Tile64) : Nat × Nat :=
  let vs := (passChecks h f out).map (fun c => c.verdict f.tol)
  ((vs.filter (fun v => v == some .skip)).length, (vs.filter (fun v => v.isNone)).length)

/-- What the checksum PEs hold after a pass (Table 03-1): the signed and the magnitude lane of the column's c[k], then of the
row's u[k], then of the corner. Their sums run in ascending order; in split mode the sums of each quadrant that runs stand one after
the other, and the corner, of which R52 and R68 say nothing, holds zeros: both are the model's choice (log 100). -/
def passSums (h : Hob) (f : FlyPass) (out : Tile64) : List (W32 × W32) :=
  let bits := fun (v : Num) => BitVec.ofNat 32 (packArith fp32 .rne v).1
  (List.range (passQuads f.d).length).flatMap (fun i =>
    let q := quadVals h f out i
    let ks := List.range (passSide f.d)
    ks.map (fun k => (bits (q.colSum round32 id k), bits (q.colSum round32 Num.abs k))) ++
    ks.map (fun k => (bits (q.rowSum round32 id k), bits (q.rowSum round32 Num.abs k)))) ++ [(0, 0)]

/-! ## Access to a hob -/

/-- Hob h of a firebox. -/
def Tile.hob (t : Tile) (h : Nat) : Hob := tget {} t.hobs h

/-- Hob h replaced. -/
def Tile.setHob (t : Tile) (h : Nat) (v : Hob) : Tile := { t with hobs := tset t.hobs h v }

/-- The register block of hob h (Table 03-8). -/
def hobReg (h : Nat) : Nat := 0x0200 + 0x40 * h

/-- A half of the GSB. -/
def Tile.half (t : Tile) (i : Nat) : GsbHalf := tget {} t.gsb i

/-- Whether a hob number exists (R78: 3 is reserved). -/
def hobOk (h : BitVec 2) : Bool := decide (h.toNat < 3)

/-! ## Issue (R58, R59, R62, R64, R66, R159) -/

/-- The descriptor with its flue fields under R251. -/
def substPass (k : Stoker) (d : PassDesc) : PassDesc :=
  { d with flueA := BitVec.ofNat 8 (k.subst d.flueA.toNat), flueB := BitVec.ofNat 8 (k.subst d.flueB.toNat),
           flueInit := BitVec.ofNat 8 (k.subst d.flueInit.toNat) }

/-- PASS: the stoker reaches a pass descriptor and holds it at issue; after a pre-emption request it issues none (R72), and a
hob that stopped issues none (R76, R77). -/
def execPass (t : BitVec 8) (d : PassDesc) (s : State) : Host.Outcome State Fault Refusal :=
  guardPart (hobOk d.hob) .noSuchHob (s.tileWord t (fun tl =>
    let h := tl.hob d.hob.toNat
    if tl.stoker.preempt || h.stopped then (tl, .wait)
    else (tl.setHob d.hob.toNat { h with held := some (substPass tl.stoker d) }, .wait)))

/-! ## The side lane (R61, R62) -/

/-- The words of a path before the first pass of hob h, and that pass. -/
def untilPass (l : List W64) (h : Nat) : List Stoker → List Stoker × Option PassDesc
  | [] => ([], none)
  | k :: r =>
    match l[k.pc]? with
    | none => ([], none)
    | some w =>
      let d := substPass k (parsePass (passBytes l k.pc))
      if wordOp w = 0xF0 ∧ d.hob.toNat = h then ([], some d)
      else let u := untilPass l h r; (k :: u.1, u.2)

/-- The words ahead of a pass d at issue, as far as the program and the gate decide them, and the hob's next pass there. -/
def State.ahead (s : State) (t : Nat) (d : PassDesc) : List Stoker × Option PassDesc :=
  let cx := s.ctx s.sched.ctx
  let l := cx.program t
  untilPass l d.hob.toNat ((Stoker.path cx l s.gateSeen ((l.length + 2) * (l.length + 2)) (s.ltile t).stoker).drop 1)

/-- Whether a pass on a path captures into a half of the GSB. -/
def capturesOn (l : List W64) (half : Nat) (ks : List Stoker) : Bool :=
  ks.any (fun k => match l[k.pc]? with
    | some w => wordOp w == 0xF0 && (parsePass (passBytes l k.pc)).gsbCap.toNat == half + 1
    | none => false)

/-- The pass whose operand the side lane of a pass d at issue carries (R61, R62): the hob's next pass on the path through the
step, where the words ahead decide it, it changes its operand, its MODE is the same and its half of the GSB is full; a half that
a pass between them fills anew does not hold its operand yet (log 101). -/
def State.carried (s : State) (t : Nat) (d : PassDesc) : Option PassDesc :=
  let tl := s.ltile t
  let r := s.ahead t d
  match r.2 with
  | none => none
  | some p =>
    let src := p.statSrc.toNat
    if !p.statNew || p.split != d.split then none
    else if src = 0 then some p
    else if (tl.half (src - 1)).full && !capturesOn ((s.ctx s.sched.ctx).program t) (src - 1) r.1 then some p else none

/-! ## Interlocks -/

/-- The pass held at issue withdrawn: no hob holds one, and the stall bits and ISSUE_HOLD are 0. -/
def Tile.withdraw (t : Tile) : Tile :=
  let t1 := [0, 1, 2].foldl (fun (t : Tile) h => t.setReg (hobReg h) (t.reg (hobReg h) &&& ~~~(0x1A0 : W32))) t
  { t1.setReg 0x0380 (clrBit (t1.reg 0x0380) 0) with
    hobs := t.hobs.map (fun h => (h.1, { h.2 with held := none, preloading := h.2.preloading && !h.2.fly.isEmpty })) }

/-- The waits of the words that a firebox had begun ended: SWAIT_HOLD, WAIT_FLUE and WAIT_ASH are 0. -/
def Tile.endWaits (t : Tile) : Tile :=
  let t1 := t.withdraw
  let t2 := t1.setReg 0x0380 (clrBit (t1.reg 0x0380) 1)
  t2.setReg 0x0300 (t2.reg 0x0300 &&& ~~~(6 : W32))

/-- The firebox at the end of its step (R254, R261): the passes in flight run to their commits with their outputs dropped, those
that a second mismatch aborted are gone, the ash queue and the GSB marks are empty, no ring runs. Firmware clears STRICT_FLT and
SCR_RNG and restarts grate issue (Table 13-3). -/
def Tile.endStep (t : Tile) : Tile :=
  let t1 := t.endWaits
  { t1.setReg 0x0300 (t1.reg 0x0300 &&& ~~~(0x420 : W32)) with
    hobs := t1.hobs.map (fun p => (p.1, { p.2 with
      lane := none
      fly := (p.2.fly.filter (fun f => !f.aborted)).map (fun f => { f with dropped := true, takenA := 0, takenB := 0, takenI := 0 }) }))
    gsb := t1.gsb.map (fun p => (p.1, { p.2 with busy := false, full := false, rel := false }))
    ash := [], ring := {}, grateStop := t1.grateUe }

/-- Every named slot holds +0 (R65). -/
def Tile.zeroSlots (t : Tile) : Tile := { t with hobs := t.hobs.map (fun p => (p.1, { p.2 with slots := [] })) }

/-- Why a held pass does not start: its stall bits of HOB_STATUS [8:5] (ACC, ASH, STAT, GSB), ISSUE_HOLD, or another pass's
commit. -/
structure Hold where
  acc : Bool := false
  ash : Bool := false
  stat : Bool := false
  gsb : Bool := false
  issue : Bool := false
  other : Bool := false
  deriving DecidableEq, Repr

/-- Whether the shadow registers hold the operand of a pass. -/
def Hob.ready (h : Hob) (d : PassDesc) : Bool := !d.statNew || (h.lane.map (fun p => p.1)) == some d.passSeq.toNat

/-- FLUE_A entries that a pass, or the side lane of the pass before it, has still to take. -/
def Hob.needA (h : Hob) (d : PassDesc) : Nat := if h.ready d then 0 else passNeedA d

/-- Whether every entry that a pass at issue reads, and that its side lane carries, is in its flues (R159). -/
def Tile.fed (t : Tile) (h : Hob) (d : PassDesc) (next : Option PassDesc) : Bool :=
  let lane := match next with | some p => passNeedA p | none => 0
  let laneFlue := match next with | some p => p.flueA | none => 0
  let need := fun (f : BitVec 8) => (if f = d.flueB then passNeedB d else 0) + (if f = d.flueA then h.needA d else 0) +
    (if f = d.flueInit then passNeedI d else 0) + (if f = laneFlue then lane else 0)
  let has := fun (n : Nat) (f : BitVec 8) => n == 0 || decide (need f ≤ (t.stream f.toNat).avail)
  has (passNeedB d) d.flueB && has (h.needA d) d.flueA && has (passNeedI d) d.flueInit && has lane laneFlue

/-- Whether a GSB half that a field names is not full. -/
def Tile.notFull (t : Tile) (src : BitVec 2) : Bool := src != 0 && !(t.half (src.toNat - 1)).full

/-- What holds a pass whose side lane carries the operand of `next` (R58, R59, R62, R64, R66, R159); at most 6 buffers serve
passes in flight (R52). -/
def Tile.holdOf (t : Tile) (h : Hob) (d : PassDesc) (next : Option PassDesc) : Hold :=
  { acc := d.accIn == 1 && h.fly.any (fun f => !f.d.final && !f.dropped && f.d.accSlotOut == d.accSlotIn)
    ash := d.final && decide (6 ≤ t.ash.length)
    stat := !h.ready d
    gsb := t.notFull d.strmSrc || (!h.ready d && t.notFull d.statSrc) || (d.gsbCap != 0 && (t.half (d.gsbCap.toNat - 1)).busy)
    issue := !t.fed h d next
    other := decide (6 ≤ h.fly.length) || (!h.fly.isEmpty && h.lastMode != some d.split) }

/-- Whether nothing holds. -/
def Hold.clear (w : Hold) : Bool := !w.acc && !w.ash && !w.stat && !w.gsb && !w.issue && !w.other

/-- The stall bits shown; STAT_STALL shows the preload itself and is read from the hob. -/
def Tile.showHold (t : Tile) (h : Nat) (w : Hold) : Tile :=
  let o := hobReg h
  let r := putBit (putBit (putBit (t.reg o) 8 w.acc) 7 w.ash) 5 w.gsb
  (t.setReg o r).setReg 0x0380 (putBit (t.reg 0x0380) 0 w.issue)

/-- Entries taken from a flue by a pass: they stay in the flue, held, until its commit (R158). -/
def Tile.claim (t : Tile) (f : BitVec 8) (n : Nat) : Tile × List (Nat × Nat) :=
  let st := t.stream f.toNat
  if n = 0 then (t, [])
  else (t.setStream f.toNat { st with claimed := st.claimed + n }, (st.entries.drop st.claimed).take n)

/-- A GSB half's rows read by columns as a stationary operand: A[k][n] is element n of row k (R63). -/
def gsbColumns (d : PassDesc) (l : List (Nat × Nat)) : List (Nat × Nat) :=
  let w := (passSide d)
  (List.range (passQuads d).length).flatMap (fun i =>
    (List.range w).flatMap (fun n => (List.range w).map (fun k => nth (0, 0) l (i * w * w + w * k + n))))

/-- The operand of a pass written into the shadow registers of its hob, by a side lane or by a preload (R61, R62). An operand that
the lane held for another pass goes back to its flue's consumers. -/
def Tile.loadShadow (t : Tile) (hn : Nat) (d : PassDesc) : Tile :=
  let t0 := match (t.hob hn).lane with
    | some p => if p.2 = 0 then t else
        let st := t.stream d.flueA.toNat
        t.setStream d.flueA.toNat { st with claimed := st.claimed - p.2 }
    | none => t
  let a := t0.claim d.flueA (passNeedA d)
  let h := a.1.hob hn
  let op := if d.statSrc = 0 then a.2 else gsbColumns d (a.1.half (d.statSrc.toNat - 1)).data
  a.1.setHob hn { h with shadow := op, lane := some (d.passSeq.toNat, passNeedA d) }

/-- The preload of a held pass (R62): possible once its operand is there, and past the passes of another MODE (R59). -/
def Tile.preload (t : Tile) (hn : Nat) (d : PassDesc) : Tile :=
  let h := t.hob hn
  let there := decide (passNeedA d ≤ (t.stream d.flueA.toNat).avail) || passNeedA d == 0
  if h.ready d || !there || t.notFull d.statSrc || (!h.fly.isEmpty && h.lastMode != some d.split) then t
  else
    let t1 := t.loadShadow hn d
    t1.setHob hn { t1.hob hn with preloading := true }

/-- A pass started (R54): its operands taken, the stationary registers swapped (R60), the side lane's operand put into the shadow
(R61), a capture made (R63), an ash stage reserved (R66). A captured half keeps the entries as they came, those beyond the VALID
fields too (log 102). -/
def Tile.startPass (t : Tile) (hn : Nat) (d : PassDesc) (next : Option PassDesc) : Tile :=
  let b := t.claim d.flueB (passNeedB d)
  let i := b.1.claim d.flueInit (passNeedI d)
  let t1 := i.1
  let h := t1.hob hn
  let strm := if d.strmSrc = 0 then b.2 else (t1.half (d.strmSrc.toNat - 1)).data
  let stat := if d.statNew then h.shadow else h.stat
  let takenA := match h.lane with | some p => if d.statNew then p.2 else 0 | none => 0
  let cfg := t1.reg 0x02C0
  let f : FlyPass := {
    d := d, stat := stat, strm := strm, init := i.2
    takenA := takenA, takenB := passNeedB d, takenI := passNeedI d
    chk := d.chkEn && cfg.getLsbD 0, tol := getField cfg 8 5 }
  let h1 : Hob := { h with
    held := none, fly := h.fly ++ [f], stat := stat, shadow := if d.statNew then h.stat else h.shadow
    lane := if d.statNew then none else h.lane, preloading := false, lastMode := some d.split }
  let t2 := t1.setHob hn h1
  let t3 := match next with | some p => t2.loadShadow hn p | none => t2
  let t4 := if d.gsbCap = 0 then t3
    else { t3 with gsb := tset t3.gsb (d.gsbCap.toNat - 1) { data := strm, busy := true, full := true } }
  if d.final then { t4 with ash := t4.ash ++ [{ seq := d.passSeq.toNat, hob := hn }] } else t4

/-- PASS_START on one firebox: the held pass starts where nothing holds it, and its word is complete; else the stall bits show
what does, and a preload that it waits for is made. -/
def Tile.passStart (t : Tile) (hn : Nat) (next : Option PassDesc) : Tile :=
  let h := t.hob hn
  match h.held with
  | none => t
  | some d =>
    let w := t.holdOf h d next
    let t1 := t.showHold hn w
    if !w.clear then t1.preload hn d
    else
      let t2 := t1.startPass hn d next
      { t2 with stoker := { t2.stoker with waitWord := false }.goto (t2.stoker.pc + 5) }

/-- The successor that the held pass of a hob carries. -/
def State.laneOf (s : State) (t hn : Nat) : Option PassDesc := ((s.ltile t).hob hn).held.bind (fun d => s.carried t d)

/-! ## Words acted on ahead (R163) -/

/-- Whether a stream word at a point of the path gives elements to stream n: an ARM or a REARM of it, or a RING of the ring that it is
linked to. -/
def feeds (t : Tile) (n : Nat) (k : Stoker) (w : W64) : Bool :=
  let op := wordOp w
  let f := field w.toNat 0 5
  if op = 0xC1 ∨ op = 0xC2 then k.subst f == n
  else op == 0xC4 && sdRingLink (t.stream n).sd && sdRingS (t.stream n).sd == f

/-- Whether a word is a stream word: ARM, REARM, RING, DISARM, PASS or FLRD (R163). -/
def streamWord (w : W64) : Bool := [0xC1, 0xC2, 0xC4, 0xC5, 0xF0, 0x09].contains (wordOp w)

/-- The words of a path that the bellows may act on: up to the first SWAIT, 64 stream words at most (R163). -/
def reachable (l : List W64) : Nat → List Stoker → List (Stoker × W64)
  | _, [] => []
  | n, k :: r =>
    match l[k.pc]? with
    | none => []
    | some w =>
      if wordOp w = 0xC3 ∨ n = 0 then []
      else (k, w) :: reachable l (if streamWord w then n - 1 else n) r

/-- The effect of a stream word that the stoker has not reached, as the stoker will find it there. -/
def State.actAhead (s : State) (t : Nat) (k : Stoker) (w : W64) : State :=
  let k0 := (s.ltile t).stoker
  let s1 := s.setLtile t { s.ltile t with stoker := k }
  let v := w.toNat
  let r := if wordOp w = 0xC1 then s1.armWord t (field v 16 14) (field v 0 5)
    else if wordOp w = 0xC2 then s1.rearmWord t (field v 16 12) (Nat.testBit v 5) (field v 0 5)
    else s1.ringWord t (field v 0 5)
  let ahead := match r.2 with
    | .next _ => k0.ahead ++ [k.pc]
    | _ => k0.ahead
  r.1.setLtile t { r.1.ltile t with stoker := { k0 with ahead := ahead } }

/-- A pass at issue waits for the elements that its side lane is to carry: the bellows act on the next word ahead that gives them
(R62, R163, log 135). -/
def State.lookAhead (s : State) (t hn : Nat) : State :=
  let tl := s.ltile t
  match (tl.hob hn).held with
  | none => s
  | some d =>
    match s.carried t d with
    | none => s
    | some p =>
      if p.statSrc ≠ 0 ∨ passNeedA p ≤ (tl.stream p.flueA.toNat).avail then s
      else
        let words := reachable ((s.ctx s.sched.ctx).program t) 64 (s.ahead t d).1
        match words.find? (fun x => feeds tl p.flueA.toNat x.1 x.2 && !tl.stoker.ahead.contains x.1.pc) with
        | some x => s.actAhead t x.1 x.2
        | none => s

/-- PASS_START. -/
def execPassStart (t : BitVec 8) (hob : BitVec 2) (s : State) : Host.Outcome State Fault Refusal :=
  let tl := s.ltile t.toNat
  guardPart (hobOk hob) .noSuchHob
    (if s.stokerRuns t.toNat && !tl.stoker.preempt && !(tl.hob hob.toNat).stopped then
       (s.setLtile t.toNat (tl.passStart hob.toNat (s.laneOf t.toNat hob.toNat))).lookAhead t.toNat hob.toNat
     else s)

/-! ## Commit (R65 to R67) -/

/-- The ash item header (Table 03-5). -/
def ashHeader (d : PassDesc) : W64 :=
  BitVec.ofNat 64 (d.tileTag.toNat + 2 ^ 16 * (d.hob.toNat + 4 * bnat d.split + 8 + 16 * (if d.split then d.quadEn.toNat else 15)) +
    2 ^ 32 * d.passSeq.toNat)

/-- The first reserved stage of a hob with this PASS_SEQ filled and committed. -/
def commitStage (seq hn : Nat) (data : Tile64) (hdr : W64) : List AshStage → List AshStage
  | [] => []
  | st :: r =>
    if st.seq = seq ∧ st.hob = hn ∧ !st.committed then { st with committed := true, data := data, header := hdr } :: r
    else st :: commitStage seq hn data hdr r

/-- Entries of a flue released at a commit (R158). -/
def Tile.release (t : Tile) (fmt : BitVec 4) (f : BitVec 8) (n : Nat) : Tile :=
  if n = 0 then t
  else
    let st := t.stream f.toNat
    t.setStream f.toNat (({ st with entries := st.entries.drop n, claimed := st.claimed - n } : Stream).trim fmt)

/-- A half released where its release waits for no pass in flight that names it (R64). -/
def Tile.tryRelease (t : Tile) (i : Nat) : Tile :=
  let g := t.half i
  if g.rel && !(t.hobs.any (fun h => h.2.fly.any (fun f => !f.dropped && passNames f.d i))) then
    { t with gsb := tset t.gsb i { g with busy := false, full := false, rel := false } }
  else t

/-- GSB_REL of a committed pass: the half that it names is to be released. -/
def Tile.markRelease (t : Tile) (d : PassDesc) : Tile :=
  if !d.gsbRel then t
  else (List.range 2).foldl (fun t i => if passNames d i then { t with gsb := tset t.gsb i { t.half i with rel := true } } else t) t

/-- PASS_COMMIT on one firebox: the oldest pass in flight of the hob commits; its slot or stage, HOB_PASS_SEQ, the counters, the
flags, its flue entries, a release, and the fences that waited for it. `extra` is the number of open checks that skipped; a pass's
skips count once, at its commit, however often it was replayed (log 103). Of a pass whose step has ended, outputs and flags are
dropped and only the counts stay (R261, log 104). -/
def Tile.passCommit (t : Tile) (hn extra : Nat) : Tile :=
  let h := t.hob hn
  match h.fly with
  | [] => t
  | f :: rest =>
    let o := passOutput h f
    let sk := if f.chk then (passSkips h f o.1).1 + extra else 0
    let slots := if f.d.final || f.dropped then h.slots else tset h.slots f.d.accSlotOut.toNat o.1
    let sums := if f.chk then passSums h f o.1 else h.sums
    let t1 := t.setHob hn { h with fly := rest, slots := slots, sums := sums, preloading := false }
    let t2 := if f.d.final && !f.dropped then { t1 with ash := commitStage f.d.passSeq.toNat hn o.1 (ashHeader f.d) t1.ash } else t1
    let b := hobReg hn
    let t3 := ((t2.setReg (b + 4) f.d.passSeq).bump (b + 0x1C) 1).bump (b + 0x18) sk
    if f.dropped then t3 else
    let t3 := t3.raise o.2
    let t4 := ((t3.release f.d.fmtB f.d.flueB f.takenB).release f.d.fmtA f.d.flueA f.takenA).release 0 f.d.flueInit f.takenI
    let t5 := ((t4.markRelease f.d).tryRelease 0).tryRelease 1
    { t5 with stoker := t5.stoker.passDone f.d.passSeq.toNat }

/-- The number of checks of the oldest pass whose sums may overflow in some order (R68 leaves the order open). -/
def Tile.openChecks (t : Tile) (hn : Nat) : Nat :=
  match (t.hob hn).fly with
  | [] => 0
  | f :: _ => if f.chk then (passSkips (t.hob hn) f (passOutput (t.hob hn) f).1).2 else 0

/-- Whether every started pass of the logical tiles has committed; a slot that a migration has left holds none. -/
def State.quiescent (s : State) : Bool :=
  s.tiles.all (fun p => p.2.hobs.all (fun h => h.2.fly.isEmpty) || (s.tileOf p.1).isNone)

/-- A stop that waited for passes in flight complete: JOB_STATE = STOPPED, and the JOB_STOP that waits is answered (R261). -/
def State.finishJob (s : State) : State :=
  if !s.sched.draining then s
  else
    let c := s.sched.ctx
    let s1 := ({ s with sched := { s.sched with draining := false, stopSlot := none } } : State).setJobState c 3
    match s.sched.stopSlot with
    | some k => s1.okWaiting k (leBytes 6 (s1.ctx c).stepCommitted)
    | none => s1

/-- A stop is complete once every pass in flight has committed. -/
def State.settleJob (s : State) : State := if s.quiescent then s.finishJob else s

/-- PASS_COMMIT: passes in flight run to commit (R72), but for a hob whose pass a second mismatch aborted, for a domain without a clock, and for a
snap stop. -/
def State.passCommit (s : State) (t hn : Nat) : State :=
  let tl := s.ltile t
  match (tl.hob hn).fly with
  | [] => s
  | f :: _ =>
    if !s.works (s.unitOf t) || f.aborted then s
    else
      let n := tl.openChecks hn
      let s1 := s.setLtile t (tl.passCommit hn ((Config.freeWord s.free).toNat % (n + 1)))
      ((if n = 0 then s1 else s1.draw).count (s.unitOf t) (0x18 + hn) 1).settleJob

/-- PASS_COMMIT. -/
def execPassCommit (t : BitVec 8) (hob : BitVec 2) (s : State) : Host.Outcome State Fault Refusal :=
  guardPart (hobOk hob) .noSuchHob (s.passCommit t.toNat hob.toNat)

/-- Committed stages at the front of the queue are visible; a stage behind an uncommitted one waits (R66). -/
def showStages : List AshStage → List AshStage
  | [] => []
  | st :: r => if st.committed then { st with visible := true } :: showStages r else st :: r

/-- ASH_STAGE_VISIBLE. -/
def execAshStageVisible (t : BitVec 8) (s : State) : Host.Outcome State Fault Refusal :=
  let tl := s.ltile t.toNat
  ok (if s.works (s.unitOf t.toNat) then s.setLtile t.toNat { tl with ash := showStages tl.ash } else s)

/-! ## Checks, replays and errors (R70 to R77) -/

/-- The records of a failed check or parity error of a pass (R75): MISMATCH, HOB_CNT_MIS, HOB_MIS_SEQ, HOB_CHK_LOC, whose QUAD
is 0 in whole mode. -/
def Tile.recordMismatch (t : Tile) (hn : Nat) (d : PassDesc) (f : CheckFail) : Tile :=
  let o := hobReg hn
  let row := match f.row with | some r => r.toNat | none => 0x7F
  let col := match f.col with | some c => c.toNat | none => 0x7F
  let quad := if d.split then f.quad.toNat else 0
  let loc := BitVec.ofNat 32 (quad + 2 ^ 8 * col + 2 ^ 16 * row + 2 ^ 31 * bnat (f.row.isSome && f.col.isSome))
  (((t.orReg o 0x200).bump (o + 0x10) 1).setReg (o + 8) d.passSeq).setReg (o + 0xC) loc

/-- Whether a check fails when an upset moves the sum of its outputs by the FP32 value `err`: |s − t| exceeds the tolerance and R71
does not skip the check (R68). -/
def CheckTerms.fails (c : CheckTerms) (tol : Nat) (err : W32) : Bool :=
  let moved : CheckTerms := { c with s := (addNum .rne c.s (val32 err)).1 }
  checkSums tol moved.s c.t c.mag == .mismatch && c.verdict tol != some .skip

/-- The checks that fail of those that an upset touches: none where checks are off, beyond M_VALID or N_VALID, or in a quadrant that does
not run (R56, R68, R71). -/
def checkSeen (h : Hob) (f : CheckFail) (p : FlyPass) : CheckFail :=
  match p.chk, indexOf (fun x => x == if p.d.split then f.quad.toNat else 0) (passQuads p.d) 0 with
  | true, some i =>
    let q := quadVals h p (passOutput h p).1 i
    { f with
      row := f.row.filter (fun m => decide (m.toNat < q.mv) && (q.rowTerms id m.toNat).fails p.tol f.rowErr)
      col := f.col.filter (fun n => decide (n.toNat < q.nv) && (q.colTerms id n.toNat).fails p.tol f.colErr) }
  | _, _ => { f with row := none, col := none }

/-- Whether an upset makes its pass fail: a parity error always, another where a check of the pass fails. -/
def checkCounts (h : Hob) (f : CheckFail) (p : FlyPass) : Bool :=
  f.parity || (checkSeen h f p).row.isSome || (checkSeen h f p).col.isSome

/-- The first pass in flight with this PASS_SEQ, changed. -/
def onSeq (seq : Nat) (g : FlyPass → FlyPass) : List FlyPass → List FlyPass
  | [] => []
  | f :: r => if f.d.passSeq.toNat = seq then g f :: r else f :: onSeq seq g r

/-- Passes in flight from the first with this PASS_SEQ on, changed. -/
def fromSeq (seq : Nat) (g : FlyPass → FlyPass) : List FlyPass → List FlyPass
  | [] => []
  | f :: r => if f.d.passSeq.toNat = seq then (f :: r).map g else f :: fromSeq seq g r

/-- CHECK_MISMATCH: pass p and every later one of its hob are thrown away and run again on the entries and registers that they
hold, after a preload of p's operand; a correctable event with HOB_CNT_MIS is reported (R75). Only p is a replay of its own
mismatch: the later passes may still have theirs. -/
def State.checkMismatch (s : State) (t hn seq : Nat) (f : CheckFail) : State :=
  let tl := s.ltile t
  let h := tl.hob hn
  match h.fly.find? (fun p => p.d.passSeq.toNat == seq) with
  | none => s
  | some p =>
    if p.replay || p.aborted || !checkCounts h f p then s
    else
      let t1 := tl.recordMismatch hn p.d (checkSeen h f p)
      let t2 := ((t1.orReg (hobReg hn) 0x400).bump (hobReg hn + 0x14) 1).setHob hn
        { h with fly := onSeq seq (fun q => { q with replay := true }) h.fly, preloading := true }
      ((s.setLtile t t2).count (s.unitOf t) 0x1B 1).reportCorr (s.unitOf t) (t2.reg (hobReg hn + 0x10))

/-- CHECK_MISMATCH. -/
def execCheckMismatch (t : BitVec 8) (hob : BitVec 2) (seq : BitVec 32) (f : CheckFail) (s : State) :
    Host.Outcome State Fault Refusal :=
  guardPart (hobOk hob) .noSuchHob (s.checkMismatch t.toNat hob.toNat seq.toNat f)

/-- REPLAY_MISMATCH: a second mismatch of a replayed pass: SUSPECT, the hob issues nothing, a firebox fault (R76). -/
def State.replayMismatch (s : State) (t hn seq : Nat) (f : CheckFail) : State :=
  let tl := s.ltile t
  let h := tl.hob hn
  match h.fly.find? (fun p => p.d.passSeq.toNat == seq) with
  | none => s
  | some p =>
    if !p.replay || p.aborted || !checkCounts h f p then s
    else
      let t1 := tl.recordMismatch hn p.d (checkSeen h f p)
      let t2 := ({ t1 with suspect := true, badHobs := t1.badHobs ++ [hn] } : Tile).setHob hn
        { h with stopped := true, preloading := false, fly := fromSeq seq (fun q => { q with aborted := true }) h.fly }
      let s1 : State := { s with flt := { s.flt with badHobs := s.flt.badHobs ++ [(s.unitOf t, hn)] } }
      (s1.setLtile t t2).report (srcId 0xA (s.unitOf t)) (BitVec.ofNat 32 t)

/-- REPLAY_MISMATCH. -/
def execReplayMismatch (t : BitVec 8) (hob : BitVec 2) (seq : BitVec 32) (f : CheckFail) (s : State) :
    Host.Outcome State Fault Refusal :=
  guardPart (hobOk hob) .noSuchHob (s.replayMismatch t.toNat hob.toNat seq.toNat f)

/-- HSTATE_UE: an uncorrectable error in a named slot or a GSB half: HSTATE_UE, issue in the hob stops, a firebox fault and FAIL
for the step (R77, Table 13-3). The object's contents are open from here on. -/
def State.hstateUe (s : State) (t hn : Nat) (obj : HobStore) : State :=
  let tl := s.ltile t
  let h := tl.hob hn
  let w := fun i => leNat ((List.range 4).map (fun j => Config.freeByte s.free (4 * i + j)))
  let t1 := match obj with
    | .acc n => tl.setHob hn { h with slots := tset h.slots n.toNat ((List.range 4096).map (fun i => BitVec.ofNat 32 (w i))) }
    | .gsb b => { tl with gsb := tset tl.gsb (bnat b) { tl.half (bnat b) with
        data := (tl.half (bnat b)).data.zipIdx.map (fun (p : (Nat × Nat) × Nat) => (w p.2 % 256, p.1.2)) } }
  let t2 := (t1.setHob hn { t1.hob hn with stopped := true }).orReg (hobReg hn) 0x800
  (((s.setLtile t t2).draw).report (srcId 0xA (s.unitOf t)) (BitVec.ofNat 32 t)).raiseFail

/-- HSTATE_UE. -/
def execHstateUe (t : BitVec 8) (hob : BitVec 2) (obj : HobStore) (s : State) : Host.Outcome State Fault Refusal :=
  guardPart (hobOk hob) .noSuchHob (s.hstateUe t.toNat hob.toNat obj)

/-- HOB_STATE_CE: corrected and reported as correctable (R53); the spec keeps no count of it, so the report's is free. -/
def execHobStateCe (t : BitVec 8) (hob : BitVec 2) (_obj : HobStore) (s : State) : Host.Outcome State Fault Refusal :=
  guardPart (hobOk hob) .noSuchHob
    ((s.report (srcId 1 (s.unitOf t.toNat)) (Config.unitInfo (srcId 1 (s.unitOf t.toNat)) s.free)).draw)

/-- PREEMPTION_REQUEST: the stoker issues no further pass to any hob; passes in flight run to commit (R72). It holds to the next
start of a step. A pass held at issue goes back to its word. -/
def execPreemptionRequest (t : BitVec 8) (s : State) : Host.Outcome State Fault Refusal :=
  let tl := s.ltile t.toNat
  ok (s.setLtile t.toNat { tl.withdraw with stoker := { tl.stoker with preempt := true } })

end Sys2Proof.Machine
end

