-- ==== Sys2Proof/Machine/Grate.lean ====
section
/-! DEFINITION. The grate instructions (R82 to R101, R108 to R128, Table 04-3): one meaning for each opcode over the
operations of the Grate files, and the grate events of R85 and R103. -/

namespace Sys2Proof.Machine

/-! ## One grate instruction -/

/-- The bank that SFU opcodes read (R119). -/
def Sfu.active (f : Sfu) : Bank := if f.actBank then f.bank1 else f.bank0

/-- What a grate instruction of a firebox reads from the module (R40, R119, R242). -/
def State.grateEnv (s : State) (tl : Tile) : GEnv :=
  { seed := (s.ctx s.sched.ctx).seed, step := s.stepNow, bank := s.sfu.active, free := s.free, guard := s.guards tl }

/-- Whether the grate starts an instruction: not in tile-buffer mode (R102), not stopped by a fault (R85, R90, R94). -/
def Tile.grateRuns (tl : Tile) : Bool := !tl.grateStop && !(tl.reg 0x0300).getLsbD 12

/-- What a complete instruction counts in its firebox (R380): itself, the active lanes of an ALU instruction, the SFU's results, those of
them from hard-case entries. -/
def State.countGrate (s : State) (u : Nat) (r : GRes) : State :=
  [(0x28, 1), (0x29, r.lanes), (0x2A, r.sfu), (0x2B, r.hard)].foldl (fun (s : State) e => s.count u e.1 e.2) s

/-- The module after an instruction's outcome: a program-class fault is reported with GR_PC (Table 13-1), a refused write of
a PERSIST range raises FAIL (R242); a stopped or waiting instruction is not complete and counts nothing. -/
def State.grateEnd (s : State) (t : Nat) (pc : Nat) (r : GRes) : State × WordEnd :=
  let s1 := s.setLtile t r.t
  let s2 := if r.drew then s1.draw else s1
  let s3 := if r.fault then s2.report (srcId 6 (s2.unitOf t)) (BitVec.ofNat 32 pc) else s2
  let s4 := if r.refused then s3.raiseFail else s3
  if r.fault || r.wait then (s4, .wait) else (s4.countGrate (s4.unitOf t) r, .next 1)

/-- A grate instruction of logical tile t. -/
def State.grate (s : State) (t : BitVec 8) (f : GEnv → Tile → GRes) : State :=
  if !(s.ltile t.toNat).grateRuns then s
  else s.word t (fun s =>
    let tl := s.ltile t.toNat
    s.grateEnd t.toNat tl.stoker.pc (f (s.grateEnv tl) tl))

/-- The active lanes of an instruction whose widest lane is k bits. Event 0x029 sums them over the instruction's issue cycles; a scalar
instruction has none (log 153). -/
def Tile.activeLanes (tl : Tile) (w : GrateWord) (k : Nat) : Nat := (List.range (tl.vle k)).countP (fun i => tl.active w i)

/-- An instruction that always completes and reads only its firebox, with the ALU lanes and SFU results that it counts. -/
def State.gratePlain (s : State) (t : BitVec 8) (f : Tile → Tile) (lanes : Tile → Nat := fun _ => 0) (sfu : Tile → Nat := fun _ => 0) :
    State := s.grate t (fun _ tl => { t := f tl, lanes := lanes tl, sfu := sfu tl })

/-- An ALU instruction on lanes of k bits. -/
abbrev State.grateAlu (s : State) (t : BitVec 8) (w : GrateWord) (k : Nat) (f : Tile → Tile) : State :=
  s.gratePlain t f (fun tl => tl.activeLanes w k)

/-- An SFU instruction on lanes of k bits: one result for each active lane (log 153). -/
abbrev State.grateSfu (s : State) (t : BitVec 8) (w : GrateWord) (k : Nat) (f : Tile → Tile) : State :=
  s.gratePlain t f (fun _ => 0) (fun tl => tl.activeLanes w k)

/-- An FLRD or FLWR word with its flue under R251. -/
def flueWord (w : GrateWord) (tl : Tile) : GrateWord :=
  { w with imm := BitVec.ofNat 16 (tl.stoker.subst (w.imm.toNat % 256)) }

/-! ## The instructions -/

/-- NOP. -/
def execNop (t : BitVec 8) (_w : GrateWord) (s : State) : Host.Outcome State Fault Refusal :=
  ok (s.gratePlain t (fun tl => tl))

/-- SETVL. -/
def execSetvl (t : BitVec 8) (w : GrateWord) (s : State) : Host.Outcome State Fault Refusal :=
  ok (s.gratePlain t (fun tl => { tl with vl := w.imm.toNat % 4096 }))

/-- XLI: the immediate sign-extended. -/
def execXli (t : BitVec 8) (w : GrateWord) (s : State) : Host.Outcome State Fault Refusal :=
  ok (s.gratePlain t (fun tl => tl.xset w.vd.toNat (w.imm.signExtend 32)))

/-- XLIH: the upper half; the lower half stays. -/
def execXlih (t : BitVec 8) (w : GrateWord) (s : State) : Host.Outcome State Fault Refusal :=
  ok (s.gratePlain t (fun tl => tl.xset w.vd.toNat (setField (tl.xget w.vd.toNat) 16 16 w.imm.toNat)))

/-- XADD. -/
def execXadd (t : BitVec 8) (w : GrateWord) (s : State) : Host.Outcome State Fault Refusal :=
  ok (s.gratePlain t (fun tl => tl.xset w.vd.toNat (tl.xget w.va.toNat + tl.xget w.vb.toNat)))

/-- XMV. -/
def execXmv (t : BitVec 8) (w : GrateWord) (s : State) : Host.Outcome State Fault Refusal :=
  ok (s.grate t (fun _ tl => gXmv tl w))

/-- FLAGRD. -/
def execFlagrd (t : BitVec 8) (w : GrateWord) (s : State) : Host.Outcome State Fault Refusal :=
  ok (s.gratePlain t (fun tl => gFlagRd tl w))

/-- FLAGCLR (R108). -/
def execFlagclr (t : BitVec 8) (w : GrateWord) (s : State) : Host.Outcome State Fault Refusal :=
  ok (s.gratePlain t (fun tl => gFlagClr tl w))

/-- VMOV: bits unchanged. -/
def execVmov (t : BitVec 8) (w : GrateWord) (s : State) : Host.Outcome State Fault Refusal :=
  ok (s.grateAlu t w (laneWidth w.fmt) (fun tl => gBits (fun _ a _ => a) tl w))

/-- FLRD. -/
def execFlrd (t : BitVec 8) (w : GrateWord) (s : State) : Host.Outcome State Fault Refusal :=
  ok (s.grate t (fun _ tl => gFlrd tl (flueWord w tl)))

/-- FLWR. -/
def execFlwr (t : BitVec 8) (w : GrateWord) (s : State) : Host.Outcome State Fault Refusal :=
  ok (s.grate t (fun e tl => gFlwr e tl (flueWord w tl)))

/-- LDS. -/
def execLds (t : BitVec 8) (w : GrateWord) (s : State) : Host.Outcome State Fault Refusal :=
  ok (s.grate t (fun _ tl => gLds tl w))

/-- STS. -/
def execSts (t : BitVec 8) (w : GrateWord) (s : State) : Host.Outcome State Fault Refusal :=
  ok (s.grate t (fun e tl => gSts e tl w))

/-- ASHWAIT. -/
def execAshwait (t : BitVec 8) (_w : GrateWord) (s : State) : Host.Outcome State Fault Refusal :=
  ok (s.grate t (fun _ tl => gAshWait tl))

/-- ASHRD (R98, R100, R101). -/
def execAshrd (t : BitVec 8) (w : GrateWord) (s : State) : Host.Outcome State Fault Refusal :=
  ok (s.gratePlain t (fun tl => gAshRd tl w))

/-- ASHHDR. -/
def execAshhdr (t : BitVec 8) (w : GrateWord) (s : State) : Host.Outcome State Fault Refusal :=
  ok (s.grate t (fun e tl => gAshHdr e tl w))

/-- ASHPOP. -/
def execAshpop (t : BitVec 8) (_w : GrateWord) (s : State) : Host.Outcome State Fault Refusal :=
  ok (s.gratePlain t (fun tl => gAshPop tl))

/-- VADD. -/
def execVadd (t : BitVec 8) (w : GrateWord) (s : State) : Host.Outcome State Fault Refusal :=
  ok (s.grateAlu t w (wideOf w) (fun tl => gFloat (fun rm a b _ => addNum rm a b) tl w))

/-- VSUB. -/
def execVsub (t : BitVec 8) (w : GrateWord) (s : State) : Host.Outcome State Fault Refusal :=
  ok (s.grateAlu t w (wideOf w) (fun tl => gFloat (fun rm a b _ => addNum rm a b.neg) tl w))

/-- VMUL. -/
def execVmul (t : BitVec 8) (w : GrateWord) (s : State) : Host.Outcome State Fault Refusal :=
  ok (s.grateAlu t w (wideOf w) (fun tl => gFloat (fun _ a b _ => mulNum a b) tl w))

/-- VFMA. -/
def execVfma (t : BitVec 8) (w : GrateWord) (s : State) : Host.Outcome State Fault Refusal :=
  ok (s.grateAlu t w (wideOf w) (fun tl => gFloat (fun rm a b c => fmaNum rm a b c) tl w))

/-- VFMS. -/
def execVfms (t : BitVec 8) (w : GrateWord) (s : State) : Host.Outcome State Fault Refusal :=
  ok (s.grateAlu t w (wideOf w) (fun tl => gFloat (fun rm a b c => fmaNum rm a b c.neg) tl w))

/-- VFNMA. -/
def execVfnma (t : BitVec 8) (w : GrateWord) (s : State) : Host.Outcome State Fault Refusal :=
  ok (s.grateAlu t w (wideOf w) (fun tl => gFloat (fun rm a b c => fmaNum rm a.neg b c) tl w))

/-- VMIN (R30, R31). -/
def execVmin (t : BitVec 8) (w : GrateWord) (s : State) : Host.Outcome State Fault Refusal :=
  ok (s.grateAlu t w (wideOf w) (fun tl => gFloat (fun _ a b _ => minNum a b) tl w))

/-- VMAX (R30, R31). -/
def execVmax (t : BitVec 8) (w : GrateWord) (s : State) : Host.Outcome State Fault Refusal :=
  ok (s.grateAlu t w (wideOf w) (fun tl => gFloat (fun _ a b _ => maxNum a b) tl w))

/-- VABS. -/
def execVabs (t : BitVec 8) (w : GrateWord) (s : State) : Host.Outcome State Fault Refusal :=
  ok (s.grateAlu t w (wideOf w) (fun tl => gSign Num.abs tl w))

/-- VNEG. -/
def execVneg (t : BitVec 8) (w : GrateWord) (s : State) : Host.Outcome State Fault Refusal :=
  ok (s.grateAlu t w (wideOf w) (fun tl => gSign Num.neg tl w))

/-- VCLAMP. -/
def execVclamp (t : BitVec 8) (w : GrateWord) (s : State) : Host.Outcome State Fault Refusal :=
  ok (s.grateAlu t w (wideOf w) (fun tl => gClamp tl w))

/-- VLERP. -/
def execVlerp (t : BitVec 8) (w : GrateWord) (s : State) : Host.Outcome State Fault Refusal :=
  ok (s.grateAlu t w (wideOf w) (fun tl => gLerp tl w))

/-- VIADD. -/
def execViadd (t : BitVec 8) (w : GrateWord) (s : State) : Host.Outcome State Fault Refusal :=
  ok (s.grateAlu t w (laneWidth w.fmt) (fun tl => gBits (fun _ a b => a + b) tl w))

/-- VISUB. -/
def execVisub (t : BitVec 8) (w : GrateWord) (s : State) : Host.Outcome State Fault Refusal :=
  ok (s.grateAlu t w (laneWidth w.fmt) (fun tl => gBits (fun k a b => a + 2 ^ k - b) tl w))

/-- VIMUL. -/
def execVimul (t : BitVec 8) (w : GrateWord) (s : State) : Host.Outcome State Fault Refusal :=
  ok (s.grateAlu t w (laneWidth w.fmt) (fun tl => gBits (fun _ a b => a * b) tl w))

/-- VAND. -/
def execVand (t : BitVec 8) (w : GrateWord) (s : State) : Host.Outcome State Fault Refusal :=
  ok (s.grateAlu t w (laneWidth w.fmt) (fun tl => gBits (fun _ a b => a &&& b) tl w))

/-- VOR. -/
def execVor (t : BitVec 8) (w : GrateWord) (s : State) : Host.Outcome State Fault Refusal :=
  ok (s.grateAlu t w (laneWidth w.fmt) (fun tl => gBits (fun _ a b => a ||| b) tl w))

/-- VXOR. -/
def execVxor (t : BitVec 8) (w : GrateWord) (s : State) : Host.Outcome State Fault Refusal :=
  ok (s.grateAlu t w (laneWidth w.fmt) (fun tl => gBits (fun _ a b => a ^^^ b) tl w))

/-- VSHL. -/
def execVshl (t : BitVec 8) (w : GrateWord) (s : State) : Host.Outcome State Fault Refusal :=
  ok (s.grateAlu t w (laneWidth w.fmt) (fun tl => gBits (fun _ a _ => a * 2 ^ (w.imm.toNat % 32)) tl w))

/-- VSHR. -/
def execVshr (t : BitVec 8) (w : GrateWord) (s : State) : Host.Outcome State Fault Refusal :=
  ok (s.grateAlu t w (laneWidth w.fmt) (fun tl => gBits (fun _ a _ => a / 2 ^ (w.imm.toNat % 32)) tl w))

/-- VSRA. -/
def execVsra (t : BitVec 8) (w : GrateWord) (s : State) : Host.Outcome State Fault Refusal :=
  ok (s.grateAlu t w (laneWidth w.fmt) (fun tl => gBits (fun k a _ => sraLane k a (w.imm.toNat % 32)) tl w))

/-- VCMPEQ. -/
def execVcmpeq (t : BitVec 8) (w : GrateWord) (s : State) : Host.Outcome State Fault Refusal :=
  ok (s.grateAlu t w (laneWidth w.fmt) (fun tl => gCompare eqNum tl w))

/-- VCMPNE: true with a NaN (R30). -/
def execVcmpne (t : BitVec 8) (w : GrateWord) (s : State) : Host.Outcome State Fault Refusal :=
  ok (s.grateAlu t w (laneWidth w.fmt) (fun tl => gCompare (fun a b => !eqNum a b) tl w))

/-- VCMPLT. -/
def execVcmplt (t : BitVec 8) (w : GrateWord) (s : State) : Host.Outcome State Fault Refusal :=
  ok (s.grateAlu t w (laneWidth w.fmt) (fun tl => gCompare ltNum tl w))

/-- VCMPLE. -/
def execVcmple (t : BitVec 8) (w : GrateWord) (s : State) : Host.Outcome State Fault Refusal :=
  ok (s.grateAlu t w (laneWidth w.fmt) (fun tl => gCompare leNum tl w))

/-- VCLASS. -/
def execVclass (t : BitVec 8) (w : GrateWord) (s : State) : Host.Outcome State Fault Refusal :=
  ok (s.grateAlu t w (laneWidth w.fmt) (fun tl => gClass tl w))

/-- VSEL. -/
def execVsel (t : BitVec 8) (w : GrateWord) (s : State) : Host.Outcome State Fault Refusal :=
  ok (s.grateAlu t w (laneWidth w.fmt) (fun tl => gSel tl w))

/-- MAND. -/
def execMand (t : BitVec 8) (w : GrateWord) (s : State) : Host.Outcome State Fault Refusal :=
  ok (s.grateAlu t w 8 (fun tl => gMask (fun a b => a && b) tl w))

/-- MOR. -/
def execMor (t : BitVec 8) (w : GrateWord) (s : State) : Host.Outcome State Fault Refusal :=
  ok (s.grateAlu t w 8 (fun tl => gMask (fun a b => a || b) tl w))

/-- MXOR. -/
def execMxor (t : BitVec 8) (w : GrateWord) (s : State) : Host.Outcome State Fault Refusal :=
  ok (s.grateAlu t w 8 (fun tl => gMask (fun a b => a != b) tl w))

/-- MNOT. -/
def execMnot (t : BitVec 8) (w : GrateWord) (s : State) : Host.Outcome State Fault Refusal :=
  ok (s.grateAlu t w 8 (fun tl => gMask (fun a _ => !a) tl w))

/-- MPOP. -/
def execMpop (t : BitVec 8) (w : GrateWord) (s : State) : Host.Outcome State Fault Refusal :=
  ok (s.grateAlu t w 8 (fun tl => gPop tl w))

/-- MPREFIX. -/
def execMprefix (t : BitVec 8) (w : GrateWord) (s : State) : Host.Outcome State Fault Refusal :=
  ok (s.grateAlu t w 8 (fun tl => gPrefix tl w))

/-- VPERM (R93). -/
def execVperm (t : BitVec 8) (w : GrateWord) (s : State) : Host.Outcome State Fault Refusal :=
  ok (s.grate t (fun _ tl => gVperm tl w))

/-- VBCL (R93). -/
def execVbcl (t : BitVec 8) (w : GrateWord) (s : State) : Host.Outcome State Fault Refusal :=
  ok (s.grate t (fun _ tl => gVbcl tl w))

/-- VROT. -/
def execVrot (t : BitVec 8) (w : GrateWord) (s : State) : Host.Outcome State Fault Refusal :=
  ok (s.grate t (fun _ tl => gVrot tl w))

/-- VSLUP (R93). -/
def execVslup (t : BitVec 8) (w : GrateWord) (s : State) : Host.Outcome State Fault Refusal :=
  ok (s.grate t (fun _ tl => gVslup tl w))

/-- VSLDN (R93). -/
def execVsldn (t : BitVec 8) (w : GrateWord) (s : State) : Host.Outcome State Fault Refusal :=
  ok (s.grate t (fun _ tl => gVsldn tl w))

/-- VZIP. -/
def execVzip (t : BitVec 8) (w : GrateWord) (s : State) : Host.Outcome State Fault Refusal :=
  ok (s.gratePlain t (fun tl => gVzip tl w))

/-- VUNZIP. -/
def execVunzip (t : BitVec 8) (w : GrateWord) (s : State) : Host.Outcome State Fault Refusal :=
  ok (s.gratePlain t (fun tl => gVunzip tl w))

/-- VCMPR. -/
def execVcmpr (t : BitVec 8) (w : GrateWord) (s : State) : Host.Outcome State Fault Refusal :=
  ok (s.gratePlain t (fun tl => gVcmpr tl w))

/-- VRSUM (R91). -/
def execVrsum (t : BitVec 8) (w : GrateWord) (s : State) : Host.Outcome State Fault Refusal :=
  ok (s.gratePlain t (fun tl => gReduce id add32 tl w))

/-- VRMAX (R91). -/
def execVrmax (t : BitVec 8) (w : GrateWord) (s : State) : Host.Outcome State Fault Refusal :=
  ok (s.gratePlain t (fun tl => gReduce id max32 tl w))

/-- VRMIN (R91). -/
def execVrmin (t : BitVec 8) (w : GrateWord) (s : State) : Host.Outcome State Fault Refusal :=
  ok (s.gratePlain t (fun tl => gReduce id min32 tl w))

/-- VRAMAX (R91). -/
def execVramax (t : BitVec 8) (w : GrateWord) (s : State) : Host.Outcome State Fault Refusal :=
  ok (s.gratePlain t (fun tl => gReduce Num.abs max32 tl w))

/-- VRARGMAX (R92). -/
def execVrargmax (t : BitVec 8) (w : GrateWord) (s : State) : Host.Outcome State Fault Refusal :=
  ok (s.gratePlain t (fun tl => gArgMax tl w))

/-- VSCANLR (R95). -/
def execVscanlr (t : BitVec 8) (w : GrateWord) (s : State) : Host.Outcome State Fault Refusal :=
  ok (s.gratePlain t (fun tl => gScan true false tl w))

/-- VSCANSUM (R95). -/
def execVscansum (t : BitVec 8) (w : GrateWord) (s : State) : Host.Outcome State Fault Refusal :=
  ok (s.gratePlain t (fun tl => gScan false false tl w))

/-- VSCANMAX (R95). -/
def execVscanmax (t : BitVec 8) (w : GrateWord) (s : State) : Host.Outcome State Fault Refusal :=
  ok (s.gratePlain t (fun tl => gScan false true tl w))

/-- VGATE. -/
def execVgate (t : BitVec 8) (w : GrateWord) (s : State) : Host.Outcome State Fault Refusal :=
  ok (s.grate t (fun e tl => { t := gGate false e tl w, sfu := tl.activeLanes w (wideOf w) }))

/-- VGATEA. -/
def execVgatea (t : BitVec 8) (w : GrateWord) (s : State) : Host.Outcome State Fault Refusal :=
  ok (s.grate t (fun e tl => { t := gGate true e tl w, sfu := tl.activeLanes w (wideOf w) }))

/-- VCVT (R32, R33, R39, R96). -/
def execVcvt (t : BitVec 8) (w : GrateWord) (s : State) : Host.Outcome State Fault Refusal :=
  ok (s.grate t (fun e tl => { t := gCvt e tl w, lanes := tl.activeLanes w (wideOf w) }))

/-- VCVTMX (R25). -/
def execVcvtmx (t : BitVec 8) (w : GrateWord) (s : State) : Host.Outcome State Fault Refusal :=
  ok (s.grate t (fun e tl => { t := gCvtMx e tl w, lanes := tl.activeLanes w 32 }))

/-- VDCMX (R24). -/
def execVdcmx (t : BitVec 8) (w : GrateWord) (s : State) : Host.Outcome State Fault Refusal :=
  ok (s.grateAlu t w 32 (fun tl => gDcMx tl w))

/-- VCVTSB (R26). -/
def execVcvtsb (t : BitVec 8) (w : GrateWord) (s : State) : Host.Outcome State Fault Refusal :=
  ok (s.grate t (fun e tl => { t := gCvtSb e tl w, lanes := tl.activeLanes w 32 }))

/-- VDCSB (R27). -/
def execVdcsb (t : BitVec 8) (w : GrateWord) (s : State) : Host.Outcome State Fault Refusal :=
  ok (s.grateAlu t w 32 (fun tl => gDcSb tl w))

/-- VRNGU (R97). -/
def execVrngu (t : BitVec 8) (w : GrateWord) (s : State) : Host.Outcome State Fault Refusal :=
  ok (s.grate t (fun e tl => { t := gRngU e tl w, lanes := tl.activeLanes w 32 }))

/-- VRNGB (R97). -/
def execVrngb (t : BitVec 8) (w : GrateWord) (s : State) : Host.Outcome State Fault Refusal :=
  ok (s.grate t (fun e tl => { t := gRngB e tl w, lanes := tl.activeLanes w 16 }))

/-- VSFU (R110 to R113). -/
def execVsfu (t : BitVec 8) (w : GrateWord) (s : State) : Host.Outcome State Fault Refusal :=
  ok (s.grate t (fun e tl => gSfu e tl w))

/-- VSFU2 (R110 to R113). -/
def execVsfu2 (t : BitVec 8) (w : GrateWord) (s : State) : Host.Outcome State Fault Refusal :=
  ok (s.grate t (fun e tl => gSfu e tl w))

/-- VDIV. -/
def execVdiv (t : BitVec 8) (w : GrateWord) (s : State) : Host.Outcome State Fault Refusal :=
  ok (s.grateSfu t w (wideOf w) (fun tl => gDiv tl w))

/-- VSQRT. -/
def execVsqrt (t : BitVec 8) (w : GrateWord) (s : State) : Host.Outcome State Fault Refusal :=
  ok (s.grateSfu t w (wideOf w) (fun tl => gSqrt tl w))

/-- VRSQRT. -/
def execVrsqrt (t : BitVec 8) (w : GrateWord) (s : State) : Host.Outcome State Fault Refusal :=
  ok (s.grateSfu t w (wideOf w) (fun tl => gRsqrt tl w))

/-- VSTAT (R123). -/
def execVstat (t : BitVec 8) (w : GrateWord) (s : State) : Host.Outcome State Fault Refusal :=
  ok (s.grateSfu t w 32 (fun tl => gStat tl w))

/-- VSTATM (R124, R125). -/
def execVstatm (t : BitVec 8) (w : GrateWord) (s : State) : Host.Outcome State Fault Refusal :=
  ok (s.grateSfu t w 32 (fun tl => gStatM tl w))

/-- VSMXU (R126). -/
def execVsmxu (t : BitVec 8) (w : GrateWord) (s : State) : Host.Outcome State Fault Refusal :=
  ok (s.grateSfu t w 32 (fun tl => gSmxU tl w))

/-- VSMXF stage 0 (R127). -/
def execVsmxfMerge (t : BitVec 8) (w : GrateWord) (s : State) : Host.Outcome State Fault Refusal :=
  ok (s.grateSfu t w 32 (fun tl => gSmxMerge tl w))

/-- VSMXF stage 1 (R128). -/
def execVsmxfProbabilities (t : BitVec 8) (w : GrateWord) (s : State) : Host.Outcome State Fault Refusal :=
  ok (s.grateSfu t w 32 (fun tl => gSmxProb tl w))

/-! ## Register errors (R85) and tile-buffer mode (R102, R103) -/

/-- An uncorrectable error in a vector or mask register of a slot: GR_UE, issue stops, and a firebox fault with the logical
tile (R85); FAIL under Table 13-3. The word's contents are untrusted, so the register holds free bytes. -/
def State.grateUe (s : State) (u : Nat) (mask : Bool) (reg : Nat) : State :=
  let tl := s.tile u
  let t1 : Tile := if mask then
      tl.setMask reg (BitVec.ofNat 2048 (leNat ((List.range 256).map (fun i => Config.freeByte s.free i))))
    else { tl with vregs := mwrite tl.vregs (2048 * reg) ((List.range 2048).map (fun i => Config.freeByte s.free i)) }
  let s1 := (s.setTile u { t1.orReg 0x0300 0x800 with grateStop := true, grateUe := true }).draw
  (s1.report (srcId 0xA u) (s.tileInfo u)).raiseFail

/-- GRATE_REGISTER_UE. -/
def execGrateRegisterUe (unit : Nat) (mask : Bool) (reg : BitVec 5) (s : State) : Host.Outcome State Fault Refusal :=
  guardPart (unitOk unit) .noSuchUnit (s.grateUe unit mask reg.toNat)

/-- GRATE_REGISTER_CE: corrected, and reported as correctable with the unit's count (R85); the spec keeps no such count, so
it is a free value. -/
def execGrateRegisterCe (unit : Nat) (_mask : Bool) (_reg : BitVec 5) (s : State) : Host.Outcome State Fault Refusal :=
  guardPart (unitOk unit) .noSuchUnit
    ((s.report (srcId 1 unit) (Config.unitInfo (srcId 1 unit) s.free)).draw)

/-- TBUF_REQ of a slot written; the mode follows it, since every started instruction has completed, but that it is in effect until
the end of built-in test (R103). -/
def Tile.tbuf (tl : Tile) (on : Bool) : Tile :=
  (tl.setReg 0x0304 (putBit (tl.reg 0x0304) 8 on)).setReg 0x0300 (putBit (tl.reg 0x0300) 12 (on || !tl.tested))

/-- Where element (i, j) of the tile in buffer TBn lies in the vector registers: in v(8n + i / 8), at lane 64 · (i mod 8) + j
(R102). -/
def bufAt (n i j : Nat) : Nat := 2048 * (8 * n + i / 8) + 4 * (64 * (i % 8) + j)

/-- The tile that buffer TBn holds. -/
def Tile.bufTile (tl : Tile) (n : Nat) : Tile64 :=
  (List.range 4096).map (fun p => BitVec.ofNat 32 (leNat (mreadN tl.vregs (bufAt n (p / 64) (p % 64)) 4)))

/-- A tile put into buffer TBn: its rows lie one after the other from v(8n) on. -/
def Tile.putBuf (tl : Tile) (n : Nat) (d : Tile64) : Tile :=
  { tl with vregs := mwrite tl.vregs (bufAt n 0 0) ((List.range 4096).flatMap (fun p => leBytes 4 (nth 0 d p).toNat)) }

/-- What the test engine and the copy path move a whole tile to or from: tile scratch at an address, or a stage of the ash queue. -/
inductive TilePlace where
  | scratch (addr : Nat)
  | stage (i : Nat)
  deriving DecidableEq, Repr

/-- A whole tile moved between buffer TBn and tile scratch or an ash stage (R102), in tile-buffer mode alone. -/
def Tile.moveTile (tl : Tile) (n : Nat) (p : TilePlace) (toBuf : Bool) : Tile :=
  if !(tl.reg 0x0300).getLsbD 12 then tl
  else match p with
    | .scratch a =>
      if toBuf then { tl with vregs := mwrite tl.vregs (bufAt n 0 0) (mreadN tl.scratch a 16384) }
      else { tl with scratch := mwrite tl.scratch a (mreadN tl.vregs (bufAt n 0 0) 16384) }
    | .stage i =>
      match tl.ash[i]? with
      | none => tl
      | some st => if toBuf then tl.putBuf n st.data else { tl with ash := setNth tl.ash i { st with data := tl.bufTile n } }

/-- The end of built-in test in one firebox: +0 in every register, and tile-buffer mode is left (R103). -/
def Tile.endTest (tl : Tile) : Tile :=
  ({ tl with vregs := [], masks := [], x := [], vl := 512, ashHold := [], ashHoldHdr := 0, tested := true } : Tile).tbuf false

/-- TBUF_REQ_SET: the grate enters tile-buffer mode. -/
def execTbufReqSet (unit : Nat) (s : State) : Host.Outcome State Fault Refusal :=
  guardPart (unitOk unit) .noSuchUnit (s.setTile unit ((s.tile unit).tbuf true))

/-- TBUF_REQ_CLEAR: the grate leaves tile-buffer mode; until the end of built-in test it stays (R103). -/
def execTbufReqClear (unit : Nat) (s : State) : Host.Outcome State Fault Refusal :=
  guardPart (unitOk unit) .noSuchUnit (if s.pwr.diesUp then s.setTile unit ((s.tile unit).tbuf false) else s)

end Sys2Proof.Machine
end

