-- ==== Sys2Proof/Machine/SfuStore.lean ====
section
/-! DEFINITION. The SFU store (R111, R114 to R122): slot images, the check of a bank, TABLE_LOAD, and the swap of banks. -/

namespace Sys2Proof.Machine

/-! ## Images -/

/-- A slot image of TABLE_LOAD (Table 14-11): the slot, its header and micro-ops, coefficients from COEF_FIRST, hard cases;
the bytes it takes; whether the reserved fields are 0, those of the entries too (R14, R117). -/
structure LoadImage where
  slot : Nat
  image : SlotImage
  first : Nat
  coeffs : List W64
  hard : List W64
  size : Nat
  clear : Bool
  deriving DecidableEq, Repr

/-- The image at the front of a list of bytes. -/
def parseImage (l : List Byte) : LoadImage :=
  let w0 := leAt l 0 4
  let w4 := leAt l 4 4
  let nhard := field w0 16 16
  let ncoef := field w4 16 13
  let h := leAt l 0x10 16
  let len := h % 256
  let o := 0x20 + (4 * len + 7) / 8 * 8
  let ents := fun (a n i w : Nat) => (List.range n).all (fun k => field (leAt l (a + 8 * k) 8) i w == 0)
  let words := fun (a n : Nat) => (List.range n).map (fun i => BitVec.ofNat 64 (leAt l (a + 8 * i) 8))
  { slot := field w0 0 6
    image := { header := BitVec.ofNat 128 h, ops := (List.range len).map (fun i => BitVec.ofNat 32 (leAt l (0x20 + 4 * i) 4)) }
    first := field w4 0 12, coeffs := words o ncoef, hard := words (o + 8 * ncoef) nhard, size := o + 8 * ncoef + 8 * nhard
    clear := field w0 6 10 == 0 && field w4 29 3 == 0 && field w4 12 4 == 0 && leAt l 8 8 == 0 && decide (nhard ≤ 8192) &&
      decide (ncoef ≤ 4096) && ents o ncoef 49 15 && ents (o + 8 * ncoef) nhard 48 4 }

/-- The images that fill a payload, n at most; none where a length runs past its end. -/
def parseImages : Nat → List Byte → Option (List LoadImage)
  | 0, l => if l.isEmpty then some [] else none
  | n + 1, l =>
    if l.isEmpty then some []
    else
      let i := parseImage l
      if l.length < i.size then none
      else (parseImages n (l.drop i.size)).map (fun r => i :: r)

/-- Whether a header keeps Table 05-2: its reserved bits 0, its fields in range, no reserved special-value code. -/
def headerOk (s : SlotImage) : Bool :=
  let h := s.header.toNat
  let spec := field h 64 32
  field h 10 6 == 0 && field h 96 32 == 0 && field spec 21 11 == 0 && decide (s.len ≤ 64) &&
  decide (s.fmtMask < 32) && (s.exactMask ||| 0x1E == 0x1E) && decide (20 ≤ s.eRel ∧ s.eRel ≤ 60) && decide (20 ≤ s.eAbs) &&
  field spec 16 4 == 7 && [0, 4, 8, 12].all (fun i => decide (field spec i 4 ≤ 8))

/-- Whether every micro-op is one of Table 05-3 (R117). -/
def opsOk (s : SlotImage) : Bool := s.ops.all (fun op => decide (field op.toNat 27 5 ≤ 0x0F))

/-- Whether the bracket of R113 answers an input code of a format in a mode, or an entry does (R114). -/
def covered (bank : Bank) (slot : Nat) (s : SlotImage) (fmtd : BitVec 4) (rmsel ca cb : Nat) : Bool :=
  let f := fmtF fmtd
  let a := decodeFloat f ca
  let b := decodeFloat f cb
  if !a.isFin || (s.arity2 && !b.isFin) then true
  else match runOps bank (s.spec a) a b (s.ops.take s.len) wInit with
    | .special _ => true
    | .value y =>
      let rm := rmOf (BitVec.ofNat 3 rmsel) 0
      let e := errBound s y
      !y.isFin || (packArith f rm (addNum .rne y e.neg).1).1 == (packArith f rm (addNum .rne y e).1).1 ||
        (hardCase bank slot fmtd rmsel ca cb).isSome

/-- Whether a slot passes R114; a built-in slot does. -/
def slotPasses (bank : Bank) (slot : Nat) (s : SlotImage) : Bool :=
  s.builtin || s.len == 0 ||
  (headerOk s && opsOk s && (!Nat.testBit s.fmtMask 0 || decide (26 ≤ s.eRel ∧ 150 ≤ s.eAbs)) &&
   s.exactMask &&& s.fmtMask == s.exactMask && !Nat.testBit s.exactMask 0 &&
   (List.range 5).all (fun f =>
     let n := 2 ^ laneWidth (BitVec.ofNat 4 f)
     !Nat.testBit s.exactMask f || (List.range 4).all (fun rm => (List.range n).all (fun ca =>
       (if s.arity2 then List.range n else [0]).all (fun cb => covered bank slot s (BitVec.ofNat 4 f) rm ca cb)))))

/-- The bank with slot images written over it: their micro-ops, coefficients and hard cases (those of a rewritten slot are
replaced). Coefficients that an image gives beyond entry 4,095 are taken and never read (log 160). -/
def Bank.withImages (b : Bank) (l : List LoadImage) : Bank :=
  l.foldl (fun (b : Bank) i =>
    { slots := tset b.slots i.slot i.image
      coeffs := i.coeffs.zipIdx.foldl (fun m q => tset m (i.first + q.2) q.1) b.coeffs
      hard := b.hard.filter (fun h => field h.toNat 58 6 != i.slot) ++ i.hard }) b

/-! ## The slot conditions of R111 -/

/-- The slot, the format and whether two operands that an SFU word names: VSFU, VSFU2, VGATE, VGATEA (Table 04-6). -/
def slotUse (w : W64) : Option (Nat × Nat × Bool) :=
  let op := wordOp w
  if op = 0x80 ∨ op = 0x81 ∨ op = 0x70 ∨ op = 0x71 then some (field w.toNat 0 6, field w.toNat 52 4, op == 0x81) else none

/-- Whether a bank meets R111 for one use. -/
def Bank.serves (b : Bank) (u : Nat × Nat × Bool) : Bool :=
  let s := tget {} b.slots u.1
  s.valid && s.len != 0 && s.arity2 == u.2.2 && Nat.testBit s.fmtMask u.2.1

/-- The uses of every tile program of a context. -/
def Ctx.slotUses (cx : Ctx) : List (Nat × Nat × Bool) :=
  cx.prog.flatMap (fun p => (opWords 0 0 p.2).filterMap (fun w => slotUse w.2))

/-- Whether a bank meets R111 for the tile programs of a context. -/
def Ctx.bankOk (cx : Ctx) (b : Bank) : Bool := cx.slotUses.all (fun u => b.serves u)

/-! ## Banks -/

/-- The image of a table generation of a context (R115, R122); generation 0 is the built-in set. -/
def State.bankImage (s : State) (c g : Nat) : Bank :=
  if g = 0 then builtinBank
  else match s.sfu.images.find? (fun i => i.1 == c && i.2.1 == g) with
    | some i => i.2.2
    | none => {}

/-- A bank written over the active bank of every firebox. -/
def State.writeActive (s : State) (b : Bank) (g : Nat) : State :=
  { s with sfu := if s.sfu.actBank then { s.sfu with bank1 := b, actGen := BitVec.ofNat 16 g }
      else { s.sfu with bank0 := b, actGen := BitVec.ofNat 16 g } }

/-- A bank written over the shadow bank, with a swap armed for a step of a context. -/
def State.armSwap (s : State) (b : Bank) (c g step : Nat) : State :=
  let f := if s.sfu.actBank then { s.sfu with bank0 := b } else { s.sfu with bank1 := b }
  { s with sfu := { f with shdValid := true, swapArmed := true, swapCtx := c, swapStep := step, shdGen := BitVec.ofNat 16 g } }

/-- The swap of R119 and R131. -/
def State.swapBanks (s : State) : State :=
  let g := s.sfu.shdGen
  let c := s.sfu.swapCtx
  let s1 : State := { s with sfu := { s.sfu with
    actBank := !s.sfu.actBank, actGen := g, shdValid := false, swapArmed := false, cntSwap := s.sfu.cntSwap + 1 } }
  s1.setCtx c { s1.ctx c with tgen := g.toNat, pendSwap := none }

/-- Before the first edge of a job start (R122): the bank of TGEN, then a pending swap. One whose S_EFF is 0 or not above
STEP_COMMITTED is armed as a later one is, and never takes place (log 136). -/
def State.prepareBanks (s : State) (c : Nat) : State :=
  let cx := s.ctx c
  let s1 := if s.sfu.actGen.toNat = cx.tgen then s else s.writeActive (s.bankImage c cx.tgen) cx.tgen
  match cx.pendSwap with
  | none => s1
  | some (g, step) =>
    if step = cx.stepCommitted + 1 then
      (s1.writeActive (s.bankImage c g) g).setCtx c { cx with tgen := g, pendSwap := none }
    else s1.armSwap (s.bankImage c g) c g step

/-- A context stops while its swap is armed: the swap becomes pending again (R122). -/
def State.disarmSwap (s : State) (c : Nat) : State :=
  if s.sfu.swapArmed && s.sfu.swapCtx == c then
    let s1 := s.setCtx c { s.ctx c with pendSwap := some (s.sfu.shdGen.toNat, s.sfu.swapStep) }
    { s1 with sfu := { s1.sfu with swapArmed := false } }
  else s

/-! ## TABLE_LOAD -/

/-- A spare slot that holds no logical tile and may take a check (R114, R342). -/
def State.spareFree (s : State) : Bool :=
  (List.range 272).any (fun u => (s.tileOf u).isNone && !(s.tile u).suspect && (s.tile u).testOk)

/-- TABLE_LOAD (R118): refused, or its bank built and the check started; the reply follows the check. -/
def State.tableLoad (s : State) (k : Slot) (g c step : Nat) (images : List Byte) : State :=
  let cx := s.ctx c
  let running := cx.state == 1
  if s.sfu.swapArmed || s.sfu.checkRun || cx.pendSwap.isSome then s.deny k stBUSY
  else match parseImages images.length images with
    | none => s.deny k stNOPERM
    | some l =>
      let b := (s.bankImage c cx.tgen).withImages l
      if g == cx.tgen || (running && g == s.sfu.actGen.toNat) ||
          (if running then decide (step ≤ cx.stepCommitted + 1) else step != 0 && decide (step ≤ cx.stepCommitted)) ||
          (step == 0 && s.anyRunning) || l.any (fun i => !i.clear) || !s.spareFree || decide (8192 < b.hard.length) ||
          !cx.bankOk b || l.any (fun i => !(headerOk i.image && opsOk i.image)) then s.deny k stNOPERM
      else ({ s with sfu := { s.sfu with checkRun := true, checking := some (k, c, g, step, b) } } : State).wait k
        (.tableLoad k (BitVec.ofNat 16 g) (BitVec.ofNat 2 c) (BitVec.ofNat 48 step) images)

/-- TABLE_LOAD. -/
def execTableLoad (slot : Slot) (g : BitVec 16) (ctx : BitVec 2) (sEff : BitVec 48) (images : List Byte) (s : State) :
    Host.Outcome State Fault Refusal :=
  ok (s.tableLoad slot g.toNat ctx.toNat sEff.toNat images)

/-- TABLE_CHECK_COMPLETE: the check of R114 ends. A bank that passes is kept, then armed for a running context (one whose stop is
still to come among them), swapped at once where that context's step waits for it (R120), made pending for one that does not run, or
with S_EFF = 0 written into the active bank. -/
def State.checkComplete (s : State) : State :=
  match s.sfu.checking with
  | none => s
  | some (k, c, g, step, b) =>
    let s1 : State := { s with sfu := { s.sfu with checkRun := false, checking := none } }
    if !(b.slots.all (fun p => slotPasses b p.1 p.2)) then s1.denyWaiting k stNOPERM
    else
      let s2 : State := { s1 with sfu := { s1.sfu with
        images := s1.sfu.images.filter (fun i => !(i.1 == c && i.2.1 == g)) ++ [(c, g, b)] }
                                  ember := { s1.ember with imagesSent := s1.ember.imagesSent.filter (fun i => i != (c, g)) } }
      let cx := s2.ctx c
      let s3 := if (cx.state = 1 ∨ cx.state = 2) ∧ step = cx.stepCommitted + 1 then (s2.armSwap b c g step).swapBanks
        else if cx.state = 1 ∨ (cx.state = 2 ∧ cx.stepCommitted + 1 < step) then s2.armSwap b c g step
        else if step = 0 ∧ !s2.anyRunning then (s2.writeActive b g).setCtx c { cx with tgen := g }
        else s2.setCtx c { cx with pendSwap := some (g, step) }
      s3.okWaiting k []

/-- TABLE_CHECK_COMPLETE. -/
def execTableCheckComplete (s : State) : Host.Outcome State Fault Refusal := ok s.checkComplete

/-- SFU_STORE_ERROR (R115): corrected and reported with a count that the spec does not define, or SFU_UE and a FIREBOX report
with FAIL for the step (Tables 13-1, 13-3). -/
def State.storeError (s : State) (u : Nat) (ue : Bool) : State :=
  if ue then
    let s1 := s.setTile u ((s.tile u).orReg 0x0340 0x800)
    (s1.draw.report (srcId 0xA u) (s.tileInfo u)).raiseFail
  else (s.reportCorr u (Config.unitInfo (srcId 1 u) s.free)).draw

/-- SFU_STORE_ERROR. -/
def execSfuStoreError (unit : Nat) (uncorrectable : Bool) (s : State) : Host.Outcome State Fault Refusal :=
  guardPart (unitOk unit) .noSuchUnit (s.storeError unit uncorrectable)

end Sys2Proof.Machine
end

