-- ==== Sys2Proof/Machine/Sched.lean ====
section
/-! DEFINITION. The beat edge and the static schedule (R228, R229, R243, R248 to R263): rounds, stretches, the gate, the commit
edge, discards, job starts and stops. -/

namespace Sys2Proof.Machine

/-! ## Tiles -/

/-- Every logical tile changed. -/
def State.eachTile (s : State) (f : Nat → Tile → Tile) : State :=
  (List.range 256).foldl (fun (s : State) t => s.setLtile t (f t (s.ltile t))) s

/-- n free bytes of a use, from place a. -/
def freeBytes (use a n : Nat) : List Byte := (List.range n).map (fun i => Config.freeByte use (a + i))

/-- The contents that a discard leaves open in a firebox (Table 10-6, log 33): its vector, mask and scalar registers, the read-hold
buffer, and the spans of STEP allocations in its scratch. VL, which Table 10-6 does not list, keeps its value (log 114). -/
def Tile.loseStep (t : Tile) (use base : Nat) (spans : List (Nat × Nat)) : Tile :=
  { t with
    vregs := cellsOf 0 (freeBytes use base 65536)
    masks := (List.range 8).map (fun m => (m, BitVec.ofNat 2048 (leNat (freeBytes use (base + 65536 + 256 * m) 256))))
    x := (List.range 15).map (fun r => (r + 1, BitVec.ofNat 32 (leNat (freeBytes use (base + 2 ^ 17 + 4 * r) 4))))
    ashHold := (List.range 512).map (fun i => BitVec.ofNat 32 (leNat (freeBytes use (base + 2 ^ 18 + 4 * i) 4)))
    ashHoldHdr := BitVec.ofNat 64 (leNat (freeBytes use (base + 2 ^ 19) 8))
    scratch := spans.foldl (fun m p => mwrite m p.1 (freeBytes use (base + 2 ^ 22 + p.1) p.2)) t.scratch }

/-- The spans of a context's STEP allocations in a space other than DVA. -/
def Ctx.stepSpans (cx : Ctx) (sp : Nat) : List (Nat × Nat) :=
  (cx.allocs.filter (fun a => a.cls == 0 && a.space == sp)).map (fun a => (a.base, a.size))

/-- Undefined after a discard (Table 10-6, log 33): STEP allocations in tile scratch, die pools and mapped pages, and the
step-local registers. -/
def State.loseStep (s : State) (c : Nat) : State :=
  let cx := s.ctx c
  let n := s.free
  let s1 := (List.range 256).foldl (fun (s : State) t => s.setLtile t ((s.ltile t).loseStep n (t * 2 ^ 24) (cx.stepSpans 1))) s
  let s2 : State := if (cx.stepSpans 2).isEmpty then s1 else { s1 with mem := { s1.mem with
    pools := (List.range 4).foldl (fun (ps : Table Memory) die =>
      tset ps die ((cx.stepSpans 2).foldl (fun m p => mwrite m p.1 (freeBytes (n + 1) (die * 2 ^ 26 + p.1) p.2)) (tget [] ps die))) s1.mem.pools } }
  let s3 := (cx.allocs.filter (fun a => a.cls == 0 && a.space == 0)).foldl (fun (s : State) a =>
    (List.range (a.size / pageBytes)).foldl (fun (s : State) i =>
      let p := a.base / pageBytes + i
      let e := s.pentry c p
      if eV e then s.setTierMem (eTier e) (mwrite (s.tierMem (eTier e)) (eFrame e * pageBytes) (freeBytes (n + 2) (p * pageBytes) pageBytes))
      else s) s) s2
  { s3 with free := n + 3 }

/-- The grate state at the first instruction of a job (Table 04-1). -/
def Tile.newJob (t : Tile) : Tile := { t with vregs := [], masks := [], x := [], vl := 512, ashHold := [], ashHoldHdr := 0 }

/-- NUM_STATUS cleared in every tile that has a flag (R35, R108). -/
def State.clearNum (s : State) : State :=
  { s with tiles := s.tiles.map (fun p => (p.1, if p.2.reg 0x0100 = 0 then p.2 else p.2.setReg 0x0100 0)) }

/-- NF of NUM_STATUS in any logical tile. -/
def State.anyNf (s : State) : Bool := !s.everyTile (fun t => !(t.reg 0x0100).getLsbD 8)

/-- HOB_CFG written from the settings TOL_SHIFT and CHK_EN in every firebox at a commit beat (R81). -/
def State.writeHobCfg (s : State) : State :=
  let v := BitVec.ofNat 32 (s.setting 0x0001 * 256 + s.setting 0x0002)
  if (List.range 272).all (fun u => (s.tile u).reg 0x02C0 == v) then s else s.eachUnit (fun t => t.setReg 0x02C0 v)

/-! ## The end of a job on the module -/

/-- A JOB report of the running context (Table 13-1). -/
def State.jobReport (s : State) : State :=
  s.report (srcId 0xB (0x1C0 + s.sched.ctx)) (BitVec.ofNat 32 (s.ctx s.sched.ctx).stepCommitted)

/-- PROGRAM and STREAM reactions complete with the discard or the job (Table 13-3). -/
def State.endStepReacts (s : State) : State := s.endReact (fun r => r / 4096 % 16 == 6 || r / 4096 % 16 == 7)

/-- The schedule of a module that runs no step. -/
def Sched.ended (d : Sched) : Sched :=
  { d with
    running := false, b0 := none, sStop := none, failStep := none, flagSent := false, gateFv := false, gateKnown := false
    gateNf := false, gateFail := false, abandoned := false, blockBad := false, late := false, sealHold := false, sealFrom := none, sealSpan := none
    draining := true }

/-- Whether a job runs on the module, or waits for its B0. -/
def State.jobHere (s : State) : Bool := s.sched.running || (s.ctx s.sched.ctx).state == 1 || (s.ctx s.sched.ctx).state == 2

/-- The schedule ends, and an armed swap becomes pending again (R122). -/
def State.endSched (s : State) : State := ({ s with sched := s.sched.ended } : State).disarmSwap s.sched.ctx

/-- What the units hold of the job ends: its slots close, and its passes in flight run to commit with their outputs dropped (R261). -/
def State.endUnits (s : State) : State :=
  let s1 := ({ s with net := { s.net with slots := [] } } : State).andnIo 0x2004 8
  ({ s1 with tiles := s1.tiles.map (fun p => (p.1, p.2.endStep)) } : State).endStepReacts

/-- The running job, or one that waits for its B0, stops; once its passes have committed JOB_STATE is STOPPED (R122, R261). -/
def State.stopJob (s : State) : State := if s.jobHere then s.endSched.endUnits.settleJob else s

/-- SCHED_DESYNC (R250): no further word starts; a JOB report; the job stops (R326). -/
def State.desync (s : State) : State :=
  let s1 := ({ s with sched := { s.sched with desync := true } } : State).orBar 0x40100 0x8000
  s1.jobReport.stopJob

/-! ## Rounds -/

/-- NF raised in the commit window (R257): in some logical tile since the flag bits went out, while the gate is clear. -/
def State.lateNow (s : State) : Bool := s.sched.running && s.window && !s.everyTile (fun t => !t.nfSeen)

/-- LATE_NF kept, before the gate may shut. -/
def State.latchLate (s : State) : State :=
  if s.lateNow then ({ s with sched := { s.sched with late := true } } : State).orBar 0x40100 0x2000 else s

/-- Whether a generation of the running context waits at its seal fence. -/
def State.sealPending (s : State) : Bool := s.ember.gens.any (fun r => r.ctx == s.sched.ctx && !r.fenced)

/-- Whether that generation is not sealed. -/
def State.sealHolds (s : State) : Bool := s.ember.gens.any (fun r => r.ctx == s.sched.ctx && !r.isSealed)

/-- Whether JOB_STOP ends the job at this commit edge of step `step`. -/
def State.stopsAt (s : State) (step : Nat) : Bool :=
  match s.sched.sStop with
  | some n => n == 0 || decide (n ≤ step)
  | none => false

/-- Whether the check of a new bank for the next step has not completed: its step may not start on the old bank (R120, R250). A shut
gate, whose re-run uses the old bank (R119), and a stop at this edge wait for nothing. -/
def State.tableHolds (s : State) : Bool :=
  (match s.sfu.checking with
   | some (_, c, _, step, _) => c == s.sched.ctx && step == s.stepNow + 1
   | none => false) && !s.sched.gateNf && !s.sched.gateFail && !s.stopsAt s.stepNow

/-- Whether the FLAG's step beat has come in this step execution. -/
def State.flagDue (s : State) : Bool :=
  (List.range 256).any (fun t => (s.ltile t).stoker.fences.any (fun m => m.op == 0xD2 && decide (m.beat ≤ s.stepBeat)))

/-- NR (R249): a counted fence with STEP_BASE + T ≤ SCHED_NOW is unmet (the FLAG is while an exchange slot is incomplete, R281),
the seal fence holds (R306), a table check has not completed (R120), or the module is beat stopped (R397). -/
def State.nrBit (s : State) : Bool :=
  !s.fencesMet (fun m => !m.replayed && decide (m.beat ≤ s.stepBeat)) ||
  ((s.sealHolds || s.tableHolds) && decide (((s.ctx s.sched.ctx).stepBeats : Int) ≤ s.stepBeat)) || s.tableWait || s.stopped ||
  (!s.slotsDone && !s.sched.abandoned && s.flagDue)

/-- Whether the step's FLAG is met in every tile and every slot is complete: its flag bits go out (R253, R281). The fences of an
abandoned step are met (R254). -/
def State.flagMet (s : State) : Bool :=
  s.fencesMet (fun m => m.op == 0xD2) && s.slotsDone && s.flagDue

/-- Whether a cluster-wide beat stop, or its release, is dispatched at this edge (R397). -/
def State.gstopAsked (s : State) : Bool :=
  s.bar 0x30040 &&& 0x32 == 0 && s.anyRunning && s.ctl.ready.any (fun p => match p.2 with | .gstopBeat _ true => true | _ => false)

/-- NF counts anew from the gate on (R257). -/
def State.forgetNf (s : State) : State := { s with tiles := s.tiles.map (fun p => (p.1, { p.2 with nfSeen := false })) }

/-- The module's round of this edge. -/
def State.sendOwnRound (s : State) : State :=
  let nr := s.nrBit
  let fv := !s.sched.flagSent && s.flagMet
  let fail := s.sched.failStep.isSome
  let r : Round := {
    edge := s.clk.beatNow, nr := nr, fail := fail, fv := fv, nf := fv && s.anyNf, stepFail := fv && fail
    gstop := s.gstopAsked, cnt := 1, failStep := s.sched.failStep.getD 0, flagStep := if fv then s.stepNow else 0 }
  let s1 := (({ s with sched := { s.sched with flagSent := s.sched.flagSent || fv } } : State)).barField 0x40100 8 1 (bnat nr)
  s1.sendRound r

/-! ## The OR of an edge -/

/-- The step is abandoned (R254): every word before STEP counts as complete, held passes do not start, slots are abandoned, the
gate is shut. -/
def State.abandonStep (s : State) : State :=
  let s1 := s.latchLate.eachTile (fun _ t => { t.endWaits with stoker := { t.stoker with abandoned := true, waitWord := false } })
  ({ s1 with sched := { s1.sched with abandoned := true, gateKnown := true, gateFail := true } } : State).abandonSlots

/-- Whether a seal fence may have held at an edge: that of the present step from its first due edge on, or the last one before its
commit edge, whose OR comes after it (R306). -/
def Sched.atSeal (d : Sched) (edge : Nat) : Bool :=
  (match d.sealFrom with | some f => decide (f ≤ edge) | none => false) ||
  (match d.sealSpan with | some p => decide (p.1 ≤ edge ∧ edge < p.2) | none => false)

/-- The first edge at which the seal fence of the step is due, noted. -/
def State.noteSeal (s : State) : State :=
  if s.sched.sealFrom.isNone && s.sealPending && decide (((s.ctx s.sched.ctx).stepBeats : Int) ≤ s.stepBeat) then
    { s with sched := { s.sched with sealFrom := some s.clk.beatNow } }
  else s

/-- A stretch or an advance (R249) by the OR of an edge. A held edge of a seal fence counts so (R306). -/
def State.pace (s : State) (nr : Bool) (edge : Nat) : State :=
  if nr then
    let atSeal := s.sched.atSeal edge
    let s1 := (({ s with sched := { s.sched with held := true, sealHold := s.sched.sealHold || atSeal } } : State).bumpBar 0x40118 1).barField
      0x40100 12 1 1
    if atSeal then s1.bumpIo 0x3020 1 else s1
  else ({ s with sched := { s.sched with held := false, now := s.sched.now + 1 } } : State).barField 0x40100 12 1 0

/-- A beat stop, or its release, that waits for its edge (R397, R398). CLUSTER names the stop in force, which a release leaves. -/
def State.armGstop (s : State) (cluster : Bool) (edge : Nat) : State :=
  let release := getField (s.bar 0x30040) 0 2 == 1
  let s1 : State := { s with obs := { s.obs with gsEdge := some (edge, release) } }
  if release then s1.orBar 0x30040 0x20 else (s1.orBar 0x30040 0x10).barField 0x30040 6 1 (bnat cluster)

/-- The OR of the edge that is FLAG_LAT back applied: pace, FAIL, the gate, a cluster beat stop. Modules may meet the FLAG at
different edges: the gate gathers the bits of the ORs and is known at the first one without NR, when every module has sent its own (log 86).
Rounds of an earlier execution of the step do not count for this one (log 87). -/
def State.applyOr (s : State) (r : Round) : State :=
  let s1 := s.pace r.nr r.edge
  let here := decide (s1.sched.execEdge ≤ r.edge)
  let mine := here && r.fv && r.flagStep == s1.stepNow
  let seen := s1.sched.gateFv || mine
  let s2 : State := if s1.sched.gateKnown then s1 else
      { s1 with sched := { s1.sched with
        gateFv := seen, gateNf := s1.sched.gateNf || (mine && r.nf), gateFail := s1.sched.gateFail || (mine && r.stepFail)
        gateKnown := seen && !r.nr } }
  let s2 := if s2.sched.gateKnown && !s1.sched.gateKnown then s2.forgetNf else s2
  let s3 := if here && r.fail && r.failStep == s2.stepNow && !s2.sched.abandoned then s2.abandonStep else s2
  if r.gstop && s3.obs.gsEdge.isNone then s3.armGstop true (s3.clk.beatNow + 1) else s3

/-! ## The commit edge (R256 to R259) -/

/-- The flags of a step cleared for the next one, its slots closed. -/
def State.clearStep (s : State) : State :=
  ({ s with
    sched := { s.sched with
      failStep := none, flagSent := false, gateFv := false, gateKnown := false, gateNf := false, gateFail := false
      abandoned := false
      blockBad := false, late := false, sealHold := false, sealFrom := none
      sealSpan := s.sched.sealFrom.map (fun f => (f, s.clk.beatNow)) }
    net := { s.net with slots := [] } } : State).andnIo 0x2004 8

/-- The next step execution begins: every stoker at the prologue or after it. -/
def State.beginStep (s : State) (base : Int) (pro : Bool) : State :=
  let cx := s.ctx s.sched.ctx
  let s1 := s.clearStep
  let s2 : State := { s1 with sched := { s1.sched with base := base, execEdge := s.clk.beatNow, proExec := pro } }
  s2.forgetNf.eachTile (fun t tl => { tl with
    stoker := tl.stoker.startStep cx t pro, streams := tl.streams.map (fun p => (p.1, { p.2 with armedIn := 0 })) })

/-- Whether the commit edge's conditions hold. -/
def State.atCommit (s : State) : Bool :=
  decide (s.sched.base + (s.ctx s.sched.ctx).stepBeats ≤ s.sched.now) && s.fencesMet (fun m => m.op == 0xD4) && !s.sealHolds &&
    !s.tableHolds

/-- COMMIT_FAIL or LATE_NF (R257): actions 1 to 3 skipped, the job stops with a JOB report. The edge is a commit beat (R81) and the seal
fence of a sealed generation (R306) all the same. -/
def State.failCommit (s : State) : State :=
  (s.latchLate.sealFence s.sched.ctx s.sched.sealHold).clearNum.writeHobCfg.jobReport.stopJob

/-- The commit edge with a clear gate: Table 10-5. -/
def State.commitClear (s : State) : State :=
  let c := s.sched.ctx
  let step := s.stepNow
  let cx := s.ctx c
  let s1 := (s.setCtx c { cx with stepCommitted := step, streams := s.savedStreams c }).barField 0x40100 20 6 0
  let s2 := s1.sealFence c s.sched.sealHold
  let s3 := if s2.cutDue c step then s2.cut c else s2
  let s4 := if s3.sfu.swapArmed && s3.sfu.swapCtx == c && s3.sfu.swapStep == step + 1 then s3.swapBanks else s3
  let s5 := s4.clearNum.writeHobCfg
  if s5.stopsAt step then s5.stopJob
  else s5.beginStep (s.sched.base + cx.stepBeats) false

/-- A discard (R258, R259): the counters, the streams returned to the committed state, then RERUN, SKIP or STOP. -/
def State.commitShut (s : State) : State :=
  let c := s.sched.ctx
  let cx := s.ctx c
  let fail := s.sched.gateFail
  let run := getField (s.bar 0x40100) 20 6 + 1
  let s1 := ((s.bumpBar (if fail then 0x40120 else 0x4011C) 1).barField 0x40100 6 2 (if fail then 2 else 1)).barField 0x40100 20 6 run
  let action := if cx.maxDisc ≤ run then 2 else if fail then cx.onFail else cx.onNf
  let keep := if action = 1 then cx.advance else []
  let kept := ((s1.savedStreams c).filter (fun p => keep.contains (p.1 / 32, p.1 % 32)))
  let saved := kept.foldl (fun m p => tset m p.1 p.2) cx.streams
  let s2 := (s1.restoreStreams c cx.streams keep).setCtx c { cx with streams := saved }
  let s3 := ({ s2 with tiles := s2.tiles.map (fun p => (p.1, p.2.endStep.zeroSlots)) } : State).loseStep c
  let s4 := ((s3.endStepReacts.sealFence c s.sched.sealHold).clearNum).writeHobCfg
  if s4.stopsAt (cx.stepCommitted + 1) then s4.stopJob
  else if action = 2 then s4.jobReport.stopJob
  else s4.beginStep (s.sched.base + cx.stepBeats + cx.proBeats) true

/-- The commit edge of the step, where its conditions hold. -/
def State.commitEdge (s : State) : State :=
  if !s.sched.running || !s.atCommit then s
  else if s.sched.blockBad || s.sched.late || s.lateNow then s.failCommit
  else if s.sched.gateNf || s.sched.gateFail then s.commitShut
  else s.commitClear

/-! ## The edge -/

/-- A beat stop past its edge is complete once every started word is: BEAT_STOPPED, and the reply (R393, R397). -/
def State.settleStop (s : State) : State :=
  if s.barBit 0x30040 4 && s.obs.gsEdge.isNone && s.quiescent then
    let s1 := (s.andnBar 0x30040 0x10).barField 0x30040 0 2 1
    match s1.obs.gsSlot with
    | some k => ({ s1 with obs := { s1.obs with gsSlot := none } } : State).okWaiting k []
    | none => s1
  else s

/-- The edge B0 of a job start (R243, R263): SCHED_NOW := 0, the step begins with its prologue. It is the first beat of the job's first
step, which clears NUM_STATUS (R34, log 105). -/
def State.startEdge (s : State) (c : Nat) : State :=
  let cx := s.ctx c
  let s1 : State := { s with sched := {
    ctx := c, now := 0, running := true, startEdge := s.clk.beatNow, sStop := s.sched.sStop, stopSlot := s.sched.stopSlot } }
  let s2 : State := { s1 with tiles := s1.tiles.map (fun p => (p.1, p.2.endStep.zeroSlots.newJob)), net := { s1.net with own := [], ups := s1.net.ups } }
  (s2.restoreStreams c cx.streams []).clearNum.beginStep cx.proBeats true

/-- The OR that is due at this edge: none is due before the job start plus FLAG_LAT. -/
def State.dueOr (s : State) : State :=
  let lat := (s.ctx s.sched.ctx).flagLat
  if s.clk.beatNow < s.sched.startEdge + lat then s.pace false (s.clk.beatNow - lat)
  else match s.orOf (s.clk.beatNow - lat) with
    | some r => s.applyOr r
    | none => s.desync

/-- The tile clock within TILE_FMIN and TILE_FMAX at a beat edge (R237). -/
def State.clampTileClock (s : State) : State :=
  { s with clk := { s.clk with tileMhz := max (s.setting 0x0032) (min (s.setting 0x0033) s.clk.tileMhz) } }

/-- The beat edge: BEAT_NOW and the tick, a token to every domain (R227), a slow level written before, a switch back of the mantel, a due BEAT_DIV, a job start or the due OR and the commit edge, Kwaop dispatch, then
the module's own round. The spec gives the crossings of tokens and levels no depth: their queues here have no bound, so that none is ever
full and stalls its writer (R226, log 164). -/
def State.beatEdge (s : State) (dma : List (Slot × List Byte)) : State :=
  if !s.clk.started || !s.clocked 323 then s
  else
    let s1 := ({ s with clk := { s.clk with
      beatNow := s.clk.beatNow + 1, ticks := s.clk.ticks + (max 1 ((s.bar 0x4000C).toNat - s.clk.phase)), phase := 0
      tokens := tpush { beat := s.clk.beatNow + 1, before := s.sched.now } 327 0 s.clk.tokens, tokSent := s.clk.tokSent + 1 } } : State).takeSlow.switchBack.barField 0x40100 12 1 0
    let s2 := (if s1.sched.stopDue then ({ s1 with sched := { s1.sched with stopDue := false } } : State).stopJob else s1).applyBeatDiv.clampTileClock
    let s2 := s2.sampleEdge.settleStop
    let s3 := match s2.sched.b0 with
      | some b => if b.2 = s2.clk.beatNow ∧ s2.pwr.diesUp then s2.startEdge b.1
        else if s2.sched.running then s2.dueOr.noteSeal.commitEdge else s2
      | none => if s2.sched.running then s2.dueOr.noteSeal.commitEdge else s2
    let s4 := s3.dispatch dma
    if s4.sched.running && getField (s4.bar 0x30040) 0 2 != 2 then s4.sendOwnRound else s4

/-- BEAT_EDGE. -/
def execBeatEdge (dma : List (Slot × List Byte)) (s : State) : Host.Outcome State Fault Refusal := ok (s.beatEdge dma)

/-- BEAT_TOKEN: a domain reads its oldest token, its local copy of the beat number advances (R226, R227), and its counter block sees the
edge. A domain that does not run leaves the token in the crossing. -/
def State.beatToken (s : State) (d : Nat) : State :=
  match tget [] s.clk.tokens d with
  | [] => s
  | k :: r => if s.domRuns d then
      ({ s with clk := { s.clk with locals := tset s.clk.locals d (k.beat % 65536), tokens := tset s.clk.tokens d r } } : State).domainEdge d k.beat
    else s

/-- BEAT_TOKEN. -/
def execBeatToken (dom : Nat) (s : State) : Host.Outcome State Fault Refusal :=
  guardPart (domOk dom) .noSuchDomain (s.beatToken dom)

/-! ## JOB_START and JOB_STOP -/

/-- Whether some protected tensor of a context would resolve to MIRROR (R308, R314). -/
def State.wouldMirror (s : State) (c : Nat) : Bool :=
  let cx := s.ctx c
  let p := (tfind s.ember.pendPolicy c).getD cx.policy
  cx.tensors.any (fun a => (s.chooseMethod c 0 p a).1 == 1)

/-- JOB_START (R111, R122, R263, R296, R314, R369). -/
def State.jobStart (s : State) (k : Slot) (c b0 : Nat) : State :=
  let cx := s.ctx c
  if s.anyRunning then s.deny k stBUSY
  else if !cx.jobLoaded || !cx.schedLoaded || decide (b0 < s.clk.beatNow + 16) || !cx.bankOk (s.bankImage c cx.tgen) ||
      (match cx.pendSwap with | some q => !cx.bankOk (s.bankImage c q.1) | none => false) || s.devid.isNone ||
      (s.flagParent.isNone && decide (1 < s.clusterSize) && !(s.settingOpt 0x0150).isSome) || !s.pwr.diesUp then s.deny k stNOPERM
  else if s.ember.partner.isNone && s.wouldMirror c then s.deny k stNOPARTNER
  else
    let s1 := s.prepareBanks c
    let s2 := s1.eachTile (fun _ t => t.setReg 0x0304
      (putBit (putBit (t.reg 0x0304) 0 cx.strict) 1 cx.compat))
    let s3 : State := { s2 with sched := { s2.sched with
      ctx := c, b0 := some (c, b0), running := false, desync := false, sStop := none, stopSlot := none } }
    ((s3.setJobState c 1).resyncStart c).ok k

/-- JOB_START. -/
def execJobStart (slot : Slot) (ctx : BitVec 2) (b0 : BitVec 64) (s : State) : Host.Outcome State Fault Refusal :=
  ok (s.jobStart slot ctx.toNat b0.toNat)

/-- JOB_STOP (R261): the reply waits for the stop. -/
def State.jobStop (s : State) (k : Slot) (c sStop : Nat) : State :=
  let cx := s.ctx c
  if cx.state = 2 then s.deny k stBUSY
  else if cx.state ≠ 1 ∨ (sStop ≠ 0 ∧ sStop ≤ cx.stepCommitted) then s.deny k stNOPERM
  else
    let s1 : State := { s with sched := { s.sched with sStop := some sStop, stopSlot := some k } }
    (s1.wait k (.jobStop k (BitVec.ofNat 2 c) (BitVec.ofNat 48 sStop))).setJobState c 2

/-- JOB_STOP. -/
def execJobStop (slot : Slot) (ctx : BitVec 2) (sStop : BitVec 48) (s : State) : Host.Outcome State Fault Refusal :=
  ok (s.jobStop slot ctx.toNat sStop.toNat)

end Sys2Proof.Machine
end

