-- ==== Sys2Proof/Machine/Snapshots.lean ====
section
/-! DEFINITION. Snapshots between modules and restores: the partner and parity stores (R310 to R313), pairing (R314, R315),
policies (R324, R325), RESTORE (R327, R328), resynchronisation (R329) and the drain (R331). -/

namespace Sys2Proof.Machine

/-! ## What a PART or PAR frame carries (Table 11-8) -/

/-- GEN. -/
def partGen (f : Frame) : Nat := beAt f.payload 0 4
/-- PAGE with CTX, or STRIPE. -/
def partItem (f : Frame) : Nat := beAt f.payload 4 4
/-- OFS. -/
def partOfs (f : Frame) : Nat := beAt f.payload 8 2
/-- FRAG. -/
def partFrag (f : Frame) : Nat := beAt f.payload 10 2 % 16
/-- DATA. -/
def partData (f : Frame) : List Byte := f.payload.drop 12

/-- GEN of a pairing frame. -/
def pairingGen : Nat := 0xFFFFFFFF

/-- An end mark: OFS 0xFFFF and empty DATA (R313). -/
def isEndMark (f : Frame) : Bool := partOfs f == 0xFFFF && (partData f).isEmpty && partGen f != pairingGen

/-- A pairing frame: TYPE PART, GEN all ones. -/
def isPairing (f : Frame) : Bool := f.typ == 3 && partGen f == pairingGen

/-! ## The partner and parity stores -/

/-- The context of a PART frame's page; PAR frames name none. -/
def partCtx (f : Frame) : Nat := if f.typ = 3 then field (partItem f) 26 2 else 0

/-- The key of a peer's arrivals by frame TYPE. -/
def arrivedKey (f : Frame) : Nat := 2 * f.src + (f.typ - 3)

/-- What the sender of a frame has sent of its generation. -/
def State.arrived (s : State) (f : Frame) : Arrived :=
  (s.ember.arrivals.find? (fun a => a.peer == arrivedKey f && a.gen == partGen f && a.ctx == partCtx f)).getD
    { peer := arrivedKey f, gen := partGen f, ctx := partCtx f }

/-- That record replaced. -/
def State.setArrived (s : State) (a : Arrived) : State :=
  { s with ember := { s.ember with
    arrivals := s.ember.arrivals.filter (fun b => !(b.peer == a.peer && b.gen == a.gen && b.ctx == a.ctx)) ++ [a] } }

/-- A piece noted: whether it is new. -/
def State.notePiece (s : State) (f : Frame) : State × Bool :=
  let a := s.arrived f
  let key := partItem f * 65536 + partOfs f
  if a.pieces.contains key then (s, false)
  else (s.setArrived { a with pieces := a.pieces ++ [key], bytes := a.bytes + (partData f).length }, true)

/-- Distinct items of which something arrived. -/
def Arrived.items (a : Arrived) : Nat := ((a.pieces.map (fun k => k / 65536)).eraseDups).length

/-- An item of a store with the incoming version of a generation changed; its sealed version is copied aside first (R310). An incoming
version of an older generation is sealed when a newer one begins, for that one was cut after its seal fence; a piece of an older one that
is sent again (R329) changes the sealed version, and for a Δ (`both`) the incoming one too. -/
def editStored (l : List Stored) (key gen : Nat) (both : Bool) (f : Memory → Memory) : List Stored :=
  let q := (l.find? (fun q => q.key == key)).getD { key := key }
  let q1 : Stored := match q.next with
    | none => { q with next := some (gen, f q.body) }
    | some n =>
      if n.1 = gen then { q with next := some (gen, f n.2) }
      else if n.1 < gen then { q with body := n.2, next := some (gen, f n.2) }
      else { q with body := f q.body, next := some (n.1, if both then f n.2 else n.2) }
  l.filter (fun q => q.key != key) ++ [q1]

/-- PART data of the partner goes into the partner store; any other module's is accepted without effect. -/
def State.storePart (s : State) (f : Frame) : State :=
  if s.ember.partner ≠ some f.src then s
  else
    let s1 := (s.notePiece f).1
    { s1 with ember := { s1.ember with
      mirror := editStored s1.ember.mirror (partItem f) (partGen f) false (fun m => mwrite m (partOfs f) (partData f)) } }

/-- PART. -/
def execPartFrame (chimney : BitVec 1) (frame : List Byte) (s : State) : Host.Outcome State Fault Refusal :=
  let r := s.admitFrame chimney.toNat 3 frame
  ok (if s.snapHalted then s.holdFrame (.partFrame chimney frame) else match r.2 with
    | some f =>
      if isEndMark f || isPairing f then r.1
      else
        let q := r.1.acceptSeq f chimney.toNat
        if q.2 then q.1.storePart f else q.1
    | none => r.1)

/-- A Δ applied to a fragment: P ⊕= Δ, Q ⊕= 2^i · Δ in GF(2^8) (R312). -/
def applyDelta (m : Memory) (ofs : Nat) (d : List Byte) (coef : Byte) : Memory :=
  mwrite m ofs (List.zipWith (fun x y => x ^^^ gfMul coef y) (mreadN m ofs d.length) d)

/-- PAR data of a group member: this module is the P or the Q holder of the stripe, or the frame has no effect. A Δ piece that
arrives again with a resent generation is not applied twice (log 37). -/
def State.storePar (s : State) (f : Frame) : State :=
  match s.member with
  | none => s
  | some me =>
    let n := partItem f
    let holder := me == n % 10 || me == (n + 1) % 10
    if !s.ember.group.contains f.src || !holder || decide (8 ≤ partFrag f) then s
    else
      let r := s.notePiece f
      let coef : Byte := if me = n % 10 then 1 else gfPow 2 (partFrag f)
      if !r.2 then r.1
      else { r.1 with ember := { r.1.ember with
        parity := editStored r.1.ember.parity n (partGen f) true (fun m => applyDelta m (partOfs f) (partData f) coef) } }

/-- PAR. -/
def execParFrame (chimney : BitVec 1) (frame : List Byte) (s : State) : Host.Outcome State Fault Refusal :=
  let r := s.admitFrame chimney.toNat 4 frame
  ok (if s.snapHalted then s.holdFrame (.parFrame chimney frame) else match r.2 with
    | some f =>
      if isEndMark f then r.1
      else
        let q := r.1.acceptSeq f chimney.toNat
        if q.2 then q.1.storePar f else q.1
    | none => r.1)

/-- END_MARK (R313), PAGE or STRIPE of which is the count: a fresh one whose count disagrees with the whole items that arrived sets SEAL_ERR and is not acknowledged. -/
def State.endMark (s : State) (f : Frame) (ch : Nat) : State :=
  let q := s.acceptSeq f ch
  let kept := if f.typ = 3 then s.ember.partner == some f.src else s.ember.group.contains f.src
  let a := s.arrived f
  let count := if f.typ = 3 then field (partItem f) 0 26 else partItem f
  if !q.2 || !kept then q.1
  else if a.items = count ∧ a.bytes = count * 65536 then q.1.setArrived a
  else s.orIo 0x3000 0x8000

/-- END_MARK. -/
def execEndMark (chimney : BitVec 1) (frame : List Byte) (s : State) : Host.Outcome State Fault Refusal :=
  let r := s.admitAny chimney.toNat frame
  ok (if s.snapHalted then s.holdFrame (.endMark chimney frame) else match r.2 with
    | some f => if (f.typ == 3 || f.typ == 4) && isEndMark f then r.1.endMark f chimney.toNat else r.1
    | none => r.1)

/-! ## Pairing (R314, R315) -/

/-- A pairing frame sent to a module: FD_TAG at offset 0, the DEVID named at offset 8. -/
def State.sendPairing (s : State) (d tag : Nat) : State :=
  s.sendRel d 3 0 (partPayload pairingGen 0 0 0 (leBytes 8 tag ++ leBytes 8 d))

/-- FEED of an FD_TAG. -/
def feedOf (tag : Nat) : Nat := tag % 65536

/-- CO_FED follows the pairing and the group. -/
def State.setCoFed (s : State) (pair group : Bool) : State :=
  let s1 : State := { s with ember := { s.ember with coPair := pair, coGroup := group } }
  if pair || group then s1.orIo 0x3000 0x40000 else s1.andnIo 0x3000 0x40000

/-- The pairing replaced; the store of another partner goes with it. -/
def State.setPartner (s : State) (d : Option Nat) : State :=
  let keep := s.ember.partner == d
  { s with ember := { s.ember with
    partner := d, mirror := if keep then s.ember.mirror else [], imagesSent := if keep then s.ember.imagesSent else [] } }

/-- The parity group replaced; the fragments of another group go with it. -/
def State.setGroup (s : State) (g : List Nat) : State :=
  let keep := s.ember.group == g
  { s with ember := { s.ember with group := g, parity := if keep then s.ember.parity else [] } }

/-- PARTNER_SET once the partner's pairing frame is there. -/
def State.resolvePartner (s : State) (k : Slot) (force : Bool) (d : Nat) : State :=
  match s.ember.pairs.find? (fun q => q.1 == d) with
  | none => s
  | some (_, tag, named) =>
    let co := feedOf tag == feedOf s.ember.fdTag
    if s.devid ≠ some named then ((s.setPartner none).setCoFed false s.ember.coGroup).deny k stNOPARTNER
    else if co && !force then ((s.setPartner none).setCoFed false s.ember.coGroup).deny k stCOFED
    else
      let s1 := (s.setPartner (some d)).setCoFed co s.ember.coGroup
      -- the warning of a forced pairing is a CORR report, whose count no rule defines
      let s2 := if co then (s1.reportCorr 0x180 (Config.unitInfo (srcId 1 0x180) s1.free)).draw else s1
      s2.ok k

/-- PARITY_GROUP_SET once every other member's pairing frame is there: at most 2 members share a FEED, unless forced. -/
def State.resolveGroup (s : State) (k : Slot) (force : Bool) (l : List Nat) : State :=
  let others := l.filter (fun d => s.devid != some d)
  let frames := others.filterMap (fun d => s.ember.pairs.find? (fun q => q.1 == d))
  if frames.length < others.length then s
  else if frames.any (fun q => s.devid != some q.2.2) then ((s.setGroup []).setCoFed s.ember.coPair false).deny k stNOPARTNER
  else
    let feeds := feedOf s.ember.fdTag :: frames.map (fun q => feedOf q.2.1)
    let co := feeds.any (fun x => decide (2 < (feeds.filter (fun y => y == x)).length))
    if co && !force then ((s.setGroup []).setCoFed s.ember.coPair false).deny k stCOFED
    else ((s.setGroup l).setCoFed s.ember.coPair co).ok k

/-- A waiting PARTNER_SET or PARITY_GROUP_SET tried. -/
def State.resolvePairs (s : State) : State :=
  s.ctl.waiting.foldl (fun s p => match p.2 with
    | .partnerSet k force d _ => s.resolvePartner k force d.toNat
    | .parityGroupSet k force l _ => s.resolveGroup k force (l.map (fun d => d.toNat))
    | _ => s) s

/-- Whether a pairing command waits. -/
def State.pairWaits (s : State) : Bool :=
  s.ctl.waiting.any (fun p => match p.2 with | .partnerSet _ _ _ _ => true | .parityGroupSet _ _ _ _ => true | _ => false)

/-- The second after a pairing command is over without its frames: NO_PARTNER, no pairing stands (log 38). -/
def State.pairExpires (s : State) (k : Slot) : State :=
  match getSlot s.ctl.waiting k with
  | some (.partnerSet _ _ _ _) => ((s.setPartner none).setCoFed false s.ember.coGroup).deny k stNOPARTNER
  | some (.parityGroupSet _ _ _ _) => ((s.setGroup []).setCoFed s.ember.coPair false).deny k stNOPARTNER
  | _ => s

/-- PARTNER_SET (R314). -/
def State.partnerSet (s : State) (k : Slot) (force : Bool) (d tag : Nat) : State :=
  if s.pairWaits then s.deny k stBUSY
  else
    let s1 : State := { s with ember := { s.ember with fdTag := tag } }
    (((s1.wait k (.partnerSet k force (BitVec.ofNat 20 d) (BitVec.ofNat 64 tag))).sendPairing d tag)).resolvePairs

/-- PARTNER_SET. -/
def execPartnerSet (slot : Slot) (force : Bool) (devid : BitVec 20) (fdTag : BitVec 64) (s : State) :
    Host.Outcome State Fault Refusal :=
  ok (s.partnerSet slot force devid.toNat fdTag.toNat)

/-- PARITY_GROUP_SET (R315): ten DEVIDs, the sender's own among them, each once. -/
def State.groupSet (s : State) (k : Slot) (force : Bool) (l : List (BitVec 20)) (tag : BitVec 64) : State :=
  let m := l.map (fun d => d.toNat)
  if s.pairWaits then s.deny k stBUSY
  else if m.length ≠ 10 ∨ m.eraseDups.length ≠ 10 ∨ !m.any (fun d => s.devid == some d) then s.deny k stNOPERM
  else
    let s1 : State := { s with ember := { s.ember with fdTag := tag.toNat } }
    let s2 := s1.wait k (.parityGroupSet k force l tag)
    ((m.filter (fun d => s.devid != some d)).foldl (fun (s : State) d => s.sendPairing d tag.toNat) s2).resolvePairs

/-- PARITY_GROUP_SET. -/
def execParityGroupSet (slot : Slot) (force : Bool) (members : List (BitVec 20)) (fdTag : BitVec 64) (s : State) :
    Host.Outcome State Fault Refusal :=
  ok (s.groupSet slot force members fdTag)

/-- A pairing frame noted. One from the standing partner or a group member, while this module holds generations, comes from its
replacement: it is answered, and RESYNC is set (R329, log 38). -/
def State.pairingArrives (s : State) (f : Frame) : State :=
  let tag := leAt (partData f) 0 8
  let named := leAt (partData f) 8 8 % 2 ^ 20
  let s1 : State := { s with ember := { s.ember with
    pairs := s.ember.pairs.filter (fun q => q.1 != f.src) ++ [(f.src, tag, named)] } }
  let stands := s1.ember.partner == some f.src || s1.ember.group.contains f.src
  if s1.pairWaits then s1.resolvePairs
  else if stands && !s1.ember.gens.isEmpty && !s1.ember.replaced.contains f.src then
    let s2 : State := { s1 with ember := { s1.ember with resync := true, replaced := s1.ember.replaced ++ [f.src] } }
    s2.sendPairing f.src s2.ember.fdTag
  else s1

/-- PAIRING_FRAME. -/
def execPairingFrame (chimney : BitVec 1) (frame : List Byte) (s : State) : Host.Outcome State Fault Refusal :=
  let r := s.admitFrame chimney.toNat 3 frame
  ok (if s.snapHalted then s.holdFrame (.pairingFrame chimney frame) else match r.2 with
    | some f =>
      if !isPairing f then r.1
      else
        let q := r.1.acceptSeq f chimney.toNat
        if q.2 then q.1.pairingArrives f else q.1
    | none => r.1)

/-- RESYNC_COMPLETE: the replacement's stores are complete: what was sent again of sealed generations is their sealed version. -/
def execResyncComplete (s : State) : Host.Outcome State Fault Refusal :=
  let up := fun (q : Stored) => match q.next with
    | some n => if n.1 ≤ (s.ior 0x300C).toNat then { q with body := n.2, next := none } else q
    | none => q
  ok { s with ember := { s.ember with resync := false, mirror := s.ember.mirror.map up, parity := s.ember.parity.map up } }

/-- RTO_EXPIRY. An end mark that stays unacknowledged after it was sent again, with no other frame of its generation left, was
not accepted: every page of the generation goes to that target again (R313, log 39). -/
def State.rtoMark (s : State) (d seq : Nat) : State :=
  match (s.peer d).unacked.find? (fun t => t.seq == seq && t.sent) with
  | none => s
  | some t =>
    let gen := beAt t.payload 0 4
    let isMark := (t.typ == 3 || t.typ == 4) && beAt t.payload 8 2 == 0xFFFF && gen != pairingGen
    let others := (s.peer d).unacked.any (fun u => u.seq != seq && (u.typ == 3 || u.typ == 4) && beAt u.payload 0 4 == gen)
    let s1 := s.rtoExpiry d seq
    if isMark && decide (2 ≤ t.sends) && !others then
      match s.ember.gens.find? (fun r => r.gen == gen && !r.isSealed) with
      | some r => s1.resendGen r d t.typ
      | none => s1
    else s1

/-- RTO_EXPIRY. -/
def execRtoExpiry (peer : BitVec 20) (seq : BitVec 32) (s : State) : Host.Outcome State Fault Refusal :=
  ok (if !s.portsUp then s else s.rtoMark peer.toNat seq.toNat)

/-! ## Policies (R324, R325) -/

/-- The sizes of the tier 2 regions over the loaded contexts (Table 12-2). -/
def State.sizeRegions (s : State) : State :=
  let ps := ((List.range 4).filter (fun c => (s.ctx c).jobLoaded)).map (fun c => (s.ctx c).policy)
  { s with ember := { s.ember with
    areaBytes := ps.foldl (fun n p => n + polArea p) 0
    storeBytes := ps.foldl (fun n p => n + polMirror p + polParity p) 0 } }

/-- Whether the regions fit: no frame in use or on the retirement list's side of a package lies in them, and they end below
the reserve. -/
def State.regionsFit (s : State) : Bool :=
  decide (s.regionFrames ≤ 16 * reserveFrom 1) && s.mem.used2.all (fun f => decide ((s.regionFrames + 15) / 16 ≤ f / 16))

/-- Whether two policies differ in a region's size. -/
def regionsDiffer (p q : List Byte) : Bool := polArea p != polArea q || polMirror p != polMirror q || polParity p != polParity q

/-- SNAP_POLICY_SET: at once while no job of the context runs, else at the next cut. -/
def State.policySet (s : State) (k : Slot) (c : Nat) (p : List Byte) : State :=
  let cx := s.ctx c
  let old := (tfind s.ember.pendPolicy c).getD cx.policy
  let next := (({ s with ember := { s.ember with pendPolicy := tset s.ember.pendPolicy c p } } : State).takePolicy c).sizeRegions
  match policyBad p cx.polIds with
  | some _ => s.deny k stNOPERM
  | none =>
    if (polHasParity p && s.ember.group.isEmpty) || (s.anyRunning && regionsDiffer p old) then s.deny k stNOPERM
    else if !s.anyRunning && !next.regionsFit then s.deny k stNOPERM
    else
      let s1 := if cx.state = 1 ∨ cx.state = 2 then { s with ember := { s.ember with pendPolicy := tset s.ember.pendPolicy c p } }
        else next
      let s2 := if polAdopt p && s1.foreignCart then s1.truncateFor c 0 true true else s1
      s2.ok k

/-- SNAP_POLICY_SET. -/
def execSnapPolicySet (slot : Slot) (ctx : BitVec 2) (policy : List Byte) (s : State) : Host.Outcome State Fault Refusal :=
  ok (s.policySet slot ctx.toNat policy)

/-- SNAP_NOW: S_CUT above STEP_COMMITTED + 1 becomes an extra cut step. -/
def State.snapNow (s : State) (k : Slot) (c sCut : Nat) : State :=
  if sCut ≤ (s.ctx c).stepCommitted + 1 then s.deny k stNOPERM
  else if s.ember.extra.contains (c, sCut) then s.ok k
  else ({ s with ember := { s.ember with extra := s.ember.extra ++ [(c, sCut)] } } : State).ok k

/-- SNAP_NOW. -/
def execSnapNow (slot : Slot) (ctx : BitVec 2) (sCut : BitVec 48) (s : State) : Host.Outcome State Fault Refusal :=
  ok (s.snapNow slot ctx.toNat sCut.toNat)

/-! ## RESTORE (R327, R328) -/

/-- What a source gives of a generation: CUT_STEP, SEED, ACT_GEN, C, QUIET, K and BEAT_CUT of its record, the stream state, the value of a
page, and the bank image of ACT_GEN where it brings one. -/
structure Source where
  cutStep : Nat
  seed : Nat
  actGen : Nat
  cadC : Nat
  quiet : Nat
  k : Nat
  beatCut : Nat
  streams : Table StreamSave
  page : Nat → Memory
  bank : Option Bank := none

/-- A page that a peer sends back: bytes that the model leaves open. -/
def remotePage (key : Nat) : Memory := cellsOf 0 ((List.range pageBytes).map (fun i => Config.remoteByte key i))

/-- Whether a line of a page's live frame is uncorrectable. -/
def State.pageLost (s : State) (c p : Nat) : Bool :=
  let e := s.pentry c p
  let f := eFrame e
  eV e && (s.mem.poison.any (fun q => q.1 == eTier e && q.2 / 1024 == f) ||
    (if eTier e = 0 then s.mem.dead1.any (fun d => d / 32 == f % 8) else if eTier e = 1 then s.mem.dead2.contains (f % 16) else false))

/-- SOURCE LOCAL: a generation whose plane the module holds. A page whose value is a live frame with an uncorrectable line comes from its
remote copy (R326). -/
def State.localSource (s : State) (c g : Nat) : Source ⊕ Nat :=
  match s.ember.gens.find? (fun r => r.ctx == c && r.gen == g) with
  | some r => .inl { cutStep := r.cutStep, seed := r.seed, actGen := r.actGen, cadC := r.cadC, quiet := r.quiet, k := r.k, beatCut := r.beatCut
                     streams := r.streams
                     page := fun p => match s.copyAt c g p with
                       | some m => m
                       | none => if s.pageLost c p then remotePage (pageKey c p) else s.pageBody c p }
  | none => .inr stNOPERM

/-- The value of a page by a chain: its newest record's; zeros where none holds it. -/
def chainPage (l : List CartRecord) (key : Nat) : Memory :=
  match l.findSome? (fun r => r.pages.find? (fun q => q.1 == key)) with
  | some q => cellsOf 0 (slice q.2 0 pageBytes)
  | none => []

/-- SOURCE CART. -/
def State.cartSource (s : State) (c g : Nat) : Source ⊕ Nat :=
  match s.ember.cart with
  | none => .inr stABSENT
  | some k =>
    if s.ember.cartGone || s.ember.cartState = 0 || s.ember.cartState = 5 || s.ember.cartState = 6 then .inr stABSENT
    else if s.ember.cartState = 3 ∨ s.ember.cartState = 7 then .inr stNOPERM
    else if s.devid ≠ some k.devid.toNat ∨ k.cluster.toNat ≠ s.setting 0x0103 then .inr stFOREIGN
    else match findRecord (hashHead (s.ctx c)) g k.log 1 with
      | none => .inr stNOPERM
      | some n => match chainOf k.log (k.log.length + 1) n, k.log[n - 1]? with
        | some l, some r => .inl {
            cutStep := r.cutStep.toNat, seed := r.seed.toNat, actGen := r.actGen.toNat, cadC := r.cadC.toNat
            quiet := r.quiet.toNat, k := r.k.toNat, beatCut := r.beatCut.toNat, streams := parseStreams r.sstate, page := fun p => chainPage l (pageKey c p)
            bank := l.findSome? (fun q => tfind q.banks r.actGen.toNat) }
        | _, _ => .inr stNOPERM

/-- SOURCE REMOTE: the peers' copies, whose contents are theirs (log 40). Without an answer, NO_PARTNER. -/
def State.remoteSource (s : State) (c g : Nat) : Source ⊕ Nat :=
  if s.ember.partner.isNone || !Config.remoteHas c g then .inr stNOPARTNER
  else
    let f := fun i => (Config.remoteField c g i).toNat
    let n := f 5 % 8193
    .inl { cutStep := f 0 % 2 ^ 48, seed := f 1, actGen := f 2 % 65536, cadC := f 3 % 65536, quiet := f 4 % 65536, k := f 6 % 65536, beatCut := f 7
           streams := parseStreams ((List.range (69 * n)).map (fun i => Config.remoteByte (2 ^ 28 + c) i))
           page := fun p => remotePage (pageKey c p) }

/-- The source that SOURCE names; AUTO takes the first that holds GEN (Table 12-9). The number tells which it is. -/
def State.sourceOf (s : State) (src c g : Nat) : (Source × Nat) ⊕ Nat :=
  let tag := fun (n : Nat) (r : Source ⊕ Nat) => match r with | .inl x => (.inl (x, n) : (Source × Nat) ⊕ Nat) | .inr e => .inr e
  if src = 0 then tag 0 (s.localSource c g)
  else if src = 1 then tag 1 (s.cartSource c g)
  else if src = 2 then tag 2 (s.remoteSource c g)
  else match s.localSource c g with
    | .inl x => .inl (x, 0)
    | .inr _ => match s.cartSource c g with
      | .inl x => .inl (x, 1)
      | .inr _ => tag 2 (s.remoteSource c g)

/-- A bank image that this module does not hold and a source brings with the generation: its contents are open. -/
def remoteBank (c g : Nat) : Bank :=
  let w := fun n => Config.remoteField c g (100 + n)
  { slots := (List.range 64).map (fun i =>
      (i, { header := BitVec.ofNat 128 ((w (40 * i)).toNat + 2 ^ 64 * (w (40 * i + 1)).toNat)
            ops := (List.range 64).map (fun j => BitVec.ofNat 32 ((w (40 * i + 2 + j / 2)).toNat / 2 ^ (32 * (j % 2)))) }))
    coeffs := (List.range 4096).map (fun i => (i, w (4000 + i))), hard := [] }

/-- The bank image of a restored generation held again: the source's, or one that a peer sends back. -/
def State.holdBank (s : State) (c g : Nat) (b : Option Bank) : State :=
  if g = 0 || s.sfu.images.any (fun i => i.1 == c && i.2.1 == g) then s
  else { s with sfu := { s.sfu with images := s.sfu.images ++ [(c, g, b.getD (remoteBank c g))] } }

/-- A page written whole, which heals its frame's poison marks (R199). -/
def State.putPage (s : State) (c p : Nat) (m : Memory) : State :=
  let e := s.pentry c p
  let s1 := s.setTierMem (eTier e) (mcopy m 0 pageBytes (s.tierMem (eTier e)) (eFrame e * pageBytes))
  let s2 := if eTier e ≤ 1 then s1 else s1.countWritten pageBytes
  { s2 with mem := { s2.mem with poison := s2.mem.poison.filter (fun q => !(q.1 == eTier e && q.2 / 1024 == eFrame e)) } }

/-- Every protected page written with its value at GEN; a tier 3 page only where the engine may write the cartridge (`cart`), not into
one that is not adopted (R322). -/
def State.putPages (s : State) (c : Nat) (f : Nat → Memory) (cart : Bool) : State :=
  (s.protectedPages c).foldl (fun (s : State) p => if eTier (s.pentry c p) == 2 && !cart then s else s.putPage c p (f p)) s

/-- The methods at a restored generation (R309, R312): its record's where this module holds it; else what the copies tell, which the model
leaves open (log 157). -/
def State.methodsAt (s : State) (c g : Nat) : Table Nat :=
  match s.ember.gens.find? (fun r => r.ctx == c && r.gen == g) with
  | some r => r.methods
  | none => (s.ctx c).tensors.foldl (fun m a =>
      tset m (allocKey c a.id) (if !s.ember.group.isEmpty && Config.remoteParity c g a.id then 2 else 1)) s.ember.methods

/-- The soot map after a RESTORE of g: every plane clear, plane g in use; the restored generation is the only one held, the
next is g + 1, and what peers had sent of later ones is void (R300, R328). -/
def State.restoreSoot (s : State) (c g : Nat) (x : Source) : State :=
  let s1 := ((List.range 4).foldl (fun (s : State) i => s.clearPlane c i) s).clearCps c
  let ms := s.methodsAt c g
  let keep := fun (q : Stored) => match q.next with
    | some n => if g < n.1 then { q with next := none } else q
    | none => q
  let r : GenRec := {
    ctx := c, gen := g, cutStep := x.cutStep, seed := x.seed, actGen := x.actGen, cadC := x.cadC
    k := x.k, quiet := x.quiet, beatCut := x.beatCut, streams := x.streams
    methods := ms, oldMethods := ms, endSent := true, isSealed := true, fenced := true }
  let e := s1.ember
  { s1 with ember := { e with
    nextGen := tset e.nextGen c (g + 1)
    tags := ((List.range 4).foldl (fun (t : Table (Option Nat)) i => tset t (4 * c + i) none) e.tags |> fun t => tset t (4 * c + g % 4) (some g))
    gens := e.gens.filter (fun q => q.ctx != c) ++ [r], methods := ms
    mirror := e.mirror.map keep, parity := e.parity.map keep
    arrivals := e.arrivals.filter (fun a => decide (a.gen ≤ g)) } }

/-- The cartridge's part of a RESTORE: a truncate record where it is OWN or now adopted; the next generation is a base where the
log holds no record of g (R322, R323, R328). -/
def State.restoreCart (s : State) (c g src : Nat) : State :=
  let base := match s.ember.cart with
    | some k => (findRecord (hashHead (s.ctx c)) g k.log 1).isNone
    | none => true
  let s1 := if s.ember.cartState = 1 ∨ src = 1 then s.truncateFor c g base (src == 1) else s
  if s1.cartUsable then s1.setIo 0x3010 (BitVec.ofNat 32 g) else s1

/-- RESTORE. -/
def State.restore (s : State) (k : Slot) (c src g : Nat) : State :=
  let cx := s.ctx c
  if !cx.jobLoaded || !(cx.state == 0 || cx.state == 3) || s.anyRunning then s.deny k stNOPERM
  else match s.sourceOf src c g with
    | .inr e => s.deny k e
    | .inl (x, n) =>
      let s1 := (s.putPages c x.page (s.cartUsable || (n == 1 && s.foreignCart && decide (8 ≤ s.pwr.stage)))).holdBank c x.actGen x.bank
      let s2 := s1.writeActive (s1.bankImage c x.actGen) x.actGen
      let s3 := (s2.setCtx c { s2.ctx c with
        stepCommitted := x.cutStep, seed := x.seed, streams := x.streams, tgen := x.actGen, restored := true }).setCad c (x.cadC, x.quiet)
      let s4 := (s3.restoreSoot c g x).restoreCart c g n
      (((s4.setIo 0x3004 (BitVec.ofNat 32 g)).setIo 0x3008 (BitVec.ofNat 32 g)).setIo 0x300C (BitVec.ofNat 32 g)).okData k (leBytes 6 x.cutStep)

/-- RESTORE. -/
def execRestore (slot : Slot) (ctx : BitVec 2) (source : BitVec 2) (gen : BitVec 32) (s : State) :
    Host.Outcome State Fault Refusal :=
  ok (s.restore slot ctx.toNat source.toNat gen.toNat)

/-! ## The drain (R331, R267) -/

/-- The 80 bytes of a commit record (Table 12-5), whose CRC takes in the bank images too. -/
def recordBytes (r : CartRecord) (prev : Nat) (imgs : List (Nat × List Byte)) : List Byte :=
  let h := leBytes 4 0x454D4252 ++ leBytes 4 r.gen.toNat ++ leBytes 8 r.cutStep.toNat ++ leBytes 8 r.seed.toNat ++
    leBytes 4 r.devid.toNat ++ leBytes 4 (r.cluster.toNat * 65536 + r.actGen.toNat) ++ leBytes 8 r.imageHash.toNat ++
    leBytes 4 (r.cadC.toNat * 65536 + r.k.toNat) ++ leBytes 4 (r.quiet.toNat * 65536 + r.kind.toNat) ++
    leBytes 8 r.beatCut.toNat ++ leBytes 4 (r.pages.length + imgs.length) ++ leBytes 4 r.sstate.length ++ leBytes 8 prev ++ leBytes 4 0
  h ++ leBytes 4 (crc32c (h ++ (r.pages ++ imgs).flatMap (fun p => p.2 ++ leBytes 8 p.1) ++ r.sstate)).toNat

/-- The whole protected set of a generation as one record. -/
def State.fullRecord (s : State) (r : GenRec) : CartRecord :=
  { s.commitRecord r 0 with
    kind := 1, prev := 0
    pages := (s.protectedPages r.ctx).map (fun p => (pageKey r.ctx p, mreadN (s.valueAt r.ctx r.gen p) 0 pageBytes)) }

/-- Pages of the bank image that a generation's record names, which the built-in set has none of (R299, log 41). -/
def imagePageCount (r : GenRec) : Nat := if r.actGen = 0 then 0 else Config.imagePages

/-- The queue pair of the i-th message over n pairs: the next in turn that is not in error. -/
def State.qpFor (s : State) (n i : Nat) : Option Nat := ((List.range n).map (fun k => (i + k) % n)).find? (fun q => !(s.qp q).err)

/-- One RDMA message of a drain under a policy's record (Table 12-8): on its queue pair, to TARGET and REMOTE_KEY; kind 0 WRITE, 1 WRITE
with Immediate. With every queue pair in error nothing is sent. -/
def State.rdma (s : State) (p : List Byte) (i kind addr : Nat) (l : List Byte) : State :=
  let d := polDrainAt p
  match s.qpFor (leAt p (d + 0x17) 1) i with
  | none => s
  | some q =>
    let v := s.qp q
    let m : Out := .rdma (leAt p d 16) (leAt p (d + 0x14) 3 + q) (leAt p (d + 0x10) 4) kind addr l
    ({ s with net := { s.net with qps := tset s.net.qps q { v with sent := v.sent ++ [m] } } } : State).putIp 0 q m

/-- The messages of a drain: the record, the directory, the pages, the bank images, the stream state. -/
def drainMessages (base : Nat) (rec : CartRecord) (imgs : List (Nat × List Byte)) : List (Nat × List Byte) :=
  let l := rec.pages ++ imgs
  let at0 := base + 4096 + 8 * l.length
  [(base, recordBytes rec 0 imgs), (base + 4096, l.flatMap (fun p => leBytes 8 p.1))] ++
  l.zipIdx.map (fun q => (at0 + 65536 * q.2, q.1.2)) ++ [(at0 + 65536 * l.length, rec.sstate)]

/-- A drain of a sealed generation begins: refused where the set does not fit REMOTE_SIZE; without an OWN cartridge it pins the
planes from its generation up. -/
def State.startDrain (s0 : State) (r : GenRec) : State :=
  let s := if s0.ember.drain.isSome then s0.abandonDrain else s0
  let p := (s.ctx r.ctx).policy
  let d := polDrainAt p
  let n := imagePageCount r
  let pages := (s.protectedPages r.ctx).length + n
  if leAt p (d + 0x20) 8 < 65544 * pages + 2 ^ 20 then s.abandonDrain
  else
    let imgs := (List.range n).map (fun i => (2 ^ 28 + i, mreadN (s.imageBody r.ctx r.actGen i) 0 pageBytes))
    let ms := drainMessages (leAt p (d + 0x18) 8) (s.fullRecord r) imgs
    let s1 : State := { s with ember := { s.ember with
        drain := some (r.ctx, r.gen), drainPins := if s.cartUsable && r.cartDone then none else some (r.ctx, r.gen)
        drainLeft := ms.length } }
    ms.zipIdx.foldl (fun (s : State) q => s.rdma p q.2 0 q.1.1 q.1.2) s1

/-- DRAIN: the newest sealed generation of the running context, where it is a multiple of DRAIN_GEN and is not the one in
progress. -/
def State.drainNow (s : State) : State :=
  let c := s.sched.ctx
  let every := polDrain (s.ctx c).policy
  match (s.ember.gens.filter (fun r => r.ctx == c && r.isSealed)).getLast? with
  | some r => if every = 0 ∨ r.gen % max 1 every ≠ 0 ∨ s.ember.drain = some (c, r.gen) then s else s.startDrain r
  | none => s

/-- DRAIN. -/
def execDrain (s : State) : Host.Outcome State Fault Refusal := ok s.drainNow

/-- DRAIN_COMPLETE: with every write acknowledged, the RDMA WRITE with Immediate carries GEN. -/
def execDrainComplete (s : State) : Host.Outcome State Fault Refusal :=
  ok (match s.ember.drain with
    | some d => if s.ember.drainLeft = 0 then (s.rdma (s.ctx d.1).policy 0 1 0 (leBytes 4 d.2)).endDrain else s
    | none => s)

/-- ROCE_RESPONSE: an acknowledgement ends a write, of the drain in progress or of one that has ended; a
negative one sets DRAIN_ERR and leaves the queue pair in error, but that after a sequence error every outstanding message is sent again
from the oldest on (R267); read data ends a read, of which the module has none outstanding. -/
def execRoceResponse (qp : BitVec 6) (answer : RoceAnswer) (s : State) : Host.Outcome State Fault Refusal :=
  let q := qp.toNat
  let v := s.qp q
  let put := fun (s : State) (v : Qp) => { s with net := { s.net with qps := tset s.net.qps q v } }
  ok (if s.snapHalted then s.holdFrame (.roceResponse qp answer)
    else if !s.portsUp then s
    else
      let a := s.frameIn (s.qpPath q)
      if v.sent.isEmpty then a
      else match answer with
      | .ack =>
        let s1 : State := if v.stale = 0 then { a with ember := { a.ember with drainLeft := a.ember.drainLeft - 1 } } else a
        put s1 { v with sent := v.sent.drop 1, stale := v.stale - 1 }
      | .nak => (put a { v with sent := v.sent.drop 1, stale := v.stale - 1, err := true }).orIo 0x3000 0x800
      | .nakSequence => v.sent.foldl (fun (s : State) m => s.putIp 0 q m)
          ({ a with net := { a.net with ipOut := a.net.ipOut.filter (fun p => !(p.1 == 0 && p.2.1 == q)) } } : State)
      | .readData _ => a)

end Sys2Proof.Machine
end

