-- ==== Sys2Proof/Machine/Observe.lean ====
section
/-! DEFINITION. Counters, trace, global stop and scan-out (R379 to R402). -/

namespace Sys2Proof.Machine

/-! ## Counter configuration and freeze (R381, R382, R386, R388) -/

/-- Whether an event belongs to the groups of a block (Tables 15-1, 15-2). -/
def eventOk (b e : Nat) : Bool :=
  let firebox := decide (b < 0x110) || decide (0x200 ≤ b)
  [0, 1, 2].contains e ||
  (firebox && [0x010, 0x011, 0x012, 0x013, 0x014, 0x015, 0x018, 0x019, 0x01A, 0x01B, 0x028, 0x029, 0x02A, 0x02B,
    0x030, 0x031, 0x032, 0x033, 0x034, 0x035, 0x036].contains e) ||
  (decide (0x110 ≤ b) && decide (b < 0x114) && [0x0C0, 0x0C1].contains e) ||
  (decide (0x120 ≤ b) && decide (b < 0x140) && [0x100, 0x101, 0x102, 0x103, 0x104].contains e) ||
  ((b == 0x150 || b == 0x151) && [0x110, 0x111, 0x112, 0x113].contains e) ||
  (b == 0x152 && [0x120, 0x121, 0x122, 0x123, 0x124].contains e) ||
  (b == 0x160 && [0x130, 0x131, 0x132].contains e) ||
  ((b == 0x180 || b == 0x181) && [0x140, 0x141, 0x142].contains e)

/-- FREEZE_PEND. -/
def State.freezePend (s : State) : Bool := s.barBit 0x30000 4

/-- CTR_CONFIG: it takes effect at the block's local edge of this beat, at once where that has come (R381). -/
def State.ctrConfig (s : State) (k : Slot) (b i : Nat) (chain en userRd : Bool) (event : Nat) : State :=
  if !blockOk b || !eventOk b event || (chain && (i % 2 == 0 || event != 0)) ||
      (userRd && decide (0x110 ≤ b) && decide (b < 0x200)) then s.deny k stNOPERM
  else if s.frozen || s.freezePend then s.deny k stBUSY
  else
    let u := s.blockUnit b
    let c : Counter := { event := event, en := en, userRd := userRd, chain := chain }
    if s.localBeat u < s.clk.beatNow then
      ({ s with obs := { s.obs with pendCfg := s.obs.pendCfg ++ [(u, s.clk.beatNow, ctrKey u i, c, chain)] } } : State).ok k
    else (s.takeCfg (ctrKey u i) c chain).ok k

/-- CTR_CONFIG. -/
def execCtrConfig (slot : Slot) (block : BitVec 16) (counter : BitVec 3) (chain en userRd : Bool) (event : BitVec 10)
    (s : State) : Host.Outcome State Fault Refusal :=
  ok (s.ctrConfig slot block.toNat counter.toNat chain en userRd event.toNat)

/-- A freeze or a release asked for: it waits for its beat, 0 being this edge. CC_FREEZE_BEAT names the freeze pending or in force. -/
def State.askFreeze (s : State) (k : Slot) (freeze : Bool) (beat : Nat) (c : Instr) : State :=
  if s.freezePend then s.deny k stBUSY
  else if s.frozen == freeze || (beat != 0 && decide (beat ≤ s.clk.beatNow)) then s.deny k stNOPERM
  else
    let f := if beat = 0 then s.clk.beatNow else beat
    let s1 : State := { s with obs := { s.obs with action := some (freeze, f, k), freezeBeat := if freeze then f else s.obs.freezeBeat } }
    (s1.orBar 0x30000 0x10).wait k c

/-- CTR_FREEZE with freeze = 1. -/
def execCtrFreeze (slot : Slot) (beat : BitVec 64) (s : State) : Host.Outcome State Fault Refusal :=
  ok (s.askFreeze slot true beat.toNat (.ctrFreeze slot beat))

/-- CTR_FREEZE with freeze = 0. -/
def execCtrRelease (slot : Slot) (beat : BitVec 64) (s : State) : Host.Outcome State Fault Refusal :=
  ok (s.askFreeze slot false beat.toNat (.ctrRelease slot beat))

/-- The freeze or release that waits, at its beat. -/
def State.freezeAction (s : State) (freeze : Bool) : State :=
  match s.obs.action with
  | none => s
  | some (f, b, k) =>
    if f != freeze || decide (s.clk.beatNow < b) then s
    else
      let s1 : State := { (s.andnBar 0x30000 0x10) with obs := { s.obs with action := none } }
      (if freeze then { s1.freeze with obs := { s1.freeze.obs with freezeBeat := b } } else s1.unfreeze).okWaiting k []

/-- FREEZE_EDGE. -/
def execFreezeEdge (s : State) : Host.Outcome State Fault Refusal := ok (s.freezeAction true)

/-- RELEASE_EDGE. -/
def execReleaseEdge (s : State) : Host.Outcome State Fault Refusal := ok (s.freezeAction false)

/-- COUNTER_WRAP of an enabled counter of cycles: it passes 0, to a value that is open, and sets OVF; its chained partner
advances, or OVF_SEEN is set (R380, R382, R386). -/
def State.counterWrap (s : State) (k : Nat) : State :=
  let c := s.counter k
  if s.blockFrozen (k / 8) || !c.en || c.chain || countedEvents.contains c.event then s
  else
    let s1 := (s.setCounter k { c with value := (Config.freeWord s.free).toNat % 2 ^ 48, ovf := true }).draw
    if s1.chainedUp k then (if (s1.counter (k + 1)).en then s1.addCounter (k + 1) 1 else s1) else s1.ccRise 1

/-- COUNTER_WRAP. -/
def execCounterWrap (block : BitVec 16) (counter : BitVec 3) (s : State) : Host.Outcome State Fault Refusal :=
  guardPart (blockOk block.toNat) .noSuchCounter (s.counterWrap (ctrKey (s.blockUnit block.toNat) counter.toNat))

/-! ## Trace (R389 to R392) -/

/-- EN of TR_STATUS. -/
def State.traceOn (s : State) : Bool := s.barBit 0x30020 0
/-- HALTED. -/
def State.traceHalted (s : State) : Bool := s.barBit 0x30020 2

/-- The DVA at which the ring begins (R389). -/
def ringBase (size : Nat) : Nat := 2 ^ 42 - size

/-- The ring's frames unmapped from every context, with their cached translations (R196), and freed. -/
def State.dropRing (s : State) : State :=
  let n := s.obs.ringSize / pageBytes
  let first := ringBase s.obs.ringSize / pageBytes
  let s1 := s.obs.ringFrames.foldl (fun (s : State) f => s.freeUp 1 f) s
  let s2 := (List.range 4).foldl (fun (s : State) c => (List.range n).foldl (fun (s : State) i => s.setPentry c (first + i) 0) (s.dropGroups c first n)) s1
  { s2 with obs := { s2.obs with ringSize := 0, ringFrames := [], wptr := 0 } }

/-- n pages of a ring taken from tier 2 and mapped read-only to the host in every context; none where tier 2 has no room. -/
def State.mapRing (s : State) (first : Nat) : Nat → Option State
  | 0 => some s
  | n + 1 =>
    match s.mapRing first n with
    | none => none
    | some s1 =>
      match s1.freeFrame 1 ((first + n) % 16) with
      | none => none
      | some f =>
        let s2 := s1.takeFrame 1 f
        let s3 := (List.range 4).foldl (fun (s : State) c => s.setPentry c (first + n) (mkEntry false false true false false 1 f)) s2
        some { s3 with obs := { s3.obs with ringFrames := s3.obs.ringFrames ++ [f] } }

/-- A new ring: zeroed, TR_WPTR 0; none where it cannot be supplied. -/
def State.newRing (s : State) (size : Nat) : Option State :=
  (s.dropRing.mapRing (ringBase size / pageBytes) (size / pageBytes)).map (fun s1 =>
    ({ s1 with obs := { s1.obs with ringSize := size, wptr := 0 } } : State).setBar 0x30030 (BitVec.ofNat 32 (size / 65536)))

/-- Whether an allocation of a loaded context lies within the range of a ring. -/
def State.ringMeets (s : State) (size : Nat) : Bool :=
  (List.range 4).any (fun c => (s.ctx c).allocs.any (fun a => a.space == 0 && decide (ringBase size < a.base + a.size)))

/-- TRACE_CONFIG. -/
def State.traceConfig (s : State) (k : Slot) (en : Bool) (mask : W64) (size : Nat) : State :=
  let m := mask.toNat
  let sizeOk := size == 0 || (size % 65536 == 0 && decide (2 ^ 20 ≤ size ∧ size ≤ 2 ^ 34) && !s.traceOn && !s.ringMeets size)
  if field m 16 46 ≠ 0 || !sizeOk then s.deny k stNOPERM
  else match if size = 0 then some s else s.newRing size with
    | none => s.deny k stNOPERM
    | some s1 =>
      let old := s1.obs.traceOld.filter (fun p => s1.clk.tokens.any (fun q => match q.2 with | t :: _ => decide (t.beat ≤ p.1) | [] => false))
      (({ s1 with obs := { s1.obs with traceMask := mask, traceOld := old ++ [(s1.clk.beatNow, s1.obs.traceMask)] } } : State).barField
        0x30020 0 1 (bnat en)).ok k

/-- TRACE_CONFIG. -/
def execTraceConfig (slot : Slot) (en : Bool) (mask ringBytes : BitVec 64) (s : State) : Host.Outcome State Fault Refusal :=
  ok (s.traceConfig slot en mask ringBytes.toNat)

/-- A trace record (Table 15-6). -/
def traceRecord (cls unit ltile cyc beat d0 d1 : Nat) : List Byte :=
  leBytes 4 (cls * 2 ^ 26 + cyc % 2 ^ 24) ++ leBytes 4 (unit * 2 ^ 20 + ltile * 2 ^ 12) ++ leBytes 8 beat ++ leBytes 8 d0 ++
    leBytes 8 d1

/-- One record written to the ring at TR_WPTR (R392). -/
def State.writeTrace (s : State) (r : List Byte) (stop : Bool) : State :=
  let size := s.obs.ringSize
  if size = 0 then s
  else
    let o := s.obs.wptr % size
    let w := s.obs.wptr + 32
    let f := nth 0 s.obs.ringFrames (o / pageBytes)
    let s1 := s.setTierMem 1 (mwrite (s.tierMem 1) (f * pageBytes + o % pageBytes) r)
    let s2 : State := { s1 with obs := { s1.obs with wptr := w } }
    let s3 := if w % size = 0 then s2.orBar 0x30020 0x10 else s2
    if stop || w % (size / 2) == 0 then (s3.orBar 0x30020 0x20).cause 4 else s3

/-- An event dropped: counted for its source with the source's beats of the first and the last (R391). -/
def State.dropTrace (s : State) (unit : Nat) : State :=
  let d := match tfind s.obs.drops unit with
    | some (n, b, _) => (n + 1, b, s.localBeat unit)
    | none => (1, s.localBeat unit, s.localBeat unit)
  ((({ s with obs := { s.obs with drops := tset s.obs.drops unit d } } : State).bumpBar 0x30034 1).orBar 0x30020 8)

/-- LTILE of a source (Table 15-6). -/
def State.ltileOf (s : State) (unit : Nat) : Nat := if unit < 272 then (s.tileOf unit).getD 0xFF else 0xFF

/-- An accepted record written, after the DROP record that its source owes. -/
def State.acceptTrace (s : State) (unit : Nat) (r : List Byte) (stop : Bool) : State :=
  match tfind s.obs.drops unit with
  | some (n, first, last) =>
    let s1 : State := { s with obs := { s.obs with drops := tdel s.obs.drops unit } }
    (s1.writeTrace (traceRecord 63 unit (s.ltileOf unit) 0 first n last) false).writeTrace r stop
  | none => s.writeTrace r stop

/-- Whether domain 324 takes nothing from the queues: halted, or without a clock. -/
def State.traceWaits (s : State) : Bool := s.traceHalted || !s.clocked 324

/-- A source's event: with domain 324 halted it waits in its queue of 16; else the queue has room or not as timing has it
(log 47). -/
def State.traceIn (s : State) (unit : Nat) (r : List Byte) (stop : Bool) : State :=
  if s.traceWaits then
    let q := tget [] s.obs.queues unit
    if q.length < 16 then { s with obs := { s.obs with queues := tset s.obs.queues unit (q ++ [(r, stop)]) } } else s.dropTrace unit
  else if Config.freeBool s.free then s.draw.dropTrace unit
  else s.draw.acceptTrace unit r stop

/-- The mask as a source has it: a new one acts from the source's local edge of its dispatch on (R390). -/
def State.maskAt (s : State) (unit : Nat) : W64 :=
  match s.obs.traceOld.find? (fun p => decide (s.localBeat unit < p.1)) with
  | some p => p.2
  | none => s.obs.traceMask

/-- Whether records of a class are accepted from a source: EN, and its mask bit; STOP and DROP whatever the mask holds (R390). -/
def State.traceTakes (s : State) (unit cls : Nat) : Bool := s.traceOn && (Nat.testBit (s.maskAt unit).toNat cls || decide (62 ≤ cls))

/-- TRACE_EVENT of a class of Table 15-7. -/
def execTraceEvent (cls : BitVec 6) (unit : BitVec 12) (ltile : BitVec 8) (cyc : BitVec 24) (data0 data1 : BitVec 64) (s : State) :
    Host.Outcome State Fault Refusal :=
  let c := cls.toNat
  ok (if s.traceTakes unit.toNat c && (decide (c ≤ 15) || c == 62) then
      s.traceIn unit.toNat (traceRecord c unit.toNat ltile.toNat cyc.toNat (s.localBeat unit.toNat) data0.toNat data1.toNat) (c == 62)
    else s)

/-- A STOP record of the trace unit: stop or release, CLUSTER, GS_STATUS. It is written whatever the mask holds. -/
def State.stopRecord (s : State) (release : Bool) : State :=
  let g := s.bar 0x30040
  let r := traceRecord 62 0x1A2 0xFF 0 s.clk.beatNow (bnat (!release) + 2 * bnat (g.getLsbD 6)) g.toNat
  if !s.traceOn then s else if s.traceWaits then s.traceIn 0x1A2 r true else s.acceptTrace 0x1A2 r true

/-- Domain 324 halts. -/
def State.haltTrace (s : State) : State := s.orBar 0x30020 4

/-- Domain 324 runs again: the queues are written. -/
def State.resumeTrace (s : State) : State :=
  let q := s.obs.queues
  let s1 : State := { (s.andnBar 0x30020 4) with obs := { s.obs with queues := [] } }
  q.foldl (fun s p => p.2.foldl (fun s r => s.acceptTrace p.1 r.1 r.2) s) s1

/-! ## Global stop (R393 to R398) -/

/-- GS_STATE. -/
def State.gsState (s : State) : Nat := getField (s.bar 0x30040) 0 2

/-- A stop or a release that waits. -/
def State.gsPend (s : State) : Bool := s.barBit 0x30040 4 || s.barBit 0x30040 5

/-- GS_BEAT. -/
def State.stampGs (s : State) : State := { s with obs := { s.obs with gsBeat := s.clk.beatNow } }

/-- The stop line asserted: the running job ends STOPPED (R396), every halting domain halts and keeps what it holds. A beat stop or a release
that waits is overtaken; its MODE 1 command is answered as one that comes now (R393, log 147). -/
def State.snapStop (s : State) (cluster origin : Bool) : State :=
  let s0 := if s.jobHere then s.endSched else s
  let s1 := (s0.finishJob.setBar 0x30040 (BitVec.ofNat 32 (2 + 64 * bnat cluster + 128 * bnat origin))).haltTrace.stampGs
  let s2 : State := { s1 with obs := { s1.obs with gsEdge := none, gsSlot := none, snapCut := s1.obs.snapCut || s.jobHere } }
  match s.obs.gsSlot with
  | some k => s2.denyWaiting k stNOPERM
  | none => s2

/-- A GSTOP frame to the flag parent and the children, but for the one it came from (R395). The children are the modules whose
up frames have come. -/
def State.sendGstop (s : State) (except : Option Nat) : State :=
  let r : Round := { edge := gstopMark, gstop := true }
  let up := match s.flagParent with | some p => [p] | none => []
  let kids := (s.net.ups.map (fun u => u.1)).eraseDups
  let s1 := (up.filter (fun d => except != some d)).foldl (fun s d => s.sendBoth d 0 (flagPayload false r)) s
  let s2 := (kids.filter (fun d => except != some d)).foldl (fun s d => s.sendBoth d 0 (flagPayload true r)) s1
  { s2 with net := { s2.net with gstopSent := true } }

/-- The state after a command, where it goes on. -/
def after (o : Host.Outcome State Fault Refusal) (s : State) : State := match o with | .next t => t | _ => s

/-- GSTOP_FRAME: the first is forwarded and stops the module; later copies are dropped. -/
def State.gstopArrives (s : State) (src : Nat) : State :=
  if s.net.gstopSent then s else (s.sendGstop (some src)).snapStop true false

/-- GSTOP_FRAME. -/
def execGstopFrame (chimney : BitVec 1) (frame : List Byte) (s : State) : Host.Outcome State Fault Refusal :=
  let a := s.admitFrame chimney.toNat 0 frame
  ok (if s.snapHalted then s.holdFrame (.gstopFrame chimney frame) else match a.2 with
    | some f =>
      let r := parseRound f.payload
      if r.2.gstop && r.2.edge == gstopMark then a.1.gstopArrives f.src else a.1
    | none => a.1)

/-- A frame of the receive buffer taken. -/
def State.takeHeld (s : State) : Instr → State
  | .flagUpReceive c f => after (execFlagUpReceive c f s) s
  | .flagDownReceive c f => after (execFlagDownReceive c f s) s
  | .gstopFrame c f => after (execGstopFrame c f s) s
  | .collFrameReceive c f => after (execCollFrameReceive c f s) s
  | .partFrame c f => after (execPartFrame c f s) s
  | .parFrame c f => after (execParFrame c f s) s
  | .endMark c f => after (execEndMark c f s) s
  | .pairingFrame c f => after (execPairingFrame c f s) s
  | .ackFrame c f => after (execAckFrame c f s) s
  | .syncFrame c f a b => after (execSyncFrame c f a b s) s
  | .dreqFrame c f a => after (execDreqFrame c f a s) s
  | .respFrame c f => after (execRespFrame c f s) s
  | .roceResponse q a => after (execRoceResponse q a s) s
  | _ => s

/-- A snap stop released: every halt lifted; what the units hold of a job that the stop ended ends now; what stood in crossings, the receive
buffer and the held requests completes once (R396). Copies of the GSTOP frame among the frames held are dropped (R395). -/
def State.snapRelease (s : State) : State :=
  let held := s.net.rxHeld
  let s0 := s.setBar 0x30040 0
  let s1 := (if s0.clocked 324 then s0.resumeTrace else s0.andnBar 0x30020 4).stampGs
  let s2 : State := { s1 with net := { s1.net with rxHeld := [] } }
  let s3 := if s2.obs.gsFroze then ({ s2 with obs := { s2.obs with gsFroze := false } } : State).unfreeze else s2
  let s4 := if s3.obs.snapCut then ({ s3 with obs := { s3.obs with snapCut := false } } : State).endUnits else s3
  let s5 := held.foldl (fun s c => s.takeHeld c) s4
  ({ s5 with net := { s5.net with gstopSent := false } } : State).release.pumpAll.retryHost

/-- GSTOP, MODE 0. -/
def State.gstopSnap (s : State) (k : Slot) (cluster : Bool) : State :=
  if s.gsPend then s.deny k stBUSY
  else if s.gsState = 2 then (if cluster then s.deny k stNOPERM else s.snapRelease.ok k)
  else
    let s1 := if cluster then s.sendGstop none else s
    (s1.snapStop cluster true).ok k

/-- GSTOP, MODE 0. -/
def execGstopSnap (slot : Slot) (cluster : Bool) (s : State) : Host.Outcome State Fault Refusal := ok (s.gstopSnap slot cluster)

/-- GSTOP, MODE 1: a stop, or the release of one, at the edge after this one, or FLAG_LAT + 1 edges on for the cluster. -/
def State.gstopBeat (s : State) (k : Slot) (cluster : Bool) : State :=
  if s.gsPend then s.deny k stBUSY
  else if s.gsState = 2 ∨ (s.gsState = 0 ∧ !s.anyRunning) then s.deny k stNOPERM
  else
    let edge := if cluster then s.clk.beatNow + (s.ctx s.sched.ctx).flagLat + 1 else s.clk.beatNow + 1
    let s0 := s.armGstop cluster edge
    let s1 := (if s.gsState = 1 then s0 else s0.orBar 0x30040 0x80).wait k (.gstopBeat k cluster)
    { s1 with obs := { s1.obs with gsSlot := some k } }

/-- GSTOP, MODE 1. -/
def execGstopBeat (slot : Slot) (cluster : Bool) (s : State) : Host.Outcome State Fault Refusal := ok (s.gstopBeat slot cluster)

/-- BEAT_STOP_EDGE: at edge S the stokers stop and the counters freeze, or at a release's edge they go on. Sent again, it
completes a stop whose started words have ended. -/
def State.beatStopEdge (s : State) : State :=
  match s.obs.gsEdge with
  | none => s.settleStop
  | some (e, release) =>
    if s.clk.beatNow < e then s
    else
      let s1 := ({ s with obs := { s.obs with gsEdge := none } } : State).stampGs
      if release then
        let s2 := s1.stopRecord true
        let s3 := s2.andnBar 0x30040 0xE3
        let s4 := if s3.obs.gsFroze then ({ s3 with obs := { s3.obs with gsFroze := false } } : State).unfreeze else s3
        match s4.obs.gsSlot with
        | some k => ({ s4 with obs := { s4.obs with gsSlot := none } } : State).okWaiting k []
        | none => s4
      else
        let s2 := if s1.frozen then s1 else ({ s1 with obs := { s1.obs with gsFroze := true } } : State).freeze
        (s2.stopRecord false).settleStop

/-- BEAT_STOP_EDGE. -/
def execBeatStopEdge (s : State) : Host.Outcome State Fault Refusal := ok s.beatStopEdge

end Sys2Proof.Machine
end

