-- ==== Sys2Proof/Machine/MemErrors.lean ====
section
/-! DEFINITION. Uncorrectable reads of memory lines (R179, R181, R199). -/

namespace Sys2Proof.Machine

/-- A data line read by a stream is uncorrectable: the line is poisoned, the stream aborts with code 4, and firmware retires the frame
(R199, R201). -/
def State.ueStream (s : State) (t n tier frame line : Nat) : State :=
  let a := s.at t n
  let s1 := s.poisonLine tier frame line
  (if (s1.streamAt a).state = 1 then s1.abortWith a 4 else s1).retire tier frame 2

/-- A cartridge frame read by a stream fails its CRC-32C (R198): it reads so from then on, and the stream aborts with code 4. -/
def State.ueCart (s : State) (t n frame : Nat) : State :=
  let a := s.at t n
  let m := (2, frame * 1024)
  let s1 : State := if s.mem.poison.contains m then s else { s with mem := { s.mem with poison := s.mem.poison ++ [m] } }
  if (s1.streamAt a).state = 1 then s1.abortWith a 4 else s1

/-- A line of a page map is uncorrectable: the next fill of its group is served from the copy, sets SHADOW_USED and rewrites the line;
where the copy fails too, translations of its group raise code 3 and firmware raises a MODULE report from the line's channel (R199). Each frame
whose line failed goes on the retirement list (R201). -/
def State.uePageMap (s : State) (c g : Nat) (copyToo : Bool) : State :=
  if copyToo then
    let s1 : State := { s with mem := { s.mem with badLines := s.mem.badLines ++ [c * 2 ^ 23 + g] } }
    ((s1.moduleFault (0x130 + s1.pmFrame c g false % 16)).retire 1 (s.pmFrame c g false) 2).retire 1 (s.pmFrame c g true) 2
  else
    let l := (1, s.pmFrame c g false * 1024 + g % 1024)
    let s1 : State := if s.mem.poison.contains l then s else { s with mem := { s.mem with poison := s.mem.poison ++ [l] } }
    s1.retire 1 (s.pmFrame c g false) 2

/-- UNCORRECTABLE_READ. -/
def execUncorrectableRead (what : UeRead) (s : State) : Host.Outcome State Fault Refusal :=
  match what with
  | .stream t n tier frame line =>
    guardPart (frameOk tier frame) .noSuchFrame (s.ueStream t.toNat n.toNat (tierNum tier) frame line.toNat)
  | .cartridge t n frame => guardPart (decide (frame < 122070312)) .noSuchFrame (s.ueCart t.toNat n.toNat frame)
  | .pageMap c g copyToo => guardPart (decide (g < 2 ^ 23)) .noSuchFrame (s.uePageMap c.toNat g copyToo)

end Sys2Proof.Machine
end

