-- ==== Sys2Proof/Machine/Service.lean ====
section
/-! DEFINITION. Clock domains (R221 to R224), the collector's commands (R333 to R341), spare migration (R342 to R345),
firmware images (R346 to R348), background duties (R349), the panel's hold (R352) and factory test mode (R340). -/

namespace Sys2Proof.Machine

/-! ## Suspect slots (R76, R345) -/

/-- A slot marked SUSPECT and recorded in the setting store. -/
def State.markSuspect (s : State) (u : Nat) : State :=
  let s1 := s.setTile u { s.tile u with suspect := true }
  if s1.flt.suspects.contains u then s1
  else { s1 with flt := { s1.flt with suspects := s1.flt.suspects ++ [u] }, ctl := { s1.ctl with storeCnt := s1.ctl.storeCnt + 1 } }

/-- Whether a slot is an eligible spare (R342): slots 64 to 67, no logical tile, not SUSPECT, its last self-test passed. -/
def State.spareOk (s : State) (u : Nat) : Bool :=
  decide (64 ≤ u % 68) && (s.tileOf u).isNone && !(s.tile u).suspect && (s.tile u).testOk &&
    !s.flt.migrations.any (fun m => m.dst == u)

/-- The lowest-numbered eligible spare of a die. -/
def State.spareOf (s : State) (die : Nat) : Option Nat := ((List.range 4).map (fun i => 68 * die + 64 + i)).find? (fun u => s.spareOk u)

/-- Eligible spares of a die, as SPARE_STATUS counts them. -/
def State.sparesLeft (s : State) (die : Nat) : Nat := (((List.range 4).map (fun i => 68 * die + 64 + i)).filter (fun u => s.spareOk u)).length

/-! ## Domain faults (R222, R224, Table 13-5) -/

/-- A lane of a chimney is the source of a recovered reference. -/
def State.laneSource (s : State) (p : Nat) (l : Nat → Bool) : State :=
  let v := s.setting 0x0200
  let hit := fun (o : Nat) => field v o 1 == p && l (field v (o + 4) 4)
  let s1 := if hit 0 && s.barBit 0x40020 9 then s.loseSource 0 else s
  if hit 8 && s1.barBit 0x40020 10 then s1.loseSource 1 else s1

/-- The reaction of Table 13-5. -/
def State.domainReact (s : State) (d : Nat) : State :=
  if d < 272 then
    if (s.tileOf d).isSome then s.raiseFail.addReact (srcId 9 d) else s.markSuspect d
  else if d < 276 ∨ d = 323 ∨ d = 325 then s.modFault
  else if d < 284 then
    ((List.range 32).foldl (fun (s : State) i => s.channelOut 0 (32 * (d - 276) + i)) s).moduleFault (0x120 + (d - 276))
  else if d < 300 then (s.channelOut 1 (d - 284)).moduleFault (0x130 + (d - 284))
  else if d < 316 then
    let lane := d - 300
    let p := lane / 8
    let per := 8 / (field (s.setting (0x0130 + p)) 4 2 + 1)
    (s.linkLost p (lane % 8 / per)).laneSource p (fun l => l == lane % 8)
  else if d < 320 then
    let p := d % 2
    (((List.range 4).foldl (fun (s : State) l => s.linkLost p l) s).failChimney p).laneSource p (fun _ => true)
  else if d = 321 then s.addReact (srcId 9 d)
  else if d = 322 then
    if s.cartHeld then s.surprise.report (srcId 3 0x182) (BitVec.ofNat 32 s.ember.cartState) else s
  else if d = 324 then s.haltTrace
  else s

/-- A domain whose state is not trusted: reported with CLK_MON, and its reaction. -/
def State.distrust (s : State) (d : Nat) : State := (s.report (srcId 9 d) (s.ior (clkMon d))).domainReact d

/-- A domain fault of R222 or R224: counted in CLK_CNT_DFLT (R238) as well. -/
def State.domainFault (s : State) (d : Nat) : State := (s.bumpBar 0x40038 1).distrust d

/-! ## Switching a domain (R221 to R224, Tables 09-3, 09-7) -/

/-- Whether a domain has an input of this number. -/
def inputOk (d sel : Nat) : Bool := sel == 0 || (sel == 1 && d != 323 && d != 325) || (sel == 2 && d != 323)

/-- SW_BUSY. -/
def State.swBusy (s : State) (d : Nat) : Bool := (s.ior (clkCtl d)).getLsbD 8

/-- SEL written: a switch is in progress. SEL 3, and an input that the domain lacks, have no effect (log 49). -/
def State.writeSel (s : State) (d sel : Nat) : State :=
  if inputOk d sel then (s.ioField (clkCtl d) 0 2 sel).orIo (clkCtl d) 0x100 else s

/-- CLK_CTL_SEL: glitch-free. -/
def execClkCtlSel (dom : Nat) (sel : BitVec 2) (s : State) : Host.Outcome State Fault Refusal :=
  guardPart (domOk dom) .noSuchDomain (s.writeSel dom sel.toNat)

/-- SEL written with FORCE: the switch needs no clock; it ends within 4 ticks (R223, R239). -/
def State.forceSel (s : State) (d sel : Nat) : State :=
  if inputOk d sel then
    let s1 := s.writeSel d sel
    { s1 with clk := { s1.clk with forced := s1.clk.forced.filter (fun x => x != d) ++ [d] } }
  else s

/-- CLK_CTL_FORCE. -/
def execClkCtlForce (dom : Nat) (sel : BitVec 2) (s : State) : Host.Outcome State Fault Refusal :=
  guardPart (domOk dom) .noSuchDomain (s.forceSel dom sel.toNat)

/-- A domain has its clock again: the accesses held for a memory's or the cartridge's domain are tried again. -/
def State.domainBack (s : State) (d : Nat) : State :=
  if s.clocked d && decide ((276 ≤ d ∧ d < 300) ∨ d = 322) then s.retryHost else s

/-- DOMAIN_HOLD: the domain's clock is gated after its multiplexer, or opened: what waited for it goes on, the queues of domain 324 and the
accesses held for a memory's domain. -/
def State.domainHold (s : State) (d : Nat) (hold : Bool) : State :=
  let s1 := s.ioField (clkCtl d) 10 1 (bnat hold)
  if hold then s1
  else if d = 324 && s1.clocked 324 && !s1.traceHalted then s1.resumeTrace
  else s1.domainBack d

/-- DOMAIN_HOLD. -/
def execDomainHold (dom : Nat) (hold : Bool) (s : State) : Host.Outcome State Fault Refusal :=
  guardPart (domOk dom) .noSuchDomain (s.domainHold dom hold)

/-- CLK_SELECT, KIND 0: the procedure of R223; its reply follows the switch. -/
def State.selectDomain (s : State) (k : Slot) (d sel : Nat) : State :=
  if !domOk d || !inputOk d sel then s.deny k stNOPERM
  else if s.swBusy d then s.deny k stBUSY
  else
    let dead := fun (s : State) =>
      ({ s with clk := { s.clk with selDead := s.clk.selDead.filter (fun x => x != d) ++ [d] } } : State).ioField (clkCtl d) 10 1 1
    (if s.domDead d then (dead s).forceSel d sel else s.writeSel d sel).wait k
      (.clkSelectDomain k (BitVec.ofNat 9 d) (BitVec.ofNat 2 sel))

/-- CLK_SELECT, KIND 0. -/
def execClkSelectDomain (slot : Slot) (dom : BitVec 9) (sel : BitVec 2) (s : State) : Host.Outcome State Fault Refusal :=
  ok (s.selectDomain slot dom.toNat sel.toNat)

/-- The slot whose CLK_SELECT waits for a domain. -/
def State.selectSlot (s : State) (d : Nat) : Option Slot :=
  (s.ctl.waiting.find? (fun p => match p.2 with | .clkSelectDomain _ x _ => x.toNat == d | _ => false)).map (fun p => p.1)

/-- The switch ends: SEL_ACT, SW_BUSY; a CLK_SELECT that found the old clock dead opens the gate and raises a domain fault, since
the state is not trusted (R223; no fault of R222 or R224, so none that CLK_CNT_DFLT counts). Domain 324 runs again. A switch that is not
forced does not end with the old clock dead, nor once its time has run out, when the multiplexer stays in its wait (R224). -/
def State.switchDone (s : State) (d : Nat) : State :=
  if !s.swBusy d || ((s.domDead d || s.clk.timedOut.contains d) && !s.clk.forced.contains d) then s
  else
    let sel := getField (s.ior (clkCtl d)) 0 2
    let dead := s.clk.selDead.contains d
    let s0 : State := { s with clk := { s.clk with
      forced := s.clk.forced.filter (fun x => x != d), selDead := s.clk.selDead.filter (fun x => x != d)
      timedOut := s.clk.timedOut.filter (fun x => x != d) } }
    let s1 := (s0.andnIo (clkCtl d) 0x100).ioField (clkCtl d) 4 2 sel
    let s1 := if dead then (s1.ioField (clkCtl d) 10 1 0).distrust d else s1
    let s2 := match s1.selectSlot d with
      | some k => s1.ok k
      | none => s1
    if d = 324 && s2.traceHalted && s2.gsState != 2 then s2.resumeTrace else s2.domainBack d

/-- CLOCK_SWITCH_DONE. -/
def execClockSwitchDone (dom : Nat) (s : State) : Host.Outcome State Fault Refusal :=
  guardPart (domOk dom) .noSuchDomain (s.switchDone dom)

/-- SWITCH_TIMEOUT: DOM_FLT and a domain fault; the multiplexer stays in its wait, and the CLK_SELECT that waits for it gets the
BUSY of R224 (log 49). -/
def State.switchTimeout (s : State) (d : Nat) : State :=
  if !s.swBusy d then s
  else
    let s0 : State := if s.clk.forced.contains d then s else { s with clk := { s.clk with timedOut := d :: s.clk.timedOut } }
    let s1 := (s0.orIo (clkCtl d) 0x800).domainFault d
    match s1.selectSlot d with | some k => s1.deny k stBUSY | none => s1

/-- SWITCH_TIMEOUT. -/
def execSwitchTimeout (dom : Nat) (s : State) : Host.Outcome State Fault Refusal :=
  guardPart (domOk dom) .noSuchDomain (s.switchTimeout dom)

/-- The set frequency of a domain in Hz, none where the spec gives no number (port transmit, PCIe). -/
def State.domainHz (s : State) (d : Nat) : Option Nat :=
  let sel := getField (s.ior (clkCtl d)) 4 2
  if sel ≠ 0 then some 156250000
  else if d < 272 then some (s.clk.tileMhz * 1000000)
  else if d < 276 then some 2000000000
  else if d < 284 then some 1600000000
  else if d < 300 then some 1066625000
  else if d < 316 then some 156250000
  else if d = 316 ∨ d = 317 ∨ d = 320 then none
  else if d = 318 ∨ d = 319 then some 1250000000
  else if d = 322 then some 800000000
  else if d = 323 ∨ d = 325 then some 156250000
  else if d = 326 then some 39062500
  else some 1000000000

/-- Whether a domain is powered: fireboxes, die fabrics and HBM controllers with their dies (R411, R417). -/
def State.domPowered (s : State) (d : Nat) : Bool := decide (284 ≤ d) || s.pwr.diesUp

/-- CLK_MON_WINDOW: COUNT and OOR of 1,024 reference ticks; a rise of OOR is a domain fault. Whether a counted edge has ended
DEAD is open. -/
def State.monWindow (s : State) (d count : Nat) : State :=
  if !s.clk.started || !s.domPowered d then s
  else
    let n := min 65535 count
    let oor := match s.domainHz d with
      | some f => decide (1024 * f < 50 * ((n * 156250000 : Int) - 1024 * f).natAbs)
      | none => Config.freeBool s.free
    let dead := s.domDead d && (n == 0 || Config.freeBool (s.free + 1))
    let was := (s.ior (clkMon d)).getLsbD 30
    let s1 := s.draw.draw.setIo (clkMon d) (BitVec.ofNat 32 (n + 2 ^ 30 * bnat oor + 2 ^ 31 * bnat dead))
    if oor && !was then s1.domainFault d else s1

/-- CLK_MON_WINDOW. -/
def execClkMonWindow (dom count : Nat) (s : State) : Host.Outcome State Fault Refusal :=
  guardPart (domOk dom) .noSuchDomain (s.monWindow dom count)

/-- DOMAIN_DEAD: no edge for 64 reference ticks. -/
def execDomainDead (dom : Nat) (s : State) : Host.Outcome State Fault Refusal :=
  guardPart (domOk dom) .noSuchDomain
    (if s.domDead dom || !s.clk.started || !s.domPowered dom then s else (s.orIo (clkMon dom) 0x80000000).domainFault dom)

/-! ## Reports and the collector (R333 to R339) -/

/-- Whether a unit number of a class is assigned (Table 13-2; a DOMAIN unit is a DOM). -/
def unitAssigned (c u : Nat) : Bool :=
  if c = 9 then domOk u
  else decide (u < 0x114) || (decide (0x120 ≤ u) && decide (u < 0x128)) || (decide (0x130 ≤ u) && decide (u < 0x150)) ||
    [0x150, 0x151, 0x152, 0x160, 0x161, 0x170, 0x171, 0x180, 0x181, 0x182, 0x190, 0x1A0, 0x1A1, 0x1A2, 0x1B0, 0x1B1, 0x1B2,
      0x1B3, 0x1C0, 0x1C1, 0x1C2, 0x1C3, 0x1D0].contains u

/-- The reactions that the class or the unit decides beyond the collector's: Table 13-5 for DOMAIN, the end of its job for JOB
(log 42). -/
def State.classReact (s : State) (c u : Nat) : State :=
  if c = 9 then s.domainReact u
  else if c = 0xB ∧ u = 0x1C0 + s.sched.ctx then s.stopSoon
  else s

/-- FAULT_REPORT: a report from a source, with its class's reaction. -/
def execFaultReport (source : BitVec 16) (info : BitVec 32) (s : State) : Host.Outcome State Fault Refusal :=
  let c := source.toNat / 4096
  let u := source.toNat % 4096
  ok (if 1 ≤ c ∧ c ≤ 14 ∧ unitAssigned c u then (s.report source.toNat info).classReact c u else s)

/-- n forced reports from a source; the information word of a forced report is open. -/
def State.forceReports (s : State) (src : Nat) (react : Bool) : Nat → State
  | 0 => s
  | n + 1 =>
    let s0 := s.forceReports src react n
    let s1 := (s0.collect src ((Config.freeWord s0.free).setWidth 32) true).draw
    if react then (s1.react src).classReact (src / 4096) (src % 4096) else s1

/-- FAULT_FORCE (R339). -/
def State.faultForce (s : State) (k : Slot) (src : Nat) (react : Bool) (count : Nat) : State :=
  let c := src / 4096
  if c = 0 ∨ c = 15 ∨ count = 0 ∨ !unitAssigned c (src % 4096) ∨ (react ∧ (c = 0xC ∨ c = 0xD ∨ c = 0xE)) then s.deny k stNOPERM
  else (s.forceReports src react count).ok k

/-- FAULT_FORCE. -/
def execFaultForce (slot : Slot) (source : BitVec 16) (react : Bool) (count : BitVec 8) (s : State) :
    Host.Outcome State Fault Refusal :=
  ok (s.faultForce slot source.toNat react count.toNat)

/-- REACT: whether a reaction is in progress, a page move and a power reaction among them (R337, Table 13-3). -/
def State.reacting (s : State) : Bool := !s.flt.reacts.isEmpty || s.mem.moving.isSome || s.rank0 || s.pwr.restarting

/-- Whether the quiet timer runs: FAULT = 1, no reaction in progress, no MODULE fault. -/
def State.quietRuns (s : State) : Bool := s.faultSet && !s.reacting && !s.modFlt

/-- QUIET_TIMER_EXPIRY (R337). -/
def State.quietOver (s : State) : State :=
  if !s.quietRuns then s
  else
    let s1 := (s.setBar 0x2000C (s.bar 0x20004)).setBar 0x20004 0
    ((s1.andnBar 0x20000 0x1100).barField 0x20000 20 4 0).bumpBar 0x20018 1

/-- QUIET_TIMER_EXPIRY. -/
def execQuietTimerExpiry (s : State) : Host.Outcome State Fault Refusal := ok s.quietOver

/-! ## Spare migration (R342 to R345, Table 13-6) -/

/-- The migration of a logical tile. -/
def State.migOf (s : State) (t : Nat) : Option Migration := s.flt.migrations.find? (fun m => m.tile == t)

/-- A migration replaced. -/
def State.setMig (s : State) (m : Migration) : State :=
  { s with flt := { s.flt with migrations := s.flt.migrations.filter (fun x => x.tile != m.tile) ++ [m] } }

/-- A migration removed. -/
def State.dropMig (s : State) (t : Nat) : State :=
  { s with flt := { s.flt with migrations := s.flt.migrations.filter (fun x => x.tile != t) } }

/-- Whether a migration is due for a slot: a FIREBOX or DOMAIN reaction for it is outstanding. -/
def State.firebad (s : State) (u : Nat) : Bool := s.flt.reacts.any (fun r => r == srcId 0xA u || r == srcId 9 u)

/-- Those reactions are complete. -/
def State.endFire (s : State) (u : Nat) : State := s.endReact (fun r => r == srcId 0xA u || r == srcId 9 u)

/-- The die of a slot that has used its last spare raises the advisory event of R345. -/
def State.noteSpares (s : State) (die : Nat) : State :=
  if s.sparesLeft die = 0 then (s.reportCorr (0x110 + die) (Config.unitInfo (srcId 1 (0x110 + die)) s.free)).draw else s

/-- Phase 2 toward a spare: the stoker issues nothing, the grate is in tile-buffer mode, the bellows stop; the slot keeps
SUSPECT. -/
def State.quiesce (s : State) (t u dst : Nat) : State :=
  let tl := (s.tile u).tbuf true
  let s1 := (s.setTile u { tl with stoker := { tl.stoker with quiesced := true } }).markSuspect u
  s1.setMig { tile := t, src := u, dst := dst, phase := 2 }

/-- SPARE_MIGRATION of a logical tile: the start, or the restart on the next spare where the chosen one has failed; one
migration runs on a die. -/
def State.spareMigration (s : State) (t : Nat) : State :=
  match s.migOf t with
  | some m =>
    if !s.firebad m.dst && !(s.tile m.dst).suspect then s
    else
      let s1 := (s.markSuspect m.dst).endFire m.dst
      match s1.spareOf (m.src / 68) with
      | some v => s1.quiesce t m.src v
      | none => ((s1.endFire m.src).moduleFault m.src).dropMig t
  | none =>
    let u := s.unitOf t
    if !s.firebad u || s.flt.migrations.any (fun m => m.src / 68 == u / 68) then s
    else match s.spareOf (u / 68) with
      | some v => s.quiesce t u v
      | none => (s.endFire u).moduleFault u

/-- SPARE_MIGRATION. -/
def execSpareMigration (t : BitVec 8) (s : State) : Host.Outcome State Fault Refusal := ok (s.spareMigration t.toNat)

/-- The passes in flight as the spare runs them: from their first row again, on the operands they hold (R75, R76). -/
def Hob.again (h : Hob) : Hob :=
  { h with stopped := false, preloading := !h.fly.isEmpty, fly := h.fly.map (fun f => { f with replay := false, aborted := false }) }

/-- Phase 3 on one firebox: what the spare takes from the failing slot. Its counters and error records are the spare's own. -/
def Tile.takeFrom (spare old : Tile) : Tile :=
  let regs := [0x0100, 0x0300, 0x0304, 0x02C0].foldl (fun (r : Table W32) o => tset r o (old.reg o)) spare.regs
  { old with
    regs := regs, hobs := old.hobs.map (fun p => (p.1, p.2.again)), xc := spare.xc, damper := spare.damper
    suspect := spare.suspect, badHobs := spare.badHobs, testOk := spare.testOk, tested := spare.tested, grateUe := false }

/-- An uncorrectable 64-bit word of tile scratch arrives poisoned: its contents are open. -/
def State.poisonWord (s : State) (u addr : Nat) : State :=
  let a := addr / 8 * 8
  let tl := s.tile u
  (s.setTile u { tl with scratch := mwrite tl.scratch a ((List.range 8).map (fun i => Config.freeByte s.free (a + i))) }).draw

/-- The 8 counters of a slot copied to another with their configuration (R383). -/
def State.copyCounters (s : State) (u v : Nat) : State :=
  (List.range 8).foldl (fun (s : State) i =>
    let s1 : State := { s with obs := { s.obs with records := tset s.obs.records (ctrKey v i) (tget 0 s.obs.records (ctrKey u i)) } }
    s1.setCounter (ctrKey v i) (s.counter (ctrKey u i))) s

/-- The counters of a slot keep their values with EN = 0 (R383). -/
def State.stopCounters (s : State) (u : Nat) : State :=
  (List.range 8).foldl (fun (s : State) i => s.setCounter (ctrKey u i) { s.counter (ctrKey u i) with en := false }) s

/-- What a migration copies: the tile's state and its counters. -/
def State.copySlot (s : State) (u v : Nat) : State := (s.setTile v ((s.tile v).takeFrom (s.tile u))).copyCounters u v

/-- MIGRATION_COPY, once the healthy hobs have committed their passes in flight. -/
def State.migrationCopy (s : State) (t : Nat) (ue : Option Nat) : State :=
  match s.migOf t with
  | none => s
  | some m =>
    let old := s.tile m.src
    if m.phase ≠ 2 ∨ old.hobs.any (fun h => !h.2.stopped && !h.2.fly.isEmpty) then s
    else
      let s1 := match ue with
        | some a => (s.poisonWord m.src a).raiseFail
        | none => s
      (s1.copySlot m.src m.dst).setMig { m with phase := 3, lost := ue.isSome }

/-- MIGRATION_COPY. -/
def execMigrationCopy (t : BitVec 8) (ue : Option Nat) (s : State) : Host.Outcome State Fault Refusal :=
  ok (s.migrationCopy t.toNat ue)

/-- A slot that a migration has left: it has no pass to run, and its translations are dropped (R76, Table 13-6). -/
def Tile.left (t : Tile) : Tile := { t with xc := {}, hobs := t.hobs.map (fun p => (p.1, { p.2 with held := none, fly := [] })) }

/-- MIGRATION_REMAP: the logical ID names the spare, which has what came to the failing slot since the copy; the old slot is left. -/
def State.migrationRemap (s : State) (t : Nat) : State :=
  match s.migOf t with
  | none => s
  | some m =>
    if m.phase ≠ 3 then s
    else
      let s0 := s.copySlot m.src m.dst
      let s1 : State := { s0 with tileMap := tset s0.tileMap t m.dst }
      (((s1.setTile m.src (s1.tile m.src).left).stopCounters m.src).setMig { m with phase := 4 }).noteSpares (m.src / 68)

/-- MIGRATION_REMAP. -/
def execMigrationRemap (t : BitVec 8) (s : State) : Host.Outcome State Fault Refusal := ok (s.migrationRemap t.toNat)

/-- MIGRATION_RESUME: the spare issues again from its first uncommitted pass and instruction; the reaction is complete. -/
def State.migrationResume (s : State) (t : Nat) : State :=
  match s.migOf t with
  | none => s
  | some m =>
    if m.phase ≠ 4 then s
    else
      let tl := (s.tile m.dst).tbuf false
      ((s.setTile m.dst { tl with stoker := { tl.stoker with quiesced := false } }).endFire m.src).dropMig t

/-- MIGRATION_RESUME. -/
def execMigrationResume (t : BitVec 8) (s : State) : Host.Outcome State Fault Refusal := ok (s.migrationResume t.toNat)

/-! ## Firmware images (R346 to R348, Table 13-11) -/

/-- A slot written. -/
def State.setSlot (s : State) (b : Bool) (v : Option W16) : State :=
  if b then { s with flt := { s.flt with slotB := some v } } else { s with flt := { s.flt with slotA := some v } }

/-- FW_STAGE: the inactive slot is written; an image that fails its checks leaves it empty. -/
def State.fwStage (s : State) (k : Slot) (image : List Byte) : State :=
  let b := !s.actB
  match Config.firmwareVersion image with
  | some v => ((s.setSlot b (some v)).orBar 0x20020 4).okData k (leBytes 2 v.toNat)
  | none => ((s.setSlot b none).andnBar 0x20020 4).deny k stNOPERM

/-- FW_STAGE. -/
def execFwStage (slot : Slot) (image : List Byte) (s : State) : Host.Outcome State Fault Refusal := ok (s.fwStage slot image)

/-- FW_ACTIVATE: at least 16 beats ahead, of a checked image (log 50). -/
def State.fwActivate (s : State) (k : Slot) (b : Nat) : State :=
  if s.flt.bAct.isSome then s.deny k stBUSY
  else if b < s.clk.beatNow + 16 ∨ !s.barBit 0x20020 2 then s.deny k stNOPERM
  else (({ s with flt := { s.flt with bAct := some b } } : State).orBar 0x20020 8).ok k

/-- FW_ACTIVATE. -/
def execFwActivate (slot : Slot) (bAct : BitVec 64) (s : State) : Host.Outcome State Fault Refusal :=
  ok (s.fwActivate slot bAct.toNat)

/-- The handoff record of a switch, in the first frame of the tier 2 firmware area: at most 64 KiB, whose length and bytes the spec does not
give (R347, log 152). -/
def State.handoff (s : State) : State :=
  let n := (Config.freeWord s.free).toNat % (pageBytes + 1)
  (s.setTierMem 1 (mwrite (s.tierMem 1) (firmwareFrame * pageBytes) ((List.range n).map (Config.freeByte (s.free + 1))))).draw.draw

/-- FW_SWITCH: from the edge of B_ACT on, once no migration is in progress; nothing where the slot has been emptied since. -/
def State.fwSwitch (s : State) : State :=
  match s.flt.bAct with
  | none => s
  | some b =>
    if s.clk.beatNow < b ∨ !s.flt.migrations.isEmpty then s
    else
      let s1 := ({ s with flt := { s.flt with bAct := none } } : State).andnBar 0x20020 8
      if s1.barBit 0x20020 2 then ({ s1.handoff with flt := { s1.handoff.flt with switched := true } } : State).runSlot (!s1.actB) else s1

/-- FW_SWITCH. -/
def execFwSwitch (s : State) : Host.Outcome State Fault Refusal := ok s.fwSwitch

/-- FW_HEALTH_TIMEOUT: 1 s after a switch the healthy image becomes the boot slot; else the switch back waits for the next beat
edge (R348). -/
def State.fwHealth (s : State) (healthy : Bool) : State :=
  if !s.flt.switched then s
  else
    let s1 : State := { s with flt := { s.flt with switched := false } }
    if healthy then s1.barField 0x20020 1 1 (bnat s1.actB)
    else { s1 with flt := { s1.flt with backDue := true } }

/-- FW_HEALTH_TIMEOUT. -/
def execFwHealthTimeout (healthy : Bool) (s : State) : Host.Outcome State Fault Refusal := ok (s.fwHealth healthy)

/-- MANTEL_RESTART: commands in progress, those dispatched and not ended, reply BUSY; the MGMT reactions are complete (log 48). -/
def State.mantelRestart (s : State) : State :=
  let busy := (s.ctl.inflight.filter (fun p => p.2.dispatched && (getSlot s.ctl.results p.1).isNone)).foldl
    (fun (s : State) p => s.deny p.1 stBUSY) s
  busy.endReact (fun r => r / 4096 == 0xC || r == srcId 9 321)

/-- MANTEL_RESTART. -/
def execMantelRestart (s : State) : Host.Outcome State Fault Refusal := ok s.mantelRestart

/-! ## Background duties (R349) -/

/-- SPARE_SELF_TEST of a slot that holds no logical tile: a failed one becomes SUSPECT. -/
def execSpareSelfTest (unit : Nat) (passed : Bool) (s : State) : Host.Outcome State Fault Refusal :=
  guardPart (unitOk unit) .noSuchUnit
    (if (s.tileOf unit).isSome then s
     else
      let s1 := s.setTile unit { s.tile unit with testOk := passed }
      if passed then s1 else s1.markSuspect unit)

/-- SENSOR_CALIBRATION against the reference sensor of the die; the spec gives no other effect than its record here. -/
def execSensorCalibration (die : BitVec 2) (sensor : Nat) (s : State) : Host.Outcome State Fault Refusal :=
  let k := (die.toNat, sensor)
  ok (if s.flt.calibrated.contains k then s else { s with flt := { s.flt with calibrated := s.flt.calibrated ++ [k] } })

/-! ## Module removal (R352) -/

/-- ATTN_HOLD: a request for removal, or the withdrawal of one; ignored before stage 8 (R424). -/
def State.attnHold (s : State) : State :=
  if s.pwr.stage < 8 then s
  else
    let s1 : State := { (s.orBar 0x50000 2) with flt := { s.flt with attnDown := true } }
    if s1.barBit 0x20000 0 then s1.andnBar 0x20000 3
    else ((s1.orBar 0x20000 1).cause 1).emit .removalRequest

/-- ATTN_HOLD. -/
def execAttnHold (s : State) : Host.Outcome State Fault Refusal := ok s.attnHold

/-! ## Factory test mode (R340) -/

/-- FACTORY of FLT_STATUS. -/
def State.factory (s : State) : Bool := s.barBit 0x20000 15

/-- FACTORY_UNLOCK: only during kindling. -/
def execFactoryUnlock (s : State) : Host.Outcome State Fault Refusal :=
  ok (if 1 ≤ s.pwr.stage ∧ s.pwr.stage < 8 then s.orBar 0x20000 0x8000 else s)

/-- Words 2·i and 2·i + 1 of a tile as one word of 64 bits. -/
def pairOf (l : Tile64) (i : Nat) : W64 := BitVec.ofNat 64 ((nth (0 : W32) l (2 * i)).toNat + 2 ^ 32 * (nth (0 : W32) l (2 * i + 1)).toNat)

/-- Those words replaced. -/
def setPair (l : Tile64) (i : Nat) (w : W64) : Tile64 :=
  (List.range (max l.length (2 * i + 2))).map (fun j => if j = 2 * i then w.setWidth 32 else if j = 2 * i + 1 then BitVec.ofNat 32 (w.toNat / 2 ^ 32) else nth (0 : W32) l j)

/-- A node held stuck, or check bits written, recorded: what they do to later accesses arrives as those accesses' errors
(log 51). -/
def State.stick (s : State) (kind place : Nat) (bits : W64) : State :=
  { s with flt := { s.flt with stuck := s.flt.stuck ++ [(kind, place, bits)] } }

/-- The 64-bit word, or the register or entry, that a cell of a firebox or a die pool belongs to. -/
def State.cellWord (s : State) : InjectTarget → W64
  | .scratch u a => BitVec.ofNat 64 (leNat (mreadN (s.tile u).scratch (a / 8 * 8) 8))
  | .vectorReg u a => BitVec.ofNat 64 (leNat (mreadN (s.tile u).vregs (a % 2 ^ 16 / 8 * 8) 8))
  | .scalarReg u r => (tget 0 (s.tile u).x r.toNat).setWidth 64
  | .maskReg u m i => (tget 0 (s.tile u).masks m.toNat).extractLsb' (64 * i.toNat) 64
  | .accumulator u h k i => pairOf (tget [] ((s.tile u).hob h.toNat).slots k.toNat) i.toNat
  | .ashStage u k i => pairOf (nth { seq := 0, hob := 0 } (s.tile u).ash k).data i.toNat
  | .gsbEntry u h i => BitVec.ofNat 64 (nth (0, 0) ((s.tile u).half h.toNat).data i.toNat).1
  | .flueEntry u n i => BitVec.ofNat 64 (nth (0, 0) ((s.tile u).stream n.toNat).entries i).1
  | .poolWord d a => BitVec.ofNat 64 (leNat (mreadN (tget [] s.mem.pools d.toNat) (a / 8 * 8) 8))
  | _ => 0

/-- That word replaced, where the cell exists. -/
def State.setCell (s : State) (w : W64) : InjectTarget → State
  | .scratch u a =>
    let tl := s.tile u
    if a < 3 * 2 ^ 20 then s.setTile u { tl with scratch := mwrite tl.scratch (a / 8 * 8) (leBytes 8 w.toNat) } else s
  | .vectorReg u a =>
    let tl := s.tile u
    s.setTile u { tl with vregs := mwrite tl.vregs (a % 2 ^ 16 / 8 * 8) (leBytes 8 w.toNat) }
  | .scalarReg u r =>
    let tl := s.tile u
    s.setTile u { tl with x := tset tl.x r.toNat (w.setWidth 32) }
  | .maskReg u m i =>
    let tl := s.tile u
    let old := (tget 0 tl.masks m.toNat).toNat
    s.setTile u { tl with masks := tset tl.masks m.toNat (BitVec.ofNat 2048 (old - field old (64 * i.toNat) 64 * 2 ^ (64 * i.toNat) + w.toNat * 2 ^ (64 * i.toNat))) }
  | .accumulator u h k i =>
    let tl := s.tile u
    let v := tl.hob h.toNat
    if h.toNat < 3 then s.setTile u (tl.setHob h.toNat { v with slots := tset v.slots k.toNat (setPair (tget [] v.slots k.toNat) i.toNat w) }) else s
  | .ashStage u k i =>
    let tl := s.tile u
    s.setTile u { tl with ash := tl.ash.zipIdx.map (fun p => if p.2 = k then { p.1 with data := setPair p.1.data i.toNat w } else p.1) }
  | .gsbEntry u h i =>
    let tl := s.tile u
    let v := tl.half h.toNat
    s.setTile u { tl with gsb := tset tl.gsb h.toNat { v with data := v.data.zipIdx.map (fun p => if p.2 = i.toNat then (w.toNat, p.1.2) else p.1) } }
  | .flueEntry u n i =>
    let tl := s.tile u
    let v := tl.stream n.toNat
    s.setTile u (tl.setStream n.toNat { v with entries := v.entries.zipIdx.map (fun p => if p.2 = i then (w.toNat, p.1.2) else p.1) })
  | .poolWord d a => if a < 2 ^ 26 then { s with mem := { s.mem with
      pools := tset s.mem.pools d.toNat (mwrite (tget [] s.mem.pools d.toNat) (a / 8 * 8) (leBytes 8 w.toNat)) } } else s
  | _ => s

/-- Bits in which two words differ. -/
def bitsApart (a b : W64) : Nat := ((List.range 64).filter (fun i => a.getLsbD i != b.getLsbD i)).length

/-- Bytes in which two words differ: the 8-bit symbols of the codes of tiers 1 and 2. -/
def symbolsApart (a b : W64) : Nat := ((List.range 8).filter (fun i => field a.toNat (8 * i) 8 != field b.toNat (8 * i) 8)).length

/-- Chosen bits in a word of an SRAM store (Table 08-3): SECDED corrects one wrong bit, so that the word still reads as it did. -/
def State.injectSram (s : State) (target : InjectTarget) (bits : W64) : State :=
  if bitsApart (s.cellWord target) bits = 1 then s else s.setCell bits target

/-- Chosen bits in a word of a tier 1 or tier 2 line: the line's code corrects one wrong symbol in tier 1 and two in tier 2; up to 3 and 6 it
detects, so that the line is uncorrectable; beyond that what is read is open, here the bits themselves (log 51). -/
def State.injectTier (s : State) (tier frame word : Nat) (bits : W64) : State :=
  let a := frame * pageBytes + 8 * word
  let n := symbolsApart (BitVec.ofNat 64 (leNat (mreadN (s.tierMem tier) a 8))) bits
  if bankFrames tier * banksOf tier ≤ frame ∨ n ≤ 1 + tier then s
  else if n ≤ 3 * (1 + tier) then s.poisonLine tier frame (word / 8)
  else s.setTierMem tier (mwrite (s.tierMem tier) a (leBytes 8 bits.toNat))

/-- CELL_LEVEL_INJECTION: the word takes the chosen bits, as its store's code lets them be seen; a cell or a node held stuck is recorded. -/
def State.inject (s : State) (target : InjectTarget) (bits : W64) (hold : Bool) : State :=
  let keep := fun (s : State) (kind place : Nat) => if hold then s.stick kind place bits else s
  match target with
  | .scratch u a => keep (s.injectSram target bits) 0 (u * 2 ^ 22 + a % 2 ^ 22)
  | .vectorReg u a => keep (s.injectSram target bits) 1 (u * 2 ^ 22 + a % 2 ^ 16)
  | .scalarReg u r => keep (s.injectSram target bits) 2 (u * 2 ^ 22 + r.toNat)
  | .checkBits u w => s.stick 3 (u * 2 ^ 22 + w % 2 ^ 22) bits
  | .logicNode u n => s.stick 4 (u * 2 ^ 22 + n % 2 ^ 22) bits
  | .maskReg u m i => keep (s.injectSram target bits) 5 (u * 2 ^ 22 + 32 * m.toNat + i.toNat)
  | .accumulator u h k i => keep (s.injectSram target bits) 6 (u * 2 ^ 22 + 2 ^ 14 * h.toNat + 2 ^ 11 * k.toNat + i.toNat)
  | .ashStage u k i => keep (s.injectSram target bits) 7 (u * 2 ^ 22 + 2 ^ 11 * (k % 2 ^ 11) + i.toNat)
  | .gsbEntry u h i => keep (s.injectSram target bits) 8 (u * 2 ^ 22 + 2 ^ 12 * h.toNat + i.toNat)
  | .flueEntry u n i => keep (s.injectSram target bits) 9 (u * 2 ^ 22 + 2 ^ 16 * n.toNat + i % 2 ^ 16)
  | .poolWord d a => keep (s.injectSram target bits) 10 (d.toNat * 2 ^ 26 + a % 2 ^ 26)
  | .tierWord t f w => keep (s.injectTier t.toNat f w.toNat bits) (11 + t.toNat) (f * 2 ^ 13 + w.toNat)

/-- The slot that a target stands in, if it stands in one. -/
def targetUnit : InjectTarget → Option Nat
  | .scratch u _ => some u
  | .vectorReg u _ => some u
  | .scalarReg u _ => some u
  | .maskReg u _ _ => some u
  | .accumulator u _ _ _ => some u
  | .ashStage u _ _ => some u
  | .gsbEntry u _ _ => some u
  | .flueEntry u _ _ => some u
  | .checkBits u _ => some u
  | .logicNode u _ => some u
  | .poolWord _ _ => none
  | .tierWord _ _ _ => none

/-- CELL_LEVEL_INJECTION: it exists only in factory test mode. -/
def execCellLevelInjection (target : InjectTarget) (bits : BitVec 64) (hold : Bool) (s : State) : Host.Outcome State Fault Refusal :=
  guardPart ((targetUnit target).all unitOk) .noSuchUnit (if s.factory then s.inject target bits hold else s)

end Sys2Proof.Machine
end

