-- ==== Sys2Proof/Machine/Image.lean ====
section
/-! DEFINITION. Job images (R240 to R242, R369): the header, the sections that JOB_LOAD takes and their refusals, and JOB_LOAD. -/

namespace Sys2Proof.Machine

/-- One check of an image: the status that refuses it, the byte offset of the failing item (R370), and whether it holds. -/
abbrev Check := Nat × Nat × Bool

/-- A check whose refusal is NOT_PERMITTED. -/
def chk (off : Nat) (b : Bool) : Check := (stNOPERM, off, b)

/-- The first check that fails: its status, and bits [31:0] of its offset. Where several fail the spec names none (log 55). -/
def firstBad (l : List Check) : Option (Nat × Nat) := (l.find? (fun c => !c.2.2)).map (fun c => (c.1, c.2.1 % 2 ^ 32))

/-! ## The header (Tables 10-1, 10-2) -/

/-- SEC_OFS_k. -/
def secOfs (l : List Byte) (k : Nat) : Nat := leAt l (0x20 + 16 * k) 8
/-- SEC_CNT_k. -/
def secCnt (l : List Byte) (k : Nat) : Nat := leAt l (0x28 + 16 * k) 4
/-- The length of a header. -/
def headerLen : Nat := 0xD0

/-- Bytes of an entry of section k; the policy of section 10 has its own length. -/
def entryBytes (k : Nat) : Nat :=
  if k = 0 ∨ k = 9 then 32 else if k = 1 then 176 else if k ≤ 4 then 16 else if k = 8 then 4 else 8

/-- The offset of entry i of section k. -/
def entryOfs (l : List Byte) (k i : Nat) : Nat := secOfs l k + entryBytes k * i

/-- The offsets of the entries of a section. -/
def entries (l : List Byte) (k : Nat) : List Nat := (List.range (secCnt l k)).map (entryOfs l k)

/-- Whether a section lies in the image. -/
def secInside (l : List Byte) (k : Nat) : Check :=
  chk (0x20 + 16 * k) (decide (secOfs l k + entryBytes k * secCnt l k ≤ l.length))

/-- The checks of a header (Table 10-1). -/
def headerChecks (l : List Byte) : List Check :=
  let w := leAt l 0x10 4
  [chk 0 (decide (headerLen ≤ l.length)), chk 0 (leAt l 0 4 == 0x54594A49), chk 4 (leAt l 4 4 == 1),
   chk 0x10 (field w 30 2 != 3 && field w 28 2 != 3 && field w 22 6 != 0 && field w 18 4 != 0 && field w 0 12 == 0),
   chk 0x14 (decide (1 ≤ leAt l 0x16 2 ∧ leAt l 0x16 2 ≤ 32767) && decide (leAt l 0x14 2 ≤ 32768)), chk 0x18 (leAt l 0x18 8 == 0)] ++
  (List.range 11).map (fun k => chk (0x2C + 16 * k) (leAt l (0x2C + 16 * k) 4 == 0))

/-! ## Allocation records (Table 10-3, R242) -/

/-- The allocation record at an offset. -/
def parseAlloc (l : List Byte) (o : Nat) : AllocRec :=
  let w := leAt l (o + 0x10) 4
  { base := leAt l o 8, size := leAt l (o + 8) 8, space := field w 30 2, cls := field w 28 2, place := field w 26 2
    touch := Nat.testBit w 25, die := field w 23 2, hr := Nat.testBit w 22, hw := Nat.testBit w 21
    id := leAt l (o + 0x14) 2 }

/-- The allocation records of an image. -/
def imageAllocs (l : List Byte) : List AllocRec := (entries l 0).map (parseAlloc l)

/-- Whether a record's encodings and its own rules hold. -/
def allocOk (l : List Byte) (o : Nat) : Bool :=
  let a := parseAlloc l o
  let unit := if a.space = 0 then 65536 else 64
  a.space != 3 && field (leAt l (o + 0x10) 4) 0 21 == 0 && leAt l (o + 0x16) 2 == 0 && leAt l (o + 0x18) 8 == 0 &&
  a.base % unit == 0 && a.size % unit == 0 && decide (a.base + a.size ≤ spaceSize a.space) &&
  (a.space == 0 || (a.place == 0 && decide (a.cls ≤ 1))) && (a.die == 0 || (a.space == 0 && a.place == 1)) &&
  (!a.touch || (a.cls == 0 && a.space == 0)) && (a.place != 3 || decide (2 ≤ a.cls))

/-- Whether two records of one space overlap. -/
def overlaps (a b : AllocRec) : Bool := a.space == b.space && decide (a.base < b.base + b.size ∧ b.base < a.base + a.size)

/-- Whether a record may stand after those before it: no overlap, its own ALLOC_ID, at most 4 PERSIST in SPACE 1. -/
def allocAfter (before : List AllocRec) (a : AllocRec) : Bool :=
  before.all (fun b => !overlaps a b && b.id != a.id) &&
  (!(a.space == 1 && a.cls == 1) || decide ((before.filter (fun b => b.space == 1 && b.cls == 1)).length < 4))

/-- The checks of the allocation records; a PLACE 3 record needs a cartridge in the bay that is not FOREIGN
(R188, R189; of one that is WORN, EJECTING, READY or BAD no rule speaks, log 163), and none may reach the trace ring (R389). -/
def State.allocChecks (s : State) (l : List Byte) : List Check :=
  let as := imageAllocs l
  (List.range (secCnt l 0)).flatMap (fun i =>
    let o := entryOfs l 0 i
    let a := parseAlloc l o
    [chk o (allocOk l o), chk o (allocAfter (as.take i) a),
     (stABSENT, o, a.place != 3 || s.cartHeld), (stFOREIGN, o, a.place != 3 || s.ember.cartState != 2),
     chk o (s.obs.ringSize == 0 || a.space != 0 || decide (a.base + a.size ≤ ringBase s.obs.ringSize))])

/-! ## Descriptors and streams -/

/-- The context that the sections 0 to 2 of an image make. -/
def imageCtx (l : List Byte) : Ctx :=
  let w := leAt l 0x10 4
  { jobLoaded := true, image := l, seed := leAt l 8 8, onNf := field w 30 2, onFail := field w 28 2, maxDisc := field w 22 6
    flagLat := field w 18 4, strict := Nat.testBit w 17, compat := Nat.testBit w 16, nclass := field w 12 4 + 1
    stepBeats := leAt l 0x16 2, proBeats := leAt l 0x14 2
    allocs := imageAllocs l
    descs := (entries l 1).map (fun o => parseDesc (slice l o 176))
    sdt := (entries l 2).map (fun o => leAt l o 16)
    policy := (l.drop (secOfs l 10)).take (polLen (l.drop (secOfs l 10))) }

/-- The descriptors that a stream writes memory through: a store's, a copy's destination, a ring's buffer pair. -/
def writesThrough (cx : Ctx) (sd : Nat) : Option Desc :=
  if sdKind sd = 1 then cx.desc? (sdDescA sd) else if sdKind sd = 2 ∨ sdKind sd = 3 then cx.desc? (sdDescB sd) else none

/-- The class of the allocation that a stream writes. -/
def writesClass (cx : Ctx) (sd : Nat) : Option AllocRec :=
  match writesThrough cx sd with
  | some d => cx.owner d
  | none => none

/-- The checks of the tensor descriptors (R133, R146, R242). -/
def descChecks (l : List Byte) : List Check :=
  let cx := imageCtx l
  chk 0x38 (decide (secCnt l 1 ≤ 16384)) :: (entries l 1).flatMap (fun o =>
    let b := slice l o 176
    [(validateDesc b, o, validateDesc b == 0), chk o (cx.owner (parseDesc b)).isSome])

/-- The checks of the stream descriptor table (R155, R161, R242). -/
def sdtChecks (l : List Byte) : List Check :=
  let cx := imageCtx l
  chk 0x48 (decide (secCnt l 2 ≤ 16384)) :: (entries l 2).map (fun o =>
    let sd := leAt l o 16
    chk o (streamOk cx sd && (match writesClass cx sd with | some a => decide (a.cls ≤ 1) | none => true)))

/-- The checks of the snapshot policy: R324, and no PARITY override without a parity group (R315). -/
def State.policyChecks (s : State) (l : List Byte) : List Check :=
  let p := l.drop (secOfs l 10)
  [chk 0xC8 (secCnt l 10 == 1),
   chk (secOfs l 10 + (policyBad p (imageCtx l).polIds).getD 0) (policyBad p (imageCtx l).polIds).isNone] ++
  (List.range (polNent p)).map (fun i =>
    chk (secOfs l 10 + 0x40 + 8 * i) (field (leAt p (0x40 + 8 * i) 8) 16 2 != 2 || !s.ember.group.isEmpty))

/-! ## The room that an image takes -/

/-- Pages of an allocation. -/
def AllocRec.pages (a : AllocRec) : List Nat := (List.range (a.size / pageBytes)).map (fun i => a.base / pageBytes + i)

/-- Pages of a context's protected set (R299). -/
def Ctx.protectedCount (cx : Ctx) : Nat :=
  cx.tensors.foldl (fun n a => n + a.pages.length) 0

/-- Frames that the cartridge's log has to have: three times the protected set of every loaded context (R189). -/
def State.logNeed (s : State) : Nat :=
  3 * ((List.range 4).filter (fun c => (s.ctx c).jobLoaded)).foldl (fun n c => n + (s.ctx c).protectedCount) 0

/-- Whether the cartridge's log has them; with no cartridge there is no log. -/
def State.logFits (s : State) : Bool :=
  s.ember.cart.isNone || decide (s.logNeed ≤ s.cartParts.2 ∧ s.cartParts.1 ≤ s.tierFrames 2)

/-- The parity position list fixed (R311): the pages of every loaded context's protected tensors, by context and page (log 125). -/
def State.listParity (s : State) : State :=
  let pages := fun (c : Nat) => ((s.ctx c).tensors.flatMap (fun a => a.pages.map (fun p => pageKey c p))).mergeSort (· ≤ ·)
  { s with ember := { s.ember with
    parityList := ((List.range 4).filter (fun c => (s.ctx c).jobLoaded)).flatMap pages } }

/-- A mapped page of a context unmapped and its frame freed. -/
def State.unmapPage (s : State) (c p : Nat) : State :=
  let e := s.pentry c p
  if !eV e then s
  else (if eTier e = 2 then s else s.freeUp (eTier e) (eFrame e)).setPentry c p 0

/-- A page move of a context whose image ends: the new frame is free again; the old one, whose page goes, is retired all the same. -/
def State.endMove (s : State) (c : Nat) (m : Move) : State :=
  let tier := eTier (s.pentry c m.page)
  let s1 : State := { s with mem := { s.mem with moving := none, inval := none } }
  (if m.stage = 1 then s1.freeUp tier m.new else s1).listFrame tier m.old m.reason

/-- The old image of a context ended: its pages and overflow frames freed, its cached translations dropped, its streams IDLE
(R133, R189), a page move of it ended, after which the frames that waited to be retired and the held host accesses go on. -/
def State.endImage (s : State) (c : Nat) : State :=
  let s0 := match s.mem.moving with
    | some m => if m.ctx = c then s.endMove c m else s
    | none => s
  let s1 := ((s0.ctx c).allocs.filter (fun a => a.space == 0)).foldl (fun (s : State) a => a.pages.foldl (fun (s : State) p => s.unmapPage c p) s) s0
  let s2 := s1.dropGroups c 0 (2 ^ 26)
  let s3 : State := { s2 with
    ember := { s2.ember with
      overflow := s2.ember.overflow.filter (fun f => f.2 != c), tier3Home := tdel s2.ember.tier3Home c }
    tiles := s2.tiles.map (fun t => (t.1, { t.2 with
      streams := t.2.streams.map (fun p => (p.1, if p.2.ctx = c then p.2.toIdle else p.2)) })) }
  if s.mem.moving.isSome && s3.mem.moving.isNone then s3.nextRetire.retryHost else s3

/-- What the ember engine keeps of a context forgotten: a job image starts with no generation (R299, R300; log 56). -/
def State.forgetGens (s : State) (c : Nat) : State :=
  let s1 := (List.range 4).foldl (fun (s : State) i => s.clearPlane c i) s
  let e := s1.ember
  let s2 : State := { s1 with ember := { e with
    nextGen := tdel e.nextGen c
    tags := (List.range 4).foldl (fun (t : Table (Option Nat)) i => tset t (4 * c + i) none) e.tags
    gens := e.gens.filter (fun q => q.ctx != c)
    extra := e.extra.filter (fun q => q.1 != c)
    pendPolicy := tdel e.pendPolicy c
    imagesSent := e.imagesSent.filter (fun i => i.1 != c)
    methods := e.methods.filter (fun m => m.1 / 65536 != c), lows := e.lows.filter (fun m => m.1 / 65536 != c) } }
  match e.drain with
  | some d => if d.1 = c then s2.endDrain else s2
  | none => s2

/-- Every page of an allocation mapped that JOB_LOAD maps (R187): none where a frame is missing. -/
def State.mapAlloc (s : State) (c : Nat) (a : AllocRec) : Option State :=
  if a.space != 0 || a.touch then some s
  else a.pages.foldl (fun o p => match o with | some (s : State) => s.mapPage c a p | none => none) (some s)

/-- Every allocation mapped in order; the index of the first that has no frame where one is missing. -/
def State.mapAllocs (s : State) (c : Nat) : List AllocRec → Nat → State ⊕ Nat
  | [], _ => .inl s
  | a :: r, i => match s.mapAlloc c a with
    | some s1 => s1.mapAllocs c r (i + 1)
    | none => .inr i

/-! ## JOB_LOAD (R369) -/

/-- The checks of sections 0 to 3 and 10. -/
def State.jobChecks (s : State) (l : List Byte) : List Check :=
  headerChecks l ++ [secInside l 0, secInside l 1, secInside l 2, secInside l 3] ++ s.allocChecks l ++ descChecks l ++ sdtChecks l ++
    s.policyChecks l

/-- The module with an image's allocations placed: the regions of its policy, its frames, and the log's room; the status and
offset of the refusal where one does not fit. -/
def State.placeImage (s : State) (c : Nat) (l : List Byte) : State ⊕ Nat :=
  let cx := { imageCtx l with imageHash := sha256 l, state := (s.ctx c).state }
  let s1 := ((((s.endImage c).forgetGens c).setCtx c cx).setCad c (firstCad cx.policy)).sizeRegions
  if !s1.regionsFit then .inr (secOfs l 10 + 0x10)
  else match s1.mapAllocs c cx.allocs 0 with
    | .inr i => .inr (entryOfs l 0 i)
    | .inl s2 => if s2.logFits then .inl ((s2.listParity.makeRoom (polKeep cx.policy) 0).forwardLog) else .inr (secOfs l 0)

/-- JOB_LOAD: sections 0 to 3 and 10 of an image that passes every check become the context, IDLE, with no step committed
(log 56). -/
def State.jobLoad (s : State) (k : Slot) (c : Nat) (l : List Byte) : State :=
  let st := (s.ctx c).state
  if st = 1 ∨ st = 2 then s.deny k stBUSY
  else if s.factory then s.deny k stNOPERM
  else match firstBad (s.jobChecks l) with
    | some e => s.denyAt k e.1 e.2
    | none => match s.placeImage c l with
      | .inr o => s.denyAt k stNOPERM (o % 2 ^ 32)
      | .inl s1 => (s1.setJobState c 0).ok k

/-- JOB_LOAD. -/
def execJobLoad (slot : Slot) (ctx : BitVec 2) (image : List Byte) (s : State) : Host.Outcome State Fault Refusal :=
  ok (s.jobLoad slot ctx.toNat image)

end Sys2Proof.Machine
end

