-- ==== Sys2Proof/Machine/Ports.lean ====
section
/-! DEFINITION. PORT_CONFIG (R296) and what its items show in the network registers (Tables 11-11 to 11-13). -/

namespace Sys2Proof.Machine

/-- UAD_ID, IP6 and the configuration fields of CH_STATUS follow the settings. -/
def State.showPorts (s : State) : State :=
  let s1 := (s.ioField 0x2000 0 20 ((s.settingOpt 0x0100).getD 0xFFFFF)).ioField 0x2004 8 1 (s.setting 0x0104)
  (List.range 2).foldl (fun (s : State) p =>
    let v := s.setting (0x0130 + p)
    ((s.ioField (chReg p) 8 3 (field v 0 3)).ioField (chReg p) 4 2 (field v 4 2)).ioField (chReg p) 11 2 (field v 6 2)) s1

/-- Items marked "stopped" in Table 11-10. -/
def stoppedItem (id : Nat) : Bool :=
  decide (0x0100 ≤ id ∧ id ≤ 0x0120) || id == 0x0140 || id == 0x0141 || id == 0x0150 || id == 0x0151

/-- The links of a chimney whose configuration changes: handled as failed until they are up again. -/
def State.relink (s : State) (p : Nat) : State :=
  if s.linksAlive then (s.failChimney p).ioField (chReg p) 0 4 0 else s

/-- PORT_CONFIG (R296, R374): an entry outside its own range is named before a rule that joins several. -/
def State.portConfig (s : State) (k : Slot) (es : List (Nat × Nat)) : State :=
  let run := s.anyRunning
  let next := s.withEntries es
  let changed := fun (id : Nat) => s.setting id != next.setting id
  let both := run && changed 0x0130 && changed 0x0131
  let bothAt := if both then indexOf (fun (e : Nat × Nat) => e.1 == 0x0130 || e.1 == 0x0131) es 0 else none
  let bad := s.entriesRefused es (fun id => isPortItem id && !(run && stoppedItem id))
  let alone := indexOf (fun (e : Nat × Nat) => !(isPortItem e.1 && !(run && stoppedItem e.1) && settingRange e.1 e.2)) es 0
  if es.length = 0 ∨ 32 < es.length then s.deny k stNOPERM
  else match (match alone with | some i => some i | none => least (bad.toList ++ bothAt.toList)) with
    | some i => s.denyAt k stNOPERM i
    | none =>
      let s1 := next.showPorts
      let s2 := if es.any (fun e => e.1 == 0x0100) then s1.net.peers.foldl (fun (s : State) p => s.resetPair p.1) s1 else s1
      let s3 := if changed 0x0130 then s2.relink 0 else s2
      let s4 := if changed 0x0131 then s3.relink 1 else s3
      -- another gateway's MAC address is not known, and the frames that waited for an address may leave
      let known := s4.net.macs.filter (fun m => !(changed 0x0104 || changed (0x0118 + 2 * m.1) || changed (0x0119 + 2 * m.1)))
      -- a priority that is named no more is paused no more (R266)
      let held := s4.net.paused.filter (fun q => Nat.testBit (next.setting 0x0142) q.2)
      (({ s4 with net := { s4.net with macs := known, paused := held } } : State).release).askAll.ok k

/-- PORT_CONFIG. -/
def execPortConfig (slot : Slot) (entries : List (BitVec 16 × BitVec 64)) (s : State) : Host.Outcome State Fault Refusal :=
  ok (s.portConfig slot (entryNats entries))

end Sys2Proof.Machine
end

