-- ==== Sys2Proof/Machine/Power.lean ====
section
/-! DEFINITION. The feed, thermal limits, die restart and kindling (R405 to R424, R201, R319, R366, R375). -/

namespace Sys2Proof.Machine

/-! ## Compute dies going down and coming up -/

/-- The compute dies lose power: their state and tier 1 are lost; generations of committed state need their live tier 1 pages, so
none is left for a local restore (R418). The contexts take their images again before a job starts (log 52). With the fireboxes go the
reactions that they were to have. -/
def State.diesDown (s : State) : State :=
  let s1 := s.stopJob.finishJob.dropCartWrites
  { s1 with
    tiles := [], ctxs := s1.ctxs.map (fun p => (p.1, { p.2 with jobLoaded := false, schedLoaded := false }))
    mem := { s1.mem with tier1 := [], pools := [], poison := s1.mem.poison.filter (fun p => p.1 != 0), failRuns := [], window1 := [] }
    sfu := { images := s1.sfu.images }
    ember := { s1.ember with gens := [] }
    flt := { s1.flt with
      migrations := [], reacts := s1.flt.reacts.filter (fun r => !(r / 4096 == 0xA || (r / 4096 == 9 && decide (r % 4096 < 272)))) }
    pwr := { s1.pwr with diesUp := false } }

/-- Whether a counter block stands on a compute die: the fireboxes, the die fabrics and the HBM controllers (R16, Table 15-1). -/
def onDies (b : Nat) : Bool := decide (b < 0x114) || (decide (0x120 ≤ b) && decide (b < 0x128))

/-- Stage 5 for the compute dies: their registers and counters take the Reset values, the crossings to their
domains are empty; the recorded suspects are known; firebox domains run at
TILE_FMAX and at EFF_LVL (log 117). -/
def State.diesPowerUp (s : State) : State :=
  let s1 : State := { s with
    tiles := [], sfu := { images := s.sfu.images }
    clk := { s.clk with
      tileMhz := s.setting 0x0033, tokens := s.clk.tokens.filter (fun p => 284 ≤ p.1), levels := []
      locals := s.clk.locals.filter (fun p => 284 ≤ p.1) }
    obs := { s.obs with
      counters := s.obs.counters.filter (fun p => !onDies (p.1 / 8)), pendCfg := s.obs.pendCfg.filter (fun q => !onDies q.1) }
    pwr := { s.pwr with diesUp := true } }
  let s1 := if s1.effLvl = 0 then s1
    else (List.range 272).foldl (fun (s : State) u => s.setTile u { s.tile u with damper := s.effLvl }) s1
  let s2 := s1.flt.suspects.foldl (fun (s : State) u => s.setTile u { s.tile u with suspect := true }) s1
  s2.flt.badHobs.foldl (fun (s : State) p => s.setTile p.1 { s.tile p.1 with badHobs := (s.tile p.1).badHobs ++ [p.2] }) s2

/-- The end of built-in test: every grate register is +0 and tile-buffer mode is left (R103); a failed slot is SUSPECT (R345, R419). -/
def State.selfTest (s : State) (failed : List Nat) : State :=
  let s1 := (List.range 272).foldl (fun (s : State) u => s.setTile u (s.tile u).endTest) s
  (failed.filter unitOk).foldl (fun (s : State) u => (s.setTile u { s.tile u with testOk := false }).markSuspect u) s1

/-- A logical tile mapped away from a slot that cannot hold it; with no eligible spare a MODULE report from the die's fabric
unit (R419, log 53). -/
def State.mapTile (s : State) (t : Nat) : State :=
  let u := 68 * (t / 64) + t % 64
  if !(s.tile u).suspect && (s.tile u).testOk then s
  else match s.spareOf (t / 64) with
    | some v => ({ s with tileMap := tset s.tileMap t v } : State).noteSpares (t / 64)
    | none => s.moduleFault (0x110 + t / 64)

/-- The logical tiles mapped (R19, R419). -/
def State.mapTiles (s : State) : State :=
  (List.range 256).foldl (fun (s : State) t => s.mapTile t) ({ s with tileMap := [] } : State)

/-- The built-in slots in every store, ACT_GEN 0 (R111). -/
def State.loadStore (s : State) : State := { s with sfu := { images := s.sfu.images, bank0 := builtinBank } }

/-! ## The feed (R409 to R412) -/

/-- A POWER report: its sensor reading. -/
def State.powerReport (s : State) (u : Nat) (reading : W32) : State := s.report (srcId 0xD u) reading

/-- The holdup seal of R319: where every page and the stream state are acknowledged, the commit record is written; else the
writes that the cartridge has accepted may still be acknowledged. The generation in progress is remembered. -/
def State.holdupSeal (s : State) : State :=
  match s.ember.gens.find? (fun r => r.cartOn && !r.cartDone) with
  | none => { s with ember := { s.ember with lastFeed := none } }
  | some r =>
    let s1 : State := { s with ember := { s.ember with lastFeed := some r.gen } }
    if r.cartTodo.isEmpty && r.cartTail == 1 && s.cartUsable then s1.writeRecord r else s1.cartCut r

/-- The feed as a module sees it that waits for 47 V (R409): one that powers down notes whether it stands, one that has not begun to kindle
stays dark without it. -/
def State.feedStands (s : State) (b : Bool) : State :=
  if s.pwr.lost then { s with pwr := { s.pwr with feedBack := b } } else { s with pwr := { s.pwr with dark := !b } }

/-- Feed loss: the POWER report, the seal, then everything but the I/O die, tier 2 and the cartridge goes down; the job ends on
the module. -/
def State.feedLost (s : State) (reading : W32) : State :=
  if s.pwr.lost ∨ s.pwr.dark ∨ s.pwr.stage = 0 then s.feedStands false
  else
    let s1 := (s.powerReport 0x1B0 reading).holdupSeal
    let keep := s1.ember.gens
    let s2 := s1.diesDown
    { s2 with
      ember := { s2.ember with gens := keep }
      ctl := { s2.ctl with linkUp := false, msix := false }
      pwr := { s2.pwr with lost := true, feedBack := false } }

/-- FEED_LOSS. -/
def execFeedLoss (s : State) : Host.Outcome State Fault Refusal := ok (s.feedLost ((Config.freeWord s.free).setWidth 32)).draw

/-- FEED_OUT_OF_RANGE (Table 16-5): a marginal feed is reported once per entry; beyond it the feed is lost. -/
def State.feedBad (s : State) (mv : Nat) : State :=
  if s.pwr.lost ∨ s.pwr.stage = 0 then s.feedStands (decide (47000 ≤ mv ∧ mv ≤ 62000))
  else if 48000 ≤ mv ∧ mv ≤ 60000 then s
  else if 44000 ≤ mv ∧ mv ≤ 62000 then
    if s.pwr.feedHold then s
    else ({ s with pwr := { s.pwr with feedHold := true } } : State).powerReport 0x1B0 (BitVec.ofNat 32 mv)
  else s.feedLost (BitVec.ofNat 32 mv)

/-- FEED_OUT_OF_RANGE. -/
def execFeedOutOfRange (millivolts : Nat) (s : State) : Host.Outcome State Fault Refusal := ok (s.feedBad millivolts)

/-- FEED_RETURN: into the normal range it ends the hold; from 47 V on a dark module may kindle, and one that is powering down
does so after it is dark (R409, R410, R412). -/
def State.feedReturn (s : State) (mv : Nat) : State :=
  if s.pwr.lost then { s with pwr := { s.pwr with feedBack := decide (47000 ≤ mv) } }
  else if s.pwr.dark then { s with pwr := { s.pwr with dark := decide (mv < 47000) } }
  else if 48000 ≤ mv ∧ mv ≤ 60000 then { s with pwr := { s.pwr with feedHold := false } }
  else s

/-- FEED_RETURN. -/
def execFeedReturn (millivolts : Nat) (s : State) : Host.Outcome State Fault Refusal := ok (s.feedReturn millivolts)

/-- The module without power: the flash and the setting store, the cartridge, the latch, the button and PWR_CAP_N keep what they hold
(R201, R345, R365, R366, R375, R412). -/
def State.powerOff (s : State) : State :=
  let c := s.promoteKeys.ctl
  let r : State := State.reset
  ({ r with
    pending := s.pending, out := s.out, free := s.free
    ctl := { r.ctl with stored := c.stored, storeCnt := c.storeCnt, pers := c.pers, key0 := c.key0, key1 := c.key1 }
    flt := { r.flt with
      suspects := s.flt.suspects, badHobs := s.flt.badHobs, slotA := s.flt.slotA, slotB := s.flt.slotB, latchOpen := s.flt.latchOpen, attnDown := s.flt.attnDown }
    mem := { r.mem with retired := s.mem.retired, dead1 := s.mem.dead1, dead2 := s.mem.dead2 }
    ember := { r.ember with cart := if s.ember.cartGone then none else s.ember.cart, lastFeed := s.ember.lastFeed }
    clk := { r.clk with pwrLow := s.clk.pwrLow }
    pwr := { r.pwr with dark := !s.pwr.feedBack } } : State).setBar 0x20020 (s.bar 0x20020 &&& 2)

/-- HOLDUP_END. -/
def execHoldupEnd (s : State) : Host.Outcome State Fault Refusal := ok (if s.pwr.lost then s.powerOff else s)

/-! ## Thermal and coolant limits (R416 to R418) -/

/-- TJ_HIGH: TJ as read; each entry into the row at or above 95 °C is reported. -/
def execTjHigh (tj : Nat) (s : State) : Host.Outcome State Fault Refusal :=
  let s1 : State := { s with pwr := { s.pwr with tj := tj } }
  ok (if s.pwr.tj < 95 ∧ 95 ≤ tj ∧ 1 ≤ s.pwr.stage then s1.powerReport 0x1B2 (BitVec.ofNat 32 tj) else s1)

/-- COOLANT_OUT_OF_RANGE: entered or left; the entry is reported. -/
def execCoolantOutOfRange (bad : Bool) (s : State) : Host.Outcome State Fault Refusal :=
  let s1 : State := { s with pwr := { s.pwr with coolHold := bad } }
  ok (if bad && !s.pwr.coolHold && decide (1 ≤ s.pwr.stage) then
      (s1.powerReport 0x1B3 ((Config.freeWord s.free).setWidth 32)).draw
    else s1)

/-- THERMAL_SHUTDOWN: the entry is reported; compute dies that are up, or that a die restart brings up, power down; the third time within
24 h is a MODULE fault and ends die restarts. -/
def State.thermalDown (s : State) (cause : ShutdownCause) : State :=
  let u := match cause with | .junction => 0x1B2 | _ => 0x1B3
  let s0 := if s.pwr.stage = 0 then s else (s.powerReport u ((Config.freeWord s.free).setWidth 32)).draw
  if !s0.pwr.diesUp && !s0.pwr.restarting then s0
  else
    let s1 := s0.diesDown
    let l := s1.pwr.shutTicks.filter (fun t => decide (s1.clk.ticks < t + 86400 * ticksPerSecond)) ++ [s1.clk.ticks]
    let s2 : State := { s1 with pwr := { s1.pwr with shutTicks := l, restarting := false, noRestart := decide (3 ≤ l.length) } }
    if 3 ≤ l.length then s2.moduleFault u else s2

/-- THERMAL_SHUTDOWN. -/
def execThermalShutdown (cause : ShutdownCause) (s : State) : Host.Outcome State Fault Refusal := ok (s.thermalDown cause)

/-- DIE_RESTART: 10 s of good conditions (R418). -/
def execDieRestart (s : State) : Host.Outcome State Fault Refusal :=
  ok (if !s.pwr.diesUp && s.pwr.stage == 8 && !s.pwr.lost && !s.pwr.noRestart && decide (s.pwr.tj < 85) && !s.pwr.coolHold then
      { s with pwr := { s.pwr with restarting := true, restartUnits := [], restartTier1 := [] } }
    else s)


/-! ## Kindling (R409, R419 to R424, Table 16-7) -/

/-- A stage whose predecessor is the last one completed, on a module whose feed stands. -/
def State.kindleStep (s : State) (n : Nat) (f : State → State) : State :=
  if s.pwr.stage + 1 = n ∧ !s.pwr.lost ∧ !s.pwr.dark ∧ !s.pwr.stuckStage3 then
    let s1 := f s
    { s1 with pwr := { s1.pwr with stage := if s1.pwr.stuckStage3 then s.pwr.stage else n } }
  else s

/-- KINDLING, stage 1: GA is sampled. -/
def execKindling (ga : BitVec 4) (s : State) : Host.Outcome State Fault Refusal :=
  ok (s.kindleStep 1 (fun s => { s with pwr := { s.pwr with ga := ga } }))

/-- KINDLING_CRYSTAL, stage 2: XO_STABLE, and the beat unit starts. -/
def execKindlingCrystal (s : State) : Host.Outcome State Fault Refusal :=
  ok (s.kindleStep 2 (fun s =>
    ({ s with clk := { s.clk with
      started := true, ticks := 0, beatNow := 0, phase := 0, src := 2, locals := [], tokens := [], levels := [] } } : State).orBar 0x40020 0x800))

/-- LAST of every counter space skips ahead (R366). -/
def State.skipCounters (s : State) : State :=
  { s with ctl := { s.ctl with last := (List.range 17).map (fun x => (x, s.persOf x + 4096)) } }

/-- The poker's boot log, whose text the spec does not give (R377, R421). -/
def State.sendBootLog (s : State) : State := s.emit (.uart (Config.pokerText 0xFF []))

/-- Stage 3: the BOOT_SLOT image, or the other with ROLLBACK and a MGMT report due; with neither the module stays here.
Settings, counter spaces and lists are loaded. An emptied slot fails its check. -/
def State.bootMantel (s : State) (okA okB : Bool) : State :=
  let b := s.barBit 0x20020 1
  let good := fun (x : Bool) => (if x then okB else okA) && (s.slotVersion x).isSome
  if !good b && !good (!b) then ({ s with pwr := { s.pwr with stuckStage3 := true } } : State).sendBootLog
  else
    let s1 := if good b then s.runSlot b
      else
        let t := ((s.runSlot (!b)).barField 0x20020 1 1 (bnat (!b))).orBar 0x20020 0x10
        { t with pwr := { t.pwr with mgmtDue := true } }
    ((s1.loadSettings.skipCounters.barField 0x40028 12 4 (s1.loadSettings.setting 0x0030)).showPorts).sendBootLog

/-- KINDLING_MANTEL, stage 3. -/
def execKindlingMantel (okA okB : Bool) (s : State) : Host.Outcome State Fault Refusal :=
  ok (s.kindleStep 3 (fun s => s.bootMantel okA okB))

/-- KINDLING_PCIE, stage 4: the link trains. -/
def execKindlingPcie (s : State) : Host.Outcome State Fault Refusal :=
  ok (s.kindleStep 4 (fun s => { s with ctl := { s.ctl with linkUp := true } }))

/-- KINDLING_POWER_UP, stage 5. -/
def execKindlingPowerUp (s : State) : Host.Outcome State Fault Refusal := ok (s.kindleStep 5 (fun s => s.diesPowerUp))

/-- KINDLING_SELF_TEST, stage 6: built-in test, and memory channels that fail training, handled under R206 (R420). -/
def State.kindleTest (s : State) (failed ch1 ch2 : List Nat) : State :=
  let s1 := s.selfTest failed
  let s2 := (ch1.filter (fun c => decide (c < 256))).foldl (fun (s : State) c => (s.channelOut 0 c).moduleFault (0x120 + c / 32)) s1
  (ch2.filter (fun c => decide (c < 16))).foldl (fun (s : State) c => (s.channelOut 1 c).moduleFault (0x130 + c)) s2

/-- DIE_RESTART_COMPLETE: stages 5 and 6 and the tile mapping and store load of stage 7, for the compute dies alone; KINDLING_SELF_TEST
has said what failed stage 6 of the restart (log 68). -/
def execDieRestartComplete (s : State) : Host.Outcome State Fault Refusal :=
  ok (if s.pwr.restarting && !s.pwr.lost then
      (((({ s with pwr := { s.pwr with restarting := false } } : State).diesPowerUp).kindleTest s.pwr.restartUnits s.pwr.restartTier1 []).mapTiles).loadStore
    else s)

/-- KINDLING_SELF_TEST; in a die restart it is stage 6 of that, whose outcome DIE_RESTART_COMPLETE takes (R418, log 68). -/
def execKindlingSelfTest (failedUnits failedTier1 failedTier2 : List Nat) (s : State) : Host.Outcome State Fault Refusal :=
  ok (if s.pwr.restarting && s.pwr.stage == 8 && !s.pwr.lost then
      { s with pwr := { s.pwr with restartUnits := failedUnits, restartTier1 := failedTier1 } }
    else s.kindleStep 6 (fun s => s.kindleTest failedUnits failedTier1 failedTier2))

/-- HOLDUP_SEAL: HEAD is the commit record of the generation that was in progress at the last feed loss (R319, R423). -/
def State.showHoldup (s : State) : State :=
  let sealed := match s.ember.lastFeed, s.ember.cart with
    | some g, some k => match k.log[k.head - 1]? with
      | some r => k.head != 0 && r.kind != 2 && r.gen.toNat == g
      | none => false
    | _, _ => false
  s.ioField 0x3000 13 1 (bnat sealed)

/-- The bases of the page maps set (R190). -/
def State.placeMaps (s : State) : State := { s with mem := { s.mem with pmBase := pmBases.1, pmShd := pmBases.2 } }

/-- KINDLING_LOAD, stage 7. -/
def execKindlingLoad (s : State) : Host.Outcome State Fault Refusal :=
  ok (s.kindleStep 7 (fun s => (s.placeMaps.loadStore.mapTiles.readHeader).showHoldup))

/-- The truncate record that a command before stage 8 left to be written (R323, R423). -/
def State.lateTruncate (s : State) : State :=
  match s.ember.adoptDue with
  | none => s
  | some (c, g, base) =>
    let s1 : State := { s with ember := { s.ember with adoptDue := none }, pwr := { s.pwr with stage := 8 } }
    s1.truncateFor c g base true

/-- Stage 8: the truncate record and the MGMT report that were due; a PWR_CAP_N that stands low acts from now on. -/
def State.ready (s : State) : State :=
  let s0 := s.lateTruncate
  let s1 := if s0.pwr.mgmtDue then ({ s0 with pwr := { s0.pwr with mgmtDue := false } } : State).mgmtReport 0x170 else s0
  if s1.clk.pwrLow then ({ s1 with clk := { s1.clk with pwrLow := false }, pwr := { s1.pwr with stage := 8 } } : State).capFall else s1

/-- KINDLING_READY. -/
def execKindlingReady (s : State) : Host.Outcome State Fault Refusal := ok (s.kindleStep 8 (fun s => s.ready))

end Sys2Proof.Machine
end

