-- ==== Sys2Proof/Machine/Status.lean ====
section
/-! DEFINITION. The register words as they read: the BAR0 map (R355, R384, R387, Tables 09-4, 10-7, 13-9, 14-3, 14-14, 15-3),
the ember engine's status and the status words of a firebox, whose fields mirror other state. -/

namespace Sys2Proof.Machine

/-! ## Fault pair, lamp and panel (R338, R350, R376) -/

/-- Whether FAULT_P and FAULT_N show fault (R338, R421). -/
def State.pairFault (s : State) : Bool :=
  decide (s.pwr.stage < 8) || (s.faultSet && decide (s.setting 0x0042 ≤ s.maxClass)) || s.modFlt

/-- FAULT_P and FAULT_N, high where true (Table 13-4): both are low without the always-on rail, which comes up in stage 1 (R415). -/
def State.faultPins (s : State) : Bool × Bool :=
  if s.pwr.stage = 0 then (false, false) else (!s.pairFault, s.pairFault)

/-- GREEN of PANEL_STATUS. -/
def State.lampGreen (s : State) : Nat :=
  if s.pwr.stage < 8 then 2 else if s.pairFault || s.barBit 0x20000 1 then 0 else 1

/-- AMBER. -/
def State.lampAmber (s : State) : Nat := if s.modFlt || s.pwr.stuckStage3 then 2 else if s.faultSet then 1 else 0

/-- BLUE: the highest row of Table 13-8 that applies. How long the three flashes after a press are seen is open (log 60). -/
def State.lampBlue (s : State) : Nat :=
  if s.flt.flashes && Config.freeBool s.free then 6
  else if s.barBit 0x20000 1 then 4
  else if s.barBit 0x20000 0 then 5
  else if s.ember.cartState = 5 ∨ (s.flt.latchOpen ∧ s.ember.cartState ≠ 6) then 3
  else if s.ember.cartState = 6 then 2
  else if s.ember.cartState = 2 then 1
  else 0

/-- PANEL_STATUS (Table 14-15). -/
def State.panelStatus (s : State) : W32 :=
  s.bar 0x50000 &&& 3 ||| BitVec.ofNat 32 (s.lampBlue * 2 ^ 16 + s.lampAmber * 2 ^ 14 + s.lampGreen * 2 ^ 12 + s.ember.cartState * 2 ^ 8 +
    bnat s.ember.cart.isSome * 2 ^ 7 + bnat s.flt.latchOpen * 2 ^ 6 + bnat s.flt.attnDown * 2 ^ 5)

/-- FLT_STATUS (Table 13-10). -/
def State.fltStatus (s : State) : W32 :=
  let w := setField (s.bar 0x20000) 16 4 ((s.bar 0x20004).toNat / 4096)
  putBit (putBit (putBit w 14 s.pairFault) 10 s.quietRuns) 9 s.reacting

/-- SPARE_STATUS. -/
def State.spareStatus (s : State) : W32 :=
  BitVec.ofNat 32 ((List.range 4).foldl (fun n k => n + s.sparesLeft k * 16 ^ k) 0)

/-! ## Schedule (Table 10-8) -/

/-- SCHED_STATUS. -/
def State.schedStatus (s : State) : W32 :=
  let w := setField (setField (s.bar 0x40100) 2 2 s.sched.ctx) 0 2 (s.ctx s.sched.ctx).state
  putBit (putBit (putBit (putBit w 13 (w.getLsbD 13 || s.lateNow)) 11 (s.sched.running && s.sched.proExec && decide ((s.sched.now : Int) < s.sched.base))) 10
    (s.sched.gateKnown && (s.sched.gateNf || s.sched.gateFail))) 9 s.sched.gateKnown

/-- STEP_BEAT. -/
def State.stepBeatWord (s : State) : W32 := BitVec.ofNat 32 ((s.stepBeat % 65536).toNat)

/-! ## Counter window (R384, R387) -/

/-- A half of a counter record. -/
def recordHalf (r : W64) (o : Nat) : W32 := if o % 8 < 4 then r.setWidth 32 else (r >>> 32).setWidth 32

/-- The window from 0x0003_1000: records by block, by logical tile, and the user alias. -/
def State.counterWindow (s : State) (off : Nat) : W32 :=
  if off < 0x38000 then
    let n := (off - 0x31000) / 64
    if blockOk n && decide (n < 0x1C0) then recordHalf (s.record (ctrKey n (off / 8 % 8))) off else 0
  else
    let r := s.record (ctrKey (s.unitOf (off / 64 % 256)) (off / 8 % 8))
    if off < 0x3C000 ∨ r.getLsbD 52 then recordHalf r off else 0

/-! ## The BAR0 map (Table 14-1) -/

/-- Bit n set where mailbox n is in a state. -/
def State.mbBits (s : State) (st : Nat) : W32 :=
  BitVec.ofNat 32 ((List.range 16).foldl (fun n i => n + bnat (s.mbState i == st) * 2 ^ i) 0)

/-- A word of the cartridge area: the life record as last updated and the header; an absent cartridge's until a header is read. -/
def State.cartArea (s : State) (off : Nat) : W32 :=
  if off < 0x50040 then
    if s.ember.cart.isSome && s.ember.cartRead then s.bar off else BitVec.ofNat 32 (leAt (lifeBytes none) (off - 0x50020) 4)
  else match s.ember.cart with
    | some k => if s.ember.cartRead then BitVec.ofNat 32 (leAt (headerBytes k) (off - 0x50040) 4) else 0
    | none => 0

/-- A 32-bit word of BAR0 as it reads; an offset that no table assigns reads 0 (R355). A HI word reads its latch. -/
def State.bar0View (s : State) (off : Nat) : W32 :=
  if off < 0x10000 then BitVec.ofNat 32 (leNat (mreadN s.ctl.mbox off 4))
  else if off = 0x10004 then s.mbBits 2
  else if off = 0x10008 then s.mbBits 1
  else if off = 0x10014 then putBit (s.bar off) 0 ((getSlot s.ctl.inflight .sideband).isSome)
  else if off = 0x20000 then s.fltStatus
  else if off = 0x20010 then BitVec.ofNat 32 s.flt.firstBeat
  else if off = 0x20024 then s.spareStatus
  else if off = 0x30008 then (if s.obs.pubBeat.isSome then 0xFFFFFFFF else BitVec.ofNat 32 s.obs.sampleBeat)
  else if off = 0x30010 then BitVec.ofNat 32 s.obs.freezeBeat
  else if off = 0x30028 then BitVec.ofNat 32 s.obs.wptr
  else if off = 0x30048 then BitVec.ofNat 32 s.obs.gsBeat
  else if 0x31000 ≤ off ∧ off < 0x40000 then s.counterWindow off
  else if off = 0x40000 then BitVec.ofNat 32 s.clk.beatNow
  else if off = 0x40008 then BitVec.ofNat 32 s.clk.phase
  else if off = 0x40100 then s.schedStatus
  else if off = 0x40104 then BitVec.ofNat 32 (s.ctx s.sched.ctx).stepCommitted
  else if off = 0x4010C then BitVec.ofNat 32 s.sched.now
  else if off = 0x40114 then s.stepBeatWord
  else if off = 0x50000 then s.panelStatus
  else if 0x50020 ≤ off ∧ off < 0x50074 then s.cartArea off
  else s.bar off

/-- What a read of a LO word latches: the HI word's offset and its value. -/
def State.latchOf (s : State) (off : Nat) : Option (Nat × Nat) :=
  if off = 0x20010 then some (0x20014, s.flt.firstBeat / 2 ^ 32)
  else if off = 0x30008 then some (0x3000C, s.obs.sampleBeat / 2 ^ 32)
  else if off = 0x30010 then some (0x30014, s.obs.freezeBeat / 2 ^ 32)
  else if off = 0x30028 then some (0x3002C, s.obs.wptr / 2 ^ 32)
  else if off = 0x30048 then some (0x3004C, s.obs.gsBeat / 2 ^ 32)
  else if off = 0x40000 then some (0x40004, s.clk.beatNow / 2 ^ 32)
  else if off = 0x40104 then some (0x40108, (s.ctx s.sched.ctx).stepCommitted / 2 ^ 32 % 65536)
  else if off = 0x4010C then some (0x40110, s.sched.now / 2 ^ 32)
  else none

/-- The state after a 32-bit read of BAR0: a LO word latches its HI word (Tables 09-4, 10-7, 13-9, 15-3). -/
def State.afterRead (s : State) (off : Nat) : State :=
  match s.latchOf off with
  | some (h, v) => s.setBar h (BitVec.ofNat 32 v)
  | none => s

/-! ## Ember engine (Tables 12-11, 12-12) -/

/-- EMB_STATUS; a restore takes one step here, so RESTORE_ACT reads 0. -/
def State.embStatus (s : State) : W32 :=
  let w := setField (s.ior 0x3000) 21 3 s.ember.cartState
  let degraded := (s.coFed && !s.cartUsable) || (s.ember.cartState == 2 && s.anyRunning)
  putBit (putBit (putBit (putBit w 20 s.ember.resync) 19 degraded) 16 (s.ember.gens.any (fun r => !r.isSealed))) 12 s.ember.drain.isSome

/-- A word of Table 12-11. -/
def State.embWord (s : State) (off : Nat) : W32 :=
  if off = 0x3000 then s.embStatus
  else if off = 0x301C then BitVec.ofNat 32 s.ember.copies.length
  else s.ior off

/-! ## Firebox words (Tables 03-9, 05-8, 05-9, 07-6, 07-7, 08-6) -/

/-- HOB_STATUS: the stored sticky and stall bits with INFLIGHT, SUSPECT, STAT_STALL, MODE and BUSY; a pass that a second mismatch aborted
is in flight no longer (R76). DAMP shows one clock cycle, which no command stands for: `damp` where a damper skips cycles (log 27). -/
def Tile.hobStatus (t : Tile) (damp : Bool) (h : Nat) : W32 :=
  let v := t.hob h
  let n := (v.fly.filter (fun f => !f.aborted)).length
  let w := setField (t.reg (hobReg h)) 16 3 n
  putBit (putBit (putBit (putBit (putBit w 12 (t.badHobs.contains h)) 6 v.preloading) 4 (damp && t.damper != 0)) 1
    (v.lastMode.getD false && n != 0)) 0 (n != 0)

/-- The first grate instruction on the stoker's path; past STEP the path goes on after the prologue. Where it divides before any, at a
CLASS or a gate not known, that word stands for it (log 107). -/
def nextGrate (cx : Ctx) (l : List W64) (gate : Option Bool) (k : Stoker) : Nat :=
  let look := fun (k : Stoker) =>
    let ks := Stoker.path cx l gate ((l.length + 2) * (l.length + 2)) k
    let at_ := fun (j : Stoker) => wordOp (nth 0 l j.pc)
    match ks.find? (fun j => decide (j.pc < l.length ∧ at_ j ≤ 0x8F)), ks.getLast? with
    | some j, _ => some (some j.pc)
    | none, some j => if at_ j = 0xD5 ∨ at_ j = 0xD3 then some (some j.pc) else some none
    | none, none => none
  match look k with
  | some (some i) => i
  | _ => match look { k with pc := k.bodyStart, loops := [], recomp := none } with
    | some (some i) => i
    | _ => 0

/-- GR_PC of a logical tile: the next grate instruction (R106). -/
def State.grPc (s : State) (t : Nat) : W32 :=
  let cx := s.ctx s.sched.ctx
  BitVec.ofNat 32 (nextGrate cx (cx.program t) s.gateSeen (s.ltile t).stoker)

/-- SFU_STATUS of a firebox: its sticky bits and the store's state (R131). -/
def State.sfuStatus (s : State) (t : Tile) : W32 :=
  putBit (putBit (putBit (putBit (t.reg 0x0340) 3 s.sfu.checkRun) 2 s.sfu.swapArmed) 1 s.sfu.shdValid) 0 s.sfu.actBank

/-- SFU_GEN. -/
def State.sfuGen (s : State) : W32 := BitVec.ofNat 32 (s.sfu.shdGen.toNat * 65536 + s.sfu.actGen.toNat)

/-- BLW_STATUS, with LOOKAHEAD: the stream words acted on ahead of the stoker, which the bellows do only for a side lane (R163,
log 135). -/
def Tile.blwStatus (t : Tile) : W32 := setField (putBit (t.reg 0x0380) 2 t.ring.active) 8 8 t.stoker.ahead.length

/-- STR_STATUS: flue units that hold entries, the re-arm slot, the stall and STATE with the sticky bits. -/
def Stream.status (st : Stream) (held : Nat) : W32 :=
  let w := setField (setField st.sticky 16 8 held) 0 3 st.state
  putBit (putBit w 8 st.slot.isSome) 3 st.stall

/-- XC_STATUS: the valid entries of the cached groups (those with V = 1, log 137), the running job's context, an invalidation, an access held under R202. -/
def State.xcStatus (s : State) (t : Tile) : W32 :=
  let n := t.xc.groups.foldl (fun n g => n + (g.entries.filter eV).length) 0
  putBit (putBit (setField (setField (t.reg 0x0800) 16 11 n) 4 2 s.sched.ctx) 3 s.mem.inval.isSome) 2
    (t.streams.any (fun p => p.2.mov.isSome && p.2.state == 1))

/-- A word of a stream's block (Table 07-5), with its cursor as STR_CURSOR shows it (R177). -/
def Stream.word (st : Stream) (held cursor off : Nat) : W32 :=
  if off = 0x00 then st.status held
  else if off = 0x04 then BitVec.ofNat 32 cursor
  else if off = 0x08 then BitVec.ofNat 32 (cursor / 2 ^ 32 % 65536)
  else if off = 0x0C then st.fault
  else if off = 0x10 then BitVec.ofNat 32 st.faultDva
  else if off = 0x14 then BitVec.ofNat 32 (st.faultDva / 2 ^ 32 % 1024)
  else if off = 0x18 then st.cntPass
  else if off = 0x1C then st.cntIdx
  else 0

/-- A word of a firebox's status block as it reads (Tables 02-4, 03-8, 04-7, 05-7, 07-5, 08-5). -/
def State.blockWord (s : State) (u : Tile) (damp : Bool) (pc : W32) (off : Nat) : W32 :=
  if off = hobReg 0 then u.hobStatus damp 0
  else if off = hobReg 1 then u.hobStatus damp 1
  else if off = hobReg 2 then u.hobStatus damp 2
  else if off = 0x0300 then u.grateStatus
  else if off = 0x0308 then pc
  else if off = 0x0340 then s.sfuStatus u
  else if off = 0x0344 then s.sfuGen
  else if off = 0x0354 then s.sfu.cntSwap
  else if off = 0x0380 then u.blwStatus
  else if 0x0400 ≤ off ∧ off < 0x0800 then
    let st := tget {} u.streams ((off - 0x0400) / 32)
    st.word (st.used (sdFlueFmt (s.ctx st.ctx) st.sd)) (cursorOf (s.ctx st.ctx) st.sd st.cursorPos) (off % 32)
  else if off = 0x0800 then s.xcStatus u
  else u.reg off

/-- A word of the status block of a logical tile's firebox. -/
def State.fireboxWord (s : State) (t off : Nat) : W32 := s.blockWord (s.ltile t) (Config.freeBool s.free) (s.grPc t) off

end Sys2Proof.Machine
end

