-- ==== Sys2Proof/Machine/Control.lean ====
section
/-! DEFINITION. The host's accesses to BAR0, doorbells and replies (R355 to R361), register writes by host and firmware (R10 to
R12), DEV_INFO, settings and key commands, the sideband and the poker (R372, R377), and the PCIe link (R405, R422). -/

namespace Sys2Proof.Machine

/-! ## Host access errors (R356, R333) -/

/-- A HOST report from the PCIe controller; its information word names a BAR2 offset, which these have not (log 21). -/
def State.hostReport (s : State) : State := (s.report (srcId 2 0x160) ((Config.freeWord s.free).setWidth 32)).draw

/-- A BAR0 access that R356 turns away: a write is dropped, a read completes with 0xFF bytes, and a HOST report. -/
def State.badAccess (s : State) (isRead : Bool) (size : Nat) : State :=
  let s1 := s.hostReport
  if isRead then s1.emit (.readData (List.replicate size 0xFF)) else s1

/-- Whether a size and offset are an aligned 32-bit or 64-bit access. -/
def accessOk (off size : Nat) : Bool := (size == 4 || size == 8) && off % size == 0

/-- BAR0_BAD_ACCESS. -/
def execBar0BadAccess (isRead : Bool) (off : BitVec 19) (size : Nat) (s : State) : Host.Outcome State Fault Refusal :=
  ok (if s.hostUp && !accessOk off.toNat size then s.badAccess isRead size else s)

/-! ## Mailboxes and doorbells (R357, R358) -/

/-- The request area of a mailbox. -/
def State.requestArea (s : State) (n : Nat) : List Byte := mreadN s.ctl.mbox (0x1000 * n) 0xC00

/-- A ring of one mailbox: posted where it is IDLE or DONE, lost where it is BUSY. -/
def State.ring (s : State) (n : Nat) : State :=
  if s.mbState n = 1 then s.orBar 0x10014 2
  else (s.setMb n 1).post (.mailbox (BitVec.ofNat 4 n)) (s.requestArea n)

/-- DB_RING written: every bit that is 1 rings its mailbox. -/
def State.ringAll (s : State) (bits : Nat) : State :=
  (List.range 16).foldl (fun (s : State) n => if Nat.testBit bits n then s.ring n else s) s

/-- DB_RING. -/
def execDbRing (bits : BitVec 16) (s : State) : Host.Outcome State Fault Refusal :=
  ok (if s.hostUp then s.ringAll bits.toNat else s)

/-- MB_DONE written: every bit that is 1 returns a DONE mailbox to IDLE. -/
def State.clearDone (s : State) (bits : Nat) : State :=
  (List.range 16).foldl (fun (s : State) n => if Nat.testBit bits n && s.mbState n == 2 then s.setMb n 0 else s) s

/-- MB_DONE_CLEAR. -/
def execMbDoneClear (bits : BitVec 16) (s : State) : Host.Outcome State Fault Refusal :=
  ok (if s.hostUp then s.clearDone bits.toNat else s)

/-- A write to the 4 KiB of a mailbox: the request area takes it unless the mailbox is BUSY; the response area is RO. -/
def State.writeMailbox (s : State) (n off : Nat) (data : List Byte) : State :=
  if 0xC00 ≤ off then s
  else if s.mbState n = 1 then (s.orBar 0x10014 4).bumpBar 0x10024 1
  else { s with ctl := { s.ctl with mbox := mwrite s.ctl.mbox (0x1000 * n + off) data } }

/-- MAILBOX_REQUEST_WRITE: an aligned 32-bit or 64-bit write; any other is dropped under R356. -/
def execMailboxRequestWrite (mb : BitVec 4) (off : BitVec 12) (data : List Byte) (s : State) : Host.Outcome State Fault Refusal :=
  ok (if !s.hostUp then s
    else if accessOk off.toNat data.length then s.writeMailbox mb.toNat off.toNat data
    else s.badAccess false data.length)

/-! ## Register writes (R10 to R12, R21) -/

/-- The W1C bits of the BAR0 words (Tables 09-5, 09-6, 10-8, 13-10, 13-11, 14-3, 14-4, 14-15, 15-5, 15-8). -/
def barW1c (off : Nat) : W32 :=
  if off = 0x1000C then 0x3F
  else if off = 0x10014 then 0xE
  else if off = 0x20000 then 0x800
  else if off = 0x20020 then 0x10
  else if off = 0x30000 then 6
  else if off = 0x30020 then 0x38
  else if off = 0x40020 then 0x1100
  else if off = 0x40028 then 2
  else if off = 0x40100 then 0xE000
  else if off = 0x50000 then 3
  else 0

/-- A 32-bit host write to BAR0: by the field's access code; RO words and unassigned offsets ignore it. -/
def State.writeBar0 (s : State) (off : Nat) (v : W32) : State :=
  if off < 0x10000 then s.writeMailbox (off / 0x1000) (off % 0x1000) (leBytes 4 v.toNat)
  else if off = 0x10000 then s.ringAll (v.toNat % 65536)
  else if off = 0x10004 then s.clearDone (v.toNat % 65536)
  else if off = 0x10010 then s.setBar 0x10010 (v &&& 0x3FFFFF)
  else if barW1c off = 0 then s
  else if off = 0x40100 ∧ v.getLsbD 13 then (s.latchLate.andnBar off (v &&& barW1c off)).forgetNf
  else s.andnBar off (v &&& barW1c off)

/-- The W1C bits of a firebox's stored words (Tables 02-4, 03-9, 03-10, 04-8, 05-8, 08-6). NF of NUM_STATUS is one of them: Table 02-4
gives it the access code W1C, though R108 clears NF at the step boundary only; a firmware write clears it here (log 138). -/
def tileW1c (off : Nat) : W32 :=
  if off = 0x0100 then 0x1BF
  else if off = 0x0200 ∨ off = 0x0240 ∨ off = 0x0280 then 0xE00
  else if off = 0x020C ∨ off = 0x024C ∨ off = 0x028C then 0x80000000
  else if off = 0x0300 then 0xF30
  else if off = 0x0340 then 0xF00
  else if off = 0x0800 then 2
  else 0

/-- The stream whose STR_STATUS stands at an offset. -/
def statusStream (off : Nat) : Option Nat := if 0x0400 ≤ off ∧ off < 0x0800 ∧ off % 32 = 0 then some ((off - 0x0400) / 32) else none

/-- A 32-bit firmware write to a firebox's status block. HOB_CFG with a reserved TOL_SHIFT leaves the register unchanged (R12);
TBUF_REQ changes the mode as its own commands do. -/
def Tile.writeReg (t : Tile) (off : Nat) (v : W32) : Tile :=
  if off = 0x02C0 then
    (if 8 ≤ getField v 8 5 ∧ getField v 8 5 ≤ 16 then t.setReg 0x02C0 (v &&& 0x1F01) else t)
  else if off = 0x0304 then
    (let t1 := t.setReg 0x0304 ((t.reg 0x0304 &&& 0x100) ||| (v &&& 3))
     if v.getLsbD 8 = (t1.reg 0x0304).getLsbD 8 then t1 else t1.tbuf (v.getLsbD 8))
  else match statusStream off with
    | some n => t.setStream n { t.stream n with sticky := (t.stream n).sticky &&& ~~~(v &&& 0xE00) }
    | none => if tileW1c off = 0 then t else t.setReg off (t.reg off &&& ~~~(v &&& tileW1c off))

/-- The W1C bits of the I/O die's words (Tables 09-7, 11-12, 11-13, 12-12). -/
def ioW1c (off : Nat) : W32 :=
  if off = 0x2004 then 0xF4
  else if off = 0x2008 ∨ off = 0x200C then 0xC000
  else if off = 0x3000 then 0xC800
  else if 0x1000 ≤ off ∧ off < 0x1000 + 8 * 327 ∧ off % 8 = 0 then 0x800
  else 0

/-- A 32-bit firmware write to the I/O die's blocks. In CLK_CTL a new SEL, or one with FORCE, starts a switch, and
DOMAIN_HOLD is written (R221 to R223); the reserved SEL 3 leaves the register unchanged (R12). -/
def State.writeIo (s : State) (off : Nat) (v : W32) : State :=
  if ioW1c off = 0 then s
  else if ioW1c off = 0x800 then
    if getField v 0 2 = 3 then s
    else
      let s1 := (s.andnIo off (v &&& 0x800)).ioField off 10 1 (bnat (v.getLsbD 10))
      let d := (off - 0x1000) / 8
      if v.getLsbD 9 then s1.forceSel d (getField v 0 2)
      else if getField v 0 2 ≠ getField (s1.ior off) 0 2 then s1.writeSel d (getField v 0 2) else s1
  else s.andnIo off (v &&& ioW1c off)

/-- A 64-bit write acts on two words. -/
def twoWords {α : Type} (f : α → Nat → W32 → α) (x : α) (off : Nat) (v : BitVec 64) (wide : Bool) : α :=
  let x1 := f x off (v.setWidth 32)
  if wide then f x1 (off + 4) ((v >>> 32).setWidth 32) else x1

/-- REGISTER_WRITE: by the host to BAR0 while it is served, by firmware to a firebox that works (its die has power, its domain a clock,
no snap stop halts it) or to the I/O die. A
misaligned BAR0 write is dropped with its report; the firmware blocks have no misaligned access. -/
def execRegisterWrite (space : RegSpace) (off : Nat) (value : BitVec 64) (wide : Bool) (s : State) : Host.Outcome State Fault Refusal :=
  let aligned := accessOk off (if wide then 8 else 4)
  match space with
  | .bar0 =>
    ok (if !s.hostUp || decide (0x80000 ≤ off) then s
      else if aligned && decide (off < 0x10000) then s.writeMailbox (off / 0x1000) (off % 0x1000) (leBytes (if wide then 8 else 4) value.toNat)
      else if aligned then twoWords State.writeBar0 s off value wide
      else s.badAccess false (if wide then 8 else 4))
  | .firebox u =>
    guardPart (unitOk u) .noSuchUnit
      (if aligned && s.works u then s.setTile u (twoWords Tile.writeReg (s.tile u) off value wide) else s)
  | .ioDie => ok (if aligned && decide (1 ≤ s.pwr.stage) then twoWords State.writeIo s off value wide else s)

/-! ## Reads that latch -/

/-- A host read of a LO word: its value, and the latch of its HI word. -/
def State.readLo (s : State) (off : Nat) : State :=
  if s.hostUp then (s.afterRead off).emit (.readData (leBytes 4 (s.bar0View off).toNat)) else s

/-- BEAT_NOW_LO_READ. -/
def execBeatNowLoRead (s : State) : Host.Outcome State Fault Refusal := ok (s.readLo 0x40000)
/-- STEP_LO_READ. -/
def execStepLoRead (s : State) : Host.Outcome State Fault Refusal := ok (s.readLo 0x40104)
/-- SCHED_LO_READ. -/
def execSchedLoRead (s : State) : Host.Outcome State Fault Refusal := ok (s.readLo 0x4010C)
/-- FLT_FIRST_BEAT_LO_READ. -/
def execFltFirstBeatLoRead (s : State) : Host.Outcome State Fault Refusal := ok (s.readLo 0x20010)
/-- CC_SAMPLE_BEAT_LO_READ. -/
def execCcSampleBeatLoRead (s : State) : Host.Outcome State Fault Refusal := ok (s.readLo 0x30008)
/-- CC_FREEZE_BEAT_LO_READ. -/
def execCcFreezeBeatLoRead (s : State) : Host.Outcome State Fault Refusal := ok (s.readLo 0x30010)
/-- TR_WPTR_LO_READ. -/
def execTrWptrLoRead (s : State) : Host.Outcome State Fault Refusal := ok (s.readLo 0x30028)
/-- GS_BEAT_LO_READ. -/
def execGsBeatLoRead (s : State) : Host.Outcome State Fault Refusal := ok (s.readLo 0x30048)

/-! ## The end of a command (R359) -/

/-- What ends a poker answer, and the prompt after it (log 61). -/
def lineEnd : List Byte := [13, 10]

/-- The module's SMBus address, and its I3C static address (R406). -/
def State.sidebandAddr (s : State) : Nat := 0x40 + s.pwr.ga.toNat

/-- The reply sent to its master. A mailbox: the response area, the data above 992 bytes at OUT_ADDR, MB_DONE, the vector, in this
order. The sideband: a response message. The poker: the response area in hex, and the prompt. -/
def State.sendReply (s : State) (k : Slot) (f : Inflight) (r : Reply) : State :=
  let s1 : State := { s with ctl := { s.ctl with inflight := delSlot s.ctl.inflight k, results := delSlot s.ctl.results k } }
  match k with
  | .mailbox n =>
    let s2 : State := { s1 with ctl := { s1.ctl with mbox := mwrite s1.ctl.mbox (0x1000 * n.toNat + 0xC00) (response f r) } }
    let s3 := if 992 < r.data.length then s2.emit (.hostWrite f.outAddr r.data) else s2
    (s3.setMb n.toNat 2).sendMsix n.toNat
  | .sideband => s1.emit (.sideband s.sidebandAddr (response f r))
  | .poker => s1.emit (.uart (hexText (response f r) ++ lineEnd ++ prompt))

/-- COMMAND_REPLY: the outcome that waits for a slot is sent. A pairing command that still waits has run out of its second
(log 38). -/
def State.commandReply (s : State) (k : Slot) : State :=
  let s1 := s.pairExpires k
  match getSlot s1.ctl.inflight k, getSlot s1.ctl.results k with
  | some f, some r => s1.sendReply k f r
  | _, _ => s1

/-- COMMAND_REPLY. -/
def execCommandReply (slot : Slot) (s : State) : Host.Outcome State Fault Refusal := ok (s.commandReply slot)

/-! ## DEV_INFO (R368, Table 14-10) -/

/-- Frames of tier 1 or 2 left for jobs, on the stacks or packages in service, below the reserve (R186, R206). -/
def State.freeFrames (s : State) (tier : Nat) : Nat :=
  let first := if tier = 0 then 0 else (s.regionFrames + 15) / 16
  let alive := (List.range (banksOf tier)).filter (fun b =>
    if tier = 0 then !s.mem.dead1.any (fun c => c / 32 == b) else !s.mem.dead2.contains b)
  let gone := ((s.usedOf tier) ++ (s.mem.retired.filter (fun e => getField e 30 2 == tier)).map (fun e => getField e 0 27)).eraseDups
  let lost := gone.filter (fun f => alive.contains (f % banksOf tier) && decide (first ≤ f / banksOf tier ∧ f / banksOf tier < reserveFrom tier))
  alive.length * (reserveFrom tier - first) - lost.length

/-- Frames of tier 3 left for jobs: neither reserved nor needed by the log, which keeps three times the protected set (R189). -/
def State.freeOverflow (s : State) : Nat := s.tierFrames 2 - s.ember.overflow.length - s.logNeed

/-- Retired frames of a tier, as the retirement list records them. -/
def State.retiredFrames (s : State) (tier : Nat) : Nat := (s.mem.retired.filter (fun e => getField e 30 2 == tier)).length

/-- A counter register summed over the logical tiles. -/
def State.sumReg (s : State) (off : Nat) : Nat := (List.range 256).foldl (fun n t => n + ((s.ltile t).reg off).toNat) 0

/-- The counter registers of page 6: translation, hobs, grate, SFU, bellows. -/
def pageSixRegs : List Nat :=
  [0x0804, 0x0808, 0x080C, 0x0810] ++ [0, 1, 2].flatMap (fun h => [0x10, 0x14, 0x18, 0x1C].map (fun o => hobReg h + o)) ++
  [0x0310, 0x0314, 0x0318, 0x0348, 0x034C, 0x0350, 0x0384, 0x0388, 0x038C, 0x0390, 0x0394]

/-- The 272-bit suspect map, bit u for slot u. -/
def State.suspectMap (s : State) : Nat := s.flt.suspects.foldl (fun n u => n ||| 2 ^ u) 0

/-- The data of a page; none for a reserved one. The spec gives no byte layout of pages 0, 2, 6 and the end of page 3. In page 1
a pair is the die, then the slot; pages 4 and 5 hold their tables' words in offset order (log 62). -/
def State.infoPage (s : State) (page : Nat) : Option (List Byte) :=
  let w := fun (n : Nat) => BitVec.ofNat 64 n
  if page = 0 then
    some (Config.infoPage 0 [Config.serial, ((s.slotVersion false).getD 0).setWidth 64, ((s.slotVersion true).getD 0).setWidth 64, 6])
  else if page = 1 then
    some ((List.range 256).flatMap (fun t => [BitVec.ofNat 8 (s.unitOf t / 68), BitVec.ofNat 8 (s.unitOf t % 68)]) ++
      leBytes 4 s.spareStatus.toNat ++ leBytes 34 s.suspectMap)
  else if page = 2 then
    some (Config.infoPage 2 [w (s.freeFrames 0), w (s.freeFrames 1), w s.freeOverflow, w (s.retiredFrames 0), w (s.retiredFrames 1),
      s.ctl.storeCnt.setWidth 64])
  else if page = 3 then
    some ((List.range 21).flatMap (fun i => leBytes 4 (s.cartArea (0x50020 + 4 * i)).toNat) ++
      Config.infoPage 3 [w s.ember.overflow.length, w s.cartParts.2])
  else if page = 4 then some ((List.range 13).flatMap (fun i => leBytes 4 (s.embWord (0x3000 + 4 * i)).toNat))
  else if page = 5 then some ((List.range 13).flatMap (fun i => leBytes 4 (s.ior (0x2000 + 4 * i)).toNat))
  else if page = 6 then some (Config.infoPage 6 (pageSixRegs.map (fun o => w (s.sumReg o)) ++ [w (256 * s.sfu.cntSwap.toNat)]))
  else none

/-- DEV_INFO. -/
def State.devInfo (s : State) (k : Slot) (page : Nat) : State :=
  match s.infoPage page with
  | some d => s.okFits k d
  | none => s.deny k stNOPERM

/-- DEV_INFO. -/
def execDevInfo (slot : Slot) (page : BitVec 8) (s : State) : Host.Outcome State Fault Refusal := ok (s.devInfo slot page.toNat)

/-! ## Settings and keys (R367, R374, R375) -/

/-- SET_WRITE. -/
def execSetWrite (slot : Slot) (entries : List (BitVec 16 × BitVec 64)) (s : State) : Host.Outcome State Fault Refusal :=
  ok (s.setWrite slot (entryNats entries) s.ember.drain.isSome)

/-- SET_STORE. -/
def execSetStore (slot : Slot) (all : Bool) (ids : List (BitVec 16)) (s : State) : Host.Outcome State Fault Refusal :=
  ok (s.setStore slot all (ids.map (fun i => i.toNat)))

/-- KEY_ROTATE. -/
def execKeyRotate (slot : Slot) (wrapped : List Byte) (s : State) : Host.Outcome State Fault Refusal := ok (s.keyRotate slot wrapped)

/-! ## The sideband (R372) -/

/-- Whether firmware runs on the mantel: from stage 3 of kindling on. -/
def State.mantelUp (s : State) : Bool := decide (3 ≤ s.pwr.stage)

/-- The response that turns a message away with BUSY at once: a sideband or poker message while one is in flight. -/
def State.busyResponse (s : State) (m : List Byte) : List Byte := response (inflightOf m s.clk.beatNow) { status := stBUSY }

/-- SIDEBAND_MESSAGE. -/
def execSidebandMessage (msg : List Byte) (s : State) : Host.Outcome State Fault Refusal :=
  ok (if !s.mantelUp then s
    else if (getSlot s.ctl.inflight .sideband).isSome then s.emit (.sideband s.sidebandAddr (s.busyResponse msg))
    else s.post .sideband msg)

/-! ## The poker (R377) -/

/-- The fields of a line, split at spaces. -/
def fieldsOf : List Byte → List Byte → List (List Byte)
  | cur, [] => if cur.isEmpty then [] else [cur]
  | cur, b :: r => if b = 32 then (if cur.isEmpty then fieldsOf [] r else cur :: fieldsOf [] r) else fieldsOf (cur ++ [b]) r

/-- A hexadecimal digit. -/
def hexDigit (b : Byte) : Option Nat :=
  let n := b.toNat
  if 48 ≤ n ∧ n ≤ 57 then some (n - 48)
  else if 97 ≤ n ∧ n ≤ 102 then some (n - 87)
  else if 65 ≤ n ∧ n ≤ 70 then some (n - 55)
  else none

/-- A number in a base of at most 16. -/
def number (base : Nat) (l : List Byte) : Option Nat :=
  if l.isEmpty then none
  else l.foldl (fun a b => match a, hexDigit b with
    | some n, some d => if d < base then some (n * base + d) else none
    | _, _ => none) (some 0)

/-- A hexadecimal number, with or without 0x before it. -/
def hexNumber (l : List Byte) : Option Nat := number 16 (if l.take 2 = [48, 120] then l.drop 2 else l)

/-- The bytes that hexadecimal digits spell. -/
def hexBytes : List Byte → Option (List Byte)
  | [] => some []
  | a :: b :: r => match hexDigit a, hexDigit b, hexBytes r with
    | some x, some y, some t => some (BitVec.ofNat 8 (16 * x + y) :: t)
    | _, _, _ => none
  | [_] => none

/-- A poker answer: a command's text from the values it shows, then the prompt. -/
def State.pokerSay (s : State) (cmd : Nat) (values : List W64) : State :=
  s.emit (.uart (Config.pokerText cmd values ++ lineEnd ++ prompt))

/-- BAR0 words as values. -/
def State.words (s : State) (offs : List Nat) : List W64 := offs.map (fun o => (s.bar0View o).setWidth 64)

/-- The offsets of Table 13-9. -/
def collectorOffsets : List Nat :=
  [0x20000, 0x20004, 0x20008, 0x2000C, 0x20010, 0x20014, 0x20018, 0x2001C, 0x20020, 0x20024] ++
  (List.range 14).map (fun c => 0x20044 + 4 * c)

/-- A `kw` line: its message is posted at sideband rank; one already in flight is answered BUSY (log 61). -/
def State.pokerKw (s : State) (digits : List Byte) : State :=
  match hexBytes digits with
  | none => s.pokerSay 0xFE []
  | some m =>
    if (getSlot s.ctl.inflight .poker).isSome then s.emit (.uart (hexText (s.busyResponse m) ++ lineEnd ++ prompt))
    else s.post .poker m

/-- `rd`: one aligned 32-bit read of BAR0. -/
def State.pokerRd (s : State) (off : Nat) : State :=
  if off % 4 = 0 ∧ off < 0x80000 then
    let v := (s.bar0View off).setWidth 64
    (((s.afterRead off).draw).pokerSay 5 [v])
  else s.pokerSay 0xFE []

/-- A line by its first field (Table 14-16). What prints text only prints what the spec leaves to it. -/
def State.pokerRun (s : State) (fs : List (List Byte)) : State :=
  let cmd := fs.headD []
  let arg := nth [] fs 1
  let open_ := s.setting 0x0051 == 0
  let locked := s.emit (.uart (ascii "locked" ++ lineEnd ++ prompt))
  if cmd = ascii "kw" then (if open_ then s.pokerKw arg else locked)
  else if cmd = ascii "baud" then
    (if !open_ then locked
     else match number 10 arg with
      | some n => if settingRange 0x0052 n then (s.putSetting 0x0052 (BitVec.ofNat 64 n)).pokerSay 9 [BitVec.ofNat 64 n] else s.pokerSay 0xFE []
      | none => s.pokerSay 0xFE [])
  else if cmd = ascii "lock" then (s.putSetting 0x0051 1).pokerSay 7 []
  else if cmd = ascii "rd" then
    (match hexNumber arg with | some n => s.pokerRd n | none => s.pokerSay 0xFE [])
  else if cmd = ascii "beat" then
    s.pokerSay 4 (BitVec.ofNat 64 s.clk.beatNow :: s.words [0x40008, 0x40020, 0x40100])
  else if cmd = ascii "flt" then s.pokerSay 3 (s.words collectorOffsets)
  else if cmd = ascii "info" then
    s.pokerSay 2 [Config.serial, ((s.slotVersion false).getD 0).setWidth 64, ((s.slotVersion true).getD 0).setWidth 64, 6]
  else if cmd = ascii "log" then
    (match number 10 arg with
      | some n => if n ≤ 1000 then s.pokerSay 6 [BitVec.ofNat 64 n] else s.pokerSay 0xFE []
      | none => s.pokerSay 0xFE [])
  else if cmd = ascii "help" then s.pokerSay 1 []
  else s.pokerSay 0xFE []

/-- Whether the poker reads a line: printable ASCII of up to 8,300 characters. -/
def lineOk (l : List Byte) : Bool := decide (l.length ≤ 8300) && l.all (fun b => decide (32 ≤ b.toNat ∧ b.toNat ≤ 126))

/-- POKER_LINE: at POKER_LOCK 2, before firmware runs, and where both firmware slots failed, no input is taken. -/
def execPokerLine (line : List Byte) (s : State) : Host.Outcome State Fault Refusal :=
  ok (if !s.mantelUp || s.pwr.stuckStage3 || s.setting 0x0051 == 2 || !lineOk line then s else s.pokerRun (fieldsOf [] line))

/-! ## The PCIe link (R405, R422, R333) -/

/-- PERST_N: the PCIe controller and its link are reset, and with them the MSI-X enable; BAR0, the mailboxes and the commands in
progress stay (log 20). -/
def execPerstN (s : State) : Host.Outcome State Fault Refusal := ok { s with ctl := { s.ctl with msix := false } }

/-- PCIE_LINK_RETRAIN: a HOST report; the job continues. -/
def execPcieLinkRetrain (s : State) : Host.Outcome State Fault Refusal := ok (if s.ctl.linkUp then s.hostReport else s)

/-- MSI-X enabled or disabled; enabling it sends the completion vectors that were held (R405). -/
def State.setMsix (s : State) (on : Bool) : State :=
  let s1 : State := { s with ctl := { s.ctl with msix := on } }
  if on then s1.ctl.held.foldl (fun (s : State) v => s.emit (.msix v)) ({ s1 with ctl := { s1.ctl with held := [] } } : State) else s1

/-- The reset time that the Readiness Time Reporting capability declares, in ms (R422). -/
def declaredResetMs : Nat := 12000

/-- PCIE_CONFIG_REQUEST: Request Retry Status until stage 8, and for ever on a module that stopped in stage 3 (R421, R422); then taken: a
request that is none of MSI-X is answered with what the Readiness Time Reporting capability declares (log 144). -/
def execPcieConfigRequest (msixEnable : Option Bool) (s : State) : Host.Outcome State Fault Refusal :=
  ok (if !s.ctl.linkUp && !s.pwr.stuckStage3 then s
    else if s.pwr.stage < 8 then s.emit .pcieRetry
    else match msixEnable with
      | some b => s.setMsix b
      | none => s.emit (.pcieConfig declaredResetMs))

end Sys2Proof.Machine
end

