-- ==== Sys2Proof/Machine/Program.lean ====
section
/-! DEFINITION. Tile programs of a job image (R154 to R159, R242, R244 to R246, R251): the form of each word, the rules that
hold along the program's paths, the tables of sections 4 to 9, and SCHED_LOAD. -/

namespace Sys2Proof.Machine

/-! ## Words -/

/-- Bits of [31:0] that a stoker or schedule word uses (Tables 07-1, 10-4); none for a reserved class. -/
def wordMask (op : Nat) : Option Nat :=
  if op = 0xC0 ∨ op = 0xC3 ∨ op = 0xD6 then some 0xFFFFFFFF
  else if op = 0xC1 then some 0x3FFF001F
  else if op = 0xC2 then some 0x0FFF003F
  else if op = 0xC4 ∨ op = 0xC5 ∨ op = 0xD5 then some 0x1F
  else if op = 0xD0 ∨ op = 0xD2 ∨ op = 0xD3 ∨ op = 0xD4 ∨ op = 0xD8 ∨ op = 0xD9 then some 0xFFFF
  else if op = 0xD1 then some 0x1FFFF
  else if op = 0xD7 then some 0x3FFFF
  else none

/-- Whether a word is of a class of R154 with its reserved bits 0 (R14, R155, R244). -/
def wordFormOk (w : W64) : Bool :=
  let op := wordOp w
  if op ≤ 0x8F then grateWordOk w
  else if op = 0xF0 then field w.toNat 0 56 == 0
  else match wordMask op with
    | some m => field w.toNat 0 56 ||| m == m
    | none => false

/-- A field of a word. -/
def wf (w : W64) (lo n : Nat) : Nat := field w.toNat lo n

/-! ## Pass descriptors (Table 03-7) -/

/-- The reserved bits of a pass descriptor are 0 (R14). -/
def passClear (b : List Byte) : Bool :=
  field (leAt b 0 4) 16 2 == 0 && field (leAt b 0 4) 0 1 == 0 && field (leAt b 4 4) 0 8 == 0 && leAt b 8 4 ||| 0x7F7F7F == 0x7F7F7F &&
  field (leAt b 12 4) 20 12 == 0 && leAt b 0x14 4 == 0 && leAt b 0x18 8 == 0

/-- The class of a format in Table 02-6; formats of one class pair. -/
def pairClass (f : BitVec 4) : Option Nat :=
  match f.toNat with
  | 0 => some 0
  | 1 => some 1
  | 2 => some 2
  | 3 => some 3
  | 4 => some 3
  | 5 => some 5
  | 6 => some 6
  | 8 => some 8
  | 9 => some 8
  | 10 => some 8
  | 11 => some 8
  | 12 => some 12
  | 13 => some 13
  | _ => none

/-- The used flue fields of a pass (R425). -/
def usedFlues (d : PassDesc) : List Nat :=
  (if d.strmSrc = 0 then [d.flueB.toNat] else []) ++ (if d.statNew && d.statSrc == 0 then [d.flueA.toNat] else []) ++
    (if d.accIn = 2 then [d.flueInit.toNat] else [])

/-- A VALID field within its range. -/
def validOk (d : PassDesc) (v : BitVec 7) : Bool := decide (1 ≤ v.toNat ∧ v.toNat ≤ passSide d)

/-- The conditions of R79 on one descriptor alone, the flue numbers of R156, and no MX operand by columns (R150). -/
def passFormOk (d : PassDesc) : Bool :=
  d.hob != 3 && d.accIn != 3 && d.strmSrc != 3 && d.statSrc != 3 && d.gsbCap != 3 &&
  (pairClass d.fmtA).isSome && pairClass d.fmtA == pairClass d.fmtB &&
  validOk d d.mValid && validOk d d.nValid && validOk d d.kValid && (if d.split then d.quadEn != 0 else d.quadEn == 15) &&
  (d.gsbCap == 0 || (d.hob == 1 && d.strmSrc == 0)) && (d.strmSrc == 0 || d.hob == 1) && (d.statSrc == 0 || (d.hob == 2 && !isMx d.fmtA)) &&
  (!d.gsbRel || d.strmSrc != 0 || d.statSrc != 0 || d.gsbCap != 0) && decide ((usedFlues d).dedup.length = (usedFlues d).length) &&
  decide (d.flueA.toNat < 32) && decide (d.flueB.toNat < 32) && (d.accIn != 2 || decide (d.flueInit.toNat < 32))

/-- MODE, FMT_A and QUAD_EN of a pass as a number, never 0 (R79). -/
def passMark (d : PassDesc) : Nat := 1 + bnat d.split + 2 * d.fmtA.toNat + 32 * d.quadEn.toNat

/-! ## One tile's program -/

/-- What the checks of one program read: the context with its tables, the words, the words with their index, its re-arm count
and where the program begins in the image. -/
structure Prog where
  cx : Ctx
  l : List W64
  ws : List (Nat × W64)
  rearms : Nat
  ofs : Nat

/-- The program of a tile. -/
def Prog.of (cx : Ctx) (l : List W64) (rearms ofs : Nat) : Prog := { cx := cx, l := l, ws := opWords 0 0 l, rearms := rearms, ofs := ofs }

/-- The image offset of a word. -/
def Prog.off (p : Prog) (i : Nat) : Nat := p.ofs + 8 * i

/-- The words of a class byte. -/
def Prog.having (p : Prog) (op : Nat) : List (Nat × W64) := p.ws.filter (fun w => wordOp w.2 == op)

/-- The first index past the prologue's words; 0 where there is none. -/
def Prog.proEnd (p : Prog) : Nat := bodyIndex p.l

/-- Whether a word lies in the prologue. -/
def Prog.inPro (p : Prog) (i : Nat) : Bool := decide (1 ≤ i ∧ i < p.proEnd)

/-- The class blocks that the program may enter: none where it has no CLASS word. -/
def Prog.blocks (p : Prog) : List (List (Nat × W64)) :=
  if (p.having 0xD5).isEmpty then [] else (p.cx.classes.take p.cx.nclass).map (fun e => classBlock p.ws (classEntry e))

/-- Whether a word lies in a class block. -/
def Prog.inBlock (p : Prog) (i : Nat) : Bool := p.blocks.any (fun b => b.any (fun w => w.1 == i))

/-- Whether a word lies in the commit block. -/
def Prog.inGate (p : Prog) (i : Nat) : Bool := (p.having 0xD3).any (fun g => decide (g.1 < i ∧ i ≤ g.1 + wf g.2 0 16))

/-- Loops as (first word, end, COUNT). -/
def Prog.loops (p : Prog) : List (Nat × Nat × Nat) := (p.having 0xC0).map (fun w => (w.1 + 1, w.1 + 1 + wf w.2 0 16, wf w.2 16 16))

/-- The loops whose body holds a word. -/
def Prog.loopsAt (p : Prog) (i : Nat) : List (Nat × Nat × Nat) := p.loops.filter (fun f => decide (f.1 ≤ i ∧ i < f.2.1))

/-- FLAG, GATED, STEP, PRO or CLASS: what no class block and no prologue holds (R245). -/
def isGateWord (w : W64) : Bool := [0xD2, 0xD3, 0xD4, 0xD9, 0xD5].contains (wordOp w)

/-- T of the program's FLAG. -/
def Prog.flagT (p : Prog) : Int := match (p.having 0xD2).head? with | some w => wordBeat w.2 | none => 0

/-- T of the last AT before its GATED. -/
def Prog.gateT (p : Prog) : Option Int :=
  match (p.having 0xD3).head? with
  | some g => (((p.having 0xD0).filter (fun w => decide (w.1 < g.1))).getLast?).map (fun w => wordBeat w.2)
  | none => none

/-- Words, loops and table indices (R154, R155, R244). -/
def Prog.wordChecks (p : Prog) : List Check :=
  p.ws.map (fun w => chk (p.off w.1) (wordFormOk w.2)) ++
  (p.having 0xC0).map (fun w =>
    let e := w.1 + 1 + wf w.2 0 16
    let around := p.loopsAt w.1
    chk (p.off w.1) (wf w.2 16 16 != 0 && wf w.2 0 16 != 0 && decide (e ≤ p.l.length) && decide (around.length < 4) &&
      around.all (fun f => decide (e ≤ f.2.1)))) ++
  (p.having 0xC1).map (fun w => chk (p.off w.1) (decide (wf w.2 16 14 < p.cx.sdt.length))) ++
  (p.having 0xC2).map (fun w => chk (p.off w.1) (decide (wf w.2 16 12 < p.rearms))) ++
  (p.having 0xD9).map (fun w => chk (p.off w.1) (w.1 == 0 && decide (1 + wf w.2 0 16 ≤ p.l.length)))

/-- Pass descriptors, each alone, and PASS_SEQ ascending (R79). -/
def Prog.passChecks (p : Prog) : List Check :=
  let ps := p.having 0xF0
  let seq := fun (i : Nat) => leAt (passBytes p.l i) 16 4
  ps.map (fun w =>
    let b := passBytes p.l w.1
    chk (p.off w.1) (decide (b.length = 32) && passClear b && passFormOk (parsePass b))) ++
  (List.zip ps (ps.drop 1)).map (fun q => chk (p.off q.2.1) (decide (seq q.1.1 < seq q.2.1)))

/-- The shape of the step (R245, R246): one FLAG before one GATED, neither repeated by a loop, STEP last with T = STEP_BEATS,
GATED after an AT that FLAG_LAT allows. -/
def Prog.stepChecks (p : Prog) : List Check :=
  let fl := p.having 0xD2
  let ga := p.having 0xD3
  let st := p.having 0xD4
  let last := match p.ws.getLast? with | some w => w.1 | none => 0
  let once := fun (l : List (Nat × W64)) => decide (l.length = 1) && l.all (fun w => (p.loopsAt w.1).all (fun f => f.2.2 == 1))
  let at_ := fun (l : List (Nat × W64)) => match l.head? with | some w => w.1 | none => last
  let bad := fun (l : List (Nat × W64)) => match l.drop 1 with | w :: _ => w.1 | [] => at_ l
  [chk (p.off (bad fl)) (once fl), chk (p.off (bad ga)) (once ga && decide (at_ fl < at_ ga)),
   chk (p.off last) (once st && at_ st == last && st.all (fun w => wordBeat w.2 == p.cx.stepBeats)),
   chk (p.off (at_ ga)) (match p.gateT with | some t => decide (p.flagT + p.cx.flagLat ≤ t) | none => false),
   chk (p.off (at_ ga)) (ga.all (fun w => decide (w.1 + wf w.2 0 16 < last)))] ++
  (p.ws.filter (fun w => p.inPro w.1)).map (fun w => chk (p.off w.1)
    (!isGateWord w.2 && (wordOp w.2 != 0xD0 || decide (-(p.cx.proBeats : Int) ≤ wordBeat w.2 ∧ wordBeat w.2 ≤ -1)))) ++
  p.blocks.flatMap (fun b => match b.getLast? with
    | some e => chk (p.off e.1) (wordOp e.2 == 0xD6) :: b.map (fun w => chk (p.off w.1) (!isGateWord w.2))
    | none => [chk (p.off 0) false]) ++
  (p.having 0xD6).map (fun w => chk (p.off w.1) (p.blocks.any (fun b => match b.getLast? with | some e => e.1 == w.1 | none => false) &&
    p.ws.any (fun v => v.1 == wf w.2 0 32)))

/-- The PHASE of the LAYER word in force at a word, in program order. -/
def Prog.phaseAt (p : Prog) (i : Nat) : Nat :=
  match ((p.having 0xD7).filter (fun w => decide (w.1 < i))).getLast? with
  | some w => wf w.2 16 2
  | none => 3

/-- LAYER and RECOMP (R251). -/
def Prog.layerChecks (p : Prog) : List Check :=
  let fwd := (p.having 0xD7).filter (fun w => wf w.2 16 2 == 0)
  fwd.map (fun w => chk (p.off w.1) (decide ((fwd.filter (fun v => decide (v.1 < w.1) && wf v.2 0 16 == wf w.2 0 16)).length = 0) &&
    (match forwardRange p.l (wf w.2 0 16) with
      | some r => p.ws.all (fun v => !(decide (r.1 ≤ v.1 ∧ v.1 < r.2) && [0xD2, 0xD3, 0xD4, 0xD5, 0xD8].contains (wordOp v.2)))
      | none => true))) ++
  (p.having 0xD8).map (fun w =>
    let id := wf w.2 0 16
    chk (p.off w.1) (p.phaseAt w.1 == 1 && (forwardRange p.l id).isSome &&
      p.cx.layers.any (fun e => wf e 0 16 == id && !e.getLsbD 16)))

/-- Where a stream that writes a PERSIST allocation is armed (R242). -/
def Prog.armChecks (p : Prog) : List Check :=
  (p.having 0xC1).map (fun w => chk (p.off w.1) (match p.cx.sdt[wf w.2 16 14]? with
    | some sd => (match writesClass p.cx sd with
      | some a => a.cls != 1 || p.inGate w.1 || (a.space != 0 && p.inPro w.1)
      | none => true)
    | none => true))

/-! ## Paths

A node is a word, with the RECOMP word in progress plus 1 (0 for none). A fact (kind, value) at a node says that some path
reaches it with that value: kind 0 VL, 1 + h the mark of hob h's last pass (0 for none), 4 + s the entry armed on stream s plus 1,
36 the beat of the last AT plus 2^16, 37 + h what hob h's last pass asks of its FLUE_A. -/

/-- A node. -/
abbrev Node := Nat × Nat
/-- Facts at nodes. -/
abbrev Facts := List (Node × List (Nat × Nat))

/-- The facts of a node. -/
def factsAt (f : Facts) (n : Node) : List (Nat × Nat) :=
  match f with
  | [] => []
  | e :: r => if e.1 = n then e.2 else factsAt r n

/-- Facts added to a node. -/
def addFacts (f : Facts) (n : Node) (vs : List (Nat × Nat)) : Facts :=
  match f with
  | [] => [(n, vs.dedup)]
  | e :: r => if e.1 = n then (n, e.2 ++ (vs.filter (fun v => !e.2.contains v)).dedup) :: r else e :: addFacts r n vs

/-- Where control goes from the last word before index nx: back to the start of a loop that ends there, or on. -/
def Prog.after (p : Prog) (i nx : Nat) : List Nat :=
  nx :: ((p.loopsAt i).filter (fun f => f.2.1 == nx && decide (1 < f.2.2))).map (fun f => f.1)

/-- The stream that a field names at a node (R251). -/
def Prog.subst (p : Prog) (n : Node) (sn : Nat) : Nat :=
  if n.2 = 0 then sn
  else match (p.l[n.2 - 1]?).bind (fun w => layerStreams p.cx.layers (wf w 0 16)) with
    | some r => if sn = r.1 then r.2 else sn
    | none => sn

/-- The nodes that may follow a word. -/
def Prog.nexts (p : Prog) (n : Node) (w : W64) : List Node :=
  let i := n.1
  let op := wordOp w
  let leave := fun (nx : Nat) =>
    match if n.2 = 0 then none else (p.l[n.2 - 1]?).bind (fun r => forwardRange p.l (wf r 0 16)) with
    | some r => if nx = r.2 then (p.after (n.2 - 1) n.2).map (fun j => (j, 0)) else [(nx, n.2)]
    | none => [(nx, n.2)]
  let go := fun (nx : Nat) => (p.after i nx).flatMap (fun j => if j = nx then leave nx else [(j, n.2)])
  if op = 0xD4 then [(p.proEnd, 0)]
  else if op = 0xD5 then (p.cx.classes.take p.cx.nclass).map (fun e => (classEntry e, n.2))
  else if op = 0xD6 then (wf w 0 32 :: (p.loops.filter (fun f => f.2.1 == wf w 0 32 && decide (1 < f.2.2))).map (fun f => f.1)).map (fun j => (j, n.2))
  else if op = 0xD8 then (match forwardRange p.l (wf w 0 16) with
    | some r => [(r.1, i + 1)]
    | none => go (i + 1))
  else if op = 0xD3 then go (i + 1) ++ go (i + 1 + wf w 0 16)
  else go (i + (if op = 0xF0 then 5 else 1))

/-- Facts with those of a kind replaced by one. -/
def putFact (k v : Nat) (l : List (Nat × Nat)) : List (Nat × Nat) := (k, v) :: l.filter (fun f => f.1 != k)

/-- What a pass asks of its FLUE_A for its own operand: the stream + 1 and the bytes; 0 where it takes no entry. -/
def Prog.laneFact (p : Prog) (n : Node) (d : PassDesc) : Nat :=
  if passNeedA d = 0 then 0 else (p.subst n d.flueA.toNat + 1) * 2 ^ 24 + flueBytes d.fmtA (passOperand d)

/-- The facts after a word. A STEP starts its hobs and its ATs anew (R79, R245). -/
def Prog.flow (p : Prog) (n : Node) (w : W64) (l : List (Nat × Nat)) : List (Nat × Nat) :=
  let op := wordOp w
  if op = 0x01 then putFact 0 (wf w 0 12) l
  else if op = 0xF0 then
    let d := parsePass (passBytes p.l n.1)
    putFact (37 + d.hob.toNat) (p.laneFact n d) (putFact (1 + d.hob.toNat) (passMark d) l)
  else if op = 0xC1 then putFact (4 + p.subst n (wf w 0 5)) (wf w 16 14 + 1) l
  else if op = 0xD0 then (if n.2 = 0 then putFact 36 ((wordBeat w + 2 ^ 16).toNat) l else l)
  else if op = 0xD4 then l.filter (fun f => f.1 == 0 || (decide (4 ≤ f.1 ∧ f.1 ≤ 35)))
  else l

/-- One round of propagation over every node. -/
def Prog.round (p : Prog) (f : Facts) : Facts :=
  f.foldl (fun acc e =>
    match p.ws.find? (fun w => w.1 == e.1.1) with
    | some w => let out := p.flow e.1 w.2 e.2; (p.nexts e.1 w.2).foldl (fun a m => addFacts a m out) acc
    | none => acc) f

/-- Propagation until nothing changes. -/
def Prog.spread (p : Prog) : Nat → Facts → Facts
  | 0, f => f
  | n + 1, f => let g := p.round f; if g = f then f else p.spread n g

/-- The facts at every node that a path reaches: from word 0 with VL 512, from step beat 0, and from word 0 after a discard, which may
come at any word and leaves VL as it is (R247, log 114). -/
def Prog.facts (p : Prog) : Facts :=
  let hobs := [(1, 0), (2, 0), (3, 0)]
  let n := (p.l.length + 2) ^ 3
  let f := p.spread n (addFacts (addFacts [] (0, 0) ((0, 512) :: hobs)) (p.proEnd, 0) hobs)
  p.spread n (addFacts f (0, 0) (f.flatMap (fun e => e.2.filter (fun q => q.1 == 0))))

/-- The values of a kind. -/
def valuesOf (k : Nat) (l : List (Nat × Nat)) : List Nat := (l.filter (fun f => f.1 == k)).map (fun f => f.2)

/-- Whether every stream that may be armed on a flue has a format and, in whole units, a depth (R157, R159). -/
def Prog.flueOk (p : Prog) (n : Node) (l : List (Nat × Nat)) (flue : Nat) (fmt : BitVec 4) (bytes : Nat) : Bool :=
  (valuesOf (4 + p.subst n flue) l).all (fun v => match p.cx.sdt[v - 1]? with
    | some sd => sdFlueFmt p.cx sd == fmt && decide ((bytes + 4095) / 4096 ≤ sdUnits sd)
    | none => true)

/-- Whether a pass meets the rules of R79, R157 and R159 that paths decide. Its operand and that of the pass before it in its hob,
whose successor it is, must fit in FLUE_A together (log 106). -/
def Prog.passPathOk (p : Prog) (n : Node) (l : List (Nat × Nat)) (d : PassDesc) : Bool :=
  (d.statNew || (valuesOf (1 + d.hob.toNat) l).all (fun v => v == passMark d)) &&
  (d.strmSrc != 0 || p.flueOk n l d.flueB.toNat d.fmtB (flueBytes d.fmtB (passOperand d))) &&
  (passNeedA d == 0 || (0 :: (valuesOf (37 + d.hob.toNat) l)).all (fun v =>
    p.flueOk n l d.flueA.toNat d.fmtA
      (flueBytes d.fmtA (passOperand d) + if v / 2 ^ 24 = p.subst n d.flueA.toNat + 1 then v % 2 ^ 24 else 0))) &&
  (d.accIn != 2 || p.flueOk n l d.flueInit.toNat 0 16384)

/-- Whether a grate word meets the rules of R87, R157 and R159 that paths decide. -/
def Prog.gratePathOk (p : Prog) (n : Node) (l : List (Nat × Nat)) (w : W64) : Bool :=
  let g := parseGrate w
  let op := wordOp w
  let vls := valuesOf 0 l
  vls.all (fun v => grateVlOk op g v) &&
  (if op = 0x09 then vls.all (fun v => p.flueOk n l (wf w 0 8) g.fmt (min v (16384 / laneWidth g.fmt) * laneWidth g.fmt / 8))
   else if op = 0x0A then p.flueOk n l (wf w 0 8) g.fmt 0
   else true)

/-- The checks along the program's paths; ATs do not descend, but for a replay (log 57). -/
def Prog.pathChecks (p : Prog) : List Check :=
  p.facts.filterMap (fun e =>
    (p.ws.find? (fun w => w.1 == e.1.1)).map (fun w =>
      let op := wordOp w.2
      chk (p.off w.1) (if op = 0xF0 then p.passPathOk e.1 e.2 (parsePass (passBytes p.l w.1))
        else if op = 0xD0 then e.1.2 != 0 || (valuesOf 36 e.2).all (fun v => decide ((v : Int) - 2 ^ 16 ≤ wordBeat w.2))
        else if op ≤ 0x8F then p.gratePathOk e.1 e.2 w.2
        else true)))

/-- Every check of one program; those along paths only where its words have their form. -/
def Prog.checks (p : Prog) : List Check :=
  let a := p.wordChecks ++ p.passChecks ++ p.stepChecks ++ p.layerChecks ++ p.armChecks
  a ++ (if (firstBad a).isNone then p.pathChecks else [])

/-! ## Sections 4 to 9 -/

/-- The words of tile t: the directory entry's word offset, count and re-arm count, and RSVD. -/
def dirEntry (l : List Byte) (t : Nat) : Nat × Nat × Nat × Nat :=
  let o := entryOfs l 4 t
  (leAt l o 8, leAt l (o + 8) 4, leAt l (o + 12) 2, leAt l (o + 14) 2)

/-- The first re-arm entry of tile t: the counts of the tiles below it (Table 10-2). -/
def rearmBase (l : List Byte) (t : Nat) : Nat := (List.range t).foldl (fun n i => n + (dirEntry l i).2.2.1) 0

/-- The program words of tile t. -/
def tileWords (l : List Byte) (t : Nat) : List W64 :=
  let e := dirEntry l t
  (List.range e.2.1).map (fun i => BitVec.ofNat 64 (leAt l (entryOfs l 5 (e.1 + i)) 8))

/-- The re-arm entries of tile t. -/
def tileRearm (l : List Byte) (t : Nat) : List (Nat × Nat) :=
  (List.range (dirEntry l t).2.2.1).map (fun i =>
    let o := entryOfs l 3 (rearmBase l t + i)
    (leAt l o 8, leAt l (o + 8) 8))

/-- The 64-bit entries of a section. -/
def words64 (l : List Byte) (k : Nat) : List W64 := (entries l k).map (fun o => BitVec.ofNat 64 (leAt l o 8))

/-- A loaded context with the sections 4 to 9 of the image. -/
def Ctx.withSchedule (cx : Ctx) (l : List Byte) : Ctx :=
  { cx with
    schedLoaded := true, image := l, imageHash := sha256 l
    rearm := (List.range 256).map (fun t => (t, tileRearm l t))
    prog := (List.range 256).map (fun t => (t, tileWords l t))
    classes := words64 l 6, layers := words64 l 7
    advance := (entries l 8).map (fun o => (leAt l (o + 1) 1, leAt l o 1))
    exch := slice l (secOfs l 9) (32 * secCnt l 9) }

/-- The image's header and its sections 0 to 3 are those of the loaded image (R369): a word of the header, or an entry, that differs is the
failing item (R370). -/
def sameJob (a b : List Byte) : List Check :=
  (List.range (headerLen / 4)).map (fun i => chk (4 * i) (slice a (4 * i) 4 == slice b (4 * i) 4)) ++
  (List.range 4).flatMap (fun k => (entries a k).map (fun o => chk o (slice a o (entryBytes k) == slice b o (entryBytes k))))

/-- The sections' bounds and the directory. -/
def dirChecks (l : List Byte) : List Check :=
  (List.range 6).map (fun i => secInside l (4 + i)) ++ [chk 0x68 (secCnt l 4 == 256)] ++
  (List.range 256).map (fun t =>
    let e := dirEntry l t
    chk (entryOfs l 4 t) (e.2.2.2 == 0 && decide (e.1 + e.2.1 ≤ secCnt l 5) && decide (e.2.2.1 ≤ 4096) &&
      decide (rearmBase l t + e.2.2.1 ≤ secCnt l 3)))

/-- The class table, the layer table and the advance list (R246, R251, Table 10-2). -/
def tableChecks (cx : Ctx) (l : List Byte) : List Check :=
  (entries l 6).map (fun o => chk o (leAt l (o + 6) 2 == 0)) ++
  [chk 0x88 (decide (cx.nclass ≤ cx.classes.length) || cx.prog.all (fun p => (opWords 0 0 p.2).all (fun w => wordOp w.2 != 0xD5)))] ++
  (List.range (secCnt l 7)).map (fun i =>
    let o := entryOfs l 7 i
    let e := leAt l o 8
    chk o (field e 17 7 == 0 && field e 29 3 == 0 && field e 37 27 == 0 &&
      (List.range i).all (fun j => leAt l (entryOfs l 7 j) 2 != leAt l o 2))) ++
  (entries l 8).map (fun o => chk o (leAt l (o + 2) 2 == 0 && field (leAt l o 1) 5 3 == 0))

/-- Whether an exchange entry may stand (R279, R280); N is known once it is set (log 58). -/
def State.exchOk (s : State) (cx : Ctx) (l : List Byte) (o : Nat) (flagT : Int) : Bool :=
  let e := parseExch l o
  let src := cx.desc? e.src
  let dst := cx.desc? e.dst
  let sd := src.getD {}
  let dd := dst.getD {}
  let inner := (sd.extents.take (sd.ndim - 1)).foldl (· * ·) 1
  let g := fun (j : Nat) => leAt l (o + 12 + 2 * j) 2
  e.kind == 0 && field (leAt l (o + 4) 4) 28 1 == 0 && leAt l (o + 0x1C) 4 == 0 && decide (1 ≤ e.nlev ∧ e.nlev ≤ 8) && e.shards != 0 &&
  (List.range 8).all (fun j => if j < e.nlev then decide (2 ≤ g j) || (e.shards == 1 && e.nlev == 1 && g j == 1) else g j == 0) &&
  e.radices.foldl (· * ·) 1 == e.shards && src.isSome && sd.fmt == 0 && dst.isSome && dd.fmt == 0 && inner % 64 == 0 && dd.count == inner &&
  (match s.settingOpt 0x0102 with
    | some n => e.shards % n == 0 && nth 0 sd.extents (sd.ndim - 1) == e.shards / n
    | none => true) &&
  (match cx.owner dd with | some a => a.cls == 0 | none => false) &&
  cx.prog.any (fun p => (opWords 0 0 p.2).any (fun w => wordOp w.2 == 0xD1 && w.2.getLsbD 16 && wordBeat w.2 == e.tOpen)) &&
  decide (e.tOpen < flagT)

/-- The exchange schedule. -/
def State.exchChecks (s : State) (cx : Ctx) (l : List Byte) (flagT : Int) : List Check :=
  chk 0xB8 (decide (secCnt l 9 ≤ 1024)) :: (List.range (secCnt l 9)).map (fun i =>
    let o := entryOfs l 9 i
    chk o (s.exchOk cx l o flagT && (List.range i).all (fun j => leAt l (entryOfs l 9 j) 2 != leAt l o 2)))

/-- The programs: each alone, and FLAG and GATED at one T in every tile (R245). -/
def progChecks (cx : Ctx) (l : List Byte) : List Check :=
  let pr := fun (t : Nat) => Prog.of cx (tileWords l t) (dirEntry l t).2.2.1 (entryOfs l 5 (dirEntry l t).1)
  (List.range 256).flatMap (fun t => (pr t).checks) ++
  (List.range 256).map (fun t => chk (pr t).ofs ((pr t).flagT == (pr 0).flagT && (pr t).gateT == (pr 0).gateT))

/-- Every check of SCHED_LOAD; a later group only where the groups it reads hold. -/
def State.schedChecks (s : State) (cx : Ctx) (l : List Byte) : List Check :=
  let a := dirChecks l
  if (firstBad a).isSome then a
  else a ++ tableChecks cx l ++ progChecks cx l ++ s.exchChecks cx l (Prog.of cx (tileWords l 0) 0 0).flagT

/-- SCHED_LOAD: sections 4 to 9 into a context whose JOB_LOAD image has the same header and sections 0 to 3. -/
def State.schedLoad (s : State) (k : Slot) (c : Nat) (l : List Byte) : State :=
  let cx := s.ctx c
  if cx.state = 1 ∨ cx.state = 2 then s.deny k stBUSY
  else if !cx.jobLoaded then s.deny k stNOPERM
  else
    let cx1 := cx.withSchedule l
    let same := sameJob cx.image l
    match firstBad (if (firstBad same).isSome then same else s.schedChecks cx1 l) with
    | some e => s.denyAt k e.1 e.2
    | none => (s.setCtx c cx1).ok k

/-- SCHED_LOAD. -/
def execSchedLoad (slot : Slot) (ctx : BitVec 2) (image : List Byte) (s : State) : Host.Outcome State Fault Refusal :=
  ok (s.schedLoad slot ctx.toNat image)

end Sys2Proof.Machine
end

