-- ==== Sys2Proof/Machine/Scan.lean ====
section
/-! DEFINITION. Scan-out (R399 to R402): the records of a domain, SCAN_DUMP and the JTAG port. -/

namespace Sys2Proof.Machine

/-! ## Scan-out (R399 to R402) -/

/-- Bytes that a domain's records may take. -/
def scanBound (d : Nat) : Nat :=
  2 ^ 20 * (if d < 272 then 5 else if d < 276 then 65 else if d = 318 ∨ d = 319 then 16 else 1)

/-- One scan record (Table 15-11). -/
def scanRecord (typ dom obj : Nat) (body : List Byte) : List Byte :=
  leBytes 4 (typ * 2 ^ 24 + dom) ++ leBytes 4 body.length ++ leBytes 4 obj ++ leBytes 4 (crc32c body).toNat ++ body

/-- A crossing's record (R400, R401): its number, source and destination, its own write and read pointers, the bytes of an item and the
items written and not read. Items are of 8 or 16 bytes, so that LEN is a multiple of 8 (log 118). -/
def xingRecord (dom obj src sent size : Nat) (items : List (List Byte)) : List Byte :=
  scanRecord 5 dom obj (leBytes 4 (src + 2 ^ 16 * dom) ++ leBytes 4 sent ++ leBytes 4 (sent + 2 ^ 32 - items.length) ++ leBytes 4 size ++
    items.flatten)

/-- The crossings into a domain, each once: those that hold beat-edge tokens and changes of EFF_LVL, from the beat unit, then the others, in
which no item waits between two commands (log 118). -/
def State.crossings (s : State) (d : Nat) : List (List Byte) :=
  xingRecord d 0 323 s.clk.tokSent 8 ((tget [] s.clk.tokens d).map (fun k => leBytes 8 k.beat)) ::
  ((if d < 272 then [xingRecord d 1 323 s.clk.lvlSent 16 ((tget [] s.clk.levels d).map (fun m => leBytes 8 m.level ++ leBytes 8 m.tick))] else []) ++
    (Config.crossings d).zipIdx.map (fun c => xingRecord d (2 + c.2) c.1.1 (Config.freeWord (s.free + d)).toNat c.1.2 []))

/-- The words of a domain's status block from an offset on: a firebox's (Table 03-8 and its like), else those of the I/O die. -/
def State.scanWord (s : State) (d off : Nat) : W32 :=
  if d < 272 then
    let pc := match s.tileOf d with | some t => s.grPc t | none => 0
    s.blockWord (s.tile d) (Config.freeBool (s.free + d)) pc off
  else if 0x3000 ≤ off ∧ off < 0x3040 then s.embWord off
  else s.ior off

/-- The words of a firebox's flue store, accumulators, GSB and ash stages, one after the other as State holds them (log 150): the element
codes of the streams' entries, the named slots of the three hobs, the element codes of the halves, each stage's header and tile. -/
def Tile.storeWords (t : Tile) (store : Nat) : List Nat :=
  if store = 1 then (List.range 32).flatMap (fun n => (t.stream n).entries.map (fun e => e.1))
  else if store = 2 then (List.range 24).flatMap (fun i =>
    (List.range 4096).map (fun p => (nth (0 : W32) (tget [] (t.hob (i / 8)).slots (i % 8)) p).toNat))
  else if store = 3 then (List.range 2).flatMap (fun h => (t.half h).data.map (fun e => e.1))
  else if store = 6 then t.ash.flatMap (fun a => a.header.toNat % 2 ^ 32 :: a.header.toNat / 2 ^ 32 :: a.data.map (fun w => w.toNat))
  else []

/-- An entry of a HOB record: PE(k, n) in whole mode holds the stationary element of column n and row k, active and shadow, and PE(k, 64)
and PE(64, n) the checksum column's and row's signed sums (Table 03-1); the streamed element, the partial sum of a pass in flight and its row show a cycle in the
middle of the pass, which is open, as is where the quadrants of split mode stand (log 90). -/
def State.hobEntry (s : State) (d h k n : Nat) : List Byte :=
  let v := (s.tile d).hob h
  let free := fun (j : Nat) => (List.range 4).map (fun i => Config.scanByte (s.free + d) (4 * 2 ^ 8 + h) ((65 * k + n) * 24 + 4 * j + i))
  let whole := !v.lastMode.getD false
  let reg := fun (l : List (Nat × Nat)) (j : Nat) => if whole ∧ k < 64 ∧ n < 64 then leBytes 4 (nth (0, 0) l (64 * n + k)).1 else free j
  let sum := if v.fly.isEmpty ∧ whole ∧ k < 64 ∧ n = 64 then leBytes 4 (nth (0, 0) v.sums k).1.toNat
    else if v.fly.isEmpty ∧ whole ∧ k = 64 ∧ n < 64 then leBytes 4 (nth (0, 0) v.sums (64 + n)).1.toNat
    else free 2
  reg v.stat 0 ++ reg v.shadow 1 ++ sum ++ free 3 ++ (if v.fly.isEmpty then leBytes 4 0 else free 4) ++ leBytes 4 0

/-- The bytes of a store: tile scratch and the vector registers of a firebox, the pool of a die, and what State holds of the other
stores. -/
def State.storeBytes (s : State) (d store off len : Nat) : List Byte :=
  if d < 272 ∧ store = 0 then mreadN (s.tile d).scratch off len
  else if d < 272 ∧ store = 4 then mreadN (s.tile d).vregs off len
  else if 272 ≤ d ∧ d < 276 ∧ store = 5 then mreadN (tget [] s.mem.pools (d - 272)) off len
  else if d < 272 then slice (((s.tile d).storeWords store).flatMap (leBytes 4)) off len
  else (List.range len).map (fun i => Config.scanByte (s.free + d) (3 * 2 ^ 8 + store) (off + i))

/-- An entry of a LINK record: SRC, DST, SEQ, TYPE, and STATE 0 for a frame of the transmit store, 1 for one of the receive buffer. -/
def linkEntry (src dst seq typ held : Nat) : List Byte :=
  leBytes 4 src ++ leBytes 4 dst ++ leBytes 4 seq ++ leBytes 4 (typ + 16 * held)

/-- The chimney and the bytes of a frame that waits in the receive buffer. -/
def heldBytes : Instr → Option (Nat × List Byte)
  | .flagUpReceive c f => some (c.toNat, f)
  | .flagDownReceive c f => some (c.toNat, f)
  | .gstopFrame c f => some (c.toNat, f)
  | .collFrameReceive c f => some (c.toNat, f)
  | .partFrame c f => some (c.toNat, f)
  | .parFrame c f => some (c.toNat, f)
  | .endMark c f => some (c.toNat, f)
  | .pairingFrame c f => some (c.toNat, f)
  | .ackFrame c f => some (c.toNat, f)
  | .syncFrame c f _ _ => some (c.toNat, f)
  | .dreqFrame c f _ => some (c.toNat, f)
  | .respFrame c f => some (c.toNat, f)
  | _ => none

/-- A frame of the receive buffer as the Uadal engine reads it. -/
def State.heldFrame (s : State) (ch : Nat) (l : List Byte) : Option Frame :=
  match linkArrives s.ip6 (s.ownAddr ch) (s.setting 0x0120) l with
  | .payload u => parseFrame u
  | _ => none

/-- The LINK record's entries of a chimney: the frames of the transmit store that went out on it, or have not gone out and stand with
chimney 0, then those of its receive buffer (Table 15-10). -/
def State.linkEntries (s : State) (ch : Nat) : List (List Byte) :=
  s.net.peers.flatMap (fun p => (p.2.unacked.filter (fun t => t.chimney == ch)).map (fun t =>
    linkEntry (s.devid.getD 0xFFFFF) p.1 t.seq t.typ 0)) ++
  s.net.rxHeld.filterMap (fun c => match heldBytes c with
    | some (k, l) => if k = ch then (s.heldFrame ch l).map (fun f => linkEntry f.src f.dst f.seq f.typ 1) else none
    | none => none)

/-- The REGS, MEM, HOB and LINK records of a domain (R400). Which offsets a record begins at is open (log 90); a HOB has 4,225 entries of 24
bytes. -/
def State.scanParts (s : State) (d : Nat) : List (List Byte) :=
  (Config.scanRegs d).map (fun p => scanRecord 2 d p.1 ((List.range (2 * p.2)).flatMap (fun i => leBytes 4 (s.scanWord d (p.1 + 4 * i)).toNat))) ++
  (Config.scanStores d).map (fun p => scanRecord 3 d p.1 (leBytes 8 p.2.1 ++ s.storeBytes d p.1 p.2.1 (8 * p.2.2))) ++
  (if d < 272 then (List.range 3).map (fun h => scanRecord 4 d h
    ((List.range 65).flatMap (fun k => (List.range 65).flatMap (fun n => s.hobEntry d h k n)))) else []) ++
  (if d = 318 ∨ d = 319 then [scanRecord 6 d (d - 318) (s.linkEntries (d - 318)).flatten] else [])

/-- The records of a domain: DOMAIN, whose cycles from the stop to the halt are open, its crossings, and its other parts. -/
def State.scanDomain (s : State) (d : Nat) : List (List Byte) :=
  let cycles := (Config.freeWord (s.free + d)).toNat
  scanRecord 1 d 0 (leBytes 8 (tget 0 s.clk.locals d) ++ leBytes 4 cycles ++ leBytes 4 (bnat (s.gsState == 1))) ::
    (s.crossings d ++ s.scanParts d)

/-- The domains from first to last. -/
def scanDoms (first last : Nat) : List Nat := (List.range (last + 1 - first)).map (fun i => first + i)

/-- SCAN_DUMP: the END record counts the others; every byte goes to OUT_ADDR, none inline, and a reply without one is refused (R361, R399). -/
def State.scanDump (s : State) (k : Slot) (first last : Nat) : State :=
  let at_ := match getSlot s.ctl.inflight k with | some f => (f.outAddr, f.outLen) | none => (0, 0)
  let room := at_.2
  let ds := scanDoms first last
  if s.gsState = 0 ∨ at_.1 = 0 ∨ last < first ∨ 326 < last ∨ room < ds.foldl (fun n d => n + scanBound d) 0 then s.deny k stNOPERM
  else
    let rs := ds.flatMap (fun d => s.scanDomain d)
    let all := rs.flatten
    (({ s with free := s.free + 327 } : State).emit (.hostWrite at_.1
      (all ++ scanRecord 7 0 0 (leBytes 4 rs.length ++ leBytes 4 (crc32c all).toNat)))).ok k

/-- SCAN_DUMP. -/
def execScanDump (slot : Slot) (first last : BitVec 9) (s : State) : Host.Outcome State Fault Refusal :=
  ok (s.scanDump slot first.toNat last.toNat)

/-- DOMSEL: JTAG instruction 0x20. -/
def execDomsel (dom : BitVec 9) (s : State) : Host.Outcome State Fault Refusal :=
  ok { s with obs := { s.obs with ir := 0x20, dom := dom.toNat } }

/-- JTAG instruction 0x21 stands in the instruction register. -/
def State.scanIr (s : State) : State := { s with obs := { s.obs with ir := 0x21 } }

/-- DOMSCAN, JTAG instruction 0x21: the selected domain's records, zeros while GS_STATE is RUN (shown as one byte); what a DOM above 326 shifts out is open. -/
def execDomscan (s : State) : Host.Outcome State Fault Refusal :=
  ok (if s.gsState = 0 then s.scanIr.emit (.jtag [0])
    else ({ s.scanIr with free := s.free + 327 } : State).emit (.jtag (if s.obs.dom < 327 then (s.scanDomain s.obs.dom).flatten
      else [Config.scanByte s.free 0 s.obs.dom])))

end Sys2Proof.Machine
end

