-- ==== Sys2Proof/Machine/Dispatch.lean ====
section
/-! DEFINITION. The dispatch: one arm for each command, one direct call of its meaning. -/

namespace Sys2Proof.Machine

def exec (i : Instr) (s : State) : Host.Outcome State Fault Refusal :=
  match i with
  | .dbRing bits => Sys2Proof.Machine.execDbRing bits s
  | .mbDoneClear bits => Sys2Proof.Machine.execMbDoneClear bits s
  | .mailboxRequestWrite mb off data => Sys2Proof.Machine.execMailboxRequestWrite mb off data s
  | .bar0BadAccess isRead off size => Sys2Proof.Machine.execBar0BadAccess isRead off size s
  | .registerWrite space off value wide => Sys2Proof.Machine.execRegisterWrite space off value wide s
  | .beatNowLoRead => Sys2Proof.Machine.execBeatNowLoRead s
  | .stepLoRead => Sys2Proof.Machine.execStepLoRead s
  | .schedLoRead => Sys2Proof.Machine.execSchedLoRead s
  | .fltFirstBeatLoRead => Sys2Proof.Machine.execFltFirstBeatLoRead s
  | .ccSampleBeatLoRead => Sys2Proof.Machine.execCcSampleBeatLoRead s
  | .ccFreezeBeatLoRead => Sys2Proof.Machine.execCcFreezeBeatLoRead s
  | .trWptrLoRead => Sys2Proof.Machine.execTrWptrLoRead s
  | .gsBeatLoRead => Sys2Proof.Machine.execGsBeatLoRead s
  | .commandReply slot => Sys2Proof.Machine.execCommandReply slot s
  | .devInfo slot page => Sys2Proof.Machine.execDevInfo slot page s
  | .jobLoad slot ctx image => Sys2Proof.Machine.execJobLoad slot ctx image s
  | .schedLoad slot ctx image => Sys2Proof.Machine.execSchedLoad slot ctx image s
  | .jobStart slot ctx b0 => Sys2Proof.Machine.execJobStart slot ctx b0 s
  | .jobStop slot ctx sStop => Sys2Proof.Machine.execJobStop slot ctx sStop s
  | .snapPolicySet slot ctx policy => Sys2Proof.Machine.execSnapPolicySet slot ctx policy s
  | .snapNow slot ctx sCut => Sys2Proof.Machine.execSnapNow slot ctx sCut s
  | .restore slot ctx source gen => Sys2Proof.Machine.execRestore slot ctx source gen s
  | .partnerSet slot force devid fdTag => Sys2Proof.Machine.execPartnerSet slot force devid fdTag s
  | .parityGroupSet slot force members fdTag => Sys2Proof.Machine.execParityGroupSet slot force members fdTag s
  | .fwStage slot image => Sys2Proof.Machine.execFwStage slot image s
  | .fwActivate slot bAct => Sys2Proof.Machine.execFwActivate slot bAct s
  | .setWrite slot entries => Sys2Proof.Machine.execSetWrite slot entries s
  | .setStore slot all ids => Sys2Proof.Machine.execSetStore slot all ids s
  | .keyRotate slot wrapped => Sys2Proof.Machine.execKeyRotate slot wrapped s
  | .faultForce slot source react count => Sys2Proof.Machine.execFaultForce slot source react count s
  | .ctrConfig slot block counter chain en userRd event => Sys2Proof.Machine.execCtrConfig slot block counter chain en userRd event s
  | .ctrFreeze slot beat => Sys2Proof.Machine.execCtrFreeze slot beat s
  | .ctrRelease slot beat => Sys2Proof.Machine.execCtrRelease slot beat s
  | .traceConfig slot en mask ringBytes => Sys2Proof.Machine.execTraceConfig slot en mask ringBytes s
  | .gstopSnap slot cluster => Sys2Proof.Machine.execGstopSnap slot cluster s
  | .gstopBeat slot cluster => Sys2Proof.Machine.execGstopBeat slot cluster s
  | .scanDump slot first last => Sys2Proof.Machine.execScanDump slot first last s
  | .cartEject slot => Sys2Proof.Machine.execCartEject slot s
  | .clkSelectDomain slot dom sel => Sys2Proof.Machine.execClkSelectDomain slot dom sel s
  | .clkSelectRef slot refPort refLane altPort altLane => Sys2Proof.Machine.execClkSelectRef slot refPort refLane altPort altLane s
  | .clkSelectBeatDiv slot d bEff => Sys2Proof.Machine.execClkSelectBeatDiv slot d bEff s
  | .portConfig slot entries => Sys2Proof.Machine.execPortConfig slot entries s
  | .tableLoad slot g ctx sEff images => Sys2Proof.Machine.execTableLoad slot g ctx sEff images s
  | .descCreate slot ctx desc => Sys2Proof.Machine.execDescCreate slot ctx desc s
  | .streamArm slot ctx sn tile sd => Sys2Proof.Machine.execStreamArm slot ctx sn tile sd s
  | .streamArmRearm slot ctx sn tile base scaleBase => Sys2Proof.Machine.execStreamArmRearm slot ctx sn tile base scaleBase s
  | .sidebandMessage msg => Sys2Proof.Machine.execSidebandMessage msg s
  | .pokerLine line => Sys2Proof.Machine.execPokerLine line s
  | .perstN => Sys2Proof.Machine.execPerstN s
  | .bar2Read off len => Sys2Proof.Machine.execBar2Read off len s
  | .bar2Write off data => Sys2Proof.Machine.execBar2Write off data s
  | .nop t w => Sys2Proof.Machine.execNop t w s
  | .setvl t w => Sys2Proof.Machine.execSetvl t w s
  | .xli t w => Sys2Proof.Machine.execXli t w s
  | .xlih t w => Sys2Proof.Machine.execXlih t w s
  | .xadd t w => Sys2Proof.Machine.execXadd t w s
  | .xmv t w => Sys2Proof.Machine.execXmv t w s
  | .flagrd t w => Sys2Proof.Machine.execFlagrd t w s
  | .flagclr t w => Sys2Proof.Machine.execFlagclr t w s
  | .vmov t w => Sys2Proof.Machine.execVmov t w s
  | .flrd t w => Sys2Proof.Machine.execFlrd t w s
  | .flwr t w => Sys2Proof.Machine.execFlwr t w s
  | .lds t w => Sys2Proof.Machine.execLds t w s
  | .sts t w => Sys2Proof.Machine.execSts t w s
  | .ashwait t w => Sys2Proof.Machine.execAshwait t w s
  | .ashrd t w => Sys2Proof.Machine.execAshrd t w s
  | .ashhdr t w => Sys2Proof.Machine.execAshhdr t w s
  | .ashpop t w => Sys2Proof.Machine.execAshpop t w s
  | .vadd t w => Sys2Proof.Machine.execVadd t w s
  | .vsub t w => Sys2Proof.Machine.execVsub t w s
  | .vmul t w => Sys2Proof.Machine.execVmul t w s
  | .vfma t w => Sys2Proof.Machine.execVfma t w s
  | .vfms t w => Sys2Proof.Machine.execVfms t w s
  | .vfnma t w => Sys2Proof.Machine.execVfnma t w s
  | .vmin t w => Sys2Proof.Machine.execVmin t w s
  | .vmax t w => Sys2Proof.Machine.execVmax t w s
  | .vabs t w => Sys2Proof.Machine.execVabs t w s
  | .vneg t w => Sys2Proof.Machine.execVneg t w s
  | .vclamp t w => Sys2Proof.Machine.execVclamp t w s
  | .vlerp t w => Sys2Proof.Machine.execVlerp t w s
  | .viadd t w => Sys2Proof.Machine.execViadd t w s
  | .visub t w => Sys2Proof.Machine.execVisub t w s
  | .vimul t w => Sys2Proof.Machine.execVimul t w s
  | .vand t w => Sys2Proof.Machine.execVand t w s
  | .vor t w => Sys2Proof.Machine.execVor t w s
  | .vxor t w => Sys2Proof.Machine.execVxor t w s
  | .vshl t w => Sys2Proof.Machine.execVshl t w s
  | .vshr t w => Sys2Proof.Machine.execVshr t w s
  | .vsra t w => Sys2Proof.Machine.execVsra t w s
  | .vcmpeq t w => Sys2Proof.Machine.execVcmpeq t w s
  | .vcmpne t w => Sys2Proof.Machine.execVcmpne t w s
  | .vcmplt t w => Sys2Proof.Machine.execVcmplt t w s
  | .vcmple t w => Sys2Proof.Machine.execVcmple t w s
  | .vclass t w => Sys2Proof.Machine.execVclass t w s
  | .vsel t w => Sys2Proof.Machine.execVsel t w s
  | .mand t w => Sys2Proof.Machine.execMand t w s
  | .mor t w => Sys2Proof.Machine.execMor t w s
  | .mxor t w => Sys2Proof.Machine.execMxor t w s
  | .mnot t w => Sys2Proof.Machine.execMnot t w s
  | .mpop t w => Sys2Proof.Machine.execMpop t w s
  | .mprefix t w => Sys2Proof.Machine.execMprefix t w s
  | .vperm t w => Sys2Proof.Machine.execVperm t w s
  | .vbcl t w => Sys2Proof.Machine.execVbcl t w s
  | .vrot t w => Sys2Proof.Machine.execVrot t w s
  | .vslup t w => Sys2Proof.Machine.execVslup t w s
  | .vsldn t w => Sys2Proof.Machine.execVsldn t w s
  | .vzip t w => Sys2Proof.Machine.execVzip t w s
  | .vunzip t w => Sys2Proof.Machine.execVunzip t w s
  | .vcmpr t w => Sys2Proof.Machine.execVcmpr t w s
  | .vrsum t w => Sys2Proof.Machine.execVrsum t w s
  | .vrmax t w => Sys2Proof.Machine.execVrmax t w s
  | .vrmin t w => Sys2Proof.Machine.execVrmin t w s
  | .vramax t w => Sys2Proof.Machine.execVramax t w s
  | .vrargmax t w => Sys2Proof.Machine.execVrargmax t w s
  | .vscanlr t w => Sys2Proof.Machine.execVscanlr t w s
  | .vscansum t w => Sys2Proof.Machine.execVscansum t w s
  | .vscanmax t w => Sys2Proof.Machine.execVscanmax t w s
  | .vgate t w => Sys2Proof.Machine.execVgate t w s
  | .vgatea t w => Sys2Proof.Machine.execVgatea t w s
  | .vcvt t w => Sys2Proof.Machine.execVcvt t w s
  | .vcvtmx t w => Sys2Proof.Machine.execVcvtmx t w s
  | .vdcmx t w => Sys2Proof.Machine.execVdcmx t w s
  | .vcvtsb t w => Sys2Proof.Machine.execVcvtsb t w s
  | .vdcsb t w => Sys2Proof.Machine.execVdcsb t w s
  | .vrngu t w => Sys2Proof.Machine.execVrngu t w s
  | .vrngb t w => Sys2Proof.Machine.execVrngb t w s
  | .vsfu t w => Sys2Proof.Machine.execVsfu t w s
  | .vsfu2 t w => Sys2Proof.Machine.execVsfu2 t w s
  | .vdiv t w => Sys2Proof.Machine.execVdiv t w s
  | .vsqrt t w => Sys2Proof.Machine.execVsqrt t w s
  | .vrsqrt t w => Sys2Proof.Machine.execVrsqrt t w s
  | .vstat t w => Sys2Proof.Machine.execVstat t w s
  | .vstatm t w => Sys2Proof.Machine.execVstatm t w s
  | .vsmxu t w => Sys2Proof.Machine.execVsmxu t w s
  | .vsmxfMerge t w => Sys2Proof.Machine.execVsmxfMerge t w s
  | .vsmxfProbabilities t w => Sys2Proof.Machine.execVsmxfProbabilities t w s
  | .grateRegisterUe unit mask reg => Sys2Proof.Machine.execGrateRegisterUe unit mask reg s
  | .grateRegisterCe unit mask reg => Sys2Proof.Machine.execGrateRegisterCe unit mask reg s
  | .tbufReqSet unit => Sys2Proof.Machine.execTbufReqSet unit s
  | .tbufReqClear unit => Sys2Proof.Machine.execTbufReqClear unit s
  | .loop t count len => Sys2Proof.Machine.execLoop t count len s
  | .arm t sd sn => Sys2Proof.Machine.execArm t sd sn s
  | .rearm t ra wait sn => Sys2Proof.Machine.execRearm t ra wait sn s
  | .swait t mask => Sys2Proof.Machine.execSwait t mask s
  | .ringStart t sn => Sys2Proof.Machine.execRingStart t sn s
  | .disarm t sn => Sys2Proof.Machine.execDisarm t sn s
  | .pass t d => Sys2Proof.Machine.execPass t d s
  | .passStart t hob => Sys2Proof.Machine.execPassStart t hob s
  | .passCommit t hob => Sys2Proof.Machine.execPassCommit t hob s
  | .ashStageVisible t => Sys2Proof.Machine.execAshStageVisible t s
  | .checkMismatch t hob seq f => Sys2Proof.Machine.execCheckMismatch t hob seq f s
  | .replayMismatch t hob seq f => Sys2Proof.Machine.execReplayMismatch t hob seq f s
  | .hstateUe t hob obj => Sys2Proof.Machine.execHstateUe t hob obj s
  | .hobStateCe t hob obj => Sys2Proof.Machine.execHobStateCe t hob obj s
  | .preemptionRequest t => Sys2Proof.Machine.execPreemptionRequest t s
  | .armWaitEnd t sn => Sys2Proof.Machine.execArmWaitEnd t sn s
  | .streamTransfer t sn n => Sys2Proof.Machine.execStreamTransfer t sn n s
  | .streamPassEnd t sn => Sys2Proof.Machine.execStreamPassEnd t sn s
  | .translationMiss cache ctx page => Sys2Proof.Machine.execTranslationMiss cache ctx page s
  | .copyOnWriteFault t sn => Sys2Proof.Machine.execCopyOnWriteFault t sn s
  | .pageNotPresentFault t sn => Sys2Proof.Machine.execPageNotPresentFault t sn s
  | .protectionFault t sn => Sys2Proof.Machine.execProtectionFault t sn s
  | .faultServed t sn => Sys2Proof.Machine.execFaultServed t sn s
  | .streamAbort t sn code => Sys2Proof.Machine.execStreamAbort t sn code s
  | .ringSliceReceive t sn ue => Sys2Proof.Machine.execRingSliceReceive t sn ue s
  | .ringStepEnd t sn => Sys2Proof.Machine.execRingStepEnd t sn s
  | .inval ctx first count all => Sys2Proof.Machine.execInval ctx first count all s
  | .invalComplete => Sys2Proof.Machine.execInvalComplete s
  | .pageMove ctx page => Sys2Proof.Machine.execPageMove ctx page s
  | .correctedError tier frame => Sys2Proof.Machine.execCorrectedError tier frame s
  | .uncorrectableRead what => Sys2Proof.Machine.execUncorrectableRead what s
  | .pageRetirement tier frame reason => Sys2Proof.Machine.execPageRetirement tier frame reason s
  | .patrolScrubRead tier frame line found written => Sys2Proof.Machine.execPatrolScrubRead tier frame line found written s
  | .retrainWindowTier1 channel => Sys2Proof.Machine.execRetrainWindowTier1 channel s
  | .retrainWindowTier2 channel => Sys2Proof.Machine.execRetrainWindowTier2 channel s
  | .retrainWindowEnd tier channel => Sys2Proof.Machine.execRetrainWindowEnd tier channel s
  | .retrainingFailure tier channel => Sys2Proof.Machine.execRetrainingFailure tier channel s
  | .cartridgeLifeUpdate rate7d spareBp => Sys2Proof.Machine.execCartridgeLifeUpdate rate7d spareBp s
  | .referenceSourceLoss => Sys2Proof.Machine.execReferenceSourceLoss s
  | .sourceStable src => Sys2Proof.Machine.execSourceStable src s
  | .clkCtlSel dom sel => Sys2Proof.Machine.execClkCtlSel dom sel s
  | .clkCtlForce dom sel => Sys2Proof.Machine.execClkCtlForce dom sel s
  | .domainHold dom hold => Sys2Proof.Machine.execDomainHold dom hold s
  | .clockSwitchDone dom => Sys2Proof.Machine.execClockSwitchDone dom s
  | .switchTimeout dom => Sys2Proof.Machine.execSwitchTimeout dom s
  | .clkMonWindow dom count => Sys2Proof.Machine.execClkMonWindow dom count s
  | .domainDead dom => Sys2Proof.Machine.execDomainDead dom s
  | .beatEdge dma => Sys2Proof.Machine.execBeatEdge dma s
  | .beatToken dom => Sys2Proof.Machine.execBeatToken dom s
  | .timeExchangeStart child t1 => Sys2Proof.Machine.execTimeExchangeStart child t1 s
  | .syncFrame chimney frame t2 t3 => Sys2Proof.Machine.execSyncFrame chimney frame t2 t3 s
  | .dreqFrame chimney frame t4 => Sys2Proof.Machine.execDreqFrame chimney frame t4 s
  | .respFrame chimney frame => Sys2Proof.Machine.execRespFrame chimney frame s
  | .phaseSlewStep => Sys2Proof.Machine.execPhaseSlewStep s
  | .alignTimeout => Sys2Proof.Machine.execAlignTimeout s
  | .pwrCapNFall => Sys2Proof.Machine.execPwrCapNFall s
  | .fastHoldExpiry => Sys2Proof.Machine.execFastHoldExpiry s
  | .fastLevelStep => Sys2Proof.Machine.execFastLevelStep s
  | .slowDamperUpdate meanWatts => Sys2Proof.Machine.execSlowDamperUpdate meanWatts s
  | .effLvlApply unit => Sys2Proof.Machine.execEffLvlApply unit s
  | .tileFrequencyChange mhz => Sys2Proof.Machine.execTileFrequencyChange mhz s
  | .schedAt t beat => Sys2Proof.Machine.execSchedAt t beat s
  | .fence t barrier beat => Sys2Proof.Machine.execFence t barrier beat s
  | .flagWord t beat => Sys2Proof.Machine.execFlagWord t beat s
  | .gated t len => Sys2Proof.Machine.execGated t len s
  | .stepWord t beat => Sys2Proof.Machine.execStepWord t beat s
  | .classWord t sn => Sys2Proof.Machine.execClassWord t sn s
  | .join t addr => Sys2Proof.Machine.execJoin t addr s
  | .layer t phase id => Sys2Proof.Machine.execLayer t phase id s
  | .recomp t id => Sys2Proof.Machine.execRecomp t id s
  | .pro t len => Sys2Proof.Machine.execPro t len s
  | .persistWriteRefused t => Sys2Proof.Machine.execPersistWriteRefused t s
  | .tableCheckComplete => Sys2Proof.Machine.execTableCheckComplete s
  | .flagUpReceive chimney frame => Sys2Proof.Machine.execFlagUpReceive chimney frame s
  | .flagDownReceive chimney frame => Sys2Proof.Machine.execFlagDownReceive chimney frame s
  | .flagUpRepeat => Sys2Proof.Machine.execFlagUpRepeat s
  | .gstopFrame chimney frame => Sys2Proof.Machine.execGstopFrame chimney frame s
  | .slotStart slot => Sys2Proof.Machine.execSlotStart slot s
  | .collFrameReceive chimney frame => Sys2Proof.Machine.execCollFrameReceive chimney frame s
  | .collChunkFold slot chunk lev pos => Sys2Proof.Machine.execCollChunkFold slot chunk lev pos s
  | .partFrame chimney frame => Sys2Proof.Machine.execPartFrame chimney frame s
  | .parFrame chimney frame => Sys2Proof.Machine.execParFrame chimney frame s
  | .endMark chimney frame => Sys2Proof.Machine.execEndMark chimney frame s
  | .pairingFrame chimney frame => Sys2Proof.Machine.execPairingFrame chimney frame s
  | .ackFrame chimney frame => Sys2Proof.Machine.execAckFrame chimney frame s
  | .ackTimer peer => Sys2Proof.Machine.execAckTimer peer s
  | .rtoExpiry peer seq => Sys2Proof.Machine.execRtoExpiry peer seq s
  | .pairReset peer => Sys2Proof.Machine.execPairReset peer s
  | .chimneyFailure chimney => Sys2Proof.Machine.execChimneyFailure chimney s
  | .chimneyReturn chimney => Sys2Proof.Machine.execChimneyReturn chimney s
  | .pathloss peer chimney => Sys2Proof.Machine.execPathloss peer chimney s
  | .pathlossRetry peer => Sys2Proof.Machine.execPathlossRetry peer s
  | .peerDead peer => Sys2Proof.Machine.execPeerDead peer s
  | .linkDown chimney link => Sys2Proof.Machine.execLinkDown chimney link s
  | .arpRequest chimney v6 target => Sys2Proof.Machine.execArpRequest chimney v6 target s
  | .icmpEchoRequest chimney v6 target payload => Sys2Proof.Machine.execIcmpEchoRequest chimney v6 target payload s
  | .pauseFrame chimney => Sys2Proof.Machine.execPauseFrame chimney s
  | .congestionNotification qp cnp => Sys2Proof.Machine.execCongestionNotification qp cnp s
  | .deltaPageSend ctx page => Sys2Proof.Machine.execDeltaPageSend ctx page s
  | .cartridgeWriteAck writes => Sys2Proof.Machine.execCartridgeWriteAck writes s
  | .generationSeal => Sys2Proof.Machine.execGenerationSeal s
  | .drain => Sys2Proof.Machine.execDrain s
  | .drainComplete => Sys2Proof.Machine.execDrainComplete s
  | .resyncComplete => Sys2Proof.Machine.execResyncComplete s
  | .cartInsert c => Sys2Proof.Machine.execCartInsert c s
  | .cartHeaderRead => Sys2Proof.Machine.execCartHeaderRead s
  | .cartReady => Sys2Proof.Machine.execCartReady s
  | .surpriseRemoval => Sys2Proof.Machine.execSurpriseRemoval s
  | .faultReport source info => Sys2Proof.Machine.execFaultReport source info s
  | .quietTimerExpiry => Sys2Proof.Machine.execQuietTimerExpiry s
  | .spareMigration t => Sys2Proof.Machine.execSpareMigration t s
  | .migrationCopy t ue => Sys2Proof.Machine.execMigrationCopy t ue s
  | .migrationRemap t => Sys2Proof.Machine.execMigrationRemap t s
  | .migrationResume t => Sys2Proof.Machine.execMigrationResume t s
  | .fwSwitch => Sys2Proof.Machine.execFwSwitch s
  | .fwHealthTimeout healthy => Sys2Proof.Machine.execFwHealthTimeout healthy s
  | .mantelRestart => Sys2Proof.Machine.execMantelRestart s
  | .spareSelfTest unit passed => Sys2Proof.Machine.execSpareSelfTest unit passed s
  | .sensorCalibration die sensor => Sys2Proof.Machine.execSensorCalibration die sensor s
  | .attnPress => Sys2Proof.Machine.execAttnPress s
  | .attnHold => Sys2Proof.Machine.execAttnHold s
  | .latchOpen => Sys2Proof.Machine.execLatchOpen s
  | .tjHigh tj => Sys2Proof.Machine.execTjHigh tj s
  | .thermalShutdown cause => Sys2Proof.Machine.execThermalShutdown cause s
  | .coolantOutOfRange bad => Sys2Proof.Machine.execCoolantOutOfRange bad s
  | .dieRestart => Sys2Proof.Machine.execDieRestart s
  | .feedOutOfRange millivolts => Sys2Proof.Machine.execFeedOutOfRange millivolts s
  | .feedLoss => Sys2Proof.Machine.execFeedLoss s
  | .holdupEnd => Sys2Proof.Machine.execHoldupEnd s
  | .kindling ga => Sys2Proof.Machine.execKindling ga s
  | .kindlingCrystal => Sys2Proof.Machine.execKindlingCrystal s
  | .kindlingMantel okA okB => Sys2Proof.Machine.execKindlingMantel okA okB s
  | .kindlingPcie => Sys2Proof.Machine.execKindlingPcie s
  | .kindlingPowerUp => Sys2Proof.Machine.execKindlingPowerUp s
  | .kindlingSelfTest failedUnits failedTier1 failedTier2 => Sys2Proof.Machine.execKindlingSelfTest failedUnits failedTier1 failedTier2 s
  | .kindlingLoad => Sys2Proof.Machine.execKindlingLoad s
  | .kindlingReady => Sys2Proof.Machine.execKindlingReady s
  | .counterWrap block counter => Sys2Proof.Machine.execCounterWrap block counter s
  | .freezeEdge => Sys2Proof.Machine.execFreezeEdge s
  | .releaseEdge => Sys2Proof.Machine.execReleaseEdge s
  | .traceEvent cls unit ltile cyc data0 data1 => Sys2Proof.Machine.execTraceEvent cls unit ltile cyc data0 data1 s
  | .beatStopEdge => Sys2Proof.Machine.execBeatStopEdge s
  | .domsel dom => Sys2Proof.Machine.execDomsel dom s
  | .domscan => Sys2Proof.Machine.execDomscan s
  | .linkUp chimney link => Sys2Proof.Machine.execLinkUp chimney link s
  | .pwrCapNRise => Sys2Proof.Machine.execPwrCapNRise s
  | .feedReturn millivolts => Sys2Proof.Machine.execFeedReturn millivolts s
  | .sourceLoss src => Sys2Proof.Machine.execSourceLoss src s
  | .pfcFrame chimney priority pause => Sys2Proof.Machine.execPfcFrame chimney priority pause s
  | .roceResponse qp answer => Sys2Proof.Machine.execRoceResponse qp answer s
  | .arpReply chimney v6 sender mac => Sys2Proof.Machine.execArpReply chimney v6 sender mac s
  | .ptpMessage m => Sys2Proof.Machine.execPtpMessage m s
  | .pcieLinkRetrain => Sys2Proof.Machine.execPcieLinkRetrain s
  | .pcieConfigRequest msixEnable => Sys2Proof.Machine.execPcieConfigRequest msixEnable s
  | .factoryUnlock => Sys2Proof.Machine.execFactoryUnlock s
  | .cellLevelInjection target bits hold => Sys2Proof.Machine.execCellLevelInjection target bits hold s
  | .sfuStoreError unit uncorrectable => Sys2Proof.Machine.execSfuStoreError unit uncorrectable s
  | .cartRemoved => Sys2Proof.Machine.execCartRemoved s
  | .latchClose => Sys2Proof.Machine.execLatchClose s
  | .dieRestartComplete => Sys2Proof.Machine.execDieRestartComplete s

end Sys2Proof.Machine
end

