-- ==== Sys2Proof/WellFormed.lean ====
section
/-! DEFINITION. When a command is well formed: its operands name parts that exist and its words have the form that the spec asks
of them. A command whose operands are not well formed still has its meaning in the machine; the sender is held to this. -/

namespace Sys2Proof

open Sys2Proof.Machine

/-- A page of a context (R190). -/
def pageOk (p : Nat) : Bool := decide (p < 2 ^ 26)

/-- A register space that exists. -/
def spaceOk : RegSpace → Bool
  | .firebox u => unitOk u
  | _ => true

/-- A source ID of an assigned class and unit (Tables 13-1, 13-2). -/
def sourceOk (src : Nat) : Bool := decide (1 ≤ src / 4096 ∧ src / 4096 ≤ 14) && unitAssigned (src / 4096) (src % 4096)

/-- A host request that stays within a 4 KiB page of the address space (R211). -/
def pageAccess (off len : Nat) : Bool := decide (0 < len ∧ off % 4096 + len ≤ 4096)

/-- What failed in a pass: something did. -/
def failOk (f : CheckFail) : Bool := f.parity || f.row.isSome || f.col.isSome

/-- A channel of a tier (R204, R205). -/
def channelOk (tier : Tier) (ch : Nat) : Bool :=
  match tier with
  | .t1 => decide (ch < 256)
  | .t2 => decide (ch < 16)

/-- The place of an uncorrectable read exists. -/
def ueOk : UeRead → Bool
  | .stream _ _ tier frame _ => frameOk tier frame
  | .cartridge _ _ frame => decide (frame < 122070312)
  | .pageMap _ g _ => decide (g < 2 ^ 23)

/-- Whether a command is well formed. -/
def Instr.wellFormed : Instr → Bool
  | .dbRing _ => true
  | .mbDoneClear _ => true
  | .mailboxRequestWrite _ off data => accessOk off.toNat data.length
  | .bar0BadAccess _ off size => !accessOk off.toNat size
  | .registerWrite sp off _ wide => spaceOk sp && accessOk off (if wide then 8 else 4)
  | .beatNowLoRead => true
  | .stepLoRead => true
  | .schedLoRead => true
  | .fltFirstBeatLoRead => true
  | .ccSampleBeatLoRead => true
  | .ccFreezeBeatLoRead => true
  | .trWptrLoRead => true
  | .gsBeatLoRead => true
  | .commandReply _ => true
  | .devInfo _ page => decide (page.toNat ≤ 6)
  | .jobLoad _ _ _ => true
  | .schedLoad _ _ _ => true
  | .jobStart _ _ _ => true
  | .jobStop _ _ _ => true
  | .snapPolicySet _ _ _ => true
  | .snapNow _ _ _ => true
  | .restore _ _ _ _ => true
  | .partnerSet _ _ _ _ => true
  | .parityGroupSet _ _ l _ => l.length == 10
  | .fwStage _ _ => true
  | .fwActivate _ _ => true
  | .setWrite _ es => decide (0 < es.length ∧ es.length ≤ 32)
  | .setStore _ _ ids => decide (ids.length ≤ 32)
  | .keyRotate _ w => w.length == 40
  | .faultForce _ src _ n => sourceOk src.toNat && decide (0 < n.toNat)
  | .ctrConfig _ b _ _ _ _ _ => blockOk b.toNat
  | .ctrFreeze _ _ => true
  | .ctrRelease _ _ => true
  | .traceConfig _ _ _ _ => true
  | .gstopSnap _ _ => true
  | .gstopBeat _ _ => true
  | .scanDump _ first last => decide (first.toNat ≤ last.toNat) && domOk last.toNat
  | .cartEject _ => true
  | .clkSelectDomain _ dom sel => domOk dom.toNat && inputOk dom.toNat sel.toNat
  | .clkSelectRef _ _ _ _ _ => true
  | .clkSelectBeatDiv _ _ _ => true
  | .portConfig _ es => decide (0 < es.length ∧ es.length ≤ 32)
  | .tableLoad _ _ _ _ _ => true
  | .descCreate _ _ _ => true
  | .streamArm _ _ _ _ _ => true
  | .streamArmRearm _ _ _ _ _ _ => true
  | .sidebandMessage _ => true
  | .pokerLine l => lineOk l
  | .perstN => true
  | .bar2Read off len => pageAccess off.toNat len.toNat
  | .bar2Write off data => pageAccess off.toNat data.length
  | .nop _ w => grateFormOk 0x00 w
  | .setvl _ w => grateFormOk 0x01 w
  | .xli _ w => grateFormOk 0x02 w
  | .xlih _ w => grateFormOk 0x03 w
  | .xadd _ w => grateFormOk 0x04 w
  | .xmv _ w => grateFormOk 0x05 w
  | .flagrd _ w => grateFormOk 0x06 w
  | .flagclr _ w => grateFormOk 0x07 w
  | .vmov _ w => grateFormOk 0x08 w
  | .flrd _ w => grateFormOk 0x09 w
  | .flwr _ w => grateFormOk 0x0A w
  | .lds _ w => grateFormOk 0x0B w
  | .sts _ w => grateFormOk 0x0C w
  | .ashwait _ w => grateFormOk 0x0D w
  | .ashrd _ w => grateFormOk 0x0E w
  | .ashhdr _ w => grateFormOk 0x0F w
  | .ashpop _ w => grateFormOk 0x10 w
  | .vadd _ w => grateFormOk 0x20 w
  | .vsub _ w => grateFormOk 0x21 w
  | .vmul _ w => grateFormOk 0x22 w
  | .vfma _ w => grateFormOk 0x23 w
  | .vfms _ w => grateFormOk 0x24 w
  | .vfnma _ w => grateFormOk 0x25 w
  | .vmin _ w => grateFormOk 0x26 w
  | .vmax _ w => grateFormOk 0x27 w
  | .vabs _ w => grateFormOk 0x28 w
  | .vneg _ w => grateFormOk 0x29 w
  | .vclamp _ w => grateFormOk 0x2A w
  | .vlerp _ w => grateFormOk 0x2B w
  | .viadd _ w => grateFormOk 0x30 w
  | .visub _ w => grateFormOk 0x31 w
  | .vimul _ w => grateFormOk 0x32 w
  | .vand _ w => grateFormOk 0x33 w
  | .vor _ w => grateFormOk 0x34 w
  | .vxor _ w => grateFormOk 0x35 w
  | .vshl _ w => grateFormOk 0x36 w
  | .vshr _ w => grateFormOk 0x37 w
  | .vsra _ w => grateFormOk 0x38 w
  | .vcmpeq _ w => grateFormOk 0x40 w
  | .vcmpne _ w => grateFormOk 0x41 w
  | .vcmplt _ w => grateFormOk 0x42 w
  | .vcmple _ w => grateFormOk 0x43 w
  | .vclass _ w => grateFormOk 0x44 w
  | .vsel _ w => grateFormOk 0x45 w
  | .mand _ w => grateFormOk 0x46 w
  | .mor _ w => grateFormOk 0x47 w
  | .mxor _ w => grateFormOk 0x48 w
  | .mnot _ w => grateFormOk 0x49 w
  | .mpop _ w => grateFormOk 0x4A w
  | .mprefix _ w => grateFormOk 0x4B w
  | .vperm _ w => grateFormOk 0x50 w
  | .vbcl _ w => grateFormOk 0x51 w
  | .vrot _ w => grateFormOk 0x52 w
  | .vslup _ w => grateFormOk 0x53 w
  | .vsldn _ w => grateFormOk 0x54 w
  | .vzip _ w => grateFormOk 0x55 w
  | .vunzip _ w => grateFormOk 0x56 w
  | .vcmpr _ w => grateFormOk 0x57 w
  | .vrsum _ w => grateFormOk 0x60 w
  | .vrmax _ w => grateFormOk 0x61 w
  | .vrmin _ w => grateFormOk 0x62 w
  | .vramax _ w => grateFormOk 0x63 w
  | .vrargmax _ w => grateFormOk 0x64 w
  | .vscanlr _ w => grateFormOk 0x68 w
  | .vscansum _ w => grateFormOk 0x69 w
  | .vscanmax _ w => grateFormOk 0x6A w
  | .vgate _ w => grateFormOk 0x70 w
  | .vgatea _ w => grateFormOk 0x71 w
  | .vcvt _ w => grateFormOk 0x78 w
  | .vcvtmx _ w => grateFormOk 0x79 w
  | .vdcmx _ w => grateFormOk 0x7A w
  | .vcvtsb _ w => grateFormOk 0x7B w
  | .vdcsb _ w => grateFormOk 0x7C w
  | .vrngu _ w => grateFormOk 0x7D w
  | .vrngb _ w => grateFormOk 0x7E w
  | .vsfu _ w => grateFormOk 0x80 w
  | .vsfu2 _ w => grateFormOk 0x81 w
  | .vdiv _ w => grateFormOk 0x82 w
  | .vsqrt _ w => grateFormOk 0x83 w
  | .vrsqrt _ w => grateFormOk 0x84 w
  | .vstat _ w => grateFormOk 0x85 w
  | .vstatm _ w => grateFormOk 0x86 w
  | .vsmxu _ w => grateFormOk 0x87 w
  | .vsmxfMerge _ w => grateFormOk 0x88 w && field w.imm.toNat 4 2 == 0
  | .vsmxfProbabilities _ w => grateFormOk 0x88 w && field w.imm.toNat 4 2 == 1
  | .grateRegisterUe u _ _ => unitOk u
  | .grateRegisterCe u _ _ => unitOk u
  | .tbufReqSet u => unitOk u
  | .tbufReqClear u => unitOk u
  | .loop _ count _ => decide (0 < count.toNat)
  | .arm _ _ _ => true
  | .rearm _ _ _ _ => true
  | .swait _ _ => true
  | .ringStart _ _ => true
  | .disarm _ _ => true
  | .pass _ d => passFormOk d
  | .passStart _ h => hobOk h
  | .passCommit _ h => hobOk h
  | .ashStageVisible _ => true
  | .checkMismatch _ h _ f => hobOk h && failOk f
  | .replayMismatch _ h _ f => hobOk h && failOk f
  | .hstateUe _ h _ => hobOk h
  | .hobStateCe _ h _ => hobOk h
  | .preemptionRequest _ => true
  | .armWaitEnd _ _ => true
  | .streamTransfer _ _ _ => true
  | .streamPassEnd _ _ => true
  | .translationMiss c _ p => decide (c ≤ 272) && pageOk p
  | .copyOnWriteFault _ _ => true
  | .pageNotPresentFault _ _ => true
  | .protectionFault _ _ => true
  | .faultServed _ _ => true
  | .streamAbort _ _ _ => true
  | .ringSliceReceive _ _ _ => true
  | .ringStepEnd _ _ => true
  | .inval _ first count all => all || decide (first + count ≤ 2 ^ 26)
  | .invalComplete => true
  | .pageMove _ p => pageOk p
  | .correctedError tier f => frameOk tier f
  | .uncorrectableRead w => ueOk w
  | .pageRetirement tier f _ => frameOk tier f
  | .patrolScrubRead tier f _ _ _ => frameOk tier f
  | .retrainWindowTier1 _ => true
  | .retrainWindowTier2 _ => true
  | .retrainWindowEnd tier ch => channelOk tier ch.toNat
  | .retrainingFailure tier ch => channelOk tier ch.toNat
  | .cartridgeLifeUpdate _ _ => true
  | .referenceSourceLoss => true
  | .sourceStable _ => true
  | .clkCtlSel d sel => domOk d && inputOk d sel.toNat
  | .clkCtlForce d sel => domOk d && inputOk d sel.toNat
  | .domainHold d _ => domOk d
  | .clockSwitchDone d => domOk d
  | .switchTimeout d => domOk d
  | .clkMonWindow d _ => domOk d
  | .domainDead d => domOk d
  | .beatEdge _ => true
  | .beatToken d => domOk d
  | .timeExchangeStart _ _ => true
  | .syncFrame _ _ _ _ => true
  | .dreqFrame _ _ _ => true
  | .respFrame _ _ => true
  | .phaseSlewStep => true
  | .alignTimeout => true
  | .pwrCapNFall => true
  | .fastHoldExpiry => true
  | .fastLevelStep => true
  | .slowDamperUpdate _ => true
  | .effLvlApply u => unitOk u
  | .tileFrequencyChange _ => true
  | .schedAt _ _ => true
  | .fence _ _ _ => true
  | .flagWord _ _ => true
  | .gated _ _ => true
  | .stepWord _ _ => true
  | .classWord _ _ => true
  | .join _ _ => true
  | .layer _ _ _ => true
  | .recomp _ _ => true
  | .pro _ _ => true
  | .persistWriteRefused _ => true
  | .tableCheckComplete => true
  | .flagUpReceive _ _ => true
  | .flagDownReceive _ _ => true
  | .flagUpRepeat => true
  | .gstopFrame _ _ => true
  | .slotStart _ => true
  | .collFrameReceive _ _ => true
  | .collChunkFold _ _ _ _ => true
  | .partFrame _ _ => true
  | .parFrame _ _ => true
  | .endMark _ _ => true
  | .pairingFrame _ _ => true
  | .ackFrame _ _ => true
  | .ackTimer _ => true
  | .rtoExpiry _ _ => true
  | .pairReset _ => true
  | .chimneyFailure _ => true
  | .chimneyReturn _ => true
  | .pathloss _ _ => true
  | .pathlossRetry _ => true
  | .peerDead _ => true
  | .linkDown _ _ => true
  | .arpRequest _ _ _ => true
  | .icmpEchoRequest _ _ _ _ => true
  | .pauseFrame _ => true
  | .congestionNotification _ _ => true
  | .deltaPageSend _ p => pageOk p
  | .cartridgeWriteAck _ => true
  | .generationSeal => true
  | .drain => true
  | .drainComplete => true
  | .resyncComplete => true
  | .cartInsert _ => true
  | .cartHeaderRead => true
  | .cartReady => true
  | .surpriseRemoval => true
  | .faultReport src _ => sourceOk src.toNat
  | .quietTimerExpiry => true
  | .spareMigration _ => true
  | .migrationCopy _ ue => match ue with | some a => decide (a < 3 * 2 ^ 20) | none => true
  | .migrationRemap _ => true
  | .migrationResume _ => true
  | .fwSwitch => true
  | .fwHealthTimeout _ => true
  | .mantelRestart => true
  | .spareSelfTest u _ => unitOk u
  | .sensorCalibration _ _ => true
  | .attnPress => true
  | .attnHold => true
  | .latchOpen => true
  | .tjHigh _ => true
  | .thermalShutdown _ => true
  | .coolantOutOfRange _ => true
  | .dieRestart => true
  | .feedOutOfRange _ => true
  | .feedLoss => true
  | .holdupEnd => true
  | .kindling _ => true
  | .kindlingCrystal => true
  | .kindlingMantel _ _ => true
  | .kindlingPcie => true
  | .kindlingPowerUp => true
  | .kindlingSelfTest us a b => us.all unitOk && a.all (fun c => decide (c < 256)) && b.all (fun c => decide (c < 16))
  | .kindlingLoad => true
  | .kindlingReady => true
  | .counterWrap b _ => blockOk b.toNat
  | .freezeEdge => true
  | .releaseEdge => true
  | .traceEvent c _ _ _ _ _ => decide (c.toNat ≤ 15) || c == 62
  | .beatStopEdge => true
  | .domsel d => domOk d.toNat
  | .domscan => true
  | .linkUp _ _ => true
  | .pwrCapNRise => true
  | .feedReturn _ => true
  | .sourceLoss _ => true
  | .pfcFrame _ _ _ => true
  | .roceResponse _ _ => true
  | .arpReply _ _ _ _ => true
  | .ptpMessage _ => true
  | .pcieLinkRetrain => true
  | .pcieConfigRequest _ => true
  | .factoryUnlock => true
  | .cellLevelInjection t _ _ => (targetUnit t).all unitOk
  | .sfuStoreError u _ => unitOk u
  | .cartRemoved => true
  | .latchClose => true
  | .dieRestartComplete => true

end Sys2Proof
end

