-- ==== Sys2Proof/Safety.lean ====
section
/-! DEFINITION. What counts as a safe run, and the terms that the statements use: a command that is answered with a next
state, the parts of the state that a command may touch, and the two invariants. -/

namespace Sys2Proof.Machine

/-! ## Runs -/

/-- A state of the module from which the next step goes on. -/
def Goes (s : State) : Prop := ∃ t, step s = .next t

/-- A state from which n steps go on. -/
def SafeFor : Nat → State → Prop
  | 0, _ => True
  | n + 1, s => ∃ t, step s = .next t ∧ SafeFor n t

/-- Every command that waits is well formed. -/
def State.queueOk (s : State) : Bool := s.pending.all Instr.wellFormed

/-- A command is answered with a next state, and that state has a property. -/
def Answers (c : Instr) (s : State) (p : State → Prop) : Prop := ∃ t, exec c s = .next t ∧ p t

/-! ## Replies -/

/-- The outcome that is recorded for a slot, where COMMAND_REPLY finds it. -/
def State.outcome (s : State) (k : Slot) : Option Reply := getSlot s.ctl.results k

/-! ## Words of a tile -/

/-- A program word of a logical tile starts (R154, R244): its stoker issues, and the grate takes instructions. -/
def GrateReady (s : State) (t : BitVec 8) : Prop := s.issues t.toNat = true ∧ (s.ltile t.toNat).grateRuns = true

/-- The stoker after a word that does not steer it. -/
def Stoker.past (k : Stoker) : Stoker := { k with waitWord := false }.goto (k.pc + 1)

/-- A step that changes one firebox and, beside it, only the performance counters and what their overflow raises: OVF_SEEN in
CC_STATUS, INT_PEND, a vector (R380 to R386). -/
structure OnlyTile (s t : State) (u : Nat) : Prop where
  rest : t = { s with
    tiles := t.tiles, obs := { s.obs with counters := t.obs.counters }, bar0 := t.bar0, out := t.out
    ctl := { s.ctl with held := t.ctl.held } }
  others : ∀ v, v ≠ u → t.tile v = s.tile v
  words : ∀ off, off ≠ 0x30000 → off ≠ 0x1000C → t.bar off = s.bar off

/-- The lanes of a register as written under R84: an active lane holds its result, an inactive one its old value (MZ = 0) or
+0 (MZ = 1); a result is cut to the lane. -/
def lanesWritten (a b : Tile) (g : GrateWord) (w n : Nat) (f : Nat → Nat) : Prop :=
  ∀ i, i < n → nth 0 (b.lanes g.vd.toNat w n) i =
    if a.active g i then f i % 2 ^ w else if g.mz then 0 else nth 0 (a.lanes g.vd.toNat w n) i

/-- Every byte of the vector registers outside the first m bytes of each named register reads as before. -/
def vregsKept (a b : Tile) (rs : List Nat) (m : Nat) : Prop :=
  ∀ x, (∀ r ∈ rs, ¬ (2048 * r ≤ x ∧ x < 2048 * r + m)) → mread b.vregs x = mread a.vregs x

/-- NUM_STATUS holds its old flags and those that the active lanes raise, a raised NF is noted (R257), and every other stored word is as
before (R35, R84). -/
def flagsRaised (a b : Tile) (g : GrateWord) (n : Nat) (fl : Nat → W32) : Prop :=
  (∀ off, off ≠ 0x0100 → b.reg off = a.reg off) ∧
  (∀ j, (b.reg 0x0100).getLsbD j = true ↔
    (a.reg 0x0100).getLsbD j = true ∨ ∃ i, i < n ∧ a.active g i = true ∧ (fl i).getLsbD j = true) ∧
  (b.nfSeen = true ↔ a.nfSeen = true ∨ ∃ i, i < n ∧ a.active g i = true ∧ (fl i).getLsbD 8 = true)

/-- The outcome of a grate word that writes n lanes of w bits to v[VD]: the lanes, the flags, and the frame. -/
def LaneResult (s t : State) (tl : BitVec 8) (g : GrateWord) (w n : Nat) (f : Nat → Nat) (fl : Nat → W32) : Prop :=
  let a := s.ltile tl.toNat
  let b := t.ltile tl.toNat
  OnlyTile s t (s.unitOf tl.toNat) ∧
  b = { a with vregs := b.vregs, regs := b.regs, nfSeen := b.nfSeen, stoker := a.stoker.past } ∧
  lanesWritten a b g w n f ∧ vregsKept a b [g.vd.toNat] (n * (w / 8)) ∧ flagsRaised a b g n fl

/-- The outcome of a grate word that writes m[VD] (R83, R84): bits below n by lane, bits at or beyond n zero. -/
def MaskResult (s t : State) (tl : BitVec 8) (g : GrateWord) (n : Nat) (f : Nat → Bool) (fl : Nat → W32) : Prop :=
  let a := s.ltile tl.toNat
  let b := t.ltile tl.toNat
  OnlyTile s t (s.unitOf tl.toNat) ∧
  b = { a with masks := b.masks, regs := b.regs, nfSeen := b.nfSeen, stoker := a.stoker.past } ∧
  (∀ i, i < 2048 → (b.mask g.vd.toNat).getLsbD i =
    (decide (i < n) && (if a.active g i then f i else !g.mz && (a.mask g.vd.toNat).getLsbD i))) ∧
  (∀ r, r % 8 ≠ g.vd.toNat % 8 → b.mask r = a.mask r) ∧ flagsRaised a b g n fl

/-- The outcome of a word that changes only its firebox, to a given one, and lets its stoker go on. -/
def TileResult (s t : State) (tl : BitVec 8) (b : Tile) : Prop :=
  OnlyTile s t (s.unitOf tl.toNat) ∧ t.ltile tl.toNat = { b with stoker := b.stoker.past }

/-- The outcome of a word that writes only x[n] (R82): x0 stays 0. -/
def ScalarResult (s t : State) (tl : BitVec 8) (n : Nat) (v : W32) : Prop :=
  let a := s.ltile tl.toNat
  let b := t.ltile tl.toNat
  OnlyTile s t (s.unitOf tl.toNat) ∧ b = { a with x := b.x, stoker := a.stoker.past } ∧
  ∀ k, b.xget k = if k % 16 ≠ 0 ∧ k % 16 = n % 16 then v else a.xget k

/-- A lane result rounded once to FMTD, with the flags of the operation and of the rounding (R38, R90). -/
def rounded (g : GrateWord) (r : Num × W32) : Nat × W32 :=
  let p := packArith (fmtF g.fmtd) (rmOf g.rm 0) r.1
  (p.1, r.2 ||| p.2)

/-! ## Encodings -/

/-- A grate word from its fields (Table 04-2): bits 17 and 16 are RSVD. -/
def encodeGrate (op : BitVec 8) (g : GrateWord) : W64 :=
  op ++ g.fmt ++ g.fmtd ++ g.rm ++ BitVec.ofBool g.sat ++ BitVec.ofBool g.men ++ g.msk ++ BitVec.ofBool g.mz ++
    g.vd ++ g.va ++ g.vb ++ g.vc ++ BitVec.ofBool g.bs ++ (0 : BitVec 2) ++ g.imm

/-- The first word of a pass descriptor (Table 03-7): bits 17, 16 and 0 are RSVD. -/
def passWord0 (d : PassDesc) : W32 :=
  d.hob ++ BitVec.ofBool d.split ++ BitVec.ofBool d.statNew ++ BitVec.ofBool d.chkEn ++ d.accIn ++ BitVec.ofBool d.final ++
    d.accSlotIn ++ d.accSlotOut ++ (0 : BitVec 2) ++ d.fmtA ++ d.fmtB ++ d.strmSrc ++ d.statSrc ++ d.gsbCap ++
    BitVec.ofBool d.gsbRel ++ (0 : BitVec 1)

/-- A pass descriptor from its fields (Table 03-7): 32 bytes, the last 12 RSVD. -/
def encodePass (d : PassDesc) : List Byte :=
  leBytes 4 (passWord0 d).toNat ++
  leBytes 4 (d.flueB ++ d.flueA ++ d.flueInit ++ (0 : BitVec 8)).toNat ++
  leBytes 4 ((0 : BitVec 9) ++ d.mValid ++ (0 : BitVec 1) ++ d.nValid ++ (0 : BitVec 1) ++ d.kValid).toNat ++
  leBytes 4 ((0 : BitVec 12) ++ d.quadEn ++ d.tileTag).toNat ++ leBytes 4 d.passSeq.toNat ++ leBytes 12 0

/-! ## The invariants -/

/-- The mailboxes are in order (R357, R358): each is IDLE, BUSY or DONE, and their memory has its canonical form. -/
def MailboxesOk (s : State) : Prop := (∀ n, s.mbState n ≤ 2) ∧ Memory.wf s.ctl.mbox

end Sys2Proof.Machine
end

