-- ==== Sys2Proof/Certificates/Slice0/Obligations.lean ====
section
/-! DEFINITION. The statements for the provers. The definitions between them name the rows that a statement speaks of, each
with what the spec gives it. -/

open Sys2Proof Sys2Proof.Machine

/-- For every command c and state s whose queue is c followed by rest, step of s is exec of c on s with the queue rest. (The
queue is the model's own; logs 1 and 2.) (00_scope.md.) -/
def Obligations.StepRunsFront : Prop :=
  ∀ (c : Instr) (s : State) (rest : List Instr), s.pending = c :: rest → step s = exec c { s with pending := rest }

/-- For every command c and state s, if exec of c on s is a next state t, the queue of t is that of s. (00_scope.md.) -/
def Obligations.CommandsLeaveTheQueue : Prop :=
  ∀ (c : Instr) (s t : State), exec c s = .next t → t.pending = s.pending

/-- With an empty queue, a started beat unit whose domain has a clock and a BEAT_PHASE below BEAT_DIV - 1, a step adds 1 to
BEAT_PHASE and to the reference ticks and changes nothing else, but that from tick 234 of the beat on, 1.5 us, no sample is
left unpublished; at BEAT_DIV - 1, before the unit has started or without a clock it changes nothing. That a tick passes only
on an empty queue, and the tick of the publication, are the model's choices (logs 1 and 142). (R228, R384.) -/
def Obligations.IdleTickCounts : Prop :=
  ∀ s : State, s.pending = [] →
    (s.clk.started = true → s.clocked 323 = true → s.clk.phase + 1 < (s.bar 0x4000C).toNat →
      ∃ t, step s = .next t ∧
        t = { s with clk := { s.clk with phase := s.clk.phase + 1, ticks := s.clk.ticks + 1 }, obs := t.obs } ∧
        (s.clk.phase + 1 < 234 → t.obs = s.obs) ∧ (234 ≤ s.clk.phase + 1 → t.obs.pubBeat = none) ∧
        (s.obs.pubBeat = none → t.obs = s.obs)) ∧
    (s.clk.started = false ∨ s.clocked 323 = false ∨ (s.bar 0x4000C).toNat ≤ s.clk.phase + 1 → step s = .next s)

/-- For every opcode byte and every field value, the fields read from the word that Table 04-2 lays out are those fields, and
the class byte is that opcode; and a 64-bit word spells a command for a firebox exactly where it has the form that Table 04-3
asks of its opcode byte, two words spelling one command only where firebox, opcode byte and fields are the same. (R82, R86.)
-/
def Obligations.GrateWordRoundTrip : Prop :=
  (∀ (op : BitVec 8) (g : GrateWord), parseGrate (encodeGrate op g) = g ∧ wordOp (encodeGrate op g) = op.toNat) ∧
  (∀ (t : BitVec 8) (w : W64), (grateCommand t w).isSome = grateWordOk w) ∧
  ∀ (t t' : BitVec 8) (w w' : W64) (c : Instr), grateCommand t w = some c → grateCommand t' w' = some c →
    t = t' ∧ wordOp w = wordOp w' ∧ parseGrate w' = parseGrate w

/-- For every pass descriptor, the 32 bytes that Table 03-7 lays out are read as that descriptor, and their reserved bits are
found clear. (R78.) -/
def Obligations.PassDescriptorRoundTrip : Prop :=
  ∀ d : PassDesc, (encodePass d).length = 32 ∧ parsePass (encodePass d) = d ∧ passClear (encodePass d) = true

/-- If every mailbox is IDLE, BUSY or DONE and the mailbox memory has its canonical form (log 5) in s, and step of s answers
a next state t, the same holds of t. (R357, R358, R359.) -/
def Obligations.MailboxInvariantKept : Prop :=
  ∀ s t : State, MailboxesOk s → step s = .next t → MailboxesOk t

/-- At reset every mailbox is IDLE and the mailbox memory lists nothing, so the invariant holds. (R358.) -/
def Obligations.MailboxInvariantAtReset : Prop :=
  MailboxesOk State.reset ∧ (∀ n, State.reset.mbState n = 0) ∧ State.reset.ctl.mbox = []

/-- At reset the stored BAR0 words at 0x4000C, 0x40020 and 0x40028, the network words at 0x2000 and 0x2004 and the firebox
words at 0x020C, 0x024C, 0x028C, 0x02C0 and 0x0300 read the values listed, every other stored word reads 0, every scalar
register reads 0, and nothing has been sent. (R228, R239, R297, R80, R106.) -/
def Obligations.ResetRegisterValues : Prop :=
  (∀ off, State.reset.bar off = if off = 0x4000C then 78125 else if off = 0x40020 then 3 else if off = 0x40028 then 0x8000 else 0) ∧
  (∀ off, State.reset.ior off = if off = 0x2000 then 0xFFFFF else if off = 0x2004 then 0x100 else 0) ∧
  (∀ u off, (State.reset.tile u).reg off =
    if off = 0x020C ∨ off = 0x024C ∨ off = 0x028C then 0x007F7F00 else if off = 0x02C0 then 0xE01 else if off = 0x0300 then 0x1000 else 0) ∧
  (∀ u n, (State.reset.tile u).xget n = 0) ∧ State.reset.out = [] ∧ State.reset.pending = []

/-- While requests are served, DB_RING is answered with a next state in which every rung mailbox is BUSY with a message in
flight unless it was BUSY before, every other mailbox keeps its state, the mailbox memory is unchanged, and a ring of a BUSY
mailbox sets RING_LOST. (R358, R362.) -/
def Obligations.DoorbellPosts : Prop :=
  ∀ (bits : BitVec 16) (s : State), s.hostUp = true → Answers (.dbRing bits) s (fun t =>
    (∀ n : Nat, n < 16 → bits.getLsbD n = true → t.mbState n = 1 ∧
      (s.mbState n ≠ 1 → (getSlot t.ctl.inflight (.mailbox (BitVec.ofNat 4 n))).isSome = true)) ∧
    (∀ n : Nat, n < 16 → bits.getLsbD n = false → t.mbState n = s.mbState n) ∧
    (∀ n : Nat, n < 16 → bits.getLsbD n = true → s.mbState n = 1 → t.barBit 0x10014 1 = true) ∧
    t.ctl.mbox = s.ctl.mbox)

/-- While requests are served: an aligned write of 4 or 8 bytes below offset 0xC00 of a mailbox that is not BUSY stores its
bytes there and changes nothing else; on a BUSY mailbox it is dropped, sets bit 2 of KW_STATUS and counts; in the response
area it is dropped. MB_DONE_CLEAR changes exactly the named DONE mailboxes to IDLE. (R357, R358.) -/
def Obligations.MailboxWritesAndDone : Prop :=
  (∀ (mb : BitVec 4) (off : BitVec 12) (data : List Byte) (s : State), s.hostUp = true → accessOk off.toNat data.length = true →
      off.toNat < 0xC00 → s.mbState mb.toNat ≠ 1 →
      Answers (.mailboxRequestWrite mb off data) s (fun t =>
        (∀ x, mread t.ctl.mbox x = if 0x1000 * mb.toNat + off.toNat ≤ x ∧ x < 0x1000 * mb.toNat + off.toNat + data.length
          then data.getD (x - (0x1000 * mb.toNat + off.toNat)) 0 else mread s.ctl.mbox x) ∧
        t = { s with ctl := { s.ctl with mbox := t.ctl.mbox } })) ∧
  (∀ (mb : BitVec 4) (off : BitVec 12) (data : List Byte) (s : State), s.hostUp = true → accessOk off.toNat data.length = true →
      off.toNat < 0xC00 → s.mbState mb.toNat = 1 →
      Answers (.mailboxRequestWrite mb off data) s (fun t => t.barBit 0x10014 2 = true ∧ t.bar 0x10024 = s.bar 0x10024 + 1 ∧
        t.ctl = s.ctl)) ∧
  (∀ (mb : BitVec 4) (off : BitVec 12) (data : List Byte) (s : State), s.hostUp = true → accessOk off.toNat data.length = true →
      0xC00 ≤ off.toNat → Answers (.mailboxRequestWrite mb off data) s (fun t => t = s)) ∧
  (∀ (bits : BitVec 16) (s : State), s.hostUp = true → Answers (.mbDoneClear bits) s (fun t =>
      (∀ n : Nat, n < 16 → t.mbState n = if bits.getLsbD n = true ∧ s.mbState n = 2 then 0 else s.mbState n) ∧
      t = { s with ctl := { s.ctl with mbState := t.ctl.mbState } }))

namespace Sys2Proof.Machine

/-- What a report to the collector may change: its words, the words and vectors of its interrupt, and its latched beat. -/
def onlyReport (s t : State) : Prop :=
  t = { s with
    bar0 := t.bar0, out := t.out, flt := { s.flt with firstBeat := t.flt.firstBeat }, free := t.free
    ctl := { s.ctl with held := t.ctl.held } } ∧
  ∀ o, o ∉ [0x1000C, 0x20000, 0x20004, 0x20008, 0x2001C, 0x20048] → t.bar o = s.bar o

end Sys2Proof.Machine

/-- While requests are served: an aligned 32-bit or 64-bit write to BAR0 makes no host access error; at DB_RING, where a
message that is taken at once may make a report of its own, it rings the named mailboxes. An access of any other size or
alignment is reported (class HOST: its count rises by 1); a write of that kind is dropped, so that nothing but what the
collector keeps of the report changes; a read of that kind completes with 0xFF in every byte and changes nothing else either.
(R356.) -/
def Obligations.BadAccessReported : Prop :=
  ∀ (s : State), s.hostUp = true →
    (∀ (off : Nat) (v : BitVec 64) (wide : Bool), off < 0x80000 → accessOk off (if wide then 8 else 4) = true →
      Answers (.registerWrite .bar0 off v wide) s (fun t => (off ≠ 0x10000 → t.bar 0x20048 = s.bar 0x20048) ∧
        (off = 0x10000 → ∀ n : Nat, n < 16 → v.getLsbD n = true → t.mbState n = 1))) ∧
    (∀ (off : BitVec 19) (size : Nat), accessOk off.toNat size = false →
      Answers (.bar0BadAccess false off size) s (fun t => onlyReport s t ∧ t.bar 0x20048 = s.bar 0x20048 + 1 ∧
        ∀ d, .readData d ∈ t.out → .readData d ∈ s.out) ∧
      Answers (.bar0BadAccess true off size) s (fun t => onlyReport s t ∧ t.bar 0x20048 = s.bar 0x20048 + 1 ∧
        t.out.getLast? = some (.readData (List.replicate size 0xFF)))) ∧
    (∀ (off : Nat) (v : BitVec 64) (wide : Bool), off < 0x80000 → accessOk off (if wide then 8 else 4) = false →
      Answers (.registerWrite .bar0 off v wide) s (fun t => onlyReport s t ∧ t.bar 0x20048 = s.bar 0x20048 + 1))

/-- While requests are served, an aligned 32-bit write to a BAR0 word with W1C bits clears exactly those of its W1C bits that
are 1 in the value; INT_EN takes its 22 bits; a word without writable bits keeps its value. Nothing else changes, but that
LATE_NF cleared in SCHED_STATUS is no longer set by what was raised before. The same holds of a W1C word of a firebox that
works and of the I/O die. No other stored word changes. (R10, R11, R12.) -/
def Obligations.RegisterWriteAccess : Prop :=
  (∀ (s : State) (off : Nat) (v : BitVec 64), s.hostUp = true → off % 4 = 0 → 0x10008 ≤ off → off < 0x80000 →
      Answers (.registerWrite .bar0 off v false) s (fun t =>
        t.bar off = (if off = 0x10010 then v.setWidth 32 &&& 0x3FFFFF else s.bar off &&& ~~~(v.setWidth 32 &&& barW1c off)) ∧
        (∀ o, o ≠ off → t.bar o = s.bar o) ∧ (¬(off = 0x40100 ∧ v.getLsbD 13 = true) → t = { s with bar0 := t.bar0 }) ∧
        (off = 0x40100 → v.getLsbD 13 = true → t.lateNow = false ∧ (∀ u, t.tile u = { s.tile u with nfSeen := false }) ∧
          t = { s with bar0 := t.bar0, tiles := t.tiles, sched := { s.sched with late := t.sched.late } }))) ∧
  (∀ (s : State) (u off : Nat) (v : BitVec 64), u < 272 → s.works u = true → off % 4 = 0 → off ≠ 0x02C0 → off ≠ 0x0304 →
      statusStream off = none →
      Answers (.registerWrite (.firebox u) off v false) s (fun t =>
        (t.tile u).reg off = (s.tile u).reg off &&& ~~~(v.setWidth 32 &&& tileW1c off) ∧
        (∀ o, o ≠ off → (t.tile u).reg o = (s.tile u).reg o) ∧ (∀ w, w ≠ u → t.tile w = s.tile w) ∧
        t = { s with tiles := t.tiles })) ∧
  (∀ (s : State) (off : Nat) (v : BitVec 64), 1 ≤ s.pwr.stage → off % 4 = 0 → ioW1c off ≠ 0x800 →
      Answers (.registerWrite .ioDie off v false) s (fun t =>
        t.ior off = s.ior off &&& ~~~(v.setWidth 32 &&& ioW1c off) ∧ (∀ o, o ≠ off → t.ior o = s.ior o) ∧
        t = { s with io := t.io }))

namespace Sys2Proof.Machine

/-- The LO reads: row, HI word, the value, and its width. -/
def loReads : List (Instr × Nat × (State → Nat) × Nat) :=
  [(.beatNowLoRead, 0x40004, fun s => s.clk.beatNow, 64), (.stepLoRead, 0x40108, fun s => (s.ctx s.sched.ctx).stepCommitted, 48),
   (.schedLoRead, 0x40110, fun s => s.sched.now, 64), (.fltFirstBeatLoRead, 0x20014, fun s => s.flt.firstBeat, 64),
   (.ccSampleBeatLoRead, 0x3000C, fun s => s.obs.sampleBeat, 64), (.ccFreezeBeatLoRead, 0x30014, fun s => s.obs.freezeBeat, 64),
   (.trWptrLoRead, 0x3002C, fun s => s.obs.wptr, 64), (.gsBeatLoRead, 0x3004C, fun s => s.obs.gsBeat, 64)]

end Sys2Proof.Machine

/-- While requests are served, each of the eight LO reads answers the low 32 bits of its value, and its HI word then holds
the high bits of the same value (16 of them for STEP); no other word changes. (R228, R243, R336, R384, R389, R394.) -/
def Obligations.LoReadLatchesHi : Prop :=
  ∀ e ∈ loReads, ∀ s : State, s.hostUp = true → Answers e.1 s (fun t =>
    ∃ lo : W32, t.out = s.out ++ [.readData (leBytes 4 lo.toNat)] ∧
      lo.toNat + 2 ^ 32 * (t.bar e.2.1).toNat = e.2.2.1 s % 2 ^ e.2.2.2 ∧
      (∀ off, off ≠ e.2.1 → t.bar off = s.bar off) ∧ t = { s with bar0 := t.bar0, out := t.out })

/-- Where a message is in flight, its outcome is recorded and its slot does not wait, COMMAND_REPLY is answered: for a
mailbox the response area holds the 1,024 bytes of the response, the mailbox is DONE, every other mailbox byte and state is
as before, and data above 992 bytes goes to OUT_ADDR; for the sideband and the poker one response is sent. The slot is then
free. (R359, R361, R372, R377.) -/
def Obligations.ReplySent : Prop :=
  ∀ (k : Slot) (s : State) (f : Inflight) (r : Reply), getSlot s.ctl.inflight k = some f → getSlot s.ctl.results k = some r →
    getSlot s.ctl.waiting k = none →
    Answers (.commandReply k) s (fun t =>
      getSlot t.ctl.inflight k = none ∧ getSlot t.ctl.results k = none ∧
      (∀ n : BitVec 4, k = .mailbox n →
        (∀ x, mread t.ctl.mbox x = if 0x1000 * n.toNat + 0xC00 ≤ x ∧ x < 0x1000 * n.toNat + 0x1000
          then (response f r).getD (x - (0x1000 * n.toNat + 0xC00)) 0 else mread s.ctl.mbox x) ∧
        t.mbState n.toNat = 2 ∧ (∀ m, m ≠ n.toNat → t.mbState m = s.mbState m) ∧
        (992 < r.data.length → .hostWrite f.outAddr r.data ∈ t.out)) ∧
      (k = .sideband → t.out = s.out ++ [.sideband s.sidebandAddr (response f r)] ∧ t.ctl.mbox = s.ctl.mbox ∧ t.ctl.mbState = s.ctl.mbState) ∧
      (k = .poker → t.out = s.out ++ [.uart (hexText (response f r) ++ lineEnd ++ prompt)] ∧ t.ctl.mbox = s.ctl.mbox))

/-- A sideband message is posted while firmware runs and none is in flight, and is turned away with BUSY where one is; a
poker line that is taken is answered on the UART with the prompt or posts its message; PERST_N disables MSI-X and changes
nothing else; a retrain of an up link makes a HOST report; a configuration request is answered with retry before stage 8, and
then enables MSI-X and sends the held vectors, or, where it asks for the Readiness Time Reporting capability, gives its reset
time of 12 s (that such a request asks for it is the model's choice, log 144). (R372, R377, R405, R422.) -/
def Obligations.SidebandPokerAndLink : Prop :=
  (∀ (msg : List Byte) (s : State), 3 ≤ s.pwr.stage → getSlot s.ctl.inflight .sideband = none →
      Answers (.sidebandMessage msg) s (fun t => (getSlot t.ctl.inflight .sideband).isSome = true ∧ t.ctl.mbState = s.ctl.mbState)) ∧
  (∀ (msg : List Byte) (s : State), 3 ≤ s.pwr.stage → (getSlot s.ctl.inflight .sideband).isSome = true →
      Answers (.sidebandMessage msg) s (fun t => t = { s with out := s.out ++ [.sideband s.sidebandAddr (s.busyResponse msg)] })) ∧
  (∀ (line : List Byte) (s : State), 3 ≤ s.pwr.stage → s.pwr.stuckStage3 = false → s.setting 0x0051 ≠ 2 → lineOk line = true →
      Answers (.pokerLine line) s (fun t => (∃ text : List Byte, t.out = s.out ++ [.uart (text ++ lineEnd ++ prompt)]) ∨
        (getSlot t.ctl.inflight .poker).isSome = true)) ∧
  (∀ s : State, Answers .perstN s (fun t => t = { s with ctl := { s.ctl with msix := false } })) ∧
  (∀ s : State, s.ctl.linkUp = true → Answers .pcieLinkRetrain s (fun t => t.bar 0x20048 = s.bar 0x20048 + 1)) ∧
  (∀ (e : Option Bool) (s : State), s.ctl.linkUp = true → s.pwr.stage < 8 →
      Answers (.pcieConfigRequest e) s (fun t => t = { s with out := s.out ++ [.pcieRetry] })) ∧
  (∀ s : State, s.ctl.linkUp = true → 8 ≤ s.pwr.stage → Answers (.pcieConfigRequest (some true)) s (fun t =>
      t = { s with out := s.out ++ s.ctl.held.map .msix, ctl := { s.ctl with msix := true, held := [] } })) ∧
  (∀ s : State, s.ctl.linkUp = true → 8 ≤ s.pwr.stage → Answers (.pcieConfigRequest none) s (fun t =>
      t = { s with out := s.out ++ [.pcieConfig 12000] }))

namespace Sys2Proof.Machine

/-- The float rows with the code and the flags of one lane. -/
def floatRows : List ((BitVec 8 → GrateWord → Instr) × (GrateWord → Num → Num → Num → Nat × W32)) :=
  [(.vadd, fun g a b _ => rounded g (addNum (rmOf g.rm 0) a b)), (.vsub, fun g a b _ => rounded g (addNum (rmOf g.rm 0) a b.neg)),
   (.vmul, fun g a b _ => rounded g (mulNum a b)), (.vfma, fun g a b c => rounded g (fmaNum (rmOf g.rm 0) a b c)),
   (.vfms, fun g a b c => rounded g (fmaNum (rmOf g.rm 0) a b c.neg)),
   (.vfnma, fun g a b c => rounded g (fmaNum (rmOf g.rm 0) a.neg b c)),
   (.vmin, fun g a b _ => rounded g (minNum a b)), (.vmax, fun g a b _ => rounded g (maxNum a b)),
   (.vabs, fun g a _ _ => rounded g (a.abs, snanFlags [a])), (.vneg, fun g a _ _ => rounded g (a.neg, snanFlags [a])),
   (.vclamp, fun g a b c => rounded g ((minNum (maxNum a b).1 c).1, (maxNum a b).2 ||| (minNum (maxNum a b).1 c).2)),
   (.vlerp, fun g a b c =>
      let d := addNum (rmOf g.rm 0) a b.neg
      let p := packArith (fmtF g.fmtd) (rmOf g.rm 0) d.1
      let r := fmaNum (rmOf g.rm 0) c (decodeFloat (fmtF g.fmtd) p.1) b
      rounded g (r.1, d.2 ||| p.2 ||| r.2)),
   (.vdiv, fun g a b _ => rounded g (divNum a b)), (.vsqrt, fun g a _ _ => rounded g (sqrtNum a)),
   (.vrsqrt, fun g a _ _ => rsqrtTo g.fmtd (rmOf g.rm 0) a)]

end Sys2Proof.Machine

/-- Where a tile's word starts, each of VADD, VSUB, VMUL, VFMA, VFMS, VFNMA, VMIN, VMAX, VABS, VNEG, VCLAMP, VLERP, VDIV,
VSQRT and VRSQRT is answered with a next state in which every active lane below VLe of v[VD] holds the row's result in FMTD,
inactive lanes follow MZ, NUM_STATUS gains the flags of the active lanes, and no other register, byte, mask, scalar, stream
or module state but the performance counters changes. (R38, R83, R84, R90, R35, R29.) -/
def Obligations.FloatLaneRows : Prop :=
  ∀ row ∈ floatRows, ∀ (t : BitVec 8) (g : GrateWord) (s : State), GrateReady s t →
    Answers (row.1 t g) s (fun s' =>
      let a := s.ltile t.toNat
      let n := a.vle (max (laneWidth g.fmt) (laneWidth g.fmtd))
      let src := fun (l : List Nat) i => decodeFloat (fmtF g.fmt) (nth 0 l i)
      let r := fun i => row.2 g (src (a.lanes g.va.toNat (laneWidth g.fmt) n) i) (src (a.srcB g (laneWidth g.fmt) n) i)
        (src (a.lanes g.vc.toNat (laneWidth g.fmt) n) i)
      LaneResult s s' t g (laneWidth g.fmtd) n (fun i => (r i).1) (fun i => (r i).2))

namespace Sys2Proof.Machine

/-- The bit rows with the value of lane i from the sources a and b: lane width, VLe, the select mask. -/
def bitRows : List ((BitVec 8 → GrateWord → Instr) × (GrateWord → Nat → Nat → BitVec 2048 → List Nat → List Nat → Nat → Nat)) :=
  [(.vmov, fun _ _ _ _ a _ i => nth 0 a i), (.viadd, fun _ _ _ _ a b i => nth 0 a i + nth 0 b i),
   (.visub, fun _ w _ _ a b i => ((((nth 0 a i : Nat) : Int) - (nth 0 b i : Nat)) % 2 ^ w).toNat),
   (.vimul, fun _ _ _ _ a b i => nth 0 a i * nth 0 b i), (.vand, fun _ _ _ _ a b i => nth 0 a i &&& nth 0 b i),
   (.vor, fun _ _ _ _ a b i => nth 0 a i ||| nth 0 b i), (.vxor, fun _ _ _ _ a b i => nth 0 a i ^^^ nth 0 b i),
   (.vshl, fun g _ _ _ a _ i => nth 0 a i * 2 ^ (g.imm.toNat % 32)), (.vshr, fun g _ _ _ a _ i => nth 0 a i / 2 ^ (g.imm.toNat % 32)),
   (.vsra, fun g w _ _ a _ i => ((signed w (nth 0 a i) / 2 ^ (g.imm.toNat % 32)) % 2 ^ w).toNat),
   (.vsel, fun _ _ _ m a b i => if m.getLsbD i then nth 0 a i else nth 0 b i),
   (.vzip, fun _ _ _ _ a b i => if i % 2 = 0 then nth 0 a (i / 2) else nth 0 b (i / 2)),
   (.vunzip, fun _ _ n _ a _ i => if i < (n + 1) / 2 then nth 0 a (2 * i) else nth 0 a (2 * (i - (n + 1) / 2) + 1))]

end Sys2Proof.Machine

/-- Where a tile's word starts, each of VMOV, VIADD, VISUB, VIMUL, VAND, VOR, VXOR, VSHL, VSHR, VSRA, VSEL, VZIP and VUNZIP
is answered with a next state in which every active lane below VLe of v[VD] holds the row's bits modulo the lane width,
inactive lanes follow MZ, no flag changes, and nothing else changes but the performance counters. (R82, R83, R84, R90.) -/
def Obligations.BitLaneRows : Prop :=
  ∀ row ∈ bitRows, ∀ (t : BitVec 8) (g : GrateWord) (s : State), GrateReady s t →
    Answers (row.1 t g) s (fun s' =>
      let a := s.ltile t.toNat
      let w := laneWidth g.fmt
      let n := a.vle w
      LaneResult s s' t g w n (row.2 g w n (a.mask (g.imm.toNat % 8)) (a.lanes g.va.toNat w n) (a.srcB g w n)) (fun _ => 0))

namespace Sys2Proof.Machine

/-- The mask rows: whether the row compares lanes of FMT, and the bit and flags of lane i. -/
def maskRows : List ((BitVec 8 → GrateWord → Instr) × Bool × (GrateWord → Tile → Num → Num → Nat → Bool × W32)) :=
  [(.vcmpeq, true, fun _ _ x y _ => (eqNum x y, snanFlags [x, y])), (.vcmpne, true, fun _ _ x y _ => (!eqNum x y, snanFlags [x, y])),
   (.vcmplt, true, fun _ _ x y _ => (ltNum x y, snanFlags [x, y])),
   (.vcmple, true, fun _ _ x y _ => (!x.isNan && !y.isNan && !ltNum y x, snanFlags [x, y])),
   (.vclass, true, fun g a _ _ i =>
      let x := nth 0 (a.lanes g.va.toNat (laneWidth g.fmt) (a.vle (laneWidth g.fmt))) i
      (g.imm.getLsbD (classBit (fmtF g.fmt) x), snanFlags [decodeFloat (fmtF g.fmt) x])),
   (.mand, false, fun g a _ _ i => ((a.mask g.va.toNat).getLsbD i && (a.mask g.vb.toNat).getLsbD i, 0)),
   (.mor, false, fun g a _ _ i => ((a.mask g.va.toNat).getLsbD i || (a.mask g.vb.toNat).getLsbD i, 0)),
   (.mxor, false, fun g a _ _ i => ((a.mask g.va.toNat).getLsbD i != (a.mask g.vb.toNat).getLsbD i, 0)),
   (.mnot, false, fun g a _ _ i => (!(a.mask g.va.toNat).getLsbD i, 0)),
   (.mprefix, false, fun g _ _ _ i => (decide (i < g.imm.toNat), 0))]

end Sys2Proof.Machine

/-- Where a tile's word starts, each of VCMPEQ, VCMPNE, VCMPLT, VCMPLE, VCLASS, MAND, MOR, MXOR, MNOT and MPREFIX is answered
with a next state in which bit i of m[VD] is the row's result in an active lane below VLe, follows MZ in an inactive one and
is 0 at or beyond VLe; a signalling NaN of a compare or of VCLASS raises NV (of VCLASS as log 109 reads R29); nothing else
changes but the performance counters. (R29, R30, R83, R84, R90.) -/
def Obligations.MaskRows : Prop :=
  ∀ row ∈ maskRows, ∀ (t : BitVec 8) (g : GrateWord) (s : State), GrateReady s t →
    Answers (row.1 t g) s (fun s' =>
      let a := s.ltile t.toNat
      let w := if row.2.1 then laneWidth g.fmt else 8
      let n := a.vle w
      let r := fun i => row.2.2 g a (decodeElem g.fmt (nth 0 (a.lanes g.va.toNat w n) i)) (decodeElem g.fmt (nth 0 (a.srcB g w n) i)) i
      MaskResult s s' t g n (fun i => (r i).1) (fun i => (r i).2))

/-- Where a tile's word starts: NOP changes only the stoker's place; SETVL sets VL to IMM[11:0]; XLI, XLIH, XADD, FLAGRD,
MPOP and (for a lane below VLe) XMV write one scalar register, and x0 stays 0; FLAGCLR clears exactly the W1C flags that
x[VA] names in NUM_STATUS or, with IMM = 1, in GRATE_STATUS. Nothing else changes but the performance counters. (R82, R83,
R93, R108.) -/
def Obligations.ScalarAndControlRows : Prop :=
  ∀ (t : BitVec 8) (g : GrateWord) (s : State), GrateReady s t →
    let a := s.ltile t.toNat
    Answers (.nop t g) s (fun s' => TileResult s s' t a) ∧
    Answers (.setvl t g) s (fun s' => TileResult s s' t { a with vl := g.imm.toNat % 4096 }) ∧
    Answers (.xli t g) s (fun s' => ScalarResult s s' t g.vd.toNat (g.imm.signExtend 32)) ∧
    Answers (.xlih t g) s (fun s' => ScalarResult s s' t g.vd.toNat (g.imm ++ (a.xget g.vd.toNat).setWidth 16)) ∧
    Answers (.xadd t g) s (fun s' => ScalarResult s s' t g.vd.toNat (a.xget g.va.toNat + a.xget g.vb.toNat)) ∧
    Answers (.flagrd t g) s (fun s' => ScalarResult s s' t g.vd.toNat (if g.imm = 1 then a.grateStatus else a.reg 0x0100)) ∧
    Answers (.mpop t g) s (fun s' => ScalarResult s s' t g.vd.toNat
      (BitVec.ofNat 32 ((List.range (a.vle 8)).countP (fun i => a.active g i && (a.mask g.va.toNat).getLsbD i)))) ∧
    (g.imm.toNat < a.vle (laneWidth g.fmt) → Answers (.xmv t g) s (fun s' => ScalarResult s s' t g.vd.toNat
      (BitVec.ofNat 32 (nth 0 (a.lanes g.va.toNat (laneWidth g.fmt) (a.vle (laneWidth g.fmt))) g.imm.toNat)))) ∧
    Answers (.flagclr t g) s (fun s' =>
      let b := s'.ltile t.toNat
      let off := if g.imm = 1 then 0x0300 else 0x0100
      OnlyTile s s' (s.unitOf t.toNat) ∧ b = { a with regs := b.regs, stoker := a.stoker.past } ∧
      (∀ o, o ≠ off → b.reg o = a.reg o) ∧
      b.reg off = a.reg off &&& ~~~(a.xget g.va.toNat &&& (if g.imm = 1 then 0x310 else 0x0BF)))

namespace Sys2Proof.Machine

/-- The source lane that lane i of a permute takes: from v[VC] where the first part is true, else from v[VA]. -/
def permuteRows : List ((BitVec 8 → GrateWord → Instr) × (GrateWord → Tile → Nat → Nat → Bool × Int)) :=
  [(.vperm, fun g a n i => (false, ((nth 0 (a.lanes g.vb.toNat 16 (min n 1024) ++ a.lanes (g.vb.toNat + 1) 16 (n - 1024)) i : Nat) : Int))),
   (.vbcl, fun g a _ _ => (false, (a.sval g : Int))),
   (.vrot, fun g a n i => (false, (((i + a.sval g) % n : Nat) : Int))),
   (.vslup, fun g a n i => if a.sval g ≤ i then (false, (i : Int) - a.sval g) else (true, (n : Int) - a.sval g + i)),
   (.vsldn, fun g a n i => if i + a.sval g < n then (false, ((i + a.sval g : Nat) : Int)) else (true, ((i + a.sval g : Nat) : Int) - n))]

/-- The lane that a permute's lane i takes, +0 where it is out of range. -/
def permuted (k : GrateWord → Tile → Nat → Nat → Bool × Int) (g : GrateWord) (a : Tile) (w n i : Nat) : Nat :=
  let p := k g a n i
  if 0 ≤ p.2 ∧ p.2 < n then nth 0 (a.lanes (if p.1 then g.vc.toNat else g.va.toNat) w n) p.2.toNat else 0

end Sys2Proof.Machine

/-- Where a tile's word starts, each of VPERM, VBCL, VROT, VSLUP and VSLDN whose active lanes name only lanes below VLe is
answered with a next state in which every active lane holds the named lane of its source, inactive lanes follow MZ and no
flag changes. In native mode with an active lane out of range, such a lane holds +0, VF_LRNG is set in GRATE_STATUS and its
count rises by 1; nothing else of the module changes but the performance counters. (R83, R84, R93.) -/
def Obligations.PermuteRows : Prop :=
  ∀ row ∈ permuteRows, ∀ (t : BitVec 8) (g : GrateWord) (s : State), GrateReady s t →
    let a := s.ltile t.toNat
    let w := laneWidth g.fmt
    let n := a.vle w
    let inRange := ∀ i, i < n → a.active g i = true → 0 ≤ (row.2 g a n i).2 ∧ (row.2 g a n i).2 < n
    (inRange → Answers (row.1 t g) s (fun s' => LaneResult s s' t g w n (permuted row.2 g a w n) (fun _ => 0))) ∧
    (¬ inRange → (a.reg 0x0304).getLsbD 0 = false → Answers (row.1 t g) s (fun s' =>
      let b := s'.ltile t.toNat
      OnlyTile s s' (s.unitOf t.toNat) ∧ b = { a with vregs := b.vregs, regs := b.regs, stoker := a.stoker.past } ∧
      lanesWritten a b g w n (permuted row.2 g a w n) ∧ vregsKept a b [g.vd.toNat] (n * (w / 8)) ∧
      b.reg 0x0300 = a.reg 0x0300 ||| 0x100 ∧ b.reg 0x0310 = a.reg 0x0310 + 1 ∧
      (∀ o, o ≠ 0x0300 → o ≠ 0x0310 → o ≠ 0x030C → b.reg o = a.reg o)))

/-- Where GRATE_CFG.STRICT is set and an active lane of VPERM, VBCL, VROT, VSLUP or VSLDN, or XMV, names a lane outside VLe,
the word is answered with a next state in which the firebox differs from before in three things only: bit 10 of GRATE_STATUS
is set, the grate is stopped, and the word waits; every other firebox is as before, and the PROGRAM count of the collector is
raised by 1. (R93, R94, R333.) -/
def Obligations.StrictRangeStops : Prop :=
  ∀ (t : BitVec 8) (g : GrateWord) (s : State), GrateReady s t →
    let a := s.ltile t.toNat
    let n := a.vle (laneWidth g.fmt)
    let stops := fun (s' : State) =>
      let b := s'.ltile t.toNat
      b = { a with regs := b.regs, grateStop := true, stoker := { a.stoker with waitWord := true } } ∧
      b.reg 0x0300 = a.reg 0x0300 ||| 0x400 ∧ (∀ o, o ≠ 0x0300 → b.reg o = a.reg o) ∧
      (∀ v, v ≠ s.unitOf t.toNat → s'.tile v = s.tile v) ∧ s'.mem = s.mem ∧ s'.bar 0x20058 = s.bar 0x20058 + 1
    (a.reg 0x0304).getLsbD 0 = true →
    (n ≤ g.imm.toNat → Answers (.xmv t g) s stops) ∧
    (∀ row ∈ permuteRows, (∃ i, i < n ∧ a.active g i = true ∧ ¬ (0 ≤ (row.2 g a n i).2 ∧ (row.2 g a n i).2 < n)) →
      Answers (row.1 t g) s stops)

namespace Sys2Proof.Machine

/-- The environment rows: the width of a result, VLe, and the code and flags of lane i. -/
def envRows : List ((BitVec 8 → GrateWord → Instr) × (GrateWord → Nat) × (GrateWord → Nat) × (GEnv → Tile → GrateWord → Nat → Nat → Nat × W32)) :=
  [(.vcvt, fun g => laneWidth g.fmtd, fun g => max (laneWidth g.fmt) (laneWidth g.fmtd), fun e a g n i =>
      convertNum g.fmtd (convMode e a g i) g.sat (decodeElem g.fmt (nth 0 (a.lanes g.va.toNat (laneWidth g.fmt) n) i))),
   (.vdcmx, fun _ => 32, fun _ => 32, fun _ a g n i =>
      let v := mxValue g.fmt (nth 0 (a.lanes g.va.toNat 8 n) i) (nth 0 (a.lanes g.vc.toNat 8 ((n + 31) / 32)) (i / 32))
      ((packArith fp32 (rmOf g.rm 0) v.1).1, v.2 ||| (packArith fp32 (rmOf g.rm 0) v.1).2)),
   (.vdcsb, fun _ => 32, fun _ => 32, fun _ a g n i =>
      let r := sbDecode (nth 0 (a.lanes g.va.toNat 16 n) i) (nth 0 (a.lanes g.vc.toNat 8 ((n + 63) / 64)) (i / 64))
      (r.1.toNat, r.2)),
   (.vrngb, fun _ => 16, fun _ => 16, fun e a g _ i => (randomBits e.seed e.step g.imm.toNat (a.index0 g + i), 0)),
   (.vrngu, fun _ => 32, fun _ => 32, fun e a g _ i =>
      let r := fun k => randomBits e.seed e.step g.imm.toNat (2 * (a.index0 g + i) + k)
      ((packFinite fp32 .rne .arith false ((r 0 + 2 ^ 16 * r 1) / 2 ^ 8) (-24)).1, 0)),
   (.vsmxfProbabilities, fun g => laneWidth g.fmtd, fun _ => 32, fun _ a g n i =>
      let p := nth (0, 0) (pairs a g.vc.toNat n) (i / 2 ^ (g.imm.toNat % 16))
      smxProb g.fmtd (rmOf g.rm 0) p.1 p.2 (decodeFloat (fmtF g.fmt) (nth 0 (a.lanes g.va.toNat (laneWidth g.fmt) n) i)))]

/-- The function of a gate row: the slot's FP32 value in RNE. -/
def gateLane (e : GEnv) (g : GrateWord) (code : Nat) : Nat × W32 × Option Bool :=
  slotLane e.bank (g.imm.toNat % 64) 0 .rne 0 code 0 (decodeFloat (fmtF g.fmt) code) Num.zero

end Sys2Proof.Machine

/-- Where a tile's word starts, each of VCVT, VDCMX, VDCSB, VRNGB, VRNGU, VGATE, VGATEA, VSFU, VSFU2 and VSMXF stage 1 is
answered with a next state in which every active lane below VLe of v[VD] holds the row's result in its format, inactive lanes
follow MZ, the flags of active lanes are raised, no other byte of the vector registers changes, and of the module only the
firebox, the performance counters and (for VSFU and VSFU2) the count of free values. A free value stands for a result that
the spec leaves open: which bracketing value a faithful function returns (log 76), what a micro-op answers outside its
operands (log 77), how many answers of a built-in slot in a short format are hard cases (log 3); which results set no NX is
as log 108 reads R112. (R24, R32, R39, R40, R83, R84, R96, R97, R110, R111, R119, R128.) -/
def Obligations.ConversionRandomAndSfuRows : Prop :=
  ∀ (t : BitVec 8) (g : GrateWord) (s : State), GrateReady s t →
    let a := s.ltile t.toNat
    let e := s.grateEnv a
    let n := a.vle (max (laneWidth g.fmt) (laneWidth g.fmtd))
    let x := fun (r : Nat) i => nth 0 (a.lanes r (laneWidth g.fmt) n) i
    let y := fun i => nth 0 (a.srcB g (laneWidth g.fmt) n) i
    let dec := decodeFloat (fmtF g.fmt)
    (∀ row ∈ envRows, Answers (row.1 t g) s (fun s' =>
      let m := a.vle (row.2.2.1 g)
      LaneResult s s' t g (row.2.1 g) m (fun i => (row.2.2.2 e a g m i).1) (fun i => (row.2.2.2 e a g m i).2))) ∧
    Answers (.vgate t g) s (fun s' =>
      let r := fun i => rounded g (mulNum (dec (x g.va.toNat i)) (decodeFloat fp32 (gateLane e g (y i)).1))
      LaneResult s s' t g (laneWidth g.fmtd) n (fun i => (r i).1) (fun i => (gateLane e g (y i)).2.1 ||| (r i).2)) ∧
    Answers (.vgatea t g) s (fun s' =>
      let r := fun i => rounded g (fmaNum (rmOf g.rm 0) (dec (x g.va.toNat i)) (decodeFloat fp32 (gateLane e g (y i)).1) (dec (x g.vc.toNat i)))
      LaneResult s s' t g (laneWidth g.fmtd) n (fun i => (r i).1) (fun i => (gateLane e g (y i)).2.1 ||| (r i).2)) ∧
    (∀ row ∈ [Instr.vsfu, Instr.vsfu2], Answers (row t g) s (fun s' =>
      let b := s'.ltile t.toNat
      let two := (tget {} e.bank.slots (g.imm.toNat % 64)).arity2
      let r := fun i => slotLane e.bank (g.imm.toNat % 64) g.fmtd (rmOf g.rm 0) (rmSel g.rm) (x g.va.toNat i) (if two then y i else 0)
        (dec (x g.va.toNat i)) (dec (if two then y i else 0))
      lanesWritten a b g (laneWidth g.fmtd) n (fun i => (r i).1) ∧ vregsKept a b [g.vd.toNat] (n * (laneWidth g.fmtd / 8)) ∧
      b = { a with vregs := b.vregs, regs := b.regs, nfSeen := b.nfSeen, stoker := a.stoker.past } ∧
      (∀ o, o ≠ 0x0100 → o ≠ 0x0350 → b.reg o = a.reg o) ∧
      (∀ j, (b.reg 0x0100).getLsbD j = true ↔
        (a.reg 0x0100).getLsbD j = true ∨ ∃ i, i < n ∧ a.active g i = true ∧ (r i).2.1.getLsbD j = true) ∧
      (b.nfSeen = true ↔ a.nfSeen = true ∨ ∃ i, i < n ∧ a.active g i = true ∧ (r i).2.1.getLsbD 8 = true) ∧
      OnlyTile { s with free := s'.free } s' (s.unitOf t.toNat)))

namespace Sys2Proof.Machine

/-- The rows that combine lanes: the registers written, and the firebox after the row. -/
def combineRows : List ((BitVec 8 → GrateWord → Instr) × (GrateWord → List Nat) × (GEnv → Tile → GrateWord → Tile)) :=
  let d := fun (g : GrateWord) => [g.vd.toNat]
  let dc := fun (g : GrateWord) => [g.vd.toNat, g.vc.toNat]
  let d2 := fun (g : GrateWord) => [g.vd.toNat, g.vd.toNat + 1]
  let d3 := fun (g : GrateWord) => [g.vd.toNat, g.vd.toNat + 1, g.vd.toNat + 2]
  [(.vcmpr, d, fun _ a g => gVcmpr a g), (.vrsum, d, fun _ a g => gReduce id add32 a g), (.vrmax, d, fun _ a g => gReduce id max32 a g),
   (.vrmin, d, fun _ a g => gReduce id min32 a g), (.vramax, d, fun _ a g => gReduce Num.abs max32 a g),
   (.vrargmax, d, fun _ a g => gArgMax a g), (.vscanlr, d, fun _ a g => gScan true false a g),
   (.vscansum, d, fun _ a g => gScan false false a g), (.vscanmax, d, fun _ a g => gScan false true a g),
   (.vcvtmx, dc, fun e a g => gCvtMx e a g), (.vcvtsb, dc, fun e a g => gCvtSb e a g), (.vstat, d3, fun _ a g => gStat a g),
   (.vstatm, d3, fun _ a g => gStatM a g), (.vsmxu, d2, fun _ a g => gSmxU a g), (.vsmxfMerge, d3, fun _ a g => gSmxMerge a g)]

end Sys2Proof.Machine

/-- Where a tile's word starts, each of VCMPR, VRSUM, VRMAX, VRMIN, VRAMAX, VRARGMAX, VSCANLR, VSCANSUM, VSCANMAX, VCVTMX,
VCVTSB, VSTAT, VSTATM, VSMXU and VSMXF stage 0 is answered with the next state whose firebox is the row's function of the
firebox before; outside the registers that the row writes (v[VD]; also v[VC] for the encodings; v[VD] to v[VD + 2] for VSTAT,
VSTATM and VSMXF; v[VD], v[VD + 1] for VSMXU) every byte of the vector registers is as before, and so is everything else but
NUM_STATUS, SFU_STATUS and its counts, and the performance counters. (R25, R26, R83, R91, R92, R95, R123, R124, R126, R127.)
-/
def Obligations.ReductionAndStateRows : Prop :=
  ∀ row ∈ combineRows, ∀ (t : BitVec 8) (g : GrateWord) (s : State), GrateReady s t →
    Answers (row.1 t g) s (fun s' =>
      let a := s.ltile t.toNat
      let b := s'.ltile t.toNat
      TileResult s s' t (row.2.2 (s.grateEnv a) a g) ∧ b = { a with vregs := b.vregs, regs := b.regs, nfSeen := b.nfSeen, stoker := a.stoker.past } ∧
      vregsKept a b (row.2.1 g) 2048 ∧
      (∀ o, o ≠ 0x0100 → o ≠ 0x0340 → o ≠ 0x0348 → o ≠ 0x034C → b.reg o = a.reg o))

/-- For an associative-free combine f, the fixed tree over 2^(k+1) lanes is f of the trees over its lower and its upper half,
where an absent half passes the other on. (R91 describes the tree level by level.) (R91.) -/
def Obligations.ReductionTreeSplits : Prop :=
  ∀ (f : W32 → W32 → W32) (k : Nat) (l : List (Option W32)), l.length = 2 ^ (k + 1) →
    treeFold f (k + 1) l =
      match treeFold f k (l.take (2 ^ k)), treeFold f k (l.drop (2 ^ k)) with
      | none, y => y
      | some x, none => some x
      | some x, some y => some (f x y)

/-- Where a tile's word starts: an LDS within the 3 MiB scratch fills v[VD] from scratch; an STS within it and outside every
guarded PERSIST range stores its bytes at x[VA] + 64 IMM and changes no other scratch byte; an access beyond the scratch sets
SCR_RNG, writes nothing and stops the grate; an FLRD of a flue with VLe free entries takes them, their codes to v[VD] and the
block scales of a scaled format to v[VC]; an FLWR into a flue with room appends the active lanes. (R84, R89, R90, R156, R157,
R158, R251.) -/
def Obligations.ScratchAndFlueRows : Prop :=
  ∀ (t : BitVec 8) (g : GrateWord) (s : State), GrateReady s t →
    let a := s.ltile t.toNat
    let w := laneWidth g.fmt
    let n := a.vle w
    let at_ := (a.xget g.va.toNat).toNat + 64 * g.imm.toNat
    let sn := a.stoker.subst (g.imm.toNat % 256) % 256
    let sb := scaleBlock g.fmt
    let st := a.stream sn
    (at_ + n * (w / 8) ≤ 3 * 2 ^ 20 → Answers (.lds t g) s (fun s' =>
      let b := s'.ltile t.toNat
      lanesWritten a b g w n (fun i => leNat ((List.range (w / 8)).map (fun k => mread a.scratch (at_ + i * (w / 8) + k)))) ∧
      vregsKept a b [g.vd.toNat] (n * (w / 8)) ∧ b = { a with vregs := b.vregs, regs := b.regs, stoker := a.stoker.past })) ∧
    (at_ + n * (w / 8) ≤ 3 * 2 ^ 20 → (∀ r ∈ s.guards a, r.2 ≤ at_ ∨ at_ + n * (w / 8) ≤ r.1) → Answers (.sts t g) s (fun s' =>
      let b := s'.ltile t.toNat
      b = { a with scratch := b.scratch, regs := b.regs, stoker := a.stoker.past } ∧
      (∀ x, ¬ (at_ ≤ x ∧ x < at_ + n * (w / 8)) → mread b.scratch x = mread a.scratch x) ∧
      (∀ i k, i < n → k < w / 8 → mread b.scratch (at_ + i * (w / 8) + k) =
        if a.active g i then BitVec.ofNat 8 (nth 0 (a.srcB g w n) i / 256 ^ k)
        else if g.mz then 0 else mread a.scratch (at_ + i * (w / 8) + k)))) ∧
    (3 * 2 ^ 20 < at_ + n * (w / 8) → ∀ row ∈ [Instr.lds, Instr.sts], Answers (row t g) s (fun s' =>
      let b := s'.ltile t.toNat
      b.scratch = a.scratch ∧ b.vregs = a.vregs ∧ b.grateStop = true ∧ (b.reg 0x0300).getLsbD 5 = true ∧
      s'.bar 0x20058 = s.bar 0x20058 + 1)) ∧
    (n ≤ st.entries.length - st.claimed → Answers (.flrd t g) s (fun s' =>
      let b := s'.ltile t.toNat
      (sb = 0 ∨ g.vd ≠ g.vc → lanesWritten a b g w n (fun i => laneOfEntry g.fmt (nth (0, 0) (st.entries.drop st.claimed) i).1)) ∧
      (sb ≠ 0 → ∀ j, j < (n + sb - 1) / sb →
        nth 0 (b.lanes g.vc.toNat 8 ((n + sb - 1) / sb)) j = (nth (0, 0) (st.entries.drop st.claimed) (sb * j)).2 % 256) ∧
      (b.stream sn).entries = st.entries.take st.claimed ++ st.entries.drop (st.claimed + n) ∧
      (∀ m, m ≠ sn → b.stream m = a.stream m) ∧ b.scratch = a.scratch ∧ b.masks = a.masks ∧ b.x = a.x ∧ b.ash = a.ash)) ∧
    (st.room g.fmt n = true → Answers (.flwr t g) s (fun s' =>
      let b := s'.ltile t.toNat
      (∃ es, (b.stream sn).entries = st.entries ++ es ∧ es.length = n ∧
        (∀ i, i < n → a.active g i = true → (nth (0, 0) es i).1 = nth 0 (a.lanes g.va.toNat w n) i % 2 ^ elemWidth g.fmt) ∧
        (∀ i, i < n → a.active g i = false → g.mz = true → (nth (0, 0) es i).1 = 0)) ∧
      (∀ m, m ≠ sn → b.stream m = a.stream m) ∧ b.scratch = a.scratch ∧ b.vregs = a.vregs ∧ b.masks = a.masks ∧ b.x = a.x))

/-- Where a tile's word starts and the head stage is visible: ASHWAIT goes on; ASHRD fills the 512 lanes of v[VD] with the
IMM-th chunk of the tile by rows or columns and holds it; ASHHDR with IMM 0 or 1 writes that half of the header to x[VD];
ASHPOP drops the stage. With no visible stage and COMPAT = 0, ASHWAIT waits, and ASHRD, ASHHDR and ASHPOP set ASH_UNDR and
count it. (R66, R98, R99, R100, R101.) -/
def Obligations.AshRows : Prop :=
  ∀ (t : BitVec 8) (g : GrateWord) (s : State), GrateReady s t →
    let a := s.ltile t.toNat
    (∀ st rest, a.ash = st :: rest → st.visible = true →
      Answers (.ashwait t g) s (fun s' => let b := s'.ltile t.toNat
        b.ash = a.ash ∧ b.stoker = a.stoker.past ∧ b.vregs = a.vregs ∧ b.x = a.x) ∧
      Answers (.ashrd t g) s (fun s' => let b := s'.ltile t.toNat
        lanesWritten a b g 32 512 (fun i =>
          let p := 8 * (g.imm.toNat % 8) + i / 64
          (nth 0 st.data (if g.imm.getLsbD 3 then 64 * (i % 64) + p else 64 * p + i % 64)).toNat) ∧
        b.ash = a.ash ∧ b.ashHoldHdr = st.header ∧ vregsKept a b [g.vd.toNat] 2048 ∧ b.x = a.x) ∧
      (g.imm.toNat ≤ 1 → Answers (.ashhdr t g) s (fun s' => let b := s'.ltile t.toNat
        (∀ k, b.xget k = if k % 16 ≠ 0 ∧ k % 16 = g.vd.toNat % 16
          then (if g.imm = 0 then st.header.setWidth 32 else (st.header >>> 32).setWidth 32) else a.xget k) ∧
        b.ash = a.ash ∧ b.vregs = a.vregs)) ∧
      Answers (.ashpop t g) s (fun s' => let b := s'.ltile t.toNat
        b.ash = rest ∧ b.vregs = a.vregs ∧ b.x = a.x ∧ b.stoker = a.stoker.past)) ∧
    (a.ashHead = none → a.compat = false →
      Answers (.ashwait t g) s (fun s' => (s'.ltile t.toNat).stoker = { a.stoker with waitWord := true } ∧
        ((s'.ltile t.toNat).reg 0x0300).getLsbD 2 = true) ∧
      (∀ row ∈ [Instr.ashrd, Instr.ashhdr, Instr.ashpop], Answers (row t g) s (fun s' => let b := s'.ltile t.toNat
        (b.reg 0x0300).getLsbD 9 = true ∧ b.reg 0x0314 = a.reg 0x0314 + 1 ∧ b.ash = a.ash)))

namespace Sys2Proof.Machine

/-- Where a fence of (op, beat) may be marked: outside every loop iteration but the last, and outside a replay (R249). -/
def marksFence (k : Stoker) : Bool :=
  k.recomp.isNone && k.loops.all (fun f => decide (f.left ≤ 1 ∨ k.pc < f.start ∨ f.start + f.len ≤ k.pc))

end Sys2Proof.Machine

/-- Where a tile's stoker issues: LOOP, but for one that ends a replay, opens a loop of LEN words COUNT times; AT sets the
beat of the following words; LAYER tags them; PRO marks the prologue; JOIN goes on at ADDR; FENCE, FLAG and STEP mark their
first unmet fence outside loops and replays, and STEP ends the step at the word after the prologue; SWAIT goes on where every
named stream is IDLE, PARKED or DONE and else waits; RECOMP jumps to the layer's forward range and remembers where it
returns; CLASS jumps to its class's entry or halts the tile with FAIL. Every other firebox is as before. (R154, R155, R163,
R244, R245, R246, R249, R251.) -/
def Obligations.StokerAndScheduleWords : Prop :=
  ∀ (t : BitVec 8) (s : State), s.issues t.toNat = true →
    let a := s.ltile t.toNat
    let k := a.stoker
    let keeps := fun (s' : State) => (∀ v, v ≠ s.unitOf t.toNat → s'.tile v = s.tile v) ∧
      (s'.ltile t.toNat).vregs = a.vregs ∧ (s'.ltile t.toNat).scratch = a.scratch ∧ (s'.ltile t.toNat).hobs = a.hobs
    (∀ count len : BitVec 16, count ≠ 0 → len ≠ 0 → (∀ r, k.recomp = some r → r.2.1 ≠ k.pc + 1) → Answers (.loop t count len) s (fun s' => keeps s' ∧
      (s'.ltile t.toNat).stoker.loops = ⟨k.pc + 1, len.toNat, count.toNat⟩ :: k.loops)) ∧
    (∀ beat, Answers (.schedAt t beat) s (fun s' => keeps s' ∧ (s'.ltile t.toNat).stoker.atBeat = some beat.toInt)) ∧
    (∀ phase id, Answers (.layer t phase id) s (fun s' => keeps s' ∧
      (s'.ltile t.toNat).stoker.phase = phase.toNat ∧ (s'.ltile t.toNat).stoker.layer = id.toNat)) ∧
    (∀ len, Answers (.pro t len) s (fun s' => keeps s' ∧ (s'.ltile t.toNat).stoker.bodyStart = k.pc + 1 + len.toNat)) ∧
    (∀ addr, k.loops = [] → k.recomp = none → Answers (.join t addr) s (fun s' => keeps s' ∧ (s'.ltile t.toNat).stoker.pc = addr.toNat)) ∧
    (marksFence k = true → ∀ barrier beat, Answers (.fence t barrier beat) s (fun s' => keeps s' ∧
      (s'.ltile t.toNat).stoker.fences = markFirst 0xD1 beat.toInt a.openPasses (s.openWrites a) k.fences)) ∧
    (marksFence k = true → ∀ beat, Answers (.flagWord t beat) s (fun s' => keeps s' ∧
      (s'.ltile t.toNat).stoker.fences = markFirst 0xD2 beat.toInt a.openPasses (s.openWrites a) k.fences)) ∧
    (marksFence k = true → ∀ beat, Answers (.stepWord t beat) s (fun s' => keeps s' ∧
      (s'.ltile t.toNat).stoker.fences = markFirst 0xD4 beat.toInt a.openPasses (s.openWrites a) k.fences ∧
      (s'.ltile t.toNat).stoker.stepDone = true ∧ (s'.ltile t.toNat).stoker.pc = k.bodyStart)) ∧
    (∀ mask, ((∀ n, n < 32 → mask.getLsbD n = true → (a.stream n).state = 0 ∨ (a.stream n).state = 2 ∨ (a.stream n).state = 3) →
      Answers (.swait t mask) s (fun s' => keeps s' ∧ (s'.ltile t.toNat).stoker = k.past)) ∧
      ((∃ n, n < 32 ∧ mask.getLsbD n = true ∧ (a.stream n).state = 1) →
        Answers (.swait t mask) s (fun s' => keeps s' ∧ (s'.ltile t.toNat).stoker = { k with waitWord := true }))) ∧
    (∀ (id : BitVec 16) r l, forwardRange ((s.ctx s.sched.ctx).program t.toNat) id.toNat = some r →
      layerStreams (s.ctx s.sched.ctx).layers id.toNat = some l →
      Answers (.recomp t id) s (fun s' => keeps s' ∧ (s'.ltile t.toNat).stoker.pc = r.1 ∧
        (s'.ltile t.toNat).stoker.recomp = some (k.pc + 1, r.2, l.1, l.2))) ∧
    (∀ (n : BitVec 5) e es, (a.stream n.toNat).entries.drop (a.stream n.toNat).claimed = e :: es →
      (e.1 < 16 → e.1 < (s.ctx s.sched.ctx).nclass → Answers (.classWord t n) s (fun s' => keeps s' ∧
        (s'.ltile t.toNat).stoker.pc = classEntry (nth 0 (s.ctx s.sched.ctx).classes e.1))) ∧
      (16 ≤ e.1 → Answers (.classWord t n) s (fun s' => keeps s' ∧ (s'.ltile t.toNat).stoker.halted = true ∧
        (s.sched.running = true → s'.sched.failStep.isSome = true))))

/-- Where a tile's stoker issues GATED: while the gate of a running step is not known the word waits; a known gate with NF or
FAIL continues LEN words further; a clear gate continues with the block. Outside loops and replays the stoker's place says
which. (R253.) -/
def Obligations.GateRunsOrSkips : Prop :=
  ∀ (t : BitVec 8) (len : BitVec 16) (s : State), s.issues t.toNat = true →
    let k := (s.ltile t.toNat).stoker
    (s.sched.running = true → s.sched.gateKnown = false → Answers (.gated t len) s (fun s' =>
      (s'.ltile t.toNat).stoker = { k with waitWord := true } ∧ s'.sched = s.sched)) ∧
    (s.sched.gateKnown = true → (s.sched.gateNf = true ∨ s.sched.gateFail = true) → k.loops = [] → k.recomp = none →
      Answers (.gated t len) s (fun s' => (s'.ltile t.toNat).stoker.pc = k.pc + 1 + len.toNat ∧ s'.sched = s.sched)) ∧
    (s.sched.gateKnown = true → s.sched.gateNf = false → s.sched.gateFail = false → k.loops = [] → k.recomp = none → len ≠ 0 →
      Answers (.gated t len) s (fun s' => (s'.ltile t.toNat).stoker.pc = k.pc + 1 ∧
        (s'.ltile t.toNat).stoker.gatedEnd = some (k.pc + 1 + len.toNat) ∧ s'.sched = s.sched))

/-- For a domain below 327: CLK_CTL_SEL and CLK_CTL_FORCE with an input that the domain has write SEL and set SW_BUSY, and
CLK_CTL_FORCE notes the forced switch; DOMAIN_HOLD writes bit 10 (and with 0 lets go on what waited for the domain, of which
no access is held here and which for domain 324 is stated of holding alone); CLOCK_SWITCH_DONE of a busy switch whose clock
is not dead, and was not when CLK_SELECT began it, and whose time has not run out clears SW_BUSY and sets SEL_ACT to SEL; one
whose time has run out without FORCE stays in its wait; SWITCH_TIMEOUT of a busy switch sets DOM_FLT and counts a domain
fault; CLK_MON_WINDOW of a started, powered domain shows its count, at most 65,535, and OOR where the domain has a stated
frequency; DOMAIN_DEAD sets DEAD and counts a domain fault. CLK_SELECT of an idle domain starts the switch and waits. (R221,
R222, R223, R224, R239.) -/
def Obligations.ClockDomainCommands : Prop :=
  ∀ (s : State) (d : Nat), d < 327 →
    let ctl := 0x1000 + 8 * d
    let mon := 0x1004 + 8 * d
    (∀ sel : BitVec 2, inputOk d sel.toNat = true →
      let moved := fun (t : State) => getField (t.ior ctl) 0 2 = sel.toNat ∧ (t.ior ctl).getLsbD 8 = true ∧
        (∀ j, 2 ≤ j → j ≠ 8 → (t.ior ctl).getLsbD j = (s.ior ctl).getLsbD j) ∧ (∀ o, o ≠ ctl → t.ior o = s.ior o)
      Answers (.clkCtlSel d sel) s (fun t => moved t ∧ t = { s with io := t.io }) ∧
      Answers (.clkCtlForce d sel) s (fun t => moved t ∧ d ∈ t.clk.forced ∧ (∀ x, x ≠ d → (x ∈ t.clk.forced ↔ x ∈ s.clk.forced)) ∧
        t = { s with io := t.io, clk := { s.clk with forced := t.clk.forced } })) ∧
    (∀ hold, hold = true ∨ (d ≠ 324 ∧ s.mem.heldHost = []) → Answers (.domainHold d hold) s (fun t => (t.ior ctl).getLsbD 10 = hold ∧
      (∀ j, j ≠ 10 → (t.ior ctl).getLsbD j = (s.ior ctl).getLsbD j) ∧ (∀ o, o ≠ ctl → t.ior o = s.ior o) ∧ t = { s with io := t.io })) ∧
    (d ∈ s.clk.timedOut → d ∉ s.clk.forced → Answers (.clockSwitchDone d) s (fun t => t = s)) ∧
    ((s.ior ctl).getLsbD 8 = true → (s.ior mon).getLsbD 31 = false → d ∉ s.clk.timedOut → d ∉ s.clk.selDead → s.selectSlot d = none →
      d ≠ 324 → s.mem.heldHost = [] → Answers (.clockSwitchDone d) s (fun t => (t.ior ctl).getLsbD 8 = false ∧ getField (t.ior ctl) 4 2 = getField (s.ior ctl) 0 2 ∧
        getField (t.ior ctl) 0 2 = getField (s.ior ctl) 0 2 ∧ (∀ o, o ≠ ctl → t.ior o = s.ior o) ∧ d ∉ t.clk.forced ∧
        t = { s with io := t.io, clk := { s.clk with forced := t.clk.forced, selDead := t.clk.selDead } })) ∧
    ((s.ior ctl).getLsbD 8 = true → Answers (.switchTimeout d) s (fun t =>
      (t.ior ctl).getLsbD 11 = true ∧ t.bar 0x40038 = s.bar 0x40038 + 1)) ∧
    (∀ count, s.clk.started = true → s.domPowered d = true → Answers (.clkMonWindow d count) s (fun t =>
      getField (t.ior mon) 0 16 = min 65535 count ∧
      ∀ f, s.domainHz d = some f → (t.ior mon).getLsbD 30 =
        decide (1024 * f < 50 * (((min 65535 count * 156250000 : Nat) : Int) - ((1024 * f : Nat) : Int)).natAbs))) ∧
    ((s.ior mon).getLsbD 31 = false → s.clk.started = true → s.domPowered d = true → Answers (.domainDead d) s (fun t =>
      (t.ior mon).getLsbD 31 = true ∧ t.bar 0x40038 = s.bar 0x40038 + 1)) ∧
    (∀ (k : Slot) (dom : BitVec 9) (sel : BitVec 2), dom.toNat = d → inputOk d sel.toNat = true → (s.ior ctl).getLsbD 8 = false →
      Answers (.clkSelectDomain k dom sel) s (fun t => getField (t.ior ctl) 0 2 = sel.toNat ∧ (t.ior ctl).getLsbD 8 = true ∧
        getSlot t.ctl.waiting k = some (.clkSelectDomain k dom sel) ∧ t.ctl.results = s.ctl.results))

/-- A firebox slot above 271, a clock domain above 326, hob 3, a frame beyond its tier, a tier 2 channel above 15 and a
counter block outside Table 15-1 stop the commands that name them with noSuchUnit, noSuchDomain, noSuchHob, noSuchFrame and
noSuchCounter. (R16, R78, R184, R204, R205, R214, R379.) -/
def Obligations.AbsentPartsFault : Prop :=
  (∀ (s : State) (u : Nat), 272 ≤ u → ∀ c ∈ [Instr.tbufReqSet u, .tbufReqClear u, .effLvlApply u, .spareSelfTest u true, .spareSelfTest u false,
      .sfuStoreError u true, .sfuStoreError u false], exec c s = .fault .noSuchUnit) ∧
  (∀ (s : State) (u : Nat) (r : BitVec 5) (b : Bool), 272 ≤ u → exec (.grateRegisterUe u b r) s = .fault .noSuchUnit ∧
      exec (.grateRegisterCe u b r) s = .fault .noSuchUnit) ∧
  (∀ (s : State) (d : Nat) (sel : BitVec 2) (b : Bool) (n : Nat), 327 ≤ d →
      ∀ c ∈ [Instr.clkCtlSel d sel, .clkCtlForce d sel, .domainHold d b, .clockSwitchDone d, .switchTimeout d, .clkMonWindow d n, .domainDead d,
        .beatToken d], exec c s = .fault .noSuchDomain) ∧
  (∀ (s : State) (t : BitVec 8), exec (.passStart t 3) s = .fault .noSuchHob ∧ exec (.passCommit t 3) s = .fault .noSuchHob) ∧
  (∀ (s : State) (tier : Tier) (f : Nat) (r : BitVec 3), frameOk tier f = false →
      exec (.correctedError tier f) s = .fault .noSuchFrame ∧ exec (.pageRetirement tier f r) s = .fault .noSuchFrame) ∧
  (∀ (s : State) (c : BitVec 8), 16 ≤ c.toNat →
      exec (.retrainWindowEnd .t2 c) s = .fault .noSuchFrame ∧ exec (.retrainingFailure .t2 c) s = .fault .noSuchFrame) ∧
  (∀ (s : State) (b : BitVec 16) (i : BitVec 3), blockOk b.toNat = false → exec (.counterWrap b i) s = .fault .noSuchCounter)

/-- FAULT_REPORT from an assigned source of class 1 to 14 counts its class (once for every class but DOMAIN, whose reaction
may report more); with FAULT = 0 and a latchable class it latches source, information, beat and class; with FAULT = 1 a
latchable report of a class other than DOMAIN sets FLT_OVF and counts the loss. FAULT_FORCE in mode LOG counts COUNT reports
and replies OK, and in mode REACT replies OK for every class that R339 lets it react. On expiry of the quiet timer the last
source is kept and the latch, FORCED and MAX_CLASS are cleared; while a reaction is in progress (a page move, a power
reaction and a die restart among them) or MOD_FLT is set, it changes nothing. (R333, R334, R335, R337, R339.) -/
def Obligations.CollectorReports : Prop :=
  (∀ (s : State) (source : BitVec 16) (info : W32),
      let c := source.toNat / 4096
      1 ≤ c → c ≤ 14 → unitAssigned c (source.toNat % 4096) = true →
      Answers (.faultReport source info) s (fun t =>
        (c ≠ 9 → t.bar (0x20040 + 4 * c) = s.bar (0x20040 + 4 * c) + 1) ∧
        (s.faultSet = false → s.latchable c = true →
          t.faultSet = true ∧ t.bar 0x20004 = BitVec.ofNat 32 source.toNat ∧ t.bar 0x20008 = info ∧ t.flt.firstBeat = s.clk.beatNow ∧
          (c ≠ 9 → t.maxClass = c)) ∧
        (s.faultSet = true → s.latchable c = true → c ≠ 9 → t.barBit 0x20000 11 = true ∧ t.bar 0x2001C = s.bar 0x2001C + 1 ∧
          t.bar 0x20004 = s.bar 0x20004))) ∧
  (∀ (s : State) (k : Slot) (source : BitVec 16) (react : Bool) (count : BitVec 8),
      let c := source.toNat / 4096
      1 ≤ c → c ≤ 14 → count ≠ 0 → unitAssigned c (source.toNat % 4096) = true → (react = true → c < 0xC) →
      Answers (.faultForce k source react count) s (fun t => t.outcome k = some { status := 0 } ∧
        (react = false → t.bar (0x20040 + 4 * c) = s.bar (0x20040 + 4 * c) + BitVec.ofNat 32 count.toNat))) ∧
  (∀ s : State, s.reacting = true ∨ s.modFlt = true → Answers .quietTimerExpiry s (fun t => t = s)) ∧
  (∀ s : State, s.flt.reacts ≠ [] ∨ s.mem.moving.isSome = true ∨ s.pwr.restarting = true → s.reacting = true) ∧
  (∀ s : State, s.faultSet = true → s.reacting = false → s.modFlt = false → Answers .quietTimerExpiry s (fun t =>
      t.bar 0x2000C = s.bar 0x20004 ∧ t.bar 0x20004 = 0 ∧ t.faultSet = false ∧ t.barBit 0x20000 12 = false ∧ t.maxClass = 0 ∧
      t.bar 0x20018 = s.bar 0x20018 + 1 ∧ (∀ o, o ∉ [0x2000C, 0x20004, 0x20000, 0x20018] → t.bar o = s.bar o) ∧
      t = { s with bar0 := t.bar0 }))

/-- SPARE_MIGRATION of a tile with an outstanding firebox or domain reaction, on a die without another migration and with an
eligible spare, quiesces the slot, puts its grate in tile-buffer mode, marks it SUSPECT and records phase 2 toward the lowest
spare; without a spare it sets MOD_FLT. MIGRATION_COPY in phase 2 copies registers, masks, scalars and scratch to the spare
and records phase 3. MIGRATION_REMAP in phase 3 brings the spare up to what the failing slot holds now, gives the logical
tile to the spare and no other, leaves no pass and no translation in the failing slot, and records phase 4. MIGRATION_RESUME
in phase 4 lets the spare issue, takes it out of tile-buffer mode once its built-in test has ended, and ends the migration
and its reaction. (R342, R343, R344, R345.) -/
def Obligations.SpareMigrationPhases : Prop :=
  ∀ (s : State) (t : BitVec 8),
    let u := s.unitOf t.toNat
    (s.migOf t.toNat = none → s.firebad u = true → (∀ m ∈ s.flt.migrations, m.src / 68 ≠ u / 68) →
      (∀ v, s.spareOf (u / 68) = some v → Answers (.spareMigration t) s (fun r =>
        r.migOf t.toNat = some { tile := t.toNat, src := u, dst := v, phase := 2 } ∧ (r.tile u).stoker.quiesced = true ∧
        ((r.tile u).reg 0x0300).getLsbD 12 = true ∧ (r.tile u).suspect = true ∧ ∀ w, w ≠ u → r.tile w = s.tile w)) ∧
      (s.spareOf (u / 68) = none → Answers (.spareMigration t) s (fun r => r.modFlt = true))) ∧
    (∀ m, s.migOf t.toNat = some m → m.src ≠ m.dst →
      (m.phase = 2 → (∀ h ∈ (s.tile m.src).hobs, h.2.stopped = true ∨ h.2.fly = []) → Answers (.migrationCopy t none) s (fun r =>
        (r.tile m.dst).vregs = (s.tile m.src).vregs ∧ (r.tile m.dst).scratch = (s.tile m.src).scratch ∧
        (r.tile m.dst).masks = (s.tile m.src).masks ∧ (r.tile m.dst).x = (s.tile m.src).x ∧
        r.migOf t.toNat = some { m with phase := 3, lost := false } ∧ ∀ w, w ≠ m.dst → r.tile w = s.tile w)) ∧
      (m.phase = 3 → Answers (.migrationRemap t) s (fun r =>
        r.unitOf t.toNat = m.dst ∧ (∀ l, l ≠ t.toNat → r.unitOf l = s.unitOf l) ∧ r.migOf t.toNat = some { m with phase := 4 } ∧
        (r.tile m.dst).vregs = (s.tile m.src).vregs ∧ (r.tile m.dst).scratch = (s.tile m.src).scratch ∧
        (r.tile m.dst).stoker = (s.tile m.src).stoker ∧ (r.tile m.dst).streams = (s.tile m.src).streams ∧
        (∀ h ∈ (r.tile m.src).hobs, h.2.fly = [] ∧ h.2.held = none) ∧ (r.tile m.src).xc.groups = [] ∧
        ∀ w, w ≠ m.src → w ≠ m.dst → r.tile w = s.tile w)) ∧
      (m.phase = 4 → Answers (.migrationResume t) s (fun r =>
        r.migOf t.toNat = none ∧ (r.tile m.dst).stoker.quiesced = false ∧ r.firebad m.src = false ∧
        ((r.tile m.dst).reg 0x0300).getLsbD 12 = !(s.tile m.dst).tested ∧ ∀ w, w ≠ m.dst → r.tile w = s.tile w)))

/-- FW_STAGE of an image that passes its checks puts its VERSION into the inactive slot, sets STAGED and replies with it; one
that fails leaves that slot empty and is refused. FW_ACTIVATE of a staged image at least 16 beats ahead is taken. FW_SWITCH
at or after that beat without a migration runs the staged image and writes nothing but the handoff record into the first
frame of the firmware area (log 152). The health check 1 s later makes it the boot slot, or the next beat edge without a
migration switches back with ROLLBACK and a MGMT report (shown of a module without a job or message). A mantel restart
answers BUSY to every dispatched command without an outcome and ends the MGMT reactions. (R346, R347, R348.) -/
def Obligations.FirmwareImages : Prop :=
  (∀ (s : State) (k : Slot) (image : List Byte),
      (∀ v, Config.firmwareVersion image = some v → Answers (.fwStage k image) s (fun t =>
        t.slotVersion (!s.actB) = some v ∧ t.slotVersion s.actB = s.slotVersion s.actB ∧ t.barBit 0x20020 2 = true ∧ t.actB = s.actB ∧
        t.outcome k = some { status := 0, data := leBytes 2 v.toNat })) ∧
      (Config.firmwareVersion image = none → Answers (.fwStage k image) s (fun t =>
        t.slotVersion (!s.actB) = none ∧ t.slotVersion s.actB = s.slotVersion s.actB ∧ t.barBit 0x20020 2 = false ∧
        t.outcome k = some { status := 0x30 }))) ∧
  (∀ (s : State) (k : Slot) (b : BitVec 64), s.flt.bAct = none → s.clk.beatNow + 16 ≤ b.toNat → s.barBit 0x20020 2 = true →
      Answers (.fwActivate k b) s (fun t => t.flt.bAct = some b.toNat ∧ t.barBit 0x20020 3 = true ∧ t.outcome k = some { status := 0 })) ∧
  (∀ (s : State) (b : Nat), s.flt.bAct = some b → b ≤ s.clk.beatNow → s.flt.migrations = [] → s.barBit 0x20020 2 = true →
      Answers .fwSwitch s (fun t => t.flt.bAct = none ∧ t.actB = !s.actB ∧ t.flt.switched = true ∧ t.barBit 0x20020 3 = false ∧
        getField (t.bar 0x20020) 16 16 = ((s.slotVersion (!s.actB)).getD 0).toNat ∧ t.mem.tier1 = s.mem.tier1 ∧ t.tiles = s.tiles ∧
        (∀ x, ¬ (firmwareFrame * 65536 ≤ x ∧ x < firmwareFrame * 65536 + 65536) → mread t.mem.tier2 x = mread s.mem.tier2 x))) ∧
  (∀ s : State, s.flt.switched = true →
      Answers (.fwHealthTimeout true) s (fun t => t.barBit 0x20020 1 = s.actB ∧ t.actB = s.actB ∧ t.flt.switched = false) ∧
      Answers (.fwHealthTimeout false) s (fun t => t.actB = s.actB ∧ t.flt.switched = false ∧ t.flt.backDue = true ∧ t.bar0 = s.bar0)) ∧
  (∀ (s : State) (dma : List (Slot × List Byte)), s.clk.started = true → s.clocked 323 = true → s.flt.backDue = true → s.flt.migrations = [] →
      s.sched.running = false → s.sched.b0 = none → s.sched.stopDue = false → s.ctl.inflight = [] →
      Answers (.beatEdge dma) s (fun t => t.actB = !s.actB ∧ t.barBit 0x20020 4 = true ∧ t.flt.backDue = false ∧
        t.bar 0x20070 = s.bar 0x20070 + 1)) ∧
  (∀ s : State, Answers .mantelRestart s (fun t =>
      (∀ k f, (k, f) ∈ s.ctl.inflight → f.dispatched = true → getSlot s.ctl.results k = none → t.outcome k = some { status := 1 }) ∧
      (∀ r ∈ t.flt.reacts, r ∈ s.flt.reacts ∧ r / 4096 ≠ 0xC) ∧ t.tiles = s.tiles ∧ t.mem = s.mem))

/-- SPARE_SELF_TEST of a slot without a logical tile records its result, and a failure marks it SUSPECT; SENSOR_CALIBRATION
records the sensor; FACTORY_UNLOCK during kindling sets FACTORY; in factory test mode CELL_LEVEL_INJECTION writes the 64-bit
word of scratch or of the vector registers, or the scalar register, that it names, and no other, but for a change of one bit,
which SECDED corrects so that the word reads as before; a word of a tier 1 or tier 2 line is unchanged by as many wrong
symbols as its code corrects, its line is poisoned by as many as it detects, and it takes the bits of more; a held node is
recorded. (R198, R340, R345, R349.) -/
def Obligations.SparesSensorsAndFactory : Prop :=
  (∀ (s : State) (u : Nat) (passed : Bool), u < 272 → s.tileOf u = none → Answers (.spareSelfTest u passed) s (fun t =>
      (t.tile u).testOk = passed ∧ (t.tile u).suspect = ((s.tile u).suspect || !passed) ∧ ∀ w, w ≠ u → t.tile w = s.tile w)) ∧
  (∀ (s : State) (die : BitVec 2) (sensor : Nat), Answers (.sensorCalibration die sensor) s (fun t =>
      (die.toNat, sensor) ∈ t.flt.calibrated ∧ (∀ p ∈ s.flt.calibrated, p ∈ t.flt.calibrated) ∧ t.bar0 = s.bar0 ∧ t.tiles = s.tiles)) ∧
  (∀ s : State, 1 ≤ s.pwr.stage → s.pwr.stage < 8 → Answers .factoryUnlock s (fun t => t.barBit 0x20000 15 = true ∧
      (∀ o, o ≠ 0x20000 → t.bar o = s.bar o) ∧ t = { s with bar0 := t.bar0 })) ∧
  (∀ (s : State) (u : Nat) (bits : W64) (hold : Bool), u < 272 → s.factory = true →
      (∀ a, a < 3 * 2 ^ 20 → Answers (.cellLevelInjection (.scratch u a) bits hold) s (fun t =>
        let one := bitsApart (BitVec.ofNat 64 (leNat (mreadN (s.tile u).scratch (a / 8 * 8) 8))) bits = 1
        (∀ x, mread (t.tile u).scratch x = if ¬ one ∧ a / 8 * 8 ≤ x ∧ x < a / 8 * 8 + 8
          then BitVec.ofNat 8 (bits.toNat / 256 ^ (x - a / 8 * 8)) else mread (s.tile u).scratch x) ∧ (t.tile u).vregs = (s.tile u).vregs ∧
        (hold = true → ∃ p, t.flt.stuck = s.flt.stuck ++ [(0, p, bits)]) ∧ ∀ w, w ≠ u → t.tile w = s.tile w)) ∧
      (∀ a, a < 2 ^ 16 → Answers (.cellLevelInjection (.vectorReg u a) bits hold) s (fun t =>
        let one := bitsApart (BitVec.ofNat 64 (leNat (mreadN (s.tile u).vregs (a / 8 * 8) 8))) bits = 1
        (∀ x, mread (t.tile u).vregs x = if ¬ one ∧ a / 8 * 8 ≤ x ∧ x < a / 8 * 8 + 8
          then BitVec.ofNat 8 (bits.toNat / 256 ^ (x - a / 8 * 8)) else mread (s.tile u).vregs x) ∧
        (t.tile u).scratch = (s.tile u).scratch ∧ ∀ w, w ≠ u → t.tile w = s.tile w)) ∧
      (∀ r : BitVec 4, r ≠ 0 → Answers (.cellLevelInjection (.scalarReg u r) bits hold) s (fun t =>
        let one := bitsApart (((s.tile u).xget r.toNat).setWidth 64) bits = 1
        (∀ k, (t.tile u).xget k = if ¬ one ∧ k % 16 = r.toNat then bits.setWidth 32 else (s.tile u).xget k) ∧
        ∀ w, w ≠ u → t.tile w = s.tile w)) ∧
      (∀ (tier : Tier) (f : Nat) (w : BitVec 13), frameOk tier f = true →
        Answers (.cellLevelInjection (.tierWord (BitVec.ofNat 1 (tierNum tier)) f w) bits hold) s (fun t =>
          let k := tierNum tier
          let a := f * 65536 + 8 * w.toNat
          let n := symbolsApart (BitVec.ofNat 64 (leNat (mreadN (s.tierMem k) a 8))) bits
          t.tiles = s.tiles ∧ (n ≤ 1 + k → t.tierMem k = s.tierMem k ∧ t.mem.poison = s.mem.poison) ∧
          (1 + k < n → n ≤ 3 * (1 + k) → t.tierMem k = s.tierMem k ∧ (k, f * 1024 + w.toNat / 8) ∈ t.mem.poison) ∧
          (3 * (1 + k) < n → t.mem.poison = s.mem.poison ∧ ∀ x, mread (t.tierMem k) x =
            if a ≤ x ∧ x < a + 8 then BitVec.ofNat 8 (bits.toNat / 256 ^ (x - a)) else mread (s.tierMem k) x))) ∧
      (∀ w, Answers (.cellLevelInjection (.checkBits u w) bits hold) s (fun t =>
        ∃ p, t = { s with flt := { s.flt with stuck := s.flt.stuck ++ [(3, p, bits)] } })) ∧
      (∀ n, Answers (.cellLevelInjection (.logicNode u n) bits hold) s (fun t =>
        ∃ p, t = { s with flt := { s.flt with stuck := s.flt.stuck ++ [(4, p, bits)] } })))

namespace Sys2Proof.Machine

/-- The page map entry that a host access meets: the host cache's, or the one that a fill reads (R194). -/
def hostEntry (s : State) (c p : Nat) : W64 :=
  match s.mem.hostCache.find c (p / 8) with
  | some g => nth 0 g.entries (p % 8)
  | none => nth 0 (s.groupLine c (p / 8)).1 (p % 8)

end Sys2Proof.Machine

/-- While requests are served, a BAR2 access of at most one page whose translation raises no fault, and which waits for no
move and no retraining window, completes: a read of lines that are in order is answered with the bytes of the frame; a write
to a page without PROT, not of a worn cartridge, stores its bytes in the frame and changes no other byte of any tier. An
access to a page that moves, and a read of a channel in a window, is held as it was received. Where the entry raises a fault,
or both copies of its line fail, in a group that the host cache does not hold, a read is answered with 0xFF bytes, a write is
dropped, and the HOST count rises by 1; but a read of a tier 3 page whose cartridge is away is answered from a free tier 2
frame, to which the page is rebuilt and mapped. (R188, R193, R199, R202, R204, R210, R211, R212.) -/
def Obligations.HostAccessThroughBar2 : Prop :=
  ∀ (s : State) (off : BitVec 34), s.hostUp = true →
    let c := (s.bar2Dva off.toNat).1
    let a := (s.bar2Dva off.toNat).2
    let p := a / 65536
    let e := hostEntry s c p
    let at_ := eFrame e * 65536 + a % 65536
    let found := s.groupFails c (p / 8) = false ∨ s.mem.hostCache.find c (p / 8) ≠ none
    let held := fun (n : Nat) => s.spanHeld (eTier e) (eFrame e) (a % 65536) n
    (∀ len : BitVec 13, found → s.entryFault c e true false = 0 → eMov e = false → held len.toNat = false →
      s.spanBad (eTier e) (eFrame e) (a % 65536) len.toNat = false →
      Answers (.bar2Read off len) s (fun t =>
        t.out = s.out ++ [.readData ((List.range len.toNat).map (fun i => mread (s.tierMem (eTier e)) (at_ + i)))] ∧
        t = { s with out := t.out, mem := { s.mem with
          hostCache := t.mem.hostCache, pmap := t.mem.pmap, poison := t.mem.poison } })) ∧
    (∀ data : List Byte, found → s.entryFault c e true true = 0 → eMov e = false → eProt e = false → held data.length = false →
      (eTier e = 2 → s.cartWorn = false) →
      Answers (.bar2Write off data) s (fun t =>
        (∀ x, mread (t.tierMem (eTier e)) x = if at_ ≤ x ∧ x < at_ + data.length then data.getD (x - at_) 0 else mread (s.tierMem (eTier e)) x) ∧
        (∀ n, n < 3 → n ≠ eTier e → t.tierMem n = s.tierMem n) ∧ t = { s with mem := t.mem, ember := t.ember })) ∧
    (∀ len : BitVec 13, found → s.entryFault c e true false = 0 → eMov e = true ∨ held len.toNat = true → Answers (.bar2Read off len) s (fun t =>
        t.out = s.out ∧ t.mem.heldHost = s.mem.heldHost ++ [{ isWrite := false, off := off.toNat, len := len.toNat, ctx := c, dva := a }])) ∧
    (∀ data : List Byte, found → s.entryFault c e true true = 0 → eMov e = true → Answers (.bar2Write off data) s (fun t =>
        t.out = s.out ∧ t.mem.tier1 = s.mem.tier1 ∧ t.mem.tier2 = s.mem.tier2 ∧ t.mem.heldHost = s.mem.heldHost ++
          [{ isWrite := true, off := off.toNat, len := data.length, data := data, ctx := c, dva := a }])) ∧
    (s.mem.hostCache.find c (p / 8) = none →
      (∀ (len : BitVec 13) (f : Nat), s.groupFails c (p / 8) = false → s.entryFault c e true false = 2 → eV e = true → s.pentry c p = e →
        (List.range 16).findSome? (fun i => s.freeFrame 1 ((p + i) % 16)) = some f →
        s.spanHeld 1 f (a % 65536) len.toNat = false → Answers (.bar2Read off len) s (fun t =>
          eTier (t.pentry c p) = 1 ∧ eFrame (t.pentry c p) = f ∧ t.out = s.out ++
            [.readData ((List.range len.toNat).map (fun i => mread t.mem.tier2 (f * 65536 + a % 65536 + i)))])) ∧
      (∀ len : BitVec 13, s.groupFails c (p / 8) = true ∨
        (s.entryFault c e true false ≠ 0 ∧ (s.entryFault c e true false = 2 → eV e = false ∧ eV (s.pentry c p) = false)) → Answers (.bar2Read off len) s (fun t =>
        t.out.getLast? = some (.readData (List.replicate len.toNat 0xFF)) ∧ t.bar 0x20048 = s.bar 0x20048 + 1)) ∧
      (∀ data : List Byte, s.entryFault c e true true ≠ 0 ∨ s.groupFails c (p / 8) = true → Answers (.bar2Write off data) s (fun t =>
        t.bar 0x20048 = s.bar 0x20048 + 1 ∧ t.mem.tier1 = s.mem.tier1 ∧ t.mem.tier2 = s.mem.tier2 ∧ t.ember.cart = s.ember.cart)))

/-- INVAL leaves no cached group of the named pages in any firebox or the host cache, changes no page map and is in progress.
PAGE_MOVE of a mapped page of tier 1 or 2, with a spare frame and no move in progress, sets MOV in both copies of its entry
and waits for the first invalidation. INVAL_COMPLETE ends the invalidation; with a move of an unshared frame in its first
phase and no held access it copies the 64 KiB, writes the new frame and clears MOV in both copies; in its second phase it
puts the old frame on the retirement list, where that has room, and ends the move; of the frames that wait it then takes one
after another until the page of one moves or none is left. (R192, R196, R201, R202, R203.) -/
def Obligations.InvalidationsAndPageMoves : Prop :=
  (∀ (s : State) (ctx : BitVec 2) (first count : Nat) (all : Bool), Answers (.inval ctx first count all) s (fun t =>
      let hits := fun (g : XGroup) => g.ctx = ctx.toNat ∧ (all = true ∨ (g.g * 8 < first + count ∧ first < g.g * 8 + 8))
      (∀ u, ∀ g ∈ (t.tile u).xc.groups, g.g < 2 ^ 23 → ¬ hits g) ∧ (∀ g ∈ t.mem.hostCache.groups, g.g < 2 ^ 23 → ¬ hits g) ∧
      (∀ u, (t.tile u).vregs = (s.tile u).vregs ∧ (t.tile u).scratch = (s.tile u).scratch ∧ (t.tile u).regs = (s.tile u).regs) ∧
      t.mem.inval.isSome = true ∧ t.mem.pmap = s.mem.pmap ∧ t.mem.pmapCopy = s.mem.pmapCopy ∧
      t = { s with tiles := t.tiles, mem := { s.mem with hostCache := t.mem.hostCache, inval := t.mem.inval } })) ∧
  (∀ (s : State) (ctx : BitVec 2) (page f : Nat), page < 2 ^ 26 →
      let e := s.pentry ctx.toNat page
      eV e = true → eTier e < 2 → s.mem.moving = none → s.spareFrame (eTier e) (eFrame e % banksOf (eTier e)) = some f →
      Answers (.pageMove ctx page) s (fun t =>
        eMov (t.pentry ctx.toNat page) = true ∧ tget 0 t.mem.pmapCopy (pageKey ctx.toNat page) = t.pentry ctx.toNat page ∧
        eFrame (t.pentry ctx.toNat page) = eFrame e ∧ t.mem.inval.isSome = true ∧
        (s.pagesOfFrame (eTier e) (eFrame e) = [(ctx.toNat, page)] → t.mem.inval = some (ctx.toNat, page, 1)) ∧
        ∃ m, t.mem.moving = some m ∧ m.ctx = ctx.toNat ∧ m.page = page ∧ m.old = eFrame e ∧ m.new = f ∧ m.stage = 1)) ∧
  (∀ (s : State) (i : Nat × Nat × Nat), s.mem.inval = some i →
      (s.mem.moving = none → Answers .invalComplete s (fun t => t = { s with mem := { s.mem with inval := none } })) ∧
      (∀ m, s.mem.moving = some m → m.stage = 1 → s.mem.heldHost = [] → m.new < 2 ^ 27 → eTier (s.pentry m.ctx m.page) < 2 →
        s.pagesOfFrame (eTier (s.pentry m.ctx m.page)) m.old = [(m.ctx, m.page)] →
        Answers .invalComplete s (fun t =>
          let tier := eTier (s.pentry m.ctx m.page)
          (∀ x, x < 65536 → mread (t.tierMem tier) (m.new * 65536 + x) = mread (s.tierMem tier) (m.old * 65536 + x)) ∧
          (∀ x, ¬ (m.new * 65536 ≤ x ∧ x < m.new * 65536 + 65536) → mread (t.tierMem tier) x = mread (s.tierMem tier) x) ∧
          eFrame (t.pentry m.ctx m.page) = m.new ∧ eMov (t.pentry m.ctx m.page) = false ∧
          tget 0 t.mem.pmapCopy (pageKey m.ctx m.page) = t.pentry m.ctx m.page ∧ t.mem.moving = some { m with stage := 2 } ∧
          t.mem.inval = some (m.ctx, m.page, 1))) ∧
      (∀ m, s.mem.moving = some m → m.stage = 2 → s.mem.retireQ = [] → Answers .invalComplete s (fun t =>
        t.mem.moving = none ∧ t.mem.inval = none ∧ t.mem.pmap = s.mem.pmap ∧ t.mem.tier1 = s.mem.tier1 ∧ t.mem.tier2 = s.mem.tier2 ∧
        (s.mem.retired.length < 8192 → m.old < 2 ^ 27 → t.isRetired (eTier (s.pentry m.ctx m.page)) m.old = true))) ∧
      (∀ m, s.mem.moving = some m → m.stage = 2 → Answers .invalComplete s (fun t =>
        (t.mem.moving.isSome = true ∨ t.mem.retireQ = []) ∧
        ∃ l, s.mem.retireQ = l ++ t.mem.retireQ ∧ (s.mem.retireQ ≠ [] → l ≠ []))))

/-- For a frame of its tier: CORRECTED_ERROR and a corrected patrol read count a CORR report and record the time against the
frame, and at RETIRE_CE within 24 h retire it; an uncorrectable patrol read of a frame that starts no move counts a MEMORY
report, poisons its line unless a write came between, and retires the frame; a clean one changes nothing but counters of
scrub reads; PAGE_RETIREMENT of an unmapped frame for a reason of R201 puts it on the list. UNCORRECTABLE_READ aborts a
stream that runs with code 4 and poisons the line, or the cartridge frame; of a page map line the frame is retired and the
next fill of its group is served from the copy, or, where the copy fails too, the group is marked, both frames are retired
and a MODULE report is counted. (R199, R200, R201, R206.) -/
def Obligations.MemoryErrorsAndRetirement : Prop :=
  (∀ (s : State) (tier : Tier) (f : Nat), frameOk tier f = true →
      let key := tierNum tier * 2 ^ 27 + f
      let recent := (tget [] s.mem.ceCount key).filter (fun t => decide (s.clk.ticks < t + 86400 * ticksPerSecond))
      let free := s.pageOfFrame (tierNum tier) f = none
      let corrected := fun (t : State) => t.bar 0x20044 = s.bar 0x20044 + 1 ∧ s.clk.ticks ∈ tget [] t.mem.ceCount key ∧
        (recent.length + 1 < s.setting 0x0021 ∨ free → t.mem.tier1 = s.mem.tier1 ∧ t.mem.tier2 = s.mem.tier2 ∧
          t.mem.poison = s.mem.poison) ∧
        (recent.length + 1 < s.setting 0x0021 → t.mem.retired = s.mem.retired) ∧
        (s.setting 0x0021 ≤ recent.length + 1 → free → s.mem.retired.length < 8192 → t.isRetired (tierNum tier) f = true)
      Answers (.correctedError tier f) s corrected ∧
      (∀ line written, Answers (.patrolScrubRead tier f line .corrected written) s corrected ∧
        Answers (.patrolScrubRead tier f line .clean written) s (fun t => t = s.count (memUnit (tierNum tier) f) 0x104 1) ∧
        Answers (.patrolScrubRead tier f line .uncorrectable written) s (fun t =>
          (free ∨ s.mem.moving.isSome = true → t.bar 0x20060 = s.bar 0x20060 + 1 ∧ t.mem.tier1 = s.mem.tier1 ∧ t.mem.tier2 = s.mem.tier2 ∧
            (if written then t.mem.poison = s.mem.poison else (tierNum tier, f * 1024 + line.toNat) ∈ t.mem.poison)) ∧
          (free → s.mem.retired.length < 8192 → t.isRetired (tierNum tier) f = true))) ∧
      (∀ reason : BitVec 3, 1 ≤ reason.toNat → reason.toNat ≤ 4 → free → s.mem.retired.length < 8192 →
        Answers (.pageRetirement tier f reason) s (fun t => t.isRetired (tierNum tier) f = true ∧
          t = { s with mem := { s.mem with retired := t.mem.retired }, ctl := { s.ctl with storeCnt := t.ctl.storeCnt } })) ∧
      (∀ (t : BitVec 8) (n : BitVec 5) (line : BitVec 10), let st := s.streamAt (s.at t.toNat n.toNat)
        Answers (.uncorrectableRead (.stream t n tier f line)) s (fun r =>
          (st.state = 1 → (r.streamAt (s.at t.toNat n.toNat)).state = 4 ∧ getField (r.streamAt (s.at t.toNat n.toNat)).fault 28 4 = 4) ∧
          (free ∨ s.mem.moving.isSome = true → (tierNum tier, f * 1024 + line.toNat) ∈ r.mem.poison)))) ∧
  (∀ (s : State) (t : BitVec 8) (n : BitVec 5) (f : Nat), f < 122070312 → let st := s.streamAt (s.at t.toNat n.toNat)
      Answers (.uncorrectableRead (.cartridge t n f)) s (fun r => (2, f * 1024) ∈ r.mem.poison ∧
        (st.state = 1 → (r.streamAt (s.at t.toNat n.toNat)).state = 4 ∧ getField (r.streamAt (s.at t.toNat n.toNat)).fault 28 4 = 4) ∧
        (st.state ≠ 1 → r = { s with mem := { s.mem with poison := r.mem.poison } }))) ∧
  (∀ (s : State) (c : BitVec 2) (g : Nat), g < 2 ^ 23 →
      let first := s.pmFrame c.toNat g false
      let second := s.pmFrame c.toNat g true
      (s.pageOfFrame 1 first = none → Answers (.uncorrectableRead (.pageMap c g false)) s (fun t => (∀ q ∈ s.mem.poison, q ∈ t.mem.poison) ∧
        (t.pmBad c.toNat g true = false → (t.groupLine c.toNat g).2 = true ∧
          ∀ i, i < 8 → nth 0 (t.groupLine c.toNat g).1 i = tget 0 s.mem.pmapCopy (pageKey c.toNat (8 * g + i))) ∧
        (s.mem.retired.length < 8192 → first < 2 ^ 27 → t.isRetired 1 first = true) ∧
        t = { s with mem := { s.mem with poison := t.mem.poison, retired := t.mem.retired },
                     ctl := { s.ctl with storeCnt := t.ctl.storeCnt } })) ∧
      (s.pageOfFrame 1 first = none → s.pageOfFrame 1 second = none → Answers (.uncorrectableRead (.pageMap c g true)) s (fun t =>
        c.toNat * 2 ^ 23 + g ∈ t.mem.badLines ∧ t.modFlt = true ∧ t.bar 0x20078 = s.bar 0x20078 + 1 ∧
        (s.mem.retired.length + 1 < 8192 → first < 2 ^ 27 → second < 2 ^ 27 → t.isRetired 1 first = true ∧ t.isRetired 1 second = true) ∧
        t.mem.pmap = s.mem.pmap ∧ t.mem.pmapCopy = s.mem.pmapCopy)))

/-- A tier 1 window opens for a channel in service where no channel of its stack is in one, a tier 2 window where none is
open; with no host access held, the end of a window closes it and ends the channel's run of failures; a failure counts, and
the third in a row of a channel in service takes it out of service and sets MOD_FLT. (R204, R205, R206.) -/
def Obligations.RetrainingWindows : Prop :=
  (∀ (s : State) (c : BitVec 8), (∀ w ∈ s.mem.window1, w / 32 ≠ c.toNat / 32) → c.toNat ∉ s.mem.dead1 →
      Answers (.retrainWindowTier1 c) s (fun t => t = { s with mem := { s.mem with window1 := s.mem.window1 ++ [c.toNat] } })) ∧
  (∀ (s : State) (c : BitVec 4), s.mem.window2 = none → c.toNat ∉ s.mem.dead2 →
      Answers (.retrainWindowTier2 c) s (fun t => t = { s with mem := { s.mem with window2 := some c.toNat } })) ∧
  (∀ (s : State) (c : BitVec 8), s.mem.heldHost = [] → Answers (.retrainWindowEnd .t1 c) s (fun t => c.toNat ∉ t.mem.window1 ∧
      tget 0 t.mem.failRuns (channelKey 0 c.toNat) = 0 ∧ (∀ w ∈ s.mem.window1, w ≠ c.toNat → w ∈ t.mem.window1) ∧ t = { s with mem := t.mem })) ∧
  (∀ (s : State) (c : BitVec 8), c.toNat < 16 → s.mem.heldHost = [] → Answers (.retrainWindowEnd .t2 c) s (fun t => t.mem.window2 ≠ some c.toNat ∧
      tget 0 t.mem.failRuns (channelKey 1 c.toNat) = 0 ∧ t.mem.window1 = s.mem.window1 ∧ t = { s with mem := t.mem })) ∧
  (∀ (s : State) (tier : Tier) (c : BitVec 8), (tier = .t2 → c.toNat < 16) → s.mem.heldHost = [] →
      let key := channelKey (tierNum tier) c.toNat
      let dead := fun (s : State) => if tier = .t1 then s.mem.dead1 else s.mem.dead2
      Answers (.retrainingFailure tier c) s (fun t => tget 0 t.mem.failRuns key = tget 0 s.mem.failRuns key + 1 ∧
        (2 ≤ tget 0 s.mem.failRuns key → c.toNat ∉ dead s → c.toNat ∈ dead t ∧ t.modFlt = true) ∧
        (tget 0 s.mem.failRuns key < 2 → t.mem.dead1 = s.mem.dead1 ∧ t.mem.dead2 = s.mem.dead2)))

namespace Sys2Proof.Machine

/-- The best stable source once source n is not (R217). -/
def State.sourceAfter (s : State) (n : Nat) : Nat :=
  if n ≠ 0 ∧ s.barBit 0x40020 9 = true then 0 else if n ≠ 1 ∧ s.barBit 0x40020 10 = true then 1 else 2

/-- The best stable source once source n is. -/
def State.sourceWith (s : State) (n : Nat) : Nat :=
  if n = 0 ∨ s.barBit 0x40020 9 = true then 0 else if n = 1 ∨ s.barBit 0x40020 10 = true then 1 else 2

/-- The source in use is lost: the move to another (R217, R218). -/
def SourceLeft (s t : State) : Prop :=
  let n := s.clk.src
  let m := s.sourceAfter n
  t.clk = { s.clk with src := m } ∧ t.barBit 0x40020 (stableBit n) = false ∧ t.tiles = s.tiles ∧ t.mem = s.mem ∧ t.sched = s.sched ∧
  (m = n → t.bar 0x4002C = s.bar 0x4002C) ∧
  (m ≠ n → t.bar 0x4002C = s.bar 0x4002C + 1 ∧ t.barBit 0x40020 8 = true ∧ t.bar 0x20044 = s.bar 0x20044 + 1 ∧
    t.bar 0x40030 = s.bar 0x40030 + (if m = 2 then 1 else 0))

end Sys2Proof.Machine

/-- On a module whose beat unit runs: losing the source in use clears its judgement and moves to the best stable one,
counted, with REF_LOSS and a CORR report; losing another clears its judgement alone; a source judged stable is taken where it
is more preferred. BEAT_TOKEN moves the oldest unread token of a domain that runs to its local beat number, where its counter
block sees the edge, and waits where there is none or the domain is held, dead, without power or halted. A slew step moves
the phase by one unit. ALIGN_TIMEOUT of a module with a time parent sets ALIGN_LOST and counts a CLOCK report. PTP Sync,
Follow_Up and Delay_Resp record t2, t1 and t3, and complete the exchange, whose offset is half the difference of the two ways
less LINK_ASYM, to half a unit. (R216, R217, R218, R227, R231, R232.) -/
def Obligations.ClockSourcesAndTime : Prop :=
  (∀ s : State, s.clk.started = true → s.clk.src ≤ 2 →
      Answers .referenceSourceLoss s (SourceLeft s) ∧
      (∀ src, srcNum src = s.clk.src → Answers (.sourceLoss src) s (SourceLeft s)) ∧
      (∀ src, srcNum src ≠ s.clk.src → Answers (.sourceLoss src) s (fun t =>
        (∀ j, t.barBit 0x40020 j = (s.barBit 0x40020 j && decide (j ≠ stableBit (srcNum src)))) ∧
        (∀ off, off ≠ 0x40020 → t.bar off = s.bar off) ∧ t = { s with bar0 := t.bar0 })) ∧
      (∀ src, Answers (.sourceStable src) s (fun t =>
        let b := s.sourceWith (srcNum src)
        t.clk = { s.clk with src := min b s.clk.src } ∧ t.barBit 0x40020 (stableBit (srcNum src)) = true ∧
        t.barBit 0x40020 8 = s.barBit 0x40020 8 ∧ t.bar 0x4002C = s.bar 0x4002C + (if b < s.clk.src then 1 else 0) ∧
        t.tiles = s.tiles ∧ t.mem = s.mem ∧ t.sched = s.sched)) ∧
      (s.timeParent.isSome = true → Answers .alignTimeout s (fun t => t.barBit 0x40020 12 = true ∧ t.bar 0x20050 = s.bar 0x20050 + 1 ∧
        t.clk = s.clk ∧ t.tiles = s.tiles ∧ t.mem = s.mem))) ∧
  (∀ (s : State) (d : Nat), d < 327 →
      (∀ k r, tget [] s.clk.tokens d = k :: r → s.domRuns d = true → Answers (.beatToken d) s (fun t =>
        tget 0 t.clk.locals d = k.beat % 65536 ∧ tget [] t.clk.tokens d = r ∧
        (∀ e, e ≠ d → tget 0 t.clk.locals e = tget 0 s.clk.locals e ∧ tget [] t.clk.tokens e = tget [] s.clk.tokens e) ∧
        (domainBlock d = none → t.obs = s.obs) ∧
        t = { s with
          clk := { s.clk with locals := t.clk.locals, tokens := t.clk.tokens }, obs := t.obs, bar0 := t.bar0, out := t.out
          ctl := { s.ctl with held := t.ctl.held }, free := t.free })) ∧
      (tget [] s.clk.tokens d = [] ∨ s.domRuns d = false → Answers (.beatToken d) s (fun t => t = s))) ∧
  (∀ s : State, Answers .phaseSlewStep s (fun t =>
      t = { s with clk := { s.clk with slewLeft := s.clk.slewLeft - Int.sign s.clk.slewLeft } })) ∧
  (∀ (s : State) (q : W16), s.portsUp = true → s.clk.started = true →
      (∀ t2, Answers (.ptpMessage (.sync q t2)) s (fun t => t = { s with clk := { s.clk with
        exch := some { tseq := q.toNat, t1 := 0, t2 := t2.toNat, t3 := 0, pbeat := none, full := false } } })) ∧
      (∀ e, s.clk.exch = some e → e.tseq = q.toNat → e.pbeat = none →
        (∀ t1 t3, Answers (.ptpMessage (.followUp q t1 t3)) s (fun t => t = { s with
          clk := { s.clk with exch := some { e with t1 := t1.toNat, t3 := t3.toNat, full := true } }
          out := s.out ++ [.time 1 [e.tseq]] })) ∧
        (∀ t4 : W64, e.full = true → Answers (.ptpMessage (.delayResp q t4)) s (fun t => t.clk.exch = none ∧ t.tiles = s.tiles ∧
          t.mem = s.mem ∧
          (s.clk.delays = [] →
            let ch := match s.timeParent with | some p => p.2 | none => 0
            let d := s.tsDiff e.t2 e.t1 - s.tsDiff t4.toNat e.t3
            (2 * (t.clk.theta + signed 64 (s.setting (0x0154 + ch))) - d).natAbs ≤ 1 ∧ t.clk.everAligned = true ∧
            t.bar 0x40024 = BitVec.ofInt 32 t.clk.theta)))))

namespace Sys2Proof.Machine

/-- SLOW_LVL. -/
def State.slowLvl (s : State) : Nat := getField (s.bar 0x40028) 16 4

/-- A change of EFF_LVL is sent to every firebox domain, to apply 16 to 31 ticks on (R236, log 117); without one nothing is sent. -/
def LevelsSent (s t : State) : Prop :=
  if t.effLvl = s.effLvl then t.clk.levels = s.clk.levels ∧ t.clk.lvlSent = s.clk.lvlSent ∧ t.free = s.free
  else t.clk.lvlSent = s.clk.lvlSent + 1 ∧ ∃ m : LevelMsg, m.level = t.effLvl ∧ s.clk.ticks + 16 ≤ m.tick ∧ m.tick ≤ s.clk.ticks + 31 ∧
    t.clk.levels = tpush m 272 0 s.clk.levels

end Sys2Proof.Machine

/-- After kindling a fall of PWR_CAP_N puts the fast damper in force at FAST_LVL and counts; its rise, the end of the hold
and each level step let it decay to 0, where it is in force no more. Once in a beat the slow damper moves one level by the
mean power and by TJ, with at least 8 in a feed or coolant condition, for the next beat edge. EFF_LVL is always the larger of
the two, and a change of it is sent to every firebox. A firebox that runs takes the oldest change sent to it, from its tick
on; the tile clock changes at a beat edge between TILE_FMIN and TILE_FMAX. (R233, R234, R235, R236, R237, R408, R413.) -/
def Obligations.DampersFollowTheirDemands : Prop :=
  ∀ s : State,
    (8 ≤ s.pwr.stage → s.clk.pwrLow = false → s.setting 0x0030 ≤ 15 → Answers .pwrCapNFall s (fun t =>
      let n := s.setting 0x0030
      t.clk = { s.clk with
        pwrLow := true, fastOn := true, fastDecay := false, fastLevel := n, levels := t.clk.levels, lvlSent := t.clk.lvlSent } ∧
      LevelsSent s t ∧ t.effLvl = max n s.slowLvl ∧
      t.barBit 0x40028 0 = true ∧ t.barBit 0x40028 1 = true ∧ t.bar 0x40034 = s.bar 0x40034 + 1 ∧
      (∀ off, off ≠ 0x40028 → off ≠ 0x40034 → t.bar off = s.bar off) ∧ t = { s with clk := t.clk, bar0 := t.bar0, free := t.free })) ∧
    (s.pwr.stage < 8 → Answers .pwrCapNFall s (fun t => t = { s with clk := { s.clk with pwrLow := true } })) ∧
    Answers .pwrCapNRise s (fun t => t = { s with clk := { s.clk with pwrLow := false } }) ∧
    (s.clk.pwrLow = false → s.clk.fastOn = true → s.clk.fastLevel ≤ 15 → Answers .fastHoldExpiry s (fun t =>
      let on := decide (0 < s.clk.fastLevel)
      t.clk = { s.clk with fastOn := on, fastDecay := on, levels := t.clk.levels, lvlSent := t.clk.lvlSent } ∧
      LevelsSent s t ∧ t.effLvl = max s.clk.fastLevel s.slowLvl ∧ t.barBit 0x40028 0 = on ∧
      (∀ off, off ≠ 0x40028 → t.bar off = s.bar off) ∧ t = { s with clk := t.clk, bar0 := t.bar0, free := t.free })) ∧
    (s.clk.pwrLow = true ∨ s.clk.fastOn = false → Answers .fastHoldExpiry s (fun t => t = s)) ∧
    (s.clk.fastDecay = true → s.clk.fastLevel ≤ 16 → Answers .fastLevelStep s (fun t =>
      t.clk = { s.clk with
        fastLevel := s.clk.fastLevel - 1, fastOn := decide (1 < s.clk.fastLevel), fastDecay := decide (1 < s.clk.fastLevel)
        levels := t.clk.levels, lvlSent := t.clk.lvlSent } ∧
      LevelsSent s t ∧
      t.effLvl = max (s.clk.fastLevel - 1) s.slowLvl ∧ t.barBit 0x40028 0 = decide (1 < s.clk.fastLevel) ∧
      (∀ off, off ≠ 0x40028 → t.bar off = s.bar off) ∧ t = { s with clk := t.clk, bar0 := t.bar0, free := t.free })) ∧
    (∀ watts, s.clk.slowWritten ≠ some s.clk.beatNow →
      Answers (.slowDamperUpdate watts) s (fun t =>
        let pw := if 2700 < watts then min 15 (s.clk.slowPower + 1) else if watts < 2550 then s.clk.slowPower - 1 else s.clk.slowPower
        let th := if 95 ≤ s.pwr.tj then min 15 (s.clk.slowThermal + 1) else if s.pwr.tj < 90 then s.clk.slowThermal - 1
          else s.clk.slowThermal
        let held := if s.pwr.feedHold = true ∨ s.pwr.coolHold = true then 8 else 0
        t = { s with clk := { s.clk with
          slowPower := pw, slowThermal := th, slowWritten := some s.clk.beatNow, slowNext := some (max held (max pw th)) } })) ∧
    (∀ u, u < 272 →
      (∀ m r, tget [] s.clk.levels u = m :: r → s.domRuns u = true → m.tick ≤ s.clk.ticks → Answers (.effLvlApply u) s (fun t =>
        t.tile u = { s.tile u with damper := m.level } ∧ (∀ v, v ≠ u → t.tile v = s.tile v) ∧ tget [] t.clk.levels u = r ∧
        (∀ v, v ≠ u → tget [] t.clk.levels v = tget [] s.clk.levels v) ∧
        t = { s with tiles := t.tiles, clk := { s.clk with levels := t.clk.levels } })) ∧
      (tget [] s.clk.levels u = [] ∨ s.domRuns u = false ∨ (∃ m r, tget [] s.clk.levels u = m :: r ∧ s.clk.ticks < m.tick) →
        Answers (.effLvlApply u) s (fun t => t = s))) ∧
    (∀ mhz : BitVec 16, s.clk.phase = 0 → s.setting 0x0032 ≤ mhz.toNat → mhz.toNat ≤ s.setting 0x0033 →
      Answers (.tileFrequencyChange mhz) s (fun t => t = { s with clk := { s.clk with tileMhz := mhz.toNat } }))

namespace Sys2Proof.Machine

/-- A beat edge on which nothing but the schedule acts: no slow level that waits, no stop, no change of BEAT_DIV, no beat stop, no message. -/
def State.plainEdge (s : State) : Prop :=
  s.clk.started = true ∧ s.clocked 323 = true ∧ s.clk.slowNext = none ∧ s.sched.stopDue = false ∧ s.barBit 0x40010 31 = false ∧ s.barBit 0x30040 4 = false ∧ s.ctl.inflight = []

/-- No OR is due at the edge, or one that lets the schedule advance. -/
def State.goEdge (s : State) : Prop :=
  let lat := (s.ctx s.sched.ctx).flagLat
  s.clk.beatNow + 1 < s.sched.startEdge + lat ∨
    ∃ r, s.orOf (s.clk.beatNow + 1 - lat) = some r ∧ r.nr = false ∧ r.fail = false ∧ r.gstop = false

end Sys2Proof.Machine

/-- On a running beat unit with no beat change, stop or message due: without a job the edge advances the beat alone. With a
job, an OR without NR (or none due yet) advances SCHED_NOW by 1; one with NR leaves it and counts a stretch; a missing OR is
SCHED_DESYNC and stops the job, at once where no pass is in flight; a step whose end has come, with every fence met, no seal
and no table check to wait for and a clear gate with no late NF, commits: STEP_COMMITTED rises by 1 and STEP_BASE by the step
length. At B0 the job starts with SCHED_NOW 0 and its prologue, the grate state of Table 04-1, and NUM_STATUS clear. (R34,
R228, R243, R248, R249, R250, R256, R263.) -/
def Obligations.BeatEdgesPaceTheSchedule : Prop :=
  ∀ (s : State) (dma : List (Slot × List Byte)), s.plainEdge →
    let lat := (s.ctx s.sched.ctx).flagLat
    let len := ((s.ctx s.sched.ctx).stepBeats : Int)
    let ticked := fun (t : State) => t.clk = { s.clk with
      beatNow := s.clk.beatNow + 1, ticks := s.clk.ticks + max 1 ((s.bar 0x4000C).toNat - s.clk.phase), phase := 0
      tokens := tpush { beat := s.clk.beatNow + 1, before := s.sched.now } 327 0 s.clk.tokens, tokSent := s.clk.tokSent + 1
      tileMhz := max (s.setting 0x0032) (min (s.setting 0x0033) s.clk.tileMhz) }
    (s.sched.b0 = none → s.sched.running = false → Answers (.beatEdge dma) s (fun t => ticked t ∧ t.sched = s.sched ∧
      t.tiles = s.tiles ∧ t.ctxs = s.ctxs ∧ t.mem = s.mem)) ∧
    (s.sched.b0 = none → s.sched.running = true →
      (s.goEdge → (s.sched.now : Int) + 1 < s.sched.base + len → Answers (.beatEdge dma) s (fun t => ticked t ∧
        t.sched.now = s.sched.now + 1 ∧ t.sched.base = s.sched.base ∧ t.sched.running = true ∧ t.bar 0x40118 = s.bar 0x40118 ∧
        (∀ u, t.tile u = { s.tile u with nfSeen := (t.tile u).nfSeen }) ∧ t.ctxs = s.ctxs ∧ t.mem = s.mem)) ∧
      (∀ r, s.sched.startEdge + lat ≤ s.clk.beatNow + 1 → s.orOf (s.clk.beatNow + 1 - lat) = some r → r.nr = true → r.fail = false →
        r.gstop = false → (s.sched.now : Int) < s.sched.base + len → Answers (.beatEdge dma) s (fun t => ticked t ∧
          t.sched.now = s.sched.now ∧ t.sched.base = s.sched.base ∧ t.bar 0x40118 = s.bar 0x40118 + 1 ∧
          (∀ u, t.tile u = { s.tile u with nfSeen := (t.tile u).nfSeen }) ∧ t.ctxs = s.ctxs ∧ t.mem = s.mem)) ∧
      (s.sched.startEdge + lat ≤ s.clk.beatNow + 1 → s.orOf (s.clk.beatNow + 1 - lat) = none → Answers (.beatEdge dma) s (fun t =>
        ticked t ∧ t.sched.running = false ∧ t.barBit 0x40100 15 = true ∧
        ((t.ctx s.sched.ctx).state = 3 ∨ t.sched.draining = true) ∧ (s.quiescent = true → (t.ctx s.sched.ctx).state = 3))) ∧
      (s.goEdge → s.sched.base + len ≤ (s.sched.now : Int) + 1 → s.fencesMet (fun m => m.op == 0xD4) = true → s.sealHolds = false →
        s.sched.gateKnown = true → s.sched.gateNf = false → s.sched.gateFail = false → s.sched.blockBad = false →
        s.sched.late = false → s.everyTile (fun a => !a.nfSeen) = true → s.tableHolds = false → s.stopsAt s.stepNow = false → Answers (.beatEdge dma) s (fun t => ticked t ∧
          (t.ctx s.sched.ctx).stepCommitted = (s.ctx s.sched.ctx).stepCommitted + 1 ∧ t.sched.base = s.sched.base + len ∧
          t.sched.now = s.sched.now + 1 ∧ t.sched.gateKnown = false ∧ t.sched.proExec = false ∧ t.sched.running = true))) ∧
    (∀ c, s.sched.b0 = some (c, s.clk.beatNow + 1) → s.pwr.diesUp = true → Answers (.beatEdge dma) s (fun t => ticked t ∧
      t.sched.running = true ∧ t.sched.ctx = c ∧ t.sched.now = 0 ∧ t.sched.base = ((s.ctx c).proBeats : Int) ∧ t.sched.proExec = true ∧
      t.sched.b0 = none ∧ t.ctxs = s.ctxs ∧ t.mem = s.mem ∧ ∀ u, (t.tile u).vl = 512 ∧ (t.tile u).vregs = [] ∧ (t.tile u).x = [] ∧
        (t.tile u).reg 0x0100 = 0))

/-- JOB_LOAD of an image that passes its checks and finds room makes it the context, IDLE, and SCHED_LOAD of the same job
adds its programs. JOB_START with everything in place makes the context RUNNING and sets the first beat, and STRICT and
COMPAT in every tile. JOB_STOP of a running context makes it STOPPING with the stop step and waits. (R133, R187, R261, R263,
R296, R314, R369.) -/
def Obligations.JobsLoadStartAndStop : Prop :=
  (∀ (s : State) (k : Slot) (c : BitVec 2) (l : List Byte), (s.ctx c.toNat).state ≠ 1 → (s.ctx c.toNat).state ≠ 2 →
      (s.factory = false → firstBad (s.jobChecks l) = none → (∃ s1, s.placeImage c.toNat l = .inl s1) →
        Answers (.jobLoad k c l) s (fun t => t.outcome k = some { status := 0 } ∧
          t.ctx c.toNat = { imageCtx l with imageHash := sha256 l, state := 0 } ∧ (∀ d, d ≠ c.toNat → t.ctx d = s.ctx d))) ∧
      (let cx := (s.ctx c.toNat).withSchedule l
       (s.ctx c.toNat).jobLoaded = true → firstBad (sameJob (s.ctx c.toNat).image l) = none → firstBad (s.schedChecks cx l) = none →
        Answers (.schedLoad k c l) s (fun t => t.outcome k = some { status := 0 } ∧ t.ctx c.toNat = cx ∧
          (∀ d, d ≠ c.toNat → t.ctx d = s.ctx d) ∧ t = { s with ctxs := t.ctxs, ctl := t.ctl }))) ∧
  (∀ (s : State) (k : Slot) (c : BitVec 2) (b0 : W64),
      let cx := s.ctx c.toNat
      s.anyRunning = false → cx.jobLoaded = true → cx.schedLoaded = true → s.clk.beatNow + 16 ≤ b0.toNat →
      cx.bankOk (s.bankImage c.toNat cx.tgen) = true → cx.pendSwap = none → cx.restored = false → s.devid.isSome = true → s.pwr.diesUp = true →
      (s.flagParent.isSome = true ∨ s.clusterSize ≤ 1 ∨ (s.settingOpt 0x0150).isSome = true) →
      (s.ember.partner.isSome = true ∨ s.wouldMirror c.toNat = false) →
      Answers (.jobStart k c b0) s (fun t => t.outcome k = some { status := 0 } ∧ (t.ctx c.toNat).state = 1 ∧
        t.sched.b0 = some (c.toNat, b0.toNat) ∧ t.sched.ctx = c.toNat ∧ t.sched.running = false ∧
        (∀ x : BitVec 8, ((t.ltile x.toNat).reg 0x0304).getLsbD 0 = cx.strict ∧ ((t.ltile x.toNat).reg 0x0304).getLsbD 1 = cx.compat) ∧
        (∀ d, d ≠ c.toNat → t.ctx d = s.ctx d) ∧ t.mem = s.mem)) ∧
  (∀ (s : State) (k : Slot) (c : BitVec 2) (n : BitVec 48), (s.ctx c.toNat).state = 1 →
      (n = 0 ∨ (s.ctx c.toNat).stepCommitted < n.toNat) → Answers (.jobStop k c n) s (fun t =>
        t.ctx c.toNat = { s.ctx c.toNat with state := 2 } ∧ t.sched = { s.sched with sStop := some n.toNat, stopSlot := some k } ∧
        getSlot t.ctl.waiting k = some (.jobStop k c n) ∧ t.ctl.results = s.ctl.results ∧ t.tiles = s.tiles ∧ t.mem = s.mem))

namespace Sys2Proof.Machine

/-- The settings after a list of entries. -/
def SettingsTaken (s t : State) (es : List (BitVec 16 × BitVec 64)) : Prop :=
  ∀ id, t.settingOpt id = match es.reverse.find? (fun e => e.1.toNat == id) with
    | some e => some e.2.toNat
    | none => s.settingOpt id

end Sys2Proof.Machine

/-- SET_WRITE and PORT_CONFIG whose entries all pass put every entry in force, the last of several for one item, and reply OK
(SET_WRITE of the BAR2 window once every host access held now has completed); SET_WRITE refused for an entry replies
NOT_PERMITTED with its index and changes no setting. SET_STORE stores the named settings and returns the count of writes.
KEY_ROTATE whose wrapped key passes its integrity check replaces the sender's key for later edges; one that fails gives
AUTH_FAIL, is counted and changes no key. DEV_INFO returns a page, and refuses a reserved one. CLK_SELECT sets the reference
lanes, or a pending BEAT_DIV with its beat. (R212, R216, R229, R296, R365, R367, R368, R373, R374, R375.) -/
def Obligations.SettingsKeysAndInformation : Prop :=
  ∀ (s : State) (k : Slot),
    (∀ es : List (BitVec 16 × BitVec 64), 1 ≤ es.length → es.length ≤ 32 →
      (s.entriesRefused (entryNats es) isSetWrite = none →
        let window := ∃ e ∈ es, e.1 = 0x0010 ∨ e.1 = 0x0011
        (s.mem.heldHost = [] ∨ ¬ window → Answers (.setWrite k es) s (fun t =>
          t.outcome k = some { status := 0 } ∧ SettingsTaken s t es ∧ t.tiles = s.tiles ∧ t.mem = s.mem ∧ t.ctxs = s.ctxs)) ∧
        (s.mem.heldHost ≠ [] → window → Answers (.setWrite k es) s (fun t =>
          getSlot t.ctl.waiting k = some (.setWrite k es) ∧ t.ctl.results = s.ctl.results ∧ SettingsTaken s t es ∧
          (∀ h ∈ t.mem.heldHost, k ∈ h.awaited) ∧ t.mem.heldHost.length = s.mem.heldHost.length))) ∧
      (∀ i, s.entriesRefused (entryNats es) isSetWrite = some i → Answers (.setWrite k es) s (fun t =>
        t.outcome k = some { status := 0x0030, detail := i } ∧ t = { s with ctl := t.ctl } ∧ t.ctl.settings = s.ctl.settings)) ∧
      (s.anyRunning = false → s.entriesRefused (entryNats es) isPortItem = none → Answers (.portConfig k es) s (fun t =>
        t.outcome k = some { status := 0 } ∧ SettingsTaken s t es ∧ t.tiles = s.tiles ∧ t.mem = s.mem ∧ t.ctxs = s.ctxs))) ∧
    (∀ (all : Bool) (ids : List (BitVec 16)), ids.length ≤ 32 →
      (∀ i ∈ ids, all = true ∨ (settingIds.contains i.toNat = true ∧ isStored i.toNat = true)) →
      (∀ t, s.ctl.storeTick = some t → t + 4 * ticksPerSecond ≤ s.clk.ticks) → Answers (.setStore k all ids) s (fun t =>
        let names := if all then settingIds.filter isStored else ids.map (fun i => i.toNat)
        t.ctl.storeCnt = s.ctl.storeCnt + 1 ∧ t.outcome k = some { status := 0, data := leBytes 4 (s.ctl.storeCnt + 1).toNat } ∧
        (∀ i, tfind t.ctl.stored i = if i ∈ names then (s.settingOpt i).map (BitVec.ofNat 64) else tfind s.ctl.stored i) ∧
        t = { s with ctl := t.ctl } ∧ t.ctl.settings = s.ctl.settings)) ∧
    (∀ wrapped : List Byte, wrapped.length = 40 → Answers (.keyRotate k wrapped) s (fun t =>
        match aesUnwrap (s.keyOf k) wrapped with
        | some key => t.outcome k = some { status := 0 } ∧ t.keyOf k = s.keyOf k ∧ t.promoteKeys.keyOf k = key ∧ t = { s with ctl := t.ctl }
        | none => t.outcome k = some { status := 0x0010 } ∧ t.keyOf k = s.keyOf k ∧ t.promoteKeys.keyOf k = s.promoteKeys.keyOf k ∧
          t.bar 0x10018 = s.bar 0x10018 + 1)) ∧
    (∀ page : BitVec 8,
      (∀ d, s.infoPage page.toNat = some d → s.fits k d.length = true → Answers (.devInfo k page) s (fun t =>
        t.outcome k = some { status := 0, data := d } ∧ t = { s with ctl := t.ctl })) ∧
      (7 ≤ page.toNat → Answers (.devInfo k page) s (fun t => t.outcome k = some { status := 0x0030 } ∧ t = { s with ctl := t.ctl }))) ∧
    (∀ (rp ap : BitVec 1) (rl al : BitVec 4), rp ≠ ap → rl.toNat ≤ 7 → al.toNat ≤ 7 → Answers (.clkSelectRef k rp rl ap al) s (fun t =>
        t.outcome k = some { status := 0 } ∧ t.setting 0x0200 = rp.toNat + 16 * rl.toNat + 256 * ap.toNat + 4096 * al.toNat ∧
        (∀ id, id ≠ 0x0200 → t.settingOpt id = s.settingOpt id) ∧ t.clk.beatNow = s.clk.beatNow ∧ t.clk.phase = s.clk.phase)) ∧
    (∀ (d : BitVec 18) (b : W64), s.barBit 0x40010 31 = false → 320 ≤ d.toNat → d.toNat ≤ 163840 → s.clk.beatNow + 16 ≤ b.toNat →
      Answers (.clkSelectBeatDiv k d b) s (fun t => t.outcome k = some { status := 0 } ∧
        t.bar 0x40010 = BitVec.ofNat 32 (2 ^ 31 + d.toNat) ∧ t.bar64 0x40018 = b.toNat ∧
        (∀ off, off ≠ 0x40010 → off ≠ 0x40018 → off ≠ 0x4001C → t.bar off = s.bar off) ∧ t = { s with bar0 := t.bar0, ctl := t.ctl }))

/-- SNAP_POLICY_SET of a policy in order replaces the policy where no job runs, and waits for the next cut where the context
runs and no region changes. SNAP_NOW adds an extra cut step above the step in progress. RESTORE from LOCAL of a generation
that is held, while no job runs on the module, returns its cut step, and the context, the generation registers, the table
generation and the protection methods follow it; while a job runs it is refused. PARTNER_SET and PARITY_GROUP_SET whose
peers' pairing frames are there set the pairing and the group; without the partner's frame PARTNER_SET waits. RESYNC_COMPLETE
clears RESYNC, and what peers sent of generations up to GEN_CLUSTER is their sealed version. (R302, R314, R315, R324, R325,
R327, R328, R329.) -/
def Obligations.SnapshotPoliciesAndRestores : Prop :=
  (∀ (s : State) (k : Slot) (c : BitVec 2) (p : List Byte),
      let cx := s.ctx c.toNat
      policyBad p cx.polIds = none → (polHasParity p = true → s.ember.group ≠ []) → (polAdopt p = true → s.foreignCart = false) →
      (s.anyRunning = false →
        ((({ s with ember := { s.ember with pendPolicy := tset s.ember.pendPolicy c.toNat p } } : State).takePolicy c.toNat).sizeRegions).regionsFit
          = true →
        Answers (.snapPolicySet k c p) s (fun t => t.outcome k = some { status := 0 } ∧ t.ctx c.toNat = { cx with policy := p } ∧
          (∀ d, d ≠ c.toNat → t.ctx d = s.ctx d) ∧ t.tiles = s.tiles ∧ t.mem = s.mem)) ∧
      (cx.state = 1 → regionsDiffer p ((tfind s.ember.pendPolicy c.toNat).getD cx.policy) = false →
        Answers (.snapPolicySet k c p) s (fun t => t.outcome k = some { status := 0 } ∧ tfind t.ember.pendPolicy c.toNat = some p ∧
          t.ctxs = s.ctxs ∧ t.tiles = s.tiles ∧ t.mem = s.mem))) ∧
  (∀ (s : State) (k : Slot) (c : BitVec 2) (n : BitVec 48), (s.ctx c.toNat).stepCommitted + 1 < n.toNat → Answers (.snapNow k c n) s (fun t =>
      t.outcome k = some { status := 0 } ∧ (∀ q, q ∈ t.ember.extra ↔ q ∈ s.ember.extra ∨ q = (c.toNat, n.toNat)) ∧
      t = { s with ctl := t.ctl, ember := { s.ember with extra := t.ember.extra } })) ∧
  (∀ (s : State) (k : Slot) (c : BitVec 2) (g : BitVec 32) (r : GenRec),
      let cx := s.ctx c.toNat
      (s.anyRunning = true → Answers (.restore k c 0 g) s (fun t => t.outcome k = some { status := 0x0030 } ∧ t = { s with ctl := t.ctl })) ∧
      (cx.jobLoaded = true → (cx.state = 0 ∨ cx.state = 3) → s.anyRunning = false →
      s.ember.gens.find? (fun q => q.ctx == c.toNat && q.gen == g.toNat) = some r → Answers (.restore k c 0 g) s (fun t =>
        t.outcome k = some { status := 0, data := leBytes 6 r.cutStep } ∧
        t.ctx c.toNat = { cx with stepCommitted := r.cutStep, seed := r.seed, streams := r.streams, tgen := r.actGen, restored := true } ∧
        t.ior 0x3004 = BitVec.ofNat 32 g.toNat ∧ t.ior 0x3008 = BitVec.ofNat 32 g.toNat ∧ t.ior 0x300C = BitVec.ofNat 32 g.toNat ∧
        tfind t.ember.nextGen c.toNat = some (g.toNat + 1) ∧ t.ember.methods = r.methods ∧
        (∃ q, t.ember.gens.find? (fun q => q.ctx == c.toNat && q.gen == g.toNat) = some q ∧ q.k = r.k ∧ q.beatCut = r.beatCut ∧
          q.actGen = r.actGen ∧ q.seed = r.seed) ∧ (∀ d, d ≠ c.toNat → t.ctx d = s.ctx d)))) ∧
  (∀ (s : State) (k : Slot) (force : Bool) (d : BitVec 20) (tag : W64), s.pairWaits = false →
      (∀ x tag2 named, s.ember.pairs.find? (fun q => q.1 == d.toNat) = some (x, tag2, named) → s.devid = some named →
        (feedOf tag2 ≠ feedOf tag.toNat ∨ force = true) → Answers (.partnerSet k force d tag) s (fun t =>
          t.outcome k = some { status := 0 } ∧ t.ember.partner = some d.toNat ∧ t.ember.fdTag = tag.toNat ∧
          (t.ior 0x3000).getLsbD 18 = (decide (feedOf tag2 = feedOf tag.toNat) || s.ember.coGroup) ∧ t.tiles = s.tiles ∧ t.mem = s.mem)) ∧
      (s.ember.pairs.find? (fun q => q.1 == d.toNat) = none → Answers (.partnerSet k force d tag) s (fun t =>
          getSlot t.ctl.waiting k = some (.partnerSet k force d tag) ∧ t.ctl.results = s.ctl.results ∧ t.ember.partner = s.ember.partner ∧
          t.tiles = s.tiles ∧ t.mem = s.mem))) ∧
  (∀ (s : State) (k : Slot) (l : List (BitVec 20)) (tag : W64) (me : Nat),
      let m := l.map (fun d => d.toNat)
      s.pairWaits = false → l.length = 10 → m.Nodup → s.devid = some me → me ∈ m →
      (∀ d ∈ m, d ≠ me → ∃ tag2, s.ember.pairs.find? (fun q => q.1 == d) = some (d, tag2, me)) →
      Answers (.parityGroupSet k true l tag) s (fun t => t.outcome k = some { status := 0 } ∧ t.ember.group = m ∧ t.tiles = s.tiles ∧
        t.mem = s.mem)) ∧
  (∀ s : State, Answers .resyncComplete s (fun t =>
      t = { s with ember := { s.ember with resync := false, mirror := t.ember.mirror, parity := t.ember.parity } } ∧
      (∀ q ∈ t.ember.mirror ++ t.ember.parity, ∀ n, q.next = some n → (s.ior 0x300C).toNat < n.1) ∧
      t.ember.mirror.map (fun q => q.key) = s.ember.mirror.map (fun q => q.key) ∧
      t.ember.parity.map (fun q => q.key) = s.ember.parity.map (fun q => q.key)))

/-- CTR_CONFIG of a known block and event, at the block's local edge of this beat, resets the counter with its new
configuration (and the lower half of a new chain), marks RSTCOIN in the record of this edge, and changes no other counter;
before that edge the configuration waits for it. CTR_FREEZE and CTR_RELEASE wait for their beat, at which counting freezes
with FREEZE_DONE or resumes from the held values with a sample, and the command is answered. A wrap of an enabled counter
sets OVF; the upper half of a chain adds 1, else OVF_SEEN is set. (R379, R380, R381, R382, R384, R385, R386, R388.) -/
def Obligations.CountersFreezeAndWrap : Prop :=
  (∀ (s : State) (k : Slot) (b : BitVec 16) (i : BitVec 3) (chain en userRd : Bool) (ev : BitVec 10),
      let n := ctrKey (s.blockUnit b.toNat) i.toNat
      blockOk b.toNat = true → eventOk b.toNat ev.toNat = true → (chain = true → i.toNat % 2 = 1 ∧ ev.toNat = 0) →
      (userRd = true → b.toNat < 0x110 ∨ 0x200 ≤ b.toNat) → s.frozen = false → s.freezePend = false →
      let cfg : Counter := { value := 0, event := ev.toNat, en := en, userRd := userRd, chain := chain, ovf := false }
      (s.localBeat (s.blockUnit b.toNat) < s.clk.beatNow → Answers (.ctrConfig k b i chain en userRd ev) s (fun t =>
        t.outcome k = some { status := 0 } ∧ t = { s with ctl := t.ctl, obs := { s.obs with
          pendCfg := s.obs.pendCfg ++ [(s.blockUnit b.toNat, s.clk.beatNow, n, cfg, chain)] } })) ∧
      (s.clk.beatNow ≤ s.localBeat (s.blockUnit b.toNat) → Answers (.ctrConfig k b i chain en userRd ev) s (fun t =>
        t.outcome k = some { status := 0 } ∧ t.counter n = cfg ∧
        (tget 0 (if s.obs.pubBeat.isSome then t.obs.latched else t.obs.records) n).getLsbD 48 = true ∧
        (chain = true → t.counter (n - 1) = { s.counter (n - 1) with value := 0, ovf := false }) ∧
        (∀ m, m ≠ n → (chain = true → m ≠ n - 1) → t.counter m = s.counter m) ∧ t = { s with obs := t.obs, ctl := t.ctl }))) ∧
  (∀ (s : State) (k : Slot) (beat : W64), s.freezePend = false → (beat = 0 ∨ s.clk.beatNow < beat.toNat) →
      let f := if beat = 0 then s.clk.beatNow else beat.toNat
      let asked := fun (freeze : Bool) (c : Instr) (t : State) => t.obs = { s.obs with
          action := some (freeze, f, k), freezeBeat := if freeze then f else s.obs.freezeBeat } ∧
        t.freezePend = true ∧ getSlot t.ctl.waiting k = some c ∧ t.ctl.results = s.ctl.results ∧ t.tiles = s.tiles
      (s.frozen = false → Answers (.ctrFreeze k beat) s (asked true (.ctrFreeze k beat))) ∧
      (s.frozen = true → Answers (.ctrRelease k beat) s (asked false (.ctrRelease k beat)))) ∧
  (∀ (s : State) (k : Slot) (b : Nat), b ≤ s.clk.beatNow → (getSlot s.ctl.waiting k).isSome = true →
      (s.obs.action = some (true, b, k) → Answers .freezeEdge s (fun t => t.outcome k = some { status := 0 } ∧ t.frozen = true ∧
        t.freezePend = false ∧ t.barBit 0x30000 2 = true ∧ t.obs.freezeBeat = b ∧ t.obs.action = none ∧
        t.obs.counters = s.obs.counters ∧ t.tiles = s.tiles)) ∧
      (s.obs.action = some (false, b, k) → Answers .releaseEdge s (fun t => t.outcome k = some { status := 0 } ∧ t.frozen = false ∧
        t.freezePend = false ∧ t.obs.sampleBeat = s.clk.beatNow ∧ t.obs.action = none ∧ t.obs.counters = s.obs.counters ∧
        t.obs.freezeBeat = s.obs.freezeBeat ∧ t.tiles = s.tiles))) ∧
  (∀ (s : State) (b : BitVec 16) (i : BitVec 3),
      let n := ctrKey (s.blockUnit b.toNat) i.toNat
      blockOk b.toNat = true → s.blockFrozen (n / 8) = false → (s.counter n).en = true → (s.counter n).chain = false →
      (s.counter n).event ∉ countedEvents → Answers (.counterWrap b i) s (fun t => (t.counter n).ovf = true ∧
        (t.counter n).event = (s.counter n).event ∧ (t.counter n).en = true ∧
        (s.chainedUp n = false → t.barBit 0x30000 1 = true) ∧
        (s.chainedUp n = true → (s.counter (n + 1)).en = true → (t.counter (n + 1)).value = ((s.counter (n + 1)).value + 1) % 2 ^ 48) ∧
        (∀ m, m ≠ n → m ≠ n + 1 → t.counter m = s.counter m) ∧ t.tiles = s.tiles))

/-- TRACE_CONFIG in order sets EN, the mask and, with a new size that tier 2 can supply, an empty ring. An event of a class
that its source's mask enables is recorded with its source's local beat: it waits in its queue while domain 324 is halted or
without a clock; else its record is written or it is dropped and counted. A snap stop ends the job, halts the trace and shows
GS_STATE 2, and every firebox and slot keeps what it holds; its release shows 0, and what the units held of the job ends
then. A beat stop is pending from its dispatch, freezes the counters at its edge and shows GS_STATE 1 once started words have
ended; its release shows 0. SCAN_DUMP in a stop writes the records of its domains and END to OUT_ADDR, and is refused while
running or without an OUT_ADDR; DOMSEL selects a domain and DOMSCAN shifts out its records where it exists. (R389, R390,
R391, R392, R393, R394, R396, R397, R399, R400, R402.) -/
def Obligations.TraceStopsAndScan : Prop :=
  (∀ (s : State) (k : Slot) (en : Bool) (mask size : W64), field mask.toNat 16 46 = 0 →
      (size = 0 → Answers (.traceConfig k en mask size) s (fun t => t.outcome k = some { status := 0 } ∧
        t.obs = { s.obs with traceMask := mask, traceOld := t.obs.traceOld } ∧ t.traceOn = en ∧ t.tiles = s.tiles ∧ t.mem = s.mem)) ∧
      (size.toNat % 65536 = 0 → 2 ^ 20 ≤ size.toNat → size.toNat ≤ 2 ^ 34 → s.traceOn = false → s.ringMeets size.toNat = false →
        (s.newRing size.toNat).isSome = true → Answers (.traceConfig k en mask size) s (fun t => t.outcome k = some { status := 0 } ∧
        t.obs.traceMask = mask ∧ t.traceOn = en ∧ t.obs.ringSize = size.toNat ∧ t.obs.wptr = 0 ∧
        t.bar 0x30030 = BitVec.ofNat 32 (size.toNat / 65536)))) ∧
  (∀ (s : State) (c : BitVec 6) (u : BitVec 12) (lt : BitVec 8) (cyc : BitVec 24) (d0 d1 : W64), s.traceTakes u.toNat c.toNat = true → c.toNat ≤ 15 →
      let r := traceRecord c.toNat u.toNat lt.toNat cyc.toNat (s.localBeat u.toNat) d0.toNat d1.toNat
      (s.traceWaits = true → (tget [] s.obs.queues u.toNat).length < 16 → Answers (.traceEvent c u lt cyc d0 d1) s (fun t =>
        tget [] t.obs.queues u.toNat = tget [] s.obs.queues u.toNat ++ [(r, false)] ∧
        t = { s with obs := { s.obs with queues := t.obs.queues } })) ∧
      (s.traceWaits = false → 0 < s.obs.ringSize → tfind s.obs.drops u.toNat = none → Answers (.traceEvent c u lt cyc d0 d1) s (fun t =>
        (t.obs.wptr = s.obs.wptr + 32 ∧ t.obs.drops = s.obs.drops) ∨
        (t.obs.wptr = s.obs.wptr ∧ t.bar 0x30034 = s.bar 0x30034 + 1 ∧ t.barBit 0x30020 3 = true ∧
          tfind t.obs.drops u.toNat = some (1, s.localBeat u.toNat, s.localBeat u.toNat))))) ∧
  (∀ (s : State) (k : Slot), s.gsPend = false →
      (s.gsState ≠ 2 → Answers (.gstopSnap k false) s (fun t => t.outcome k = some { status := 0 } ∧ t.gsState = 2 ∧
        t.sched.running = false ∧ t.traceHalted = true ∧ t.obs.gsBeat = s.clk.beatNow ∧
        ((s.ctx s.sched.ctx).state = 1 → (t.ctx s.sched.ctx).state = 3 ∧ t.obs.snapCut = true) ∧ t.tiles = s.tiles ∧
        t.net.slots = s.net.slots ∧ t.mem = s.mem)) ∧
      (s.gsState = 2 → s.net.rxHeld = [] → s.mem.heldHost = [] → Answers (.gstopSnap k false) s (fun t => t.outcome k = some { status := 0 } ∧ t.gsState = 0 ∧
        t.traceHalted = false ∧ t.obs.gsBeat = s.clk.beatNow ∧ (s.obs.snapCut = false → t.tiles = s.tiles) ∧
        (s.obs.snapCut = true → t.net.slots = [] ∧ ∀ p ∈ t.tiles, ∀ h ∈ p.2.hobs, ∀ f ∈ h.2.fly, f.dropped = true))) ∧
      (s.gsState = 0 → s.anyRunning = true → Answers (.gstopBeat k false) s (fun t => t.obs = { s.obs with
          gsEdge := some (s.clk.beatNow + 1, false), gsSlot := some k } ∧ t.barBit 0x30040 4 = true ∧ t.barBit 0x30040 7 = true ∧
        getSlot t.ctl.waiting k = some (.gstopBeat k false) ∧ t.ctl.results = s.ctl.results ∧ t.tiles = s.tiles))) ∧
  (∀ (s : State) (e : Nat), e ≤ s.clk.beatNow → s.traceOn = false →
      (s.obs.gsEdge = some (e, false) → Answers .beatStopEdge s (fun t => t.frozen = true ∧ t.obs.gsBeat = s.clk.beatNow ∧
        t.obs.gsEdge = none ∧ (s.barBit 0x30040 4 = true → s.quiescent = true → t.gsState = 1 ∧ t.barBit 0x30040 4 = false) ∧
        t.tiles = s.tiles ∧ t.mem = s.mem)) ∧
      (s.obs.gsEdge = some (e, true) → Answers .beatStopEdge s (fun t => t.gsState = 0 ∧ t.barBit 0x30040 5 = false ∧
        t.obs.gsBeat = s.clk.beatNow ∧ t.obs.gsEdge = none ∧ (s.obs.gsFroze = true → t.frozen = false) ∧ t.tiles = s.tiles ∧
        t.mem = s.mem))) ∧
  (∀ (s : State) (k : Slot) (a b : BitVec 9),
      let rs := (scanDoms a.toNat b.toNat).flatMap (fun d => s.scanDomain d)
      let data := rs.flatten ++ scanRecord 7 0 0 (leBytes 4 rs.length ++ leBytes 4 (crc32c rs.flatten).toNat)
      (∀ f, s.gsState ≠ 0 → a.toNat ≤ b.toNat → b.toNat ≤ 326 → getSlot s.ctl.inflight k = some f → f.outAddr ≠ 0 →
        (scanDoms a.toNat b.toNat).foldl (fun n d => n + scanBound d) 0 ≤ f.outLen →
        Answers (.scanDump k a b) s (fun t => t.outcome k = some { status := 0 } ∧
          t = { s with ctl := t.ctl, free := t.free, out := s.out ++ [.hostWrite f.outAddr data] })) ∧
      ((s.gsState = 0 ∨ ∃ f, getSlot s.ctl.inflight k = some f ∧ f.outAddr = 0) → Answers (.scanDump k a b) s (fun t => t.outcome k = some { status := 0x0030 } ∧ t = { s with ctl := t.ctl }))) ∧
  (∀ (s : State) (d : BitVec 9), Answers (.domsel d) s (fun t => t = { s with obs := { s.obs with ir := 0x20, dom := d.toNat } })) ∧
  (∀ s : State, s.obs.dom < 327 → Answers .domscan s (fun t =>
      t.out = s.out ++ [.jtag (if s.gsState = 0 then [0] else (s.scanDomain s.obs.dom).flatten)] ∧
        t = { s with out := t.out, free := t.free, obs := { s.obs with ir := 0x21 } }))

/-- TABLE_LOAD of images in order starts the check of the new bank and waits. At its end a failing bank is refused and
changes nothing; a passing one is kept, and swapped at once where it is for the step that waits for it, armed for a later
step of a running context or of one that stops later, made pending for one that does not run, or written into the active bank
with S_EFF 0. An uncorrectable store error sets SFU_UE and makes a FIREBOX report; a corrected one makes a CORR report and
changes no firebox. TBUF_REQ sets and clears tile-buffer mode, which stays until the end of the built-in test. (R102, R103,
R111, R114, R115, R118, R122.) -/
def Obligations.TablesAreCheckedAndSwapped : Prop :=
  (∀ (s : State) (k : Slot) (g : BitVec 16) (c : BitVec 2) (step : BitVec 48) (images : List Byte) (l : List LoadImage),
      let cx := s.ctx c.toNat
      let b := (s.bankImage c.toNat cx.tgen).withImages l
      s.sfu.swapArmed = false → s.sfu.checkRun = false → cx.pendSwap = none → parseImages images.length images = some l →
      g.toNat ≠ cx.tgen → (cx.state = 1 → g.toNat ≠ s.sfu.actGen.toNat ∧ cx.stepCommitted + 1 < step.toNat) →
      (cx.state ≠ 1 → step = 0 ∨ cx.stepCommitted < step.toNat) → (step = 0 → s.anyRunning = false) →
      (∀ i ∈ l, i.clear = true ∧ headerOk i.image = true ∧ opsOk i.image = true) → s.spareFree = true → b.hard.length ≤ 8192 →
      cx.bankOk b = true → Answers (.tableLoad k g c step images) s (fun t =>
        t.sfu = { s.sfu with checkRun := true, checking := some (k, c.toNat, g.toNat, step.toNat, b) } ∧
        getSlot t.ctl.waiting k = some (.tableLoad k g c step images) ∧ t.ctl.results = s.ctl.results ∧
        t = { s with sfu := t.sfu, ctl := t.ctl })) ∧
  (∀ (s : State) (k : Slot) (c g step : Nat) (b : Bank), s.sfu.checking = some (k, c, g, step, b) → (getSlot s.ctl.waiting k).isSome = true →
      let pass := b.slots.all (fun p => slotPasses b p.1 p.2)
      let now := ((s.ctx c).state = 1 ∨ (s.ctx c).state = 2) ∧ step = (s.ctx c).stepCommitted + 1
      let soon := ¬ now ∧ ((s.ctx c).state = 1 ∨ (s.ctx c).state = 2 ∧ (s.ctx c).stepCommitted + 1 < step)
      (pass = false → Answers .tableCheckComplete s (fun t => t.outcome k = some { status := 0x0030 } ∧
        t.sfu = { s.sfu with checkRun := false, checking := none } ∧ t.ctxs = s.ctxs ∧ t.tiles = s.tiles)) ∧
      (pass = true → Answers .tableCheckComplete s (fun t => t.outcome k = some { status := 0 } ∧ t.sfu.checkRun = false ∧
        t.sfu.checking = none ∧ t.bankImage c g = (if g = 0 then builtinBank else b) ∧ t.tiles = s.tiles ∧
        (now → t.sfu.actBank = !s.sfu.actBank ∧ t.sfu.actGen = BitVec.ofNat 16 g ∧ t.sfu.swapArmed = false ∧ t.sfu.shdValid = false ∧
          t.sfu.active = b ∧ t.sfu.cntSwap = s.sfu.cntSwap + 1 ∧ t.ctx c = { s.ctx c with tgen := g % 65536, pendSwap := none }) ∧
        (soon → t.sfu.swapArmed = true ∧ t.sfu.shdValid = true ∧ t.sfu.swapCtx = c ∧ t.sfu.swapStep = step ∧
          (if s.sfu.actBank then t.sfu.bank0 = b ∧ t.sfu.bank1 = s.sfu.bank1 else t.sfu.bank1 = b ∧ t.sfu.bank0 = s.sfu.bank0) ∧
          t.ctxs = s.ctxs) ∧
        (¬ now → ¬ soon → step = 0 → s.anyRunning = false → (t.ctx c).tgen = g ∧ t.sfu.actGen = BitVec.ofNat 16 g ∧
          (if s.sfu.actBank then t.sfu.bank1 = b else t.sfu.bank0 = b)) ∧
        (¬ now → ¬ soon → step ≠ 0 → t.ctx c = { s.ctx c with pendSwap := some (g, step) } ∧ t.sfu.actGen = s.sfu.actGen)))) ∧
  (∀ (s : State) (u : Nat), u < 272 →
      Answers (.sfuStoreError u true) s (fun t => ((t.tile u).reg 0x0340).getLsbD 11 = true ∧ t.bar 0x20068 = s.bar 0x20068 + 1 ∧
        (s.sched.running = true → t.sched.failStep.isSome = true) ∧ (∀ v, v ≠ u → t.tile v = s.tile v) ∧ t.sfu = s.sfu) ∧
      Answers (.sfuStoreError u false) s (fun t => t.bar 0x20044 = s.bar 0x20044 + 1 ∧ t.tiles = s.tiles ∧ t.sched = s.sched ∧
        t.sfu = s.sfu) ∧
      Answers (.tbufReqSet u) s (fun t => ((t.tile u).reg 0x0304).getLsbD 8 = true ∧ ((t.tile u).reg 0x0300).getLsbD 12 = true ∧
        (t.tile u).vregs = (s.tile u).vregs ∧ (∀ v, v ≠ u → t.tile v = s.tile v) ∧ t = { s with tiles := t.tiles }) ∧
      (s.pwr.diesUp = true → Answers (.tbufReqClear u) s (fun t => ((t.tile u).reg 0x0304).getLsbD 8 = false ∧
        ((t.tile u).reg 0x0300).getLsbD 12 = !(s.tile u).tested ∧ (t.tile u).vregs = (s.tile u).vregs ∧ (∀ v, v ≠ u → t.tile v = s.tile v) ∧
        t = { s with tiles := t.tiles })))

/-- For every slot: a single-bit error in a vector or mask register changes no firebox and makes a CORR report of the slot.
An uncorrectable one sets GR_UE, stops grate issue (no grate word of the slot runs) and makes a FIREBOX report of the slot,
which in a slot in use leaves the reaction outstanding; no other firebox changes. (R85.) -/
def Obligations.GrateRegisterErrors : Prop :=
  ∀ (s : State) (u : Nat) (mask : Bool) (reg : BitVec 5), u < 272 →
    Answers (.grateRegisterCe u mask reg) s (fun t => t.tiles = s.tiles ∧ t.bar 0x20044 = s.bar 0x20044 + 1 ∧
      (s.faultSet = false → s.latchable 1 = true → t.bar 0x20004 = BitVec.ofNat 32 (srcId 1 u)) ∧ t.sched = s.sched) ∧
    Answers (.grateRegisterUe u mask reg) s (fun t => ((t.tile u).reg 0x0300).getLsbD 11 = true ∧ (t.tile u).grateRuns = false ∧
      t.bar 0x20068 = s.bar 0x20068 + 1 ∧
      (s.faultSet = false → s.latchable 0xA = true → t.bar 0x20004 = BitVec.ofNat 32 (srcId 0xA u) ∧
        t.bar 0x20008 = s.tileInfo u) ∧
      (s.slotInUse u = true → srcId 0xA u ∈ t.flt.reacts) ∧ (∀ v, v ≠ u → t.tile v = s.tile v))

namespace Sys2Proof.Machine

/-- A stream that an arm with descriptor sd of a context has started (R161). -/
def startedBy (st st2 : Stream) (cx : Ctx) (c sd : Nat) : Prop :=
  st2.sd = sd ∧ st2.ctx = c ∧ st2.state = 1 ∧ st2.pos = 0 ∧ st2.cursorPos = 0 ∧ st2.fault = 0 ∧ st2.faultDva = 0 ∧ st2.slot = none ∧
  st2.stall = false ∧ st2.base = (cx.desc (sdDescA sd)).base ∧ st2.scaleBase = (cx.desc (sdDescA sd)).scaleBase ∧
  st2.sticky = st.sticky ∧ st2.cntPass = st.cntPass ∧ sdUnits sd ≤ st2.units ∧ st2.entries = (if st.state = 4 then [] else st.entries)

/-- Units that an arm of stream n of a firebox may use beside those it holds (R156): an ABORTED stream gives its own back. -/
def armUnits (tl : Tile) (n : Nat) : Nat := (tl.setStream n (tl.stream n).discarded).freeUnits

/-- Units that an arm with descriptor sd takes beside those that the stream holds. -/
def armNeeds (st : Stream) (sd : Nat) : Nat := sdUnits sd - (if st.state = 4 then 0 else st.units)

end Sys2Proof.Machine

/-- A stream word on which the bellows have acted ahead is complete (R163). ARM, not acted on before, of an entry of the job
image that R161 accepts, on a stream that may be armed and whose units are free, makes the stream RUNNING with cursor 0,
STR_FAULT cleared, its slot empty and its base that of DESC_A; without enough free units it waits in ARM_WAIT, and
ARM_WAIT_END arms it once they are free. REARM offers its entry to the empty slot of a stream that takes one; a PARKED stream
takes it at once; any other stream refuses it, with RA_REFUSED and BLW_CNT_RAREF. DISARM drops the slot and ends the stream
at once or at the end of its pass. DESC_CREATE of a valid descriptor answers its number; STREAM_ARM arms, and re-arms or
answers RE-ARM_BUSY; for a firebox that does not run it answers BUSY (log 149). (R133, R156, R161, R163, R164, R169, R170.)
-/
def Obligations.StreamsAreArmedAndReArmed : Prop :=
  (∀ (s : State) (t : BitVec 8) (sd : BitVec 14) (n : BitVec 5) (d : Nat), s.issues t.toNat = true →
      let tl := s.ltile t.toNat
      let k := tl.stoker.subst n.toNat
      let st := tl.stream k
      let cx := s.ctx s.sched.ctx
      (tl.stoker.pc ∈ tl.stoker.ahead → Answers (.arm t sd n) s (fun r =>
        TileResult s r t { tl with stoker := { tl.stoker with ahead := tl.stoker.ahead.erase tl.stoker.pc } })) ∧
      (tl.stoker.pc ∉ tl.stoker.ahead → cx.sdt[sd.toNat]? = some d → streamOk cx d = true → st.armable = true →
      (armNeeds st d ≤ armUnits tl k → Answers (.arm t sd n) s (fun r => ∃ st2, startedBy st st2 cx s.sched.ctx d ∧
        st2.armedIn = tl.stoker.place ∧ TileResult s r t (tl.setStream k st2))) ∧
      (armUnits tl k < armNeeds st d → Answers (.arm t sd n) s (fun r => OnlyTile s r (s.unitOf t.toNat) ∧
        (r.ltile t.toNat).stream k = { st.discarded with state := 5, pendArm := some d, ctx := s.sched.ctx, armedIn := tl.stoker.place } ∧
        (st.state = 4 → ((r.ltile t.toNat).stream k).entries = [] ∧ ((r.ltile t.toNat).stream k).units = 0) ∧
        (r.ltile t.toNat).stoker = { tl.stoker with waitWord := true } ∧
        (∀ m, m ≠ k → (r.ltile t.toNat).stream m = tl.stream m))))) ∧
  (∀ (s : State) (t : BitVec 8) (n : BitVec 5) (d : Nat), s.issues t.toNat = true →
      let tl := s.ltile t.toNat
      let st := tl.stream n.toNat
      st.state = 5 → st.pendArm = some d → armNeeds st d ≤ armUnits tl n.toNat → Answers (.armWaitEnd t n) s (fun r =>
        ∃ st2, startedBy st st2 (s.ctx st.ctx) st.ctx d ∧ st2.armedIn = tl.stoker.place ∧ TileResult s r t (tl.setStream n.toNat st2))) ∧
  (∀ (s : State) (t : BitVec 8) (ra : BitVec 12) (w : Bool) (n : BitVec 5) (e : Nat × Nat), s.issues t.toNat = true →
      let tl := s.ltile t.toNat
      let k := tl.stoker.subst n.toNat
      let st := tl.stream k
      tl.stoker.pc ∉ tl.stoker.ahead → (tget [] (s.ctx s.sched.ctx).rearm t.toNat)[ra.toNat]? = some e →
      (st.takesRearm = true → st.slot = none → rearmOk (s.ctx st.ctx) st.sd e.1 (st.newScale e.2) = true →
        (st.state = 1 → Answers (.rearm t ra w n) s (fun r => TileResult s r t (tl.setStream k { st with slot := some e, armedIn := tl.stoker.place }))) ∧
        (st.state = 2 → Answers (.rearm t ra w n) s (fun r => TileResult s r t (tl.setStream k { st with
          base := e.1, scaleBase := st.newScale e.2, slot := none, pos := 0, cursorPos := 0, buf := [], state := 1,
          armedIn := tl.stoker.place })))) ∧
      ((st.takesRearm = false ∨ (st.slot.isSome = true ∧ w = false)) → Answers (.rearm t ra w n) s (fun r =>
        OnlyTile s r (s.unitOf t.toNat) ∧ ((r.ltile t.toNat).stream k).sticky.getLsbD 11 = true ∧
        ((r.ltile t.toNat).stream k).slot = st.slot ∧ ((r.ltile t.toNat).stream k).state = st.state ∧
        (r.ltile t.toNat).reg 0x0390 = tl.reg 0x0390 + 1 ∧ (r.ltile t.toNat).stoker = tl.stoker.past)) ∧
      (st.takesRearm = true → st.slot.isSome = true → w = true → Answers (.rearm t ra w n) s (fun r =>
        OnlyTile s r (s.unitOf t.toNat) ∧ r.ltile t.toNat = { tl with stoker := { tl.stoker with waitWord := true } }))) ∧
  (∀ (s : State) (t : BitVec 8) (n : BitVec 5), s.issues t.toNat = true →
      let tl := s.ltile t.toNat
      let k := n.toNat
      let st := tl.stream k
      Answers (.disarm t n) s (fun r => OnlyTile s r (s.unitOf t.toNat) ∧ (r.ltile t.toNat).stoker = tl.stoker.past ∧
        ((r.ltile t.toNat).stream k).slot = none ∧ ((r.ltile t.toNat).stream k).entries = st.entries ∧
        (st.state = 1 → (r.ltile t.toNat).stream k = { st with slot := none, disarm := true }) ∧
        (st.state ≠ 1 → ((r.ltile t.toNat).stream k).state = 0) ∧
        (∀ m, m ≠ k → (r.ltile t.toNat).stream m = tl.stream m))) ∧
  (∀ (s : State) (k : Slot) (c : BitVec 2) (l : List Byte),
      let cx := s.ctx c.toNat
      cx.jobLoaded = true → cx.descs.length < 16384 →
      (validateDesc l = 0 → Answers (.descCreate k c l) s (fun t =>
        t.outcome k = some { status := 0, data := leBytes 2 cx.descs.length } ∧
        t.ctx c.toNat = { cx with descs := cx.descs ++ [parseDesc l] } ∧ t = { s with ctxs := t.ctxs, ctl := t.ctl })) ∧
      (validateDesc l ≠ 0 → Answers (.descCreate k c l) s (fun t => t.outcome k = some { status := validateDesc l } ∧
        t.ctxs = s.ctxs ∧ t.tiles = s.tiles ∧ t.mem = s.mem))) ∧
  (∀ (s : State) (k : Slot) (c : BitVec 2) (n : BitVec 5) (t : BitVec 8) (sd : BitVec 128),
      let cx := s.ctx c.toNat
      let tl := s.ltile t.toNat
      let st := tl.stream n.toNat
      s.hostJob c.toNat = true → streamOk cx sd.toNat = true → sdKind sd.toNat ∈ [0, 3] →
      (s.works (s.unitOf t.toNat) = false → Answers (.streamArm k c n t sd) s (fun r => r.outcome k = some { status := 1 } ∧
        r = { s with ctl := r.ctl })) ∧
      (s.works (s.unitOf t.toNat) = true → st.armable = true → st.state ≠ 5 →
      armNeeds st sd.toNat ≤ armUnits tl n.toNat → Answers (.streamArm k c n t sd) s (fun r => r.outcome k = some { status := 0 } ∧
        (∃ st2, startedBy st st2 cx c.toNat sd.toNat ∧ r.ltile t.toNat = tl.setStream n.toNat st2) ∧
        (∀ v, v ≠ s.unitOf t.toNat → r.tile v = s.tile v) ∧ r = { s with tiles := r.tiles, ctl := r.ctl }))) ∧
  (∀ (s : State) (k : Slot) (c : BitVec 2) (n : BitVec 5) (t : BitVec 8) (b sb : W64),
      let tl := s.ltile t.toNat
      let st := tl.stream n.toNat
      s.hostJob c.toNat = true → st.takesRearm = true → s.works (s.unitOf t.toNat) = true →
      (st.slot.isSome = true → Answers (.streamArmRearm k c n t b sb) s (fun r => r.outcome k = some { status := 0x0022 } ∧
        r = { s with ctl := r.ctl })) ∧
      (st.slot = none → st.state = 1 → rearmOk (s.ctx c.toNat) st.sd b.toNat (st.newScale sb.toNat) = true →
        Answers (.streamArmRearm k c n t b sb) s (fun r => r.outcome k = some { status := 0 } ∧
          r.ltile t.toNat = tl.setStream n.toNat { st with slot := some (b.toNat, sb.toNat) } ∧ r = { s with tiles := r.tiles, ctl := r.ctl })))

/-- For a running stream with PERSIST = 0 that is not disarmed: at STREAM_PASS_END it becomes DONE, and STR_CNT_PASS counts
the pass, exactly when every element of the walk is taken and none waits in the bellows (the last element of a load is in the
flue, the last write of a store or copy is complete); its cursor and its flue entries stay and no other stream changes;
before that nothing changes. A ring stream becomes DONE at the end of its step 255. (R162.) -/
def Obligations.StreamPassEndDone : Prop :=
  (∀ (s : State) (t : BitVec 8) (n : BitVec 5),
      let tl := s.ltile t.toNat
      let st := tl.stream n.toNat
      s.works (s.unitOf t.toNat) = true → st.state = 1 → st.stall = false → sdKind st.sd ≠ 3 → sdPersist st.sd = false → st.disarm = false →
      Answers (.streamPassEnd t n) s (fun r =>
        let st2 := (r.ltile t.toNat).stream n.toNat
        (walkCount (s.ctx st.ctx) st.sd ≤ st.pos ∧ st.buf = [] → st2.state = 3 ∧ st2.cntPass = st.cntPass + 1 ∧ st2.pos = st.pos ∧
          st2.cursorPos = st.cursorPos ∧ st2.entries = st.entries ∧ st2.slot = st.slot ∧
          (∀ m, m ≠ n.toNat → (r.ltile t.toNat).stream m = tl.stream m) ∧
          (∀ v, v ≠ s.unitOf t.toNat → r.tile v = s.tile v) ∧ r = { s with tiles := r.tiles }) ∧
        (st.pos < walkCount (s.ctx st.ctx) st.sd ∨ st.buf ≠ [] → r = s))) ∧
  (∀ (s : State) (t : BitVec 8) (n : BitVec 5),
      let tl := s.ltile t.toNat
      let st := tl.stream n.toNat
      s.bellowsRun t.toNat = true → tl.ring.active = true → tl.ring.s = n.toNat → tl.ring.step = 255 → st.state = 1 →
      sdPersist st.sd = false → st.disarm = false →
      (∀ k ∈ tl.linked n.toNat, ((tl.stream k).state = 2 ∨ (tl.stream k).state = 3) ∧ (tl.stream k).slot = none) →
      Answers (.ringStepEnd t n) s (fun r => ((r.ltile t.toNat).stream n.toNat).state = 3 ∧
        ((r.ltile t.toNat).stream n.toNat).cursorPos = 256 ∧
        ((r.ltile t.toNat).stream n.toNat).cntPass = st.cntPass + 1 ∧ (r.ltile t.toNat).ring.active = false ∧
        (∀ m, m ≠ n.toNat → (r.ltile t.toNat).stream m = tl.stream m) ∧ r = { s with tiles := r.tiles }))

namespace Sys2Proof.Machine

/-- The address of the element at a running stream's cursor in DESC_A. -/
def cursorPlace (s : State) (st : Stream) : Place := (st.descA (s.ctx st.ctx)).place (streamTuple (s.ctx st.ctx) st.sd st.pos)

/-- A running stream without index or conversion, of single plain elements, with nothing in the bellows. -/
def plainRun (s : State) (st : Stream) (kind space : Nat) : Prop :=
  st.state = 1 ∧ sdKind st.sd = kind ∧ sdDescIdx st.sd = 0xFFFF ∧ sdConv st.sd = false ∧ sdWatch st.sd = false ∧ st.buf = [] ∧
  (st.descA (s.ctx st.ctx)).space = space ∧ granule (st.descA (s.ctx st.ctx)).fmt = 1 ∧ (st.descA (s.ctx st.ctx)).layout = 0 ∧
  st.pos < walkCount (s.ctx st.ctx) st.sd

end Sys2Proof.Machine

/-- STREAM_TRANSFER of one element by a running load of a scratch array puts the element at the cursor into the flue and
moves the cursor by one; by a running store to scratch it writes the front entry's bytes at the element's place and no other
byte. A translation miss fills the group's line into the cache. A page that is not present, or protected, holds the cursor
and records code 2 or 3 with the address. A copy-on-write fault keeps the page's contents for the newest generation and the
stream goes on, or is held where the snapshot area is full. FAULT_SERVED lets a held stream go on; an abort makes it ABORTED
with its code and address and makes a STREAM report. A refused PERSIST write raises FAIL. (R153, R158, R177, R179, R180,
R181, R193, R194, R197, R242, R305.) -/
def Obligations.TransfersAndTheirFaults : Prop :=
  (∀ (s : State) (t : BitVec 8) (n : BitVec 5), s.bellowsRun t.toNat = true →
      let tl := s.ltile t.toNat
      let st := tl.stream n.toNat
      let d := st.descA (s.ctx st.ctx)
      let p := cursorPlace s st
      st.stall = false →
      (plainRun s st 0 1 → st.room d.fmt 1 = true → Answers (.streamTransfer t n 1) s (fun r =>
        (r.ltile t.toNat).stream n.toNat = { st with pos := st.pos + 1, cursorPos := st.pos + 1, mov := none, entries := st.entries ++
          [s.readElem (s.unitOf t.toNat) st.ctx d (streamTuple (s.ctx st.ctx) st.sd st.pos)] } ∧
        (∀ m, m ≠ n.toNat → (r.ltile t.toNat).stream m = tl.stream m) ∧ (r.ltile t.toNat).scratch = tl.scratch ∧
        (∀ v, v ≠ s.unitOf t.toNat → r.tile v = s.tile v) ∧ r.mem = s.mem)) ∧
      (∀ e rest, plainRun s st 1 1 → d.ovl = 0 → st.entries.drop st.claimed = e :: rest →
        st.armedIn ≠ 0 ∨ meetsGuard (s.guards tl) p.unit p.unitBytes = false → Answers (.streamTransfer t n 1) s (fun r =>
        ((r.ltile t.toNat).stream n.toNat).pos = st.pos + 1 ∧ ((r.ltile t.toNat).stream n.toNat).cursorPos = st.pos + 1 ∧
        ((r.ltile t.toNat).stream n.toNat).entries = st.entries.take st.claimed ++ rest ∧
        (∀ x, mread (r.ltile t.toNat).scratch x =
          if p.unit ≤ x ∧ x < p.unit + p.unitBytes then (leBytes p.unitBytes e.1).getD (x - p.unit) 0 else mread tl.scratch x) ∧
        (∀ m, m ≠ n.toNat → (r.ltile t.toNat).stream m = tl.stream m) ∧
        (∀ v, v ≠ s.unitOf t.toNat → r.tile v = s.tile v) ∧ r.mem = s.mem))) ∧
  (∀ (s : State) (cache : Nat) (c : BitVec 2) (page : Nat),
      let g := page % 2 ^ 26 / 8
      let line : XGroup := { ctx := c.toNat, g := g, entries := (s.groupLine c.toNat g).1, cp := List.replicate 8 false }
      (cache < 272 → s.works cache = true → (s.tile cache).xc.find c.toNat g = none → Answers (.translationMiss cache c page) s (fun t =>
        (t.tile cache).xc.find c.toNat g = some line ∧ (t.tile cache).reg 0x0808 = (s.tile cache).reg 0x0808 + 1 ∧
        ((s.groupLine c.toNat g).2 = true → ((t.tile cache).reg 0x0800).getLsbD 1 = true) ∧
        (∀ v, v ≠ cache → t.tile v = s.tile v) ∧ (s.pmBad c.toNat g false = false → t.mem = s.mem) ∧
        (s.pmBad c.toNat g false = true → s.pmBad c.toNat g true = false → ∀ i, i < 8 →
          t.pentry c.toNat (8 * g + i) = tget 0 s.mem.pmapCopy (pageKey c.toNat (8 * g + i))))) ∧
      (cache = 272 → s.mem.hostCache.find c.toNat g = none → Answers (.translationMiss cache c page) s (fun t =>
        t.mem.hostCache.find c.toNat g = some line ∧ t.tiles = s.tiles ∧
        (s.pmBad c.toNat g false = false → t = { s with mem := { s.mem with hostCache := t.mem.hostCache } })))) ∧
  (∀ (s : State) (t : BitVec 8) (n : BitVec 5), s.bellowsRun t.toNat = true →
      let u := s.unitOf t.toNat
      let st := (s.tile u).stream n.toNat
      let x := (cursorPlace s st).unit
      let p := x / 65536
      plainRun s st 0 0 → st.room (st.descA (s.ctx st.ctx)).fmt 1 = true → (s.tile u).xc.find st.ctx (p / 8) = none →
      s.groupFails st.ctx (p / 8) = false →
      let e := nth (0 : W64) (s.groupLine st.ctx (p / 8)).1 (p % 8)
      let code := s.entryFault st.ctx e false false
      let held := fun (k : Nat) (r : State) =>
        (r.tile u).stream n.toNat = { st with stall := true, fault := BitVec.ofNat 32 (k * 2 ^ 28), faultDva := x } ∧
        (r.tile u).reg 0x0388 = (s.tile u).reg 0x0388 + 1 ∧ (∀ m, m ≠ n.toNat → (r.tile u).stream m = (s.tile u).stream m) ∧
        (∀ v, v ≠ u → r.tile v = s.tile v) ∧ (∀ k, r.tierMem k = s.tierMem k) ∧
        r.mem.pmFaults = s.mem.pmFaults + (if s.entryBad st.ctx e then 1 else 0)
      (code = 2 → Answers (.pageNotPresentFault t n) s (held 2)) ∧ (code = 3 → Answers (.protectionFault t n) s (held 3))) ∧
  (∀ (s : State) (t : BitVec 8) (n : BitVec 5) (x g : Nat), s.bellowsRun t.toNat = true →
      let u := s.unitOf t.toNat
      let st := (s.tile u).stream n.toNat
      let key := pageKey st.ctx (x / 65536)
      plainRun s st 1 0 → (s.nextStop ⟨u, t.toNat, n.toNat⟩ st.ctx).2 = .access .cow x → s.curGen st.ctx = some g → s.hasCopy g key = false →
      (s.ember.copies.length < s.areaFrames → Answers (.copyOnWriteFault t n) s (fun r =>
        r.ember.copies = s.ember.copies ++ [(g % 4, key, r.pageBody st.ctx (x / 65536))] ∧
        ((r.tile u).stream n.toNat).stall = false ∧ ((r.tile u).stream n.toNat).pos = st.pos ∧
        (r.tile u).reg 0x0384 = (s.tile u).reg 0x0384 + 1 ∧ (∀ v, v ≠ u → r.tile v = s.tile v) ∧ (∀ k, r.tierMem k = s.tierMem k))) ∧
      (s.areaFrames ≤ s.ember.copies.length → Answers (.copyOnWriteFault t n) s (fun r =>
        ((r.tile u).stream n.toNat).stall = true ∧ ((r.tile u).stream n.toNat).full = true ∧
        ((r.tile u).stream n.toNat).faultDva = x ∧ ((r.tile u).stream n.toNat).pos = st.pos ∧
        r.ior 0x3024 = s.ior 0x3024 + (if st.full then 0 else 1) ∧ r.ember.copies = s.ember.copies ∧ (∀ k, r.tierMem k = s.tierMem k)))) ∧
  (∀ (s : State) (t : BitVec 8) (n : BitVec 5),
      let u := s.unitOf t.toNat
      let st := (s.tile u).stream n.toNat
      (st.stall = true → getField st.fault 28 4 ≠ 2 → Answers (.faultServed t n) s (fun r =>
        (r.tile u).stream n.toNat = { st with stall := false } ∧ (∀ v, v ≠ u → r.tile v = s.tile v) ∧ r = { s with tiles := r.tiles })) ∧
      (∀ al, st.stall = true → getField st.fault 28 4 = 2 → eV (s.pentry st.ctx (st.faultDva / 65536)) = false →
        s.allocOfPage st.ctx (st.faultDva / 65536) = some al → al.touch = true →
        (s.mapPage st.ctx al (st.faultDva / 65536)).isSome = true → Answers (.faultServed t n) s (fun r =>
        (r.tile u).stream n.toNat = { st with stall := false } ∧ eV (r.pentry st.ctx (st.faultDva / 65536)) = true)) ∧
      (∀ code : BitVec 4, u < 272 → s.works u = true → st.state = 1 → st.stall = true → code.toNat = 2 ∨ code.toNat = 3 → getField st.fault 28 4 = code.toNat →
        Answers (.streamAbort t n code) s (fun r =>
        (r.tile u).stream n.toNat = { st with state := 4, stall := false, fault := BitVec.ofNat 32 (code.toNat * 2 ^ 28 + 2 ^ 27) } ∧
        r.bar 0x2005C = s.bar 0x2005C + 1 ∧ (s.sched.running = true → r.sched.failStep.isSome = true) ∧
        (∀ v, v ≠ u → r.tile v = s.tile v) ∧ r.mem = s.mem))) ∧
  (∀ (s : State) (t : BitVec 8), s.guards (s.ltile t.toNat) ≠ [] → Answers (.persistWriteRefused t) s (fun r =>
      r.sched.failStep.isSome = true ∧ r = { s with sched := r.sched }))

namespace Sys2Proof.Machine

/-- Every stream that is linked to ring stream k, runs, and has an entry in order for slice i in buffer b holds it in its slot
(R175). -/
def linkedHold (s t : State) (tl : BitVec 8) (k i b : Nat) : Prop :=
  ∀ j ∈ (s.ltile tl.toNat).linked k, j ≠ k →
    let st := (s.ltile tl.toNat).stream j
    ∀ e, st.takesRearm = true → st.slot = none → (tget [] (s.ctx st.ctx).rearm tl.toNat)[sdRaBase st.sd + 2 * i + b]? = some e →
      rearmOk (s.ctx st.ctx) st.sd e.1 (st.newScale e.2) = true → (t.ltile tl.toNat).stream j = st.offer e.1 e.2

end Sys2Proof.Machine

/-- RING on a running ring stream whose linked slots are empty starts step 0 with the slice of the tile's own number, and
each linked stream receives its entry; where the descriptors lay slices out as runs of bytes without scales, buffer 0 then
holds the slice's bytes. RING_SLICE_RECEIVE takes the in-use slice of the upstream station, where that runs, into the other
buffer, and such bytes stand there. RING_STEP_END with the receive buffer full and the in-use slice sent swaps the buffers,
and linked streams receive the entry of the new slice and buffer. (R172, R173, R174, R175, R176.) -/
def Obligations.TheWeightRing : Prop :=
  (∀ (s : State) (t : BitVec 8) (n : BitVec 5), s.issues t.toNat = true →
      let tl := s.ltile t.toNat
      let k := n.toNat
      let st := tl.stream k
      let u := s.unitOf t.toNat
      let da := st.descA (s.ctx st.ctx)
      let db := (s.ctx st.ctx).desc (sdDescB st.sd)
      tl.stoker.pc ∉ tl.stoker.ahead → tl.ring.active = false → st.state = 1 → st.stall = false → sdKind st.sd = 3 → db.space = 1 → sdRingLink st.sd = false → (∀ j ∈ tl.linked k, (tl.stream j).slot = none) → da.space ≠ 1 →
      (s.sliceReach u st.ctx da t.toNat).2 = none → Answers (.ringStart t n) s (fun r =>
        let tl2 := r.ltile t.toNat
        tl2.ring = { active := true, s := k, step := 0, inUse := 0, slice := t.toNat } ∧ tl2.stream k = { st with pos := 0, cursorPos := 0 } ∧
        (da.packedSlice = true → db.packedSlice = true → db.ovl = 0 → scaleBlock da.fmt = 0 → st.armedIn ≠ 0 ∨ s.guards tl = [] →
          mreadN tl2.scratch (outerAddr db 0) (sliceBytes da) =
            (s.sliceReach u st.ctx da t.toNat).1.spaceRead u st.ctx da.space (outerAddr da t.toNat) (sliceBytes da)) ∧
        tl2.stoker = tl.stoker.past ∧ linkedHold s r t k t.toNat 0 ∧
        (∀ v, v ≠ u → r.tile v = s.tile v))) ∧
  (∀ (s : State) (t : BitVec 8) (n : BitVec 5) (v : Nat), s.bellowsRun t.toNat = true →
      let u := s.unitOf t.toNat
      let tl := s.tile u
      let up := s.tile v
      let db := (s.ctx (tl.stream n.toNat).ctx).desc (sdDescB (tl.stream n.toNat).sd)
      let udb := (s.ctx (up.stream up.ring.s).ctx).desc (sdDescB (up.stream up.ring.s).sd)
      s.upstream u = some v → v ≠ u → s.works v = true → db.space = 1 → (tl.stream n.toNat).state = 1 → (up.stream up.ring.s).state = 1 → tl.ring.active = true → tl.ring.s = n.toNat → tl.ring.recv = none → tl.ring.step < 255 →
      up.ring.active = true → up.ring.sent = false → up.ring.step = tl.ring.step → Answers (.ringSliceReceive t n false) s (fun r =>
        (r.tile u).ring = { tl.ring with recv := some up.ring.slice } ∧ (r.tile v).ring = { up.ring with sent := true } ∧
        (udb.packedSlice = true → db.packedSlice = true → db.ovl = 0 → scaleBlock udb.fmt = 0 → udb.space = 1 →
            (tl.stream n.toNat).armedIn ≠ 0 ∨ s.guards tl = [] →
          mreadN (r.tile u).scratch (outerAddr db (1 - tl.ring.inUse)) (sliceBytes udb) =
            mreadN up.scratch (outerAddr udb up.ring.inUse) (sliceBytes udb)) ∧ (r.tile v).scratch = up.scratch ∧
        (r.tile u).streams = tl.streams ∧ (∀ w, w ≠ u → w ≠ v → r.tile w = s.tile w))) ∧
  (∀ (s : State) (t : BitVec 8) (n : BitVec 5) (sl : Nat), s.bellowsRun t.toNat = true →
      let tl := s.ltile t.toNat
      let st := tl.stream n.toNat
      tl.ring.active = true → tl.ring.s = n.toNat → tl.ring.step ≠ 255 → tl.ring.recv = some sl → tl.ring.sent = true →
      st.state = 1 → (∀ k ∈ tl.linked n.toNat, ((tl.stream k).state = 2 ∨ (tl.stream k).state = 3) ∧ (tl.stream k).slot = none) →
      sdRingLink st.sd = false →
      Answers (.ringStepEnd t n) s (fun r =>
        (r.ltile t.toNat).ring = { tl.ring with step := tl.ring.step + 1, inUse := 1 - tl.ring.inUse, slice := sl, recv := none, sent := false } ∧
        (r.ltile t.toNat).stream n.toNat = { st with pos := tl.ring.step + 1, cursorPos := tl.ring.step + 1 } ∧
        linkedHold s r t n.toNat sl (1 - tl.ring.inUse) ∧ (r.ltile t.toNat).scratch = tl.scratch ∧
        (∀ v, v ≠ s.unitOf t.toNat → r.tile v = s.tile v)))

/-- PASS holds its descriptor at issue in its hob. PASS_START with nothing in the way starts it: it takes its streamed
operand from the front of FLUE_B, its side lane that of the successor from FLUE_A, and the stoker goes on past its five
words; else the stall bits change, an operand that it needs and that is there is preloaded, and where the successor whose
operand its side lane is to carry lacks elements, the bellows act on the next word ahead that gives them. PASS_COMMIT commits
the oldest pass: a non-final one becomes slot ACC_SLOT_OUT, +0 outside M_VALID and N_VALID, and no other slot changes;
HOB_PASS_SEQ shows it. ASH_STAGE_VISIBLE shows the stages before the first uncommitted one. A pre-emption request withdraws
held passes and touches none in flight. A failed check replays the pass and every later one; a second one makes the slot
SUSPECT, stops the hob and makes a FIREBOX report; an uncorrectable hob state error stops the hob, raises FAIL and makes a
FIREBOX report; a corrected one makes a CORR report. (R53, R54, R58, R62, R65, R66, R67, R72, R75, R76, R77, R159.) -/
def Obligations.PassesRunAndAreChecked : Prop :=
  (∀ (s : State) (t : BitVec 8) (d : PassDesc), s.issues t.toNat = true → d.hob.toNat < 3 →
      let tl := s.ltile t.toNat
      let h := tl.hob d.hob.toNat
      tl.stoker.preempt = false → h.stopped = false → Answers (.pass t d) s (fun r => OnlyTile s r (s.unitOf t.toNat) ∧
        (r.ltile t.toNat).hob d.hob.toNat = { h with held := some (substPass tl.stoker d) } ∧
        (∀ m, m ≠ d.hob.toNat → (r.ltile t.toNat).hob m = tl.hob m) ∧
        (r.ltile t.toNat).stoker = { tl.stoker with waitWord := true } ∧ (r.ltile t.toNat).streams = tl.streams)) ∧
  (∀ (s : State) (t : BitVec 8) (hob : BitVec 2) (d : PassDesc), hob.toNat < 3 → s.stokerRuns t.toNat = true →
      let tl := s.ltile t.toNat
      let h := tl.hob hob.toNat
      let st := tl.stream d.flueB.toNat
      let next := s.laneOf t.toNat hob.toNat
      tl.stoker.preempt = false → h.stopped = false → h.held = some d →
      ((tl.holdOf h d next).clear = true → d.strmSrc = 0 → d.statNew = false → d.accIn ≠ 2 → Answers (.passStart t hob) s (fun r =>
        let tl2 := r.ltile t.toNat
        (tl2.hob hob.toNat).held = none ∧ (tl2.hob hob.toNat).slots = h.slots ∧
        (∃ f, (tl2.hob hob.toNat).fly = h.fly ++ [f] ∧ f.d = d ∧ f.strm = (st.entries.drop st.claimed).take (passOperand d) ∧
          f.stat = h.stat ∧ f.replay = false) ∧
        (tl2.stream d.flueB.toNat).entries = st.entries ∧
        (0 < passOperand d → (∀ p, next = some p → p.flueA ≠ d.flueB) →
          (tl2.stream d.flueB.toNat).claimed = st.claimed + passOperand d) ∧
        (∀ p, next = some p → (tl2.hob hob.toNat).lane = some (p.passSeq.toNat, passNeedA p) ∧
          (h.lane = none → p.statSrc = 0 → p.flueA ≠ d.flueB → (tl2.hob hob.toNat).shadow =
            if passNeedA p = 0 then [] else
              ((tl.stream p.flueA.toNat).entries.drop (tl.stream p.flueA.toNat).claimed).take (passNeedA p))) ∧
        (d.final = true → tl2.ash = tl.ash ++ [{ seq := d.passSeq.toNat, hob := hob.toNat }]) ∧ (d.final = false → tl2.ash = tl.ash) ∧
        tl2.stoker = ({ tl.stoker with waitWord := false } : Stoker).goto (tl.stoker.pc + 5) ∧
        (∀ m, m ≠ hob.toNat → tl2.hob m = tl.hob m) ∧ (∀ v, v ≠ s.unitOf t.toNat → r.tile v = s.tile v) ∧
        r = { s with tiles := r.tiles })) ∧
      ((tl.holdOf h d next).clear = false →
        let m := s.setLtile t.toNat (tl.passStart hob.toNat next)
        let tm := m.ltile t.toNat
        let short := fun (p : PassDesc) => p.statSrc = 0 ∧ (tm.stream p.flueA.toNat).avail < passNeedA p
        (∀ p x, next = some p → short p →
          (reachable ((s.ctx s.sched.ctx).program t.toNat) 64 (s.ahead t.toNat d).1).find? (fun x =>
            feeds tm p.flueA.toNat x.1 x.2 && !tm.stoker.ahead.contains x.1.pc) = some x →
          Answers (.passStart t hob) s (fun r => r = m.actAhead t.toNat x.1 x.2)) ∧
        ((∀ p, next = some p → ¬ short p) → Answers (.passStart t hob) s (fun r =>
        let tl2 := r.ltile t.toNat
        (h.ready d = true → tl2.hobs = tl.hobs ∧ tl2.streams = tl.streams) ∧
        (d.statNew = true → d.statSrc = 0 → h.lane = none → h.fly = [] → 0 < passOperand d →
          passOperand d ≤ (tl.stream d.flueA.toNat).avail → (tl2.hob hob.toNat).preloading = true ∧
          (tl2.hob hob.toNat).shadow = ((tl.stream d.flueA.toNat).entries.drop (tl.stream d.flueA.toNat).claimed).take (passOperand d)) ∧
        (tl2.hob hob.toNat).held = some d ∧ (tl2.hob hob.toNat).fly = h.fly ∧ (tl2.hob hob.toNat).slots = h.slots ∧
        tl2.stoker = tl.stoker ∧ tl2.ash = tl.ash ∧ (tl2.reg (hobReg hob.toNat)).getLsbD 7 = (tl.holdOf h d next).ash ∧
        (tl2.reg 0x0380).getLsbD 0 = (tl.holdOf h d next).issue ∧ r = { s with tiles := r.tiles })))) ∧
  (∀ (s : State) (t : BitVec 8) (hob : BitVec 2) (f : FlyPass) (rest : List FlyPass), hob.toNat < 3 → s.works (s.unitOf t.toNat) = true →
      let tl := s.ltile t.toNat
      let h := tl.hob hob.toNat
      h.fly = f :: rest → f.aborted = false → Answers (.passCommit t hob) s (fun r =>
        let tl2 := r.ltile t.toNat
        let h2 := tl2.hob hob.toNat
        h2.fly = rest ∧ tl2.reg (hobReg hob.toNat + 4) = f.d.passSeq ∧
        (f.d.final = true ∨ f.dropped = true → h2.slots = h.slots) ∧ (f.dropped = true → tl2.ash = tl.ash ∧ tl2.streams = tl.streams) ∧
        (f.d.final = false → f.dropped = false → tl2.ash = tl.ash ∧ (∀ m, m ≠ f.d.accSlotOut.toNat → tget [] h2.slots m = tget [] h.slots m) ∧
          (tget [] h2.slots f.d.accSlotOut.toNat).length = 4096 ∧
          (f.d.split = false → ∀ y x, y < 64 → x < 64 → (f.d.mValid.toNat ≤ y ∨ f.d.nValid.toNat ≤ x) →
            nth 1 (tget [] h2.slots f.d.accSlotOut.toNat) (64 * y + x) = 0)) ∧
        (∀ m, m ≠ hob.toNat → tl2.hob m = tl.hob m) ∧ (∀ v, v ≠ s.unitOf t.toNat → r.tile v = s.tile v))) ∧
  (∀ (s : State) (t : BitVec 8), s.works (s.unitOf t.toNat) = true → Answers (.ashStageVisible t) s (fun r =>
      (∀ i, i < (s.ltile t.toNat).ash.length → ∃ a b, (s.ltile t.toNat).ash[i]? = some a ∧ (r.ltile t.toNat).ash[i]? = some b ∧
        ((∀ j, j ≤ i → ∃ c, (s.ltile t.toNat).ash[j]? = some c ∧ c.committed = true) → b = { a with visible := true }) ∧
        ((∃ j c, j ≤ i ∧ (s.ltile t.toNat).ash[j]? = some c ∧ c.committed = false) → b = a)) ∧
      (∀ v, v ≠ s.unitOf t.toNat → r.tile v = s.tile v) ∧ r = { s with tiles := r.tiles })) ∧
  (∀ (s : State) (t : BitVec 8), Answers (.preemptionRequest t) s (fun r =>
      (r.ltile t.toNat).stoker.preempt = true ∧ (∀ h, ((r.ltile t.toNat).hob h).held = none ∧
        ((r.ltile t.toNat).hob h).fly = ((s.ltile t.toNat).hob h).fly ∧ ((r.ltile t.toNat).hob h).slots = ((s.ltile t.toNat).hob h).slots) ∧
      (r.ltile t.toNat).streams = (s.ltile t.toNat).streams ∧ r = { s with tiles := r.tiles })) ∧
  (∀ (s : State) (t : BitVec 8) (hob : BitVec 2) (seq : W32) (c : CheckFail) (p : FlyPass), hob.toNat < 3 →
      let tl := s.ltile t.toNat
      let h := tl.hob hob.toNat
      let o := hobReg hob.toNat
      s.unitOf t.toNat < 272 → h.fly.find? (fun q => q.d.passSeq.toNat == seq.toNat) = some p → p.aborted = false →
      checkCounts h c p = true →
      (p.replay = false → Answers (.checkMismatch t hob seq c) s (fun r =>
        let tl2 := r.ltile t.toNat
        (tl2.hob hob.toNat).fly.map (fun q => q.d) = h.fly.map (fun q => q.d) ∧
        (tl2.hob hob.toNat).fly.find? (fun q => q.d.passSeq.toNat == seq.toNat) = some { p with replay := true } ∧
        (tl2.reg o).getLsbD 9 = true ∧ (tl2.reg o).getLsbD 10 = true ∧ tl2.reg (o + 8) = seq ∧ tl2.reg (o + 0x10) = tl.reg (o + 0x10) + 1 ∧
        tl2.reg (o + 0x14) = tl.reg (o + 0x14) + 1 ∧ (tl2.hob hob.toNat).slots = h.slots ∧ r.bar 0x20044 = s.bar 0x20044 + 1)) ∧
      (p.replay = true → Answers (.replayMismatch t hob seq c) s (fun r =>
        let tl2 := r.ltile t.toNat
        tl2.suspect = true ∧ (∀ damp, (tl2.hobStatus damp hob.toNat).getLsbD 12 = true) ∧ (tl2.hob hob.toNat).stopped = true ∧ (tl2.hob hob.toNat).slots = h.slots ∧
        r.bar 0x20068 = s.bar 0x20068 + 1))) ∧
  (∀ (s : State) (t : BitVec 8) (hob : BitVec 2) (obj : HobStore), hob.toNat < 3 → s.unitOf t.toNat < 272 →
      Answers (.hstateUe t hob obj) s (fun r => ((r.ltile t.toNat).reg (hobReg hob.toNat)).getLsbD 11 = true ∧
        ((r.ltile t.toNat).hob hob.toNat).stopped = true ∧ r.bar 0x20068 = s.bar 0x20068 + 1 ∧
        (s.sched.running = true → r.sched.failStep.isSome = true) ∧ (∀ v, v ≠ s.unitOf t.toNat → r.tile v = s.tile v)) ∧
      Answers (.hobStateCe t hob obj) s (fun r => r.tiles = s.tiles ∧ r.bar 0x20044 = s.bar 0x20044 + 1 ∧ r.sched = s.sched))

namespace Sys2Proof.Machine

/-- A frame that arrives in order on a chimney for this module: the engines run, its bytes are a UDP datagram for the chimney's
address and the Uadal port, whose payload spells frame f of a type, of this cluster, to this DEVID (R266, R271, R273). -/
def comes (s : State) (ch : BitVec 1) (l : List Byte) (f : Frame) (typ : Nat) : Prop :=
  s.portsUp = true ∧ (∃ u, linkArrives s.ip6 (s.ownAddr ch.toNat) (s.setting 0x0120) l = .payload u ∧ parseFrame u = some f) ∧
  f.typ = typ ∧ f.cluster = s.setting 0x0103 ∧ s.devid = some f.dst

/-- What counting a frame may change (R380): a counter, and a wrap of it the bits and the vector that show it. -/
def countsOnly (s t : State) : Prop := t = { s with obs := { s.obs with counters := t.obs.counters }, bar0 := t.bar0, ctl := t.ctl, out := t.out }

/-- A frame put on a chimney: it is the next thing out, on a link that is up, as a whole Ethernet frame; or it waits until it
may leave (R266, R270, R293). -/
def frameOut (s t : State) (ch : Nat) (f : Frame) : Prop :=
  (s.mayLeave ch f = true → t.net.waitOut = s.net.waitOut ∧ t.out[s.out.length]? =
    some (.frame ch (s.linkFor ch f) (s.wireBytes ch ((s.ownAddr ch).getD 0) (tget 0 s.net.macs ch) f))) ∧
  (s.mayLeave ch f = false → t.net.waitOut = s.net.waitOut ++ [(ch, f)])

/-- What a frame of this module to a peer puts out on a chimney. -/
def sentFrame (s t : State) (ch d typ : Nat) (p : List Byte) : Prop := frameOut s t ch (s.frameTo d typ 0 0 false p)

end Sys2Proof.Machine

/-- A frame that arrives changes counters at most before it is taken. For frames that arrive in order for this module: the up
round of a child waits until the own round of its edge is there; at the root, with every child's round there and the count
that of the cluster, the module holds the OR of the rounds. A second copy of a sending is dropped. The parent's down round
becomes the OR that the module holds; one already held is counted alone. FLAG_UP_REPEAT sends every unanswered round to the
parent on each chimney that carries its traffic. The first GSTOP frame stops the module; a later one is counted alone.
TIME_EXCHANGE_START numbers and sends a SYNC; SYNC from the time parent opens an exchange and is answered with DREQ (a
BEAT_DIV that differs drops it); DREQ is answered with RESP and t4; the RESP of the first exchange aligns the beat unit, with
an offset of half the difference of the two ways less LINK_ASYM, to half a unit. (R230, R231, R232, R248, R273, R274, R275,
R276, R278, R395.) -/
def Obligations.FlagRoundsAndTimeFrames : Prop :=
  (∀ (s : State) (ch : Nat), countsOnly s (s.frameIn ch)) ∧
  (∀ (s : State) (ch : BitVec 1) (l : List Byte) (f : Frame), comes s ch l f 0 →
      let r := (parseRound f.payload).2
      let a := s.frameIn ch.toNat
      (r.gstop && r.edge == gstopMark) = false →
      let first := (s.noteUp f.src r.edge f.chsel).2
      ((parseRound f.payload).1 = false → first = false → Answers (.flagUpReceive ch l) s (fun t =>
        t = { a with net := { s.net with upSeen := t.net.upSeen } } ∧ ∀ n, s.upCount f.src r.edge = n →
          t.upCount f.src r.edge = if f.chsel = 0 then (n.1 + 1, n.2) else (n.1, n.2 + 1))) ∧
      ((parseRound f.payload).1 = false → first = true → s.orOf r.edge = none →
        s.net.ups.any (fun u => u.1 == f.src && u.2.edge == r.edge) = false →
        (s.net.own.find? (fun q => q.edge == r.edge) = none → Answers (.flagUpReceive ch l) s (fun t =>
          t = { a with net := { s.net with upSeen := t.net.upSeen, ups := s.net.ups ++ [(f.src, r)] } })) ∧
        (∀ own, s.net.own.find? (fun q => q.edge == r.edge) = some own → s.net.ups.filter (fun u => u.2.edge == r.edge) = [] →
          s.setting 0x0151 = 1 → s.flagParent = none → flagConflict [own, r] = false → own.cnt + r.cnt = s.clusterSize →
          Answers (.flagUpReceive ch l) s (fun t => (∃ q, t.orOf r.edge = some q ∧ q.nr = (own.nr || r.nr) ∧ q.fail = (own.fail || r.fail) ∧
            q.fv = (own.fv || r.fv) ∧ q.nf = ((own.fv && own.nf) || (r.fv && r.nf)) ∧ q.cnt = s.clusterSize) ∧
            t = { s with net := t.net, obs := t.obs, bar0 := t.bar0, ctl := t.ctl, out := t.out }))) ∧
      ((parseRound f.payload).1 = true → s.flagParent = some f.src →
        (s.orOf r.edge = none → Answers (.flagDownReceive ch l) s (fun t => t.orOf r.edge = some r ∧
          (∀ q ∈ t.net.sentUp, q.edge ≠ r.edge) ∧
          t = { s with net := t.net, io := t.io, obs := t.obs, bar0 := t.bar0, ctl := t.ctl, out := t.out, free := t.free })) ∧
        (s.orOf r.edge ≠ none → Answers (.flagDownReceive ch l) s (fun t => t = a)))) ∧
  (∀ (s : State) (p : Nat), s.portsUp = true → s.flagParent = some p → Answers .flagUpRepeat s (fun t =>
      t = { s with obs := t.obs, bar0 := t.bar0, ctl := t.ctl, out := t.out, net := { s.net with waitOut := t.net.waitOut } } ∧
      ∀ r ∈ s.net.sentUp, ∀ ch ∈ s.chimneysTo p,
        let f := s.frameTo p 0 0 0 false (flagPayload false r)
        (s.mayLeave ch f = true →
          .frame ch (s.linkFor ch f) (s.wireBytes ch ((s.ownAddr ch).getD 0) (tget 0 s.net.macs ch) f) ∈ t.out) ∧
        (s.mayLeave ch f = false → (ch, f) ∈ t.net.waitOut))) ∧
  (∀ (s : State) (ch : BitVec 1) (l : List Byte) (f : Frame), comes s ch l f 0 →
      (parseRound f.payload).2.gstop = true → (parseRound f.payload).2.edge = gstopMark →
      (s.net.gstopSent = false → Answers (.gstopFrame ch l) s (fun t => t.gsState = 2 ∧ t.net.gstopSent = true ∧ t.sched.running = false ∧
        t.traceHalted = true ∧ t.obs.gsBeat = s.clk.beatNow ∧ t.tiles = s.tiles ∧ t.mem = s.mem)) ∧
      (s.net.gstopSent = true → Answers (.gstopFrame ch l) s (fun t => t = s.frameIn ch.toNat))) ∧
  (∀ (s : State) (child : BitVec 20) (t1 : W64), s.portsUp = true → s.clk.started = true → s.chimneysTo child.toNat ≠ [] →
      Answers (.timeExchangeStart child t1) s (fun t => t.clk = { s.clk with tseq := (s.clk.tseq + 1) % 65536 } ∧
        (∃ ch ∈ s.chimneysTo child.toNat, sentFrame s t ch child.toNat 1 (timePayload 0 s.beatDiv t.clk.tseq t1.toNat s.clk.beatNow)) ∧
        t = { s with clk := t.clk, net := t.net, obs := t.obs, bar0 := t.bar0, ctl := t.ctl, out := t.out, free := t.free })) ∧
  (∀ (s : State) (ch : BitVec 1) (l : List Byte) (f : Frame), comes s ch l f 1 →
      let p := f.payload
      (∀ (c : Nat) (t2 t3 : W64), s.timeParent = some (f.src, c) → timeMsg p = 0 → s.clk.started = true →
        (field (beAt p 0 4) 0 18 = s.beatDiv → Answers (.syncFrame ch l t2 t3) s (fun t =>
          t.clk = { s.clk with exch := some {
                      tseq := timeSeq p, t1 := beAt p 8 8, t2 := t2.toNat, t3 := t3.toNat, pbeat := some (beAt p 16 8) } } ∧
          (s.chimneysTo f.src ≠ [] → ∃ b ∈ s.chimneysTo f.src, sentFrame (s.frameIn ch.toNat) t b f.src 1 (timePayload 1 0 (timeSeq p) 0 0)) ∧
          t = { s with clk := t.clk, net := t.net, obs := t.obs, bar0 := t.bar0, ctl := t.ctl, out := t.out })) ∧
        (field (beAt p 0 4) 0 18 ≠ s.beatDiv → Answers (.syncFrame ch l t2 t3) s (fun t => t.clk = { s.clk with exch := none } ∧
          t.ior 0x202C = s.ior 0x202C + 1 ∧ t = { s.frameIn ch.toNat with clk := t.clk, io := t.io }))) ∧
      (∀ t4 : W64, timeMsg p = 1 → ch.toNat ∈ s.chimneysTo f.src → Answers (.dreqFrame ch l t4) s (fun t =>
        sentFrame (s.frameIn ch.toNat) t ch.toNat f.src 1 (timePayload 2 0 (timeSeq p) t4.toNat 0) ∧
        t = { s with net := t.net, obs := t.obs, bar0 := t.bar0, ctl := t.ctl, out := t.out })) ∧
      (∀ (c : Nat) (e : TimeExch), s.clk.exch = some e → s.timeParent = some (f.src, c) → timeMsg p = 2 → timeSeq p = e.tseq →
        e.pbeat.isSome = true → s.clk.delays = [] → s.clk.everAligned = false → Answers (.respFrame ch l) s (fun t =>
          let a := s.tsDiff e.t2 e.t1
          let b := s.tsDiff (beAt p 8 8) e.t3
          let asym := signed 64 (s.setting (0x0154 + ch.toNat))
          t.clk.everAligned = true ∧ t.clk.exch = none ∧ t.clk.delays = [a + b] ∧
          (a - b) - 1 ≤ 2 * (t.clk.theta + asym) ∧ 2 * (t.clk.theta + asym) ≤ (a - b) + 1 ∧ t.tiles = s.tiles ∧ t.mem = s.mem)))

/-- SLOT_START of an exchange whose beat has come by the engine's copy of it and whose fences are met opens the slot, and
SLOT_BUSY shows it. COLL_CHUNK_FOLD of a member that this rank holds, where its source may be read, takes its quantised shard
as the accumulator of a group's first member, and for a later member the quantised sum of the accumulator before it, which
lies here, and its own shard; the result of the chunk is then taken where it is here. A COLL frame taken in sequence is held
where it fits the open slot, counted as stale where the slot is not open, and raises FAIL where it disagrees. (R279, R281,
R282, R283, R285, R286, R287.) -/
def Obligations.ExchangeSlotsFold : Prop :=
  (∀ (s : State) (n : BitVec 16) (e : Exch), (s.ctx s.sched.ctx).exchOf n.toNat = some e → s.sched.running = true → s.sched.desync = false →
      s.sched.abandoned = false → thas s.net.slots n.toNat = false → s.sched.base + e.tOpen ≤ s.localNow 318 → s.edgeSeen 318 = true →
      s.fencesMet (fun m => m.op == 0xD1 && m.barrier && m.beat == e.tOpen) = true → Answers (.slotStart n) s (fun t =>
        t.slotOf n.toNat = {} ∧ (t.ior 0x2004).getLsbD 3 = true ∧ (∀ m, m ≠ n.toNat → t.slotOf m = s.slotOf m) ∧
        t = { s with net := t.net, io := t.io })) ∧
  (∀ (s : State) (n : BitVec 16) (e : Exch) (chunk pos : Nat),
      let cx := s.ctx s.sched.ctx
      let sl := s.slotOf n.toNat
      let g := nth 1 e.radices 0
      cx.exchOf n.toNat = some e → s.sched.running = true → s.pwr.diesUp = true → s.gsState ≠ 2 → sl.isOpen = true → 1 ≤ e.nlev → 0 < g →
      pos < e.shards → chunk < cx.chunks e → s.exReach (cx.desc e.src) (s.srcTuples cx e chunk pos) false = (s, true) → s.holder e 0 pos = s.rank → valAt sl.accs (chunk, 1, pos) = none →
      (pos % g = 0 → Answers (.collChunkFold n chunk 1 pos) s (fun t => ∃ u : State,
        valAt (u.slotOf n.toNat).accs (chunk, 1, pos) = some (s.level0 cx e chunk pos) ∧ u.sched = s.sched ∧ u.mem = s.mem ∧
        t = u.finishChunk cx e chunk)) ∧
      (∀ acc, pos % g ≠ 0 → s.holder e 0 (pos - 1) = s.rank → valAt sl.accs (chunk, 1, pos - 1) = some acc →
        Answers (.collChunkFold n chunk 1 pos) s (fun t => ∃ u : State, valAt (u.slotOf n.toNat).accs (chunk, 1, pos) =
          some (encodeChunk e.wide (List.zipWith (fun x y => (add32 x y).1) (decodeChunk e.wide (cx.chunkLen e chunk) acc).1
            (decodeChunk e.wide (cx.chunkLen e chunk) (s.level0 cx e chunk pos)).1)) ∧ u.sched = s.sched ∧ u.mem = s.mem ∧
          t = u.finishChunk cx e chunk))) ∧
  (∀ (s : State) (ch : BitVec 1) (l : List Byte) (f : Frame), comes s ch l f 2 → (s.acceptSeq f ch.toNat).2 = true →
      let p := f.payload
      let n := beAt p 0 2
      let cx := s.ctx s.sched.ctx
      (s.sched.running = false ∨ f.epoch ≠ s.sched.base.toNat % 65536 ∨ cx.exchOf n = none ∨ (s.slotOf n).isOpen = false →
        Answers (.collFrameReceive ch l) s (fun t => t.ior 0x2020 = s.ior 0x2020 + 1 ∧ t.net.slots = s.net.slots ∧ t.sched = s.sched ∧
          (s.synResets f = false → t.peer f.src = s.peer f.src) ∧ t.mem = s.mem)) ∧
      (∀ e, cx.exchOf n = some e → s.sched.running = true → f.epoch = s.sched.base.toNat % 65536 → (s.slotOf n).isOpen = true →
        (s.collFits cx e f.src p = true → Nat.testBit (beAt p 8 4) 31 = false → Answers (.collFrameReceive ch l) s (fun t =>
          (t.slotOf n).held = (s.slotOf n).held ++ [{
            chunk := beAt p 4 4, result := false, lev := field (beAt p 8 4) 24 4, pos := field (beAt p 8 4) 0 24
            first := field (beAt p 12 4) 0 5
            blocks := (List.range (field (beAt p 12 4) 16 16)).map (fun i => slice p (16 + blockBytes e.wide * i) (blockBytes e.wide)) }] ∧
          (t.slotOf n).accs = (s.slotOf n).accs ∧ (∀ m, m ≠ n → t.slotOf m = s.slotOf m) ∧ t.sched = s.sched ∧ t.mem = s.mem)) ∧
        (s.collFits cx e f.src p = false → Answers (.collFrameReceive ch l) s (fun t => t.sched.failStep.isSome = true ∧
          (t.ior 0x2004).getLsbD 6 = true ∧ t.net.slots = s.net.slots ∧ t.mem = s.mem))))

/-- For frames taken in sequence: PART data of the partner goes into the partner store as the version of its generation,
other modules' changes nothing of the stores; a Δ for a fragment that this module holds none of yet stands in the parity
store, multiplied by 2^i for Q; an end mark whose count agrees is accepted, one that disagrees sets SEAL_ERR and is not
acknowledged; a pairing frame is noted with its tag. An ACK that covers every frame sent empties the peer's store; one with
SYN 0 while a reset is unconfirmed is counted alone. ACK_TIMER sends the acknowledgement and clears the arrivals; RTO_EXPIRY
counts the periods in a row that passed over a frame against its chimney and keeps every frame; PAIR_RESET renumbers the
store from 0, forgets CUM and MAP, and every frame to the peer that waits then carries SYN. (R285, R290, R291, R292, R310,
R311, R312, R313, R314, R315.) -/
def Obligations.ReliableFramesAndPairStates : Prop :=
  (∀ (s : State) (ch : BitVec 1) (l : List Byte) (f : Frame), comes s ch l f 3 → (s.acceptSeq f ch.toNat).2 = true → isEndMark f = false →
      isPairing f = false →
      let old := (s.ember.mirror.find? (fun x => x.key == partItem f)).getD { key := partItem f }
      let there := fun (m : Memory) => ∀ i, i < (partData f).length → mread m (partOfs f + i) = (partData f).getD i 0
      (s.ember.partner = some f.src → Answers (.partFrame ch l) s (fun t => ∃ q ∈ t.ember.mirror, q.key = partItem f ∧
        (old.next = none → q.body = old.body ∧ ∃ m, q.next = some (partGen f, m) ∧ there m) ∧
        (∀ g v, old.next = some (g, v) → (g = partGen f → q.body = old.body) ∧ (g < partGen f → q.body = v) ∧
          (g ≤ partGen f → ∃ m, q.next = some (partGen f, m) ∧ there m) ∧
          (partGen f < g → q.next = old.next ∧ there q.body)) ∧
        (∀ x, x.key ≠ partItem f → (x ∈ t.ember.mirror ↔ x ∈ s.ember.mirror)) ∧ t.mem = s.mem)) ∧
      (s.ember.partner ≠ some f.src → Answers (.partFrame ch l) s (fun t => t.ember = s.ember ∧ t.mem = s.mem))) ∧
  (∀ (s : State) (ch : BitVec 1) (l : List Byte) (f : Frame) (me : Nat), comes s ch l f 4 → (s.acceptSeq f ch.toNat).2 = true →
      isEndMark f = false → s.member = some me → s.ember.group.contains f.src = true → partFrag f < 8 →
      (s.arrived f).pieces.contains (partItem f * 65536 + partOfs f) = false →
      s.ember.parity.find? (fun x => x.key == partItem f) = none →
      let stands := fun (g : Byte → Byte) (t : State) => ∃ q ∈ t.ember.parity, q.key = partItem f ∧ ∃ m, q.next = some (partGen f, m) ∧
        ∀ i, i < (partData f).length → mread m (partOfs f + i) = g ((partData f).getD i 0)
      (me = partItem f % 10 → Answers (.parFrame ch l) s (stands (gfMul 1))) ∧
      (me ≠ partItem f % 10 → me = (partItem f + 1) % 10 → Answers (.parFrame ch l) s (stands (gfMul (gfPow 2 (partFrag f)))))) ∧
  (∀ (s : State) (ch : BitVec 1) (l : List Byte) (f : Frame), comes s ch l f 3 →
      (s.acceptSeq f ch.toNat).2 = true → isEndMark f = true → s.ember.partner = some f.src →
      let a := s.arrived f
      let n := partItem f % 2 ^ 26
      (a.items = n ∧ a.bytes = n * 65536 → Answers (.endMark ch l) s (fun t => a ∈ t.ember.arrivals ∧
        (t.ior 0x3000).getLsbD 15 = (s.ior 0x3000).getLsbD 15 ∧ t.ember.mirror = s.ember.mirror)) ∧
      (¬ (a.items = n ∧ a.bytes = n * 65536) → Answers (.endMark ch l) s (fun t => (t.ior 0x3000).getLsbD 15 = true ∧
        t = { s.frameIn ch.toNat with io := t.io }))) ∧
  (∀ (s : State) (ch : BitVec 1) (l : List Byte) (f : Frame), comes s ch l f 3 → (s.acceptSeq f ch.toNat).2 = true → isPairing f = true →
      s.pairWaits = false → s.ember.partner ≠ some f.src → s.ember.group.contains f.src = false → Answers (.pairingFrame ch l) s (fun t =>
        t.ember.pairs.find? (fun q => q.1 == f.src) = some (f.src, leAt (partData f) 0 8, leAt (partData f) 8 8 % 2 ^ 20) ∧
        t.ember.partner = s.ember.partner ∧ t.ember.resync = s.ember.resync)) ∧
  (∀ (s : State) (ch : BitVec 1) (l : List Byte) (f : Frame), comes s ch l f 5 →
      let p := s.peer f.src
      ((p.syn = false ∨ f.syn = true) → (∀ x ∈ p.unacked, 0 < x.sends ∧ serialBelow (beAt f.payload 0 4) x.seq = false) →
        Answers (.ackFrame ch l) s (fun t => (t.peer f.src).unacked = [] ∧ (t.peer f.src).syn = (p.syn && !f.syn) ∧
          (t.peer f.src).txSeq = p.txSeq ∧ (t.peer f.src).cum = p.cum ∧ t.mem = s.mem)) ∧
      (p.syn = true → f.syn = false → Answers (.ackFrame ch l) s (fun t => t = s.frameIn ch.toNat))) ∧
  (∀ (s : State) (d : BitVec 20), s.portsUp = true → 0 < (s.peer d.toNat).arrivals → (s.peer d.toNat).arrCh ∈ s.chimneysTo d.toNat →
      Answers (.ackTimer d) s (fun t => t.peer d.toNat = { s.peer d.toNat with arrivals := 0 } ∧ (∃ f : Frame,
        frameOut s t (s.peer d.toNat).arrCh f ∧ f.typ = 5 ∧
        f.dst = d.toNat ∧ f.syn = (s.peer d.toNat).allSyn ∧
        f.payload = beBytes 4 (s.peer d.toNat).cum ++ beBytes 8 ((s.peer d.toNat).map % 2 ^ 64)) ∧
        (∀ e, e ≠ d.toNat → t.peer e = s.peer e))) ∧
  (∀ (s : State) (d : BitVec 20) (seq : W32) (x : TxFrame), s.portsUp = true →
      (s.peer d.toNat).unacked.find? (fun y => y.seq == seq.toNat && y.sent) = some x → x.typ = 2 → Answers (.rtoExpiry d seq) s (fun t =>
        tget 0 (t.peer d.toNat).missed x.chimney = max (tget 0 (s.peer d.toNat).missed x.chimney) (x.late + 1) ∧
        (t.peer d.toNat).unacked.map (fun y => (y.seq, y.payload)) = (s.peer d.toNat).unacked.map (fun y => (y.seq, y.payload)) ∧
        (t.peer d.toNat).cum = (s.peer d.toNat).cum ∧ t.mem = s.mem)) ∧
  (∀ (s : State) (d : BitVec 20), thas s.net.peers d.toNat = true → Answers (.pairReset d) s (fun t =>
      let p := s.peer d.toNat
      let q := t.peer d.toNat
      q.cum = 0xFFFFFFFF ∧ q.map = 0 ∧ q.syn = true ∧ q.txSeq = p.unacked.length % 2 ^ 32 ∧
      q.unacked.map (fun y => y.seq) = List.range p.unacked.length ∧
      q.unacked.map (fun y => y.payload) = p.unacked.map (fun y => y.payload) ∧ t.ior 0x2030 = s.ior 0x2030 + 1 ∧
      (∀ x ∈ t.net.waitOut, x.2.dst = d.toNat → x.2.syn = true) ∧ (∀ e, e ≠ d.toNat → t.peer e = s.peer e) ∧ t.mem = s.mem))

namespace Sys2Proof.Machine

/-- An IP packet that is no Uadal frame put on its chimney: it is the next thing out, or it waits until it may leave (R266, R270). -/
def packetOut (s : State) (kind k path : Nat) (o : Out) (t : State) : Prop :=
  (s.mayPass path kind = true → countsOnly s t ∧ t.out[s.out.length]? = some o) ∧
  (s.mayPass path kind = false → t.net.ipOut = s.net.ipOut ++ [(kind, k, o)] ∧
    t = { s with net := { s.net with ipOut := t.net.ipOut }, obs := t.obs, bar0 := t.bar0, ctl := t.ctl, out := t.out })

end Sys2Proof.Machine

/-- A chimney that fails is marked FAILED and DEGRADED, carries no traffic, is counted and makes a CORR report; it returns
with all its links up. A link that loses lock leaves the PCS bits with PCS_FAULT; one that comes up joins them and opens a
chimney that is not failed. A lost path is kept, counted and makes a NET report, until it is tried again; a dead peer makes a
NET report and its pair state is reset. ARP and echo requests for an own address are answered; the gateway's reply gives its
MAC address; PAUSE is counted and otherwise ignored; PFC on an enabled priority pauses it, or resumes it and what waited
leaves; a congestion notification lowers the rate, and an ECN-marked packet is answered with one; a RoCEv2 acknowledgement
ends a write, another NAK leaves the queue pair in error, and a sequence error has every outstanding message sent again.
(R266, R267, R269, R270, R292, R293, R294, R295.) -/
def Obligations.ChimneysPathsAndEthernet : Prop :=
  (∀ (s : State) (c : BitVec 1),
      let p := c.toNat
      let failed := (s.ior (chReg p)).getLsbD 13
      (s.linksAlive = true → failed = false → Answers (.chimneyFailure c) s (fun t => (t.ior (chReg p)).getLsbD 13 = true ∧
        (t.ior (chReg p)).getLsbD 14 = true ∧ t.chActive p = false ∧ (t.ior 0x2004).getLsbD 2 = true ∧ t.ior 0x2024 = s.ior 0x2024 + 1 ∧ t.bar 0x20044 = s.bar 0x20044 + 1 ∧
        t.mem = s.mem ∧ t.tiles = s.tiles)) ∧
      (s.linksAlive = true → failed = true → Answers (.chimneyFailure c) s (fun t => t = { s with io := t.io } ∧
        (t.ior (chReg p)).getLsbD 14 = true ∧ t.ior 0x2024 = s.ior 0x2024)) ∧
      (failed = true → s.allLinksUp p = true → Answers (.chimneyReturn c) s (fun t => (t.ior (chReg p)).getLsbD 13 = false ∧
        t.chActive p = true ∧ t.mem = s.mem ∧ t.tiles = s.tiles)) ∧
      (∀ link : BitVec 2, s.linksAlive = true → s.linkConfigured p link.toNat = true →
        Answers (.linkDown c link) s (fun t => (t.ior (chReg p)).getLsbD link.toNat = false ∧ (t.ior (chReg p)).getLsbD 14 = true ∧
          (∀ i, i < 4 → i ≠ link.toNat → (t.ior (chReg p)).getLsbD i = (s.ior (chReg p)).getLsbD i)) ∧
        Answers (.linkUp c link) s (fun t => (t.ior (chReg p)).getLsbD link.toNat = true ∧ (failed = false → t.chActive p = true) ∧
          (∀ i, i < 4 → i ≠ link.toNat → (t.ior (chReg p)).getLsbD i = (s.ior (chReg p)).getLsbD i)))) ∧
  (∀ (s : State) (d : BitVec 20) (c : BitVec 1),
      let p := s.peer d.toNat
      (s.chActive c.toNat = true → 2 ≤ tget 0 p.missed c.toNat → p.pathloss = none → Answers (.pathloss d c) s (fun t =>
        (t.peer d.toNat).pathloss = some c.toNat ∧ (t.ior 0x2004).getLsbD 7 = true ∧ t.ior 0x2028 = s.ior 0x2028 + 1 ∧
        t.bar 0x20054 = s.bar 0x20054 + 1)) ∧
      (p.pathloss ≠ none → Answers (.pathlossRetry d) s (fun t => (t.peer d.toNat).pathloss = none ∧ (t.peer d.toNat).missed = [] ∧
        (t.peer d.toNat).cum = p.cum)) ∧
      (p.unacked ≠ [] → Answers (.peerDead d) s (fun t => (t.peer d.toNat).cum = 0xFFFFFFFF ∧ (t.peer d.toNat).syn = true ∧
        (t.peer d.toNat).unacked.map (fun y => y.payload) = p.unacked.map (fun y => y.payload) ∧ t.ior 0x2030 = s.ior 0x2030 + 1 ∧
        t.bar 0x20054 = s.bar 0x20054 + 1))) ∧
  (∀ (s : State) (c : BitVec 1) (v6 : Bool) (a : BitVec 128),
      (s.asksMe c.toNat v6 a.toNat = true →
        Answers (.arpRequest c v6 a) s (fun t => countsOnly s t ∧ t.out[(s.frameIn c.toNat).out.length]? =
          some (.ether c.toNat (if v6 then 1 else 0) (beBytes (if v6 then 16 else 4) a.toNat))) ∧
        ∀ data, Answers (.icmpEchoRequest c v6 a data) s (packetOut (s.frameIn c.toNat) 2 c.toNat c.toNat
          (.ether c.toNat (if v6 then 3 else 2) data))) ∧
      (s.asksMe c.toNat v6 a.toNat = false → Answers (.arpRequest c v6 a) s (fun t => t = s.arrives c.toNat) ∧
        ∀ data, Answers (.icmpEchoRequest c v6 a data) s (fun t => t = s.arrives c.toNat)) ∧
      (∀ mac : BitVec 48, s.portsUp = true → v6 = s.ip6 → a.toNat = (if v6 then s.gateway c.toNat else s.gateway c.toNat % 2 ^ 32) →
        Answers (.arpReply c v6 a mac) s (fun t => tfind t.net.macs c.toNat = some mac.toNat ∧
          (∀ q ∈ t.net.waitOut, q ∈ s.net.waitOut ∧ t.mayLeave q.1 q.2 = false) ∧
          (∀ q ∈ t.net.ipOut, q ∈ s.net.ipOut ∧ t.mayPass (t.ipPath q.1 q.2.1) q.1 = false) ∧
          (s.net.waitOut = [] → s.net.ipOut = [] → t.out = (s.frameIn c.toNat).out) ∧
          t = { s with obs := t.obs, bar0 := t.bar0, ctl := t.ctl, out := t.out, net := { s.net with macs := t.net.macs, waitOut := t.net.waitOut, ipOut := t.net.ipOut } }))) ∧
  (∀ (s : State) (c : BitVec 1), s.linksAlive = true → Answers (.pauseFrame c) s (fun t => t.ior 0x201C = s.ior 0x201C + 1 ∧
      (t.ior (chReg c.toNat)).getLsbD 15 = true ∧ t = { s.frameIn c.toNat with io := t.io })) ∧
  (∀ (s : State) (c : BitVec 1) (k : BitVec 3) (on : Bool), s.portsUp = true → Nat.testBit (s.setting 0x0142) k.toNat = true →
      Answers (.pfcFrame c k on) s (fun t => ((c.toNat, k.toNat) ∈ t.net.paused ↔ on = true) ∧
        (∀ q, q ≠ (c.toNat, k.toNat) → (q ∈ t.net.paused ↔ q ∈ s.net.paused)) ∧ (s.net.waitOut = [] → s.net.ipOut = [] → t.out = (s.frameIn c.toNat).out) ∧
        (∀ q ∈ t.net.waitOut, q ∈ s.net.waitOut ∧ t.mayLeave q.1 q.2 = false) ∧
        (∀ q ∈ t.net.ipOut, q ∈ s.net.ipOut ∧ t.mayPass (t.ipPath q.1 q.2.1) q.1 = false) ∧
        t = { s with obs := t.obs, bar0 := t.bar0, ctl := t.ctl, out := t.out, net := { s.net with paused := t.net.paused, waitOut := t.net.waitOut, ipOut := t.net.ipOut } })) ∧
  (∀ (s : State) (q : BitVec 6), s.portsUp = true →
      let v := s.qp q.toNat
      let path := s.qpPath q.toNat
      Answers (.congestionNotification q true) s (fun t => (t.qp q.toNat).rate < max 1 v.rate ∧
        (t.qp q.toNat).sent = v.sent ∧ (∀ r, r ≠ q.toNat → t.qp r = s.qp r)) ∧
      Answers (.congestionNotification q false) s
        (packetOut (s.frameIn path) 1 q.toNat path (.ether path 4 (leBytes 1 q.toNat))) ∧
      (v.sent = [] → ∀ x, Answers (.roceResponse q x) s (fun t => t = s.frameIn path)) ∧
      (∀ m rest, v.sent = m :: rest →
        Answers (.roceResponse q .ack) s (fun t =>
          t.ember = (if v.stale = 0 then { s.ember with drainLeft := s.ember.drainLeft - 1 } else s.ember) ∧
          t.qp q.toNat = { v with sent := rest, stale := v.stale - 1 } ∧ (∀ r, r ≠ q.toNat → t.qp r = s.qp r)) ∧
        Answers (.roceResponse q .nak) s (fun t => t.qp q.toNat = { v with sent := rest, stale := v.stale - 1, err := true } ∧
          (t.ior 0x3000).getLsbD 11 = true ∧ t.ember = s.ember ∧ (∀ r, r ≠ q.toNat → t.qp r = s.qp r)) ∧
        Answers (.roceResponse q .nakSequence) s (fun t => t.net.qps = s.net.qps ∧ t.ember = s.ember ∧ t.mem = s.mem ∧
          (s.mayPass path 0 = true → ∀ d p k n a l, .rdma d p k n a l ∈ v.sent → .rdma d p k n a l ∈ t.out) ∧
          (s.mayPass path 0 = false →
            t.net.ipOut = s.net.ipOut.filter (fun p => !(p.1 == 0 && p.2.1 == q.toNat)) ++ v.sent.map (fun x => (0, q.toNat, x))))))

/-- DELTA_PAGE_SEND takes the next page off the generation that is being sent, and its last page sends the end marks. A
cartridge write that is acknowledged advances the generation on it: a page (one in the cartridge's buffer first), the stream
state, and last the commit record with HEAD and GEN_CART, the records before it kept; with a write lost at a feed loss
nothing more is written. A generation that may seal is sealed and GEN_SEALED shows it, and where it is one to be drained a
drain in progress is abandoned; one that may not stays. DRAIN of a sealed generation that fits sends its messages on its
queue pairs, one that does not sets DRAIN_ERR; DRAIN_COMPLETE sends the immediate. An inserted cartridge is read: its state
and life record show. An eject begins EJECTING and waits; CART_READY releases the bay and answers it. A removal in READY
empties the bay; another is a surprise, counted and reported, and so is an opened latch. A short press ejects; a held press
asks for removal or withdraws the request. (R208, R303, R306, R316, R317, R320, R321, R331, R351, R352, R353.) -/
def Obligations.EmberSendsSealsAndTheBay : Prop :=
  (∀ (s : State) (c : BitVec 2) (r : GenRec) (p : Nat), s.sending c.toNat = some r → r.todo.head? = some p → s.gsState ≠ 2 →
      Answers (.deltaPageSend c p) s (fun t => (∃ q ∈ t.ember.gens, q.ctx = r.ctx ∧ q.gen = r.gen ∧ q.todo = r.todo.filter (fun x => x != p) ∧
        q.endSent = (r.endSent || (r.todo.filter (fun x => x != p)).isEmpty)) ∧ t.mem = s.mem ∧ t.ctxs = s.ctxs)) ∧
  (∀ (s : State) (k : Cartridge) (r : GenRec), s.ember.cart = some k → s.cartUsable = true →
      s.ember.gens.find? (fun q => q.cartOn && !q.cartDone) = some r →
      (∀ x rest, r.cartBuf = x :: rest → Answers (.cartridgeWriteAck 1) s (fun t => { r with
          cartBuf := rest, cartPages := r.cartPages ++ [x] } ∈ t.ember.gens ∧
        t.ember.cart = some { k with bytesWritten := k.bytesWritten + 65544 } ∧ t.mem = s.mem)) ∧
      (∀ p rest, r.cartBuf = [] → r.cartTodo = p :: rest → Answers (.cartridgeWriteAck 1) s (fun t => { r with
          cartTodo := rest, cartPages := r.cartPages ++ [(pageKey r.ctx p, mreadN (s.valueAt r.ctx r.gen p) 0 65536)] } ∈ t.ember.gens ∧
        t.ember.cart = some { k with bytesWritten := k.bytesWritten + 65544 } ∧ t.mem = s.mem)) ∧
      (r.cartBuf = [] → r.cartTodo = [] → r.cartTail = 3 → Answers (.cartridgeWriteAck 1) s (fun t => t = s)) ∧
      (r.cartBuf = [] → r.cartTodo = [] → r.cartTail = 2 → Answers (.cartridgeWriteAck 1) s (fun t => { r with cartTail := 1 } ∈ t.ember.gens ∧
        t.ember.cart = some { k with bytesWritten := k.bytesWritten + (69 * r.streams.length + 65544 * (r.banks.length * Config.imagePages)) } ∧ t.mem = s.mem)) ∧
      (r.cartBuf = [] → r.cartTodo = [] → r.cartTail < 2 → Answers (.cartridgeWriteAck 1) s (fun t =>
        { r with cartTail := 0, cartDone := true } ∈ t.ember.gens ∧ t.ior 0x3010 = BitVec.ofNat 32 r.gen ∧
        (∃ k2 q, t.ember.cart = some k2 ∧ k2.log.length = k.log.length + 1 ∧ k2.log.getLast? = some q ∧ k2.head = k.log.length + 1 ∧
          (k2.log.take k.log.length).map (fun x => { x with ofs := 0 }) = k.log.map (fun x => { x with ofs := 0 }) ∧ q.gen = BitVec.ofNat 32 r.gen ∧
          q.cutStep = BitVec.ofNat 48 r.cutStep ∧ q.seed = BitVec.ofNat 64 r.seed ∧ q.pages = r.cartPages ∧ q.crcOk = true ∧
          k.bytesWritten + 80 ≤ k2.bytesWritten) ∧ t.mem = s.mem))) ∧
  (∀ (s : State) (r : GenRec), s.unsealed s.sched.ctx = some r →
      (s.canSeal r = true → s.ember.drain = none → Answers .generationSeal s (fun t => { r with isSealed := true } ∈ t.ember.gens ∧
        t.ior 0x3008 = BitVec.ofNat 32 r.gen ∧ t = { s with ember := { s.ember with gens := t.ember.gens }, io := t.io })) ∧
      (s.canSeal r = true → s.ember.drain.isSome = true → polDrain (s.ctx r.ctx).policy ≠ 0 → r.gen % polDrain (s.ctx r.ctx).policy = 0 →
        Answers .generationSeal s (fun t => t.ember.drain = none ∧ (t.ior 0x3000).getLsbD 11 = true ∧
          t.ior 0x3030 = s.ior 0x3030 + 1 ∧ t.ior 0x3008 = BitVec.ofNat 32 r.gen)) ∧
      (s.canSeal r = false → Answers .generationSeal s (fun t => t = s))) ∧
  (∀ (s : State) (r : GenRec),
      let p := (s.ctx s.sched.ctx).policy
      let pages := (s.protectedPages r.ctx).length + imagePageCount r
      let room := leAt p (polDrainAt p + 0x20) 8
      (s.ember.gens.filter (fun q => q.ctx == s.sched.ctx && q.isSealed)).getLast? = some r → polDrain p ≠ 0 → r.gen % polDrain p = 0 →
      s.ember.drain = none →
      (65544 * pages + 2 ^ 20 ≤ room → Answers .drain s (fun t => t.ember.drain = some (s.sched.ctx, r.gen) ∧ t.ember.drainLeft = pages + 3 ∧
        t.mem = s.mem ∧ (∀ n, leAt p (polDrainAt p + 0x17) 1 = n → 0 < n → (∀ q, q < n → (s.qp q).err = false) →
          ((List.range n).map (fun q => (t.qp q).sent.length)).sum = ((List.range n).map (fun q => (s.qp q).sent.length)).sum + pages + 3))) ∧
      (room < 65544 * pages + 2 ^ 20 → Answers .drain s (fun t => t.ember.drain = none ∧ (t.ior 0x3000).getLsbD 11 = true ∧
        t.ior 0x3030 = s.ior 0x3030 + 1 ∧ t.mem = s.mem))) ∧
  (∀ (s : State) (d : Nat × Nat), s.ember.drain = some d → s.ember.drainLeft = 0 → Answers .drainComplete s (fun t =>
      t.ember.drain = none ∧ t.ember.drainPins = none ∧
      let p := (s.ctx d.1).policy
      let o := polDrainAt p
      ∀ q, s.qpFor (leAt p (o + 0x17) 1) 0 = some q →
        let m : Out := .rdma (leAt p o 16) (leAt p (o + 0x14) 3 + q) (leAt p (o + 0x10) 4) 1 0 (leBytes 4 d.2)
        m ∈ (t.qp q).sent ∧ (s.mayPass (s.qpPath q) 0 = true → m ∈ t.out) ∧
        (s.mayPass (s.qpPath q) 0 = false → (0, q, m) ∈ t.net.ipOut))) ∧
  (∀ (s : State) (k : Cartridge),
      (s.ember.cart = none → Answers (.cartInsert k) s (fun t =>
        t = { s with ember := { s.ember with cart := some k, cartRead := false, cartGone := false, adoptDue := none } })) ∧
      (s.ember.cart = some k →
        (s.ember.cartRead = false → 3 ≤ s.pwr.stage → Answers .cartHeaderRead s (fun t => t.ember.cartRead = true ∧ t.ember.cartBase = true ∧
          t.ember.cartState = headerState k ∧ t.ember.cart = some k ∧
          (∀ i, i < 8 → t.bar (0x50020 + 4 * i) = BitVec.ofNat 32 (leAt (lifeBytes (some k)) (4 * i) 4)))) ∧
        (∀ rate spare, Answers (.cartridgeLifeUpdate rate spare) s (fun t =>
          t.ember.cart = some { k with rate7d := rate, spareBp := spare } ∧ (∀ i, i < 8 → t.bar (0x50020 + 4 * i) =
            BitVec.ofNat 32 (leAt (lifeBytes (some { k with rate7d := rate, spareBp := spare })) (4 * i) 4)) ∧ t.mem = s.mem)) ∧
        (s.ember.cartState = 6 → Answers .cartRemoved s (fun t => t.ember.cart = none ∧ t.ember.cartState = 0 ∧ t.ior 0x3010 = 0 ∧
          t.ior 0x3028 = s.ior 0x3028)) ∧
        (s.ember.cartState ≠ 6 → 8 ≤ s.pwr.stage → s.ember.cartGone = false →
          Answers .surpriseRemoval s (fun t => t.ember.cart = none ∧ t.ember.cartState = 0 ∧ t.ior 0x3028 = s.ior 0x3028 + 1 ∧
            (t.ior 0x3000).getLsbD 14 = true ∧ t.bar 0x2004C = s.bar 0x2004C + 1) ∧
          (s.flt.latchOpen = false → Answers .latchOpen s (fun t => t.flt.latchOpen = true ∧ t.ember.cartGone = true ∧
            t.ember.cart = some k ∧ t.ior 0x3028 = s.ior 0x3028 + 1 ∧ t.bar 0x2004C = s.bar 0x2004C + 1))))) ∧
  (∀ s : State, s.ember.cartGone = true → Answers .latchClose s (fun t =>
      t = { s with flt := { s.flt with latchOpen := false }, ember := { s.ember with cartRead := false, cartGone := false } })) ∧
  (∀ (s : State) (k : Slot),
      (s.cartHeld = false → Answers (.cartEject k) s (fun t => t.outcome k = some { status := 0x0050 } ∧ t.ember = s.ember)) ∧
      (s.cartHeld = true → s.drainReads = false → s.ember.cartState ≠ 5 → s.ember.cartState ≠ 6 → Answers (.cartEject k) s (fun t =>
        t.ember.cartState = 5 ∧ t.ember.cart = s.ember.cart ∧ getSlot t.ctl.waiting k = some (.cartEject k) ∧ t.ctl.results = s.ctl.results)) ∧
      (s.ember.cartState = 5 → getSlot s.ctl.waiting k = some (.cartEject k) → Answers .cartReady s (fun t => t.ember.cartState = 6 ∧
        t.outcome k = some { status := 0 } ∧ .bayReleased ∈ t.out))) ∧
  (∀ s : State, 8 ≤ s.pwr.stage →
      (s.cartHeld = true → s.ember.cartState ≠ 5 → s.ember.cartState ≠ 6 → s.ember.ejectWait = false → s.drainReads = false →
        Answers .attnPress s (fun t => t.ember.cartState = 5 ∧ t.bar 0x50004 = s.bar 0x50004 + 1 ∧ t.flt.attnDown = false)) ∧
      (s.barBit 0x20000 0 = false → Answers .attnHold s (fun t => t.barBit 0x20000 0 = true ∧ t.out.getLast? = some .removalRequest ∧
        t.flt.attnDown = true)) ∧
      (s.barBit 0x20000 0 = true → Answers .attnHold s (fun t => t.barBit 0x20000 0 = false ∧ t.barBit 0x20000 1 = false ∧
        t.flt.attnDown = true)))

/-- A junction temperature that reaches 95 °C and a coolant that leaves its range are each reported once. A thermal shutdown
ends the job, powers the compute dies down with their state and tier 1 lost and tier 2 kept, and makes a POWER report, which
an entry while the dies are down makes too; the third within 24 h is a MODULE fault. A die restart waits for good conditions;
KINDLING_SELF_TEST in it gives the slots and channels that failed stage 6 (log 68); when it completes, the dies are up with
their registers and counters at reset and the built-in tables, a slot that failed its test is SUSPECT, and a tier 1 channel
that failed training is out of service. A marginal feed is reported once; a lost one takes the dies and the links down; a
returned one ends the hold, and a module that is powering down or has not begun to kindle follows the feed at 47 V. At the
end of the holdup the module is dark unless the feed is back, and keeps what the flash keeps. (R409, R410, R411, R412, R416,
R417, R418.) -/
def Obligations.FeedThermalAndDieRestart : Prop :=
  (∀ (s : State) (tj : Nat),
      (s.pwr.tj < 95 → 95 ≤ tj → 1 ≤ s.pwr.stage → Answers (.tjHigh tj) s (fun t => t.pwr = { s.pwr with tj := tj } ∧
        t.bar 0x20074 = s.bar 0x20074 + 1 ∧ t.tiles = s.tiles ∧ t.sched = s.sched)) ∧
      (95 ≤ s.pwr.tj ∨ tj < 95 → Answers (.tjHigh tj) s (fun t => t = { s with pwr := { s.pwr with tj := tj } }))) ∧
  (∀ s : State,
      (s.pwr.coolHold = false → 1 ≤ s.pwr.stage → Answers (.coolantOutOfRange true) s (fun t => t.pwr = { s.pwr with coolHold := true } ∧
        t.bar 0x20074 = s.bar 0x20074 + 1 ∧ t.tiles = s.tiles)) ∧
      Answers (.coolantOutOfRange false) s (fun t => t = { s with pwr := { s.pwr with coolHold := false } })) ∧
  (∀ (s : State) (cause : ShutdownCause), s.pwr.stage ≠ 0 → s.pwr.diesUp = false → s.pwr.restarting = false →
      Answers (.thermalShutdown cause) s (fun t => t.bar 0x20074 = s.bar 0x20074 + 1 ∧ t.pwr = s.pwr ∧ t.sched = s.sched ∧ t.mem = s.mem)) ∧
  (∀ (s : State) (cause : ShutdownCause), s.pwr.stage ≠ 0 → s.pwr.diesUp = true ∨ s.pwr.restarting = true →
      Answers (.thermalShutdown cause) s (fun t => t.pwr.diesUp = false ∧ t.pwr.restarting = false ∧
      t.tiles = [] ∧ t.mem.tier1 = [] ∧ t.mem.pools = [] ∧ t.mem.tier2 = s.mem.tier2 ∧ t.sched.running = false ∧
      t.bar 0x20074 = s.bar 0x20074 + 1 ∧ t.pwr.noRestart = decide (3 ≤ t.pwr.shutTicks.length) ∧ s.clk.ticks ∈ t.pwr.shutTicks ∧
      (3 ≤ t.pwr.shutTicks.length → t.modFlt = true) ∧ t.ember.cart.isSome = s.ember.cart.isSome)) ∧
  (∀ s : State,
      (s.pwr.diesUp = false → s.pwr.stage = 8 → s.pwr.lost = false → s.pwr.noRestart = false → s.pwr.tj < 85 → s.pwr.coolHold = false →
        Answers .dieRestart s (fun t => t = { s with pwr := { s.pwr with restarting := true, restartUnits := [], restartTier1 := [] } })) ∧
      (s.pwr.restarting = true → s.pwr.stage = 8 → s.pwr.lost = false → ∀ us a b, Answers (.kindlingSelfTest us a b) s (fun t =>
        t = { s with pwr := { s.pwr with restartUnits := us, restartTier1 := a } })) ∧
      (∀ failed : List Nat, s.pwr.restarting = true → s.pwr.lost = false → s.pwr.restartUnits = failed → s.pwr.restartTier1 = [] →
          Answers .dieRestartComplete s (fun t => t.pwr.diesUp = true ∧
        (∀ u ∈ failed, u < 272 → (t.tile u).testOk = false ∧ (t.tile u).suspect = true ∧ u ∈ t.flt.suspects) ∧
        (∀ q ∈ t.obs.counters, q ∈ s.obs.counters ∧ onDies (q.1 / 8) = false) ∧ t.pwr.restarting = false ∧ t.sfu = { images := s.sfu.images, bank0 := builtinBank } ∧
        (∀ u, u < 272 → (t.tile u).vregs = [] ∧ (t.tile u).x = [] ∧ (t.tile u).scratch = [] ∧ ((t.tile u).reg 0x0300).getLsbD 12 = false) ∧
        t.mem.tier2 = s.mem.tier2 ∧ t.ctxs = s.ctxs)) ∧
      (∀ c, c < 256 → s.pwr.restarting = true → s.pwr.lost = false → s.pwr.restartUnits = [] → s.pwr.restartTier1 = [c] → Answers .dieRestartComplete s (fun t =>
        t.pwr.diesUp = true ∧ c ∈ t.mem.dead1 ∧ (∀ u, u < 272 → ((t.tile u).reg 0x0300).getLsbD 12 = false)))) ∧
  (∀ (s : State) (mv : Nat),
      (48000 ≤ mv → mv ≤ 60000 → s.pwr.stage ≠ 0 → s.pwr.lost = false → Answers (.feedOutOfRange mv) s (fun t => t = s)) ∧
      (s.pwr.lost = true → Answers (.feedOutOfRange mv) s (fun t =>
          t = { s with pwr := { s.pwr with feedBack := decide (47000 ≤ mv ∧ mv ≤ 62000) } }) ∧
        Answers .feedLoss s (fun t => t = { s with pwr := { s.pwr with feedBack := false }, free := t.free })) ∧
      (s.pwr.lost = false → s.pwr.stage = 0 → Answers (.feedOutOfRange mv) s (fun t =>
          t = { s with pwr := { s.pwr with dark := !decide (47000 ≤ mv ∧ mv ≤ 62000) } }) ∧
        Answers .feedLoss s (fun t => t = { s with pwr := { s.pwr with dark := true }, free := t.free })) ∧
      ((44000 ≤ mv ∧ mv < 48000) ∨ (60000 < mv ∧ mv ≤ 62000) → s.pwr.feedHold = false → s.pwr.stage ≠ 0 → s.pwr.lost = false →
        Answers (.feedOutOfRange mv) s (fun t => t.pwr = { s.pwr with feedHold := true } ∧ t.bar 0x20074 = s.bar 0x20074 + 1 ∧
          t.tiles = s.tiles ∧ t.sched = s.sched)) ∧
      (s.pwr.lost = false → s.pwr.dark = false → s.pwr.stage ≠ 0 →
        let gone := fun (t : State) => t.pwr.lost = true ∧ t.pwr.diesUp = false ∧ t.ctl.linkUp = false ∧ t.tiles = [] ∧
          t.mem.tier2 = s.mem.tier2 ∧ t.mem.tier1 = [] ∧ t.sched.running = false ∧ t.bar 0x20074 = s.bar 0x20074 + 1
        Answers .feedLoss s gone ∧ (mv < 44000 ∨ 62000 < mv → Answers (.feedOutOfRange mv) s gone)) ∧
      (s.pwr.lost = true → Answers (.feedReturn mv) s (fun t => t = { s with pwr := { s.pwr with feedBack := decide (47000 ≤ mv) } })) ∧
      (s.pwr.lost = false → s.pwr.dark = true → Answers (.feedReturn mv) s (fun t =>
        t = { s with pwr := { s.pwr with dark := decide (mv < 47000) } })) ∧
      (s.pwr.lost = false → s.pwr.dark = false → 48000 ≤ mv → mv ≤ 60000 → Answers (.feedReturn mv) s (fun t =>
        t = { s with pwr := { s.pwr with feedHold := false } }))) ∧
  (∀ s : State, s.pwr.lost = true → Answers .holdupEnd s (fun t => t.pwr.stage = 0 ∧ t.pwr.dark = !s.pwr.feedBack ∧ t.pwr.lost = false ∧
      t.tiles = [] ∧ t.ctxs = [] ∧ t.mem.tier1 = [] ∧ t.mem.tier2 = [] ∧ t.ctl.stored = s.ctl.stored ∧ t.ctl.pers = s.ctl.pers ∧
      t.flt.suspects = s.flt.suspects ∧ t.flt.slotA = s.flt.slotA ∧ t.flt.slotB = s.flt.slotB ∧ t.mem.retired = s.mem.retired ∧
      (s.ember.cartGone = false → t.ember.cart = s.ember.cart) ∧ t.pending = s.pending))

namespace Sys2Proof.Machine

/-- The next stage of kindling is n, on a module whose feed stands (R409, R421). -/
def kindles (s : State) (n : Nat) : Prop := s.pwr.stage + 1 = n ∧ s.pwr.lost = false ∧ s.pwr.dark = false ∧ s.pwr.stuckStage3 = false

end Sys2Proof.Machine

/-- A stage of kindling runs only after the one before it, on a module with a feed: stage 1 samples GA; 2 starts the beat
unit at beat 0; 3 starts the image of the boot slot, or the other with ROLLBACK where that one is not good, loads the stored
settings and moves every counter space ahead of its stored value, or, with no good image, goes no further; 4 trains the PCIe
link; 5 powers the compute dies; 6 marks the slots that fail their test; 7 loads the built-in tables and maps each logical
tile to its own slot where that is sound; 8 is ready, and adopts a FOREIGN cartridge that a command before it chose. Out of
turn, and without a feed, no stage changes anything; in a die restart KINDLING_SELF_TEST belongs to the restart (log 68).
(R111, R366, R405, R409, R419, R420, R421, R424.) -/
def Obligations.KindlingStages : Prop :=
  (∀ (s : State) (ga : BitVec 4), kindles s 1 → Answers (.kindling ga) s (fun t => t = { s with pwr := { s.pwr with ga := ga, stage := 1 } })) ∧
  (∀ s : State, kindles s 2 → Answers .kindlingCrystal s (fun t => t.clk = { s.clk with
        started := true, ticks := 0, beatNow := 0, phase := 0, src := 2, locals := [], tokens := [], levels := [] } ∧
      t.barBit 0x40020 11 = true ∧ t.pwr = { s.pwr with stage := 2 } ∧ t = { s with clk := t.clk, bar0 := t.bar0, pwr := t.pwr })) ∧
  (∀ (s : State) (okA okB b : Bool), kindles s 3 →
      let good := fun (x : Bool) => (if x then okB else okA) && (s.slotVersion x).isSome
      (s.barBit 0x20020 1 = b → good b = true → Answers (.kindlingMantel okA okB) s (fun t =>
        t.pwr = { s.pwr with stage := 3 } ∧ t.barBit 0x20020 0 = b ∧ t.barBit 0x20020 1 = b ∧ t.ctl.settings = s.ctl.stored ∧
        (∀ x, x < 17 → tget 0 t.ctl.last x = s.persOf x + 4096) ∧ t.tiles = s.tiles ∧ t.mem = s.mem)) ∧
      (s.barBit 0x20020 1 = b → good b = false → good (!b) = true → Answers (.kindlingMantel okA okB) s (fun t =>
        t.pwr = { s.pwr with stage := 3, mgmtDue := true } ∧ t.barBit 0x20020 0 = !b ∧ t.barBit 0x20020 1 = !b ∧
        t.barBit 0x20020 4 = true ∧ t.ctl.settings = s.ctl.stored ∧
        (∀ x, x < 17 → tget 0 t.ctl.last x = s.persOf x + 4096) ∧ t.tiles = s.tiles ∧ t.mem = s.mem)) ∧
      (good false = false → good true = false → Answers (.kindlingMantel okA okB) s (fun t =>
        t.pwr = { s.pwr with stuckStage3 := true } ∧ t = { s with pwr := t.pwr, out := t.out }))) ∧
  (∀ s : State, kindles s 4 → Answers .kindlingPcie s (fun t =>
      t = { s with ctl := { s.ctl with linkUp := true }, pwr := { s.pwr with stage := 4 } })) ∧
  (∀ s : State, kindles s 5 → Answers .kindlingPowerUp s (fun t => t.pwr = { s.pwr with diesUp := true, stage := 5 } ∧
      t.clk.tileMhz = s.setting 0x0033 ∧ (∀ u, (t.tile u).vregs = [] ∧ (t.tile u).x = [] ∧
        ((t.tile u).suspect = true ↔ u ∈ s.flt.suspects)) ∧ t.mem = s.mem)) ∧
  (∀ (s : State) (failed : List Nat), kindles s 6 → Answers (.kindlingSelfTest failed [] []) s (fun t => t.pwr = { s.pwr with stage := 6 } ∧
      (∀ u, u < 272 → ((t.tile u).reg 0x0300).getLsbD 12 = false ∧
        (u ∈ failed → (t.tile u).testOk = false ∧ (t.tile u).suspect = true ∧ u ∈ t.flt.suspects) ∧
        (u ∉ failed → (t.tile u).testOk = (s.tile u).testOk ∧ (t.tile u).suspect = (s.tile u).suspect)) ∧ t.mem = s.mem)) ∧
  (∀ s : State, kindles s 7 → s.ember.cart = none → Answers .kindlingLoad s (fun t => t.pwr = { s.pwr with stage := 7 } ∧
      t.sfu = { images := s.sfu.images, bank0 := builtinBank } ∧ (∀ x, x < 256 →
        (s.tile (68 * (x / 64) + x % 64)).suspect = false → (s.tile (68 * (x / 64) + x % 64)).testOk = true →
        t.unitOf x = 68 * (x / 64) + x % 64) ∧ t.tiles = s.tiles ∧
      t.mem = { s.mem with pmBase := pmBases.1, pmShd := pmBases.2 })) ∧
  (∀ s : State, kindles s 8 → s.pwr.mgmtDue = false → s.clk.pwrLow = false →
      (s.ember.adoptDue = none → Answers .kindlingReady s (fun t => t = { s with pwr := { s.pwr with stage := 8 } })) ∧
      (∀ d, s.ember.adoptDue = some d → s.foreignCart = true → Answers .kindlingReady s (fun t => t.pwr.stage = 8 ∧
        t.ember.adoptDue = none ∧ t.ember.cartState = 1 ∧ t.ior 0x3010 = BitVec.ofNat 32 d.2.1 ∧ t.mem = s.mem))) ∧
  (∀ s : State,
      (¬ kindles s 1 → ∀ ga, Answers (.kindling ga) s (fun t => t = s)) ∧
      (¬ kindles s 2 → Answers .kindlingCrystal s (fun t => t = s)) ∧
      (¬ kindles s 3 → ∀ a b, Answers (.kindlingMantel a b) s (fun t => t = s)) ∧
      (¬ kindles s 4 → Answers .kindlingPcie s (fun t => t = s)) ∧
      (¬ kindles s 5 → Answers .kindlingPowerUp s (fun t => t = s)) ∧
      (¬ kindles s 6 → s.pwr.restarting = false → ∀ a b c, Answers (.kindlingSelfTest a b c) s (fun t => t = s)) ∧
      (¬ kindles s 7 → Answers .kindlingLoad s (fun t => t = s)) ∧
      (¬ kindles s 8 → Answers .kindlingReady s (fun t => t = s)))
end

