-- ==== Sys2Proof/Laws/State.lean ====
section
/-! SUPPORT. One lemma for each field of the state under each plain update of Machine/Ops.lean, so that no proof unfolds a
record update. -/

namespace Sys2Proof.Machine

@[simp] theorem State.setBar_pending (s : State) (off : Nat) (v : W32) : (s.setBar off v).pending = s.pending := rfl
@[simp] theorem State.setBar_out (s : State) (off : Nat) (v : W32) : (s.setBar off v).out = s.out := rfl
@[simp] theorem State.setBar_free (s : State) (off : Nat) (v : W32) : (s.setBar off v).free = s.free := rfl
@[simp] theorem State.setBar_bar0 (s : State) (off : Nat) (v : W32) : (s.setBar off v).bar0 = tset s.bar0 off v := rfl
@[simp] theorem State.setBar_io (s : State) (off : Nat) (v : W32) : (s.setBar off v).io = s.io := rfl
@[simp] theorem State.setBar_tiles (s : State) (off : Nat) (v : W32) : (s.setBar off v).tiles = s.tiles := rfl
@[simp] theorem State.setBar_tileMap (s : State) (off : Nat) (v : W32) : (s.setBar off v).tileMap = s.tileMap := rfl
@[simp] theorem State.setBar_sfu (s : State) (off : Nat) (v : W32) : (s.setBar off v).sfu = s.sfu := rfl
@[simp] theorem State.setBar_mem (s : State) (off : Nat) (v : W32) : (s.setBar off v).mem = s.mem := rfl
@[simp] theorem State.setBar_ctxs (s : State) (off : Nat) (v : W32) : (s.setBar off v).ctxs = s.ctxs := rfl
@[simp] theorem State.setBar_sched (s : State) (off : Nat) (v : W32) : (s.setBar off v).sched = s.sched := rfl
@[simp] theorem State.setBar_ctl (s : State) (off : Nat) (v : W32) : (s.setBar off v).ctl = s.ctl := rfl
@[simp] theorem State.setBar_clk (s : State) (off : Nat) (v : W32) : (s.setBar off v).clk = s.clk := rfl
@[simp] theorem State.setBar_flt (s : State) (off : Nat) (v : W32) : (s.setBar off v).flt = s.flt := rfl
@[simp] theorem State.setBar_obs (s : State) (off : Nat) (v : W32) : (s.setBar off v).obs = s.obs := rfl
@[simp] theorem State.setBar_pwr (s : State) (off : Nat) (v : W32) : (s.setBar off v).pwr = s.pwr := rfl
@[simp] theorem State.setBar_net (s : State) (off : Nat) (v : W32) : (s.setBar off v).net = s.net := rfl
@[simp] theorem State.setBar_ember (s : State) (off : Nat) (v : W32) : (s.setBar off v).ember = s.ember := rfl

@[simp] theorem State.setIo_pending (s : State) (off : Nat) (v : W32) : (s.setIo off v).pending = s.pending := rfl
@[simp] theorem State.setIo_out (s : State) (off : Nat) (v : W32) : (s.setIo off v).out = s.out := rfl
@[simp] theorem State.setIo_free (s : State) (off : Nat) (v : W32) : (s.setIo off v).free = s.free := rfl
@[simp] theorem State.setIo_bar0 (s : State) (off : Nat) (v : W32) : (s.setIo off v).bar0 = s.bar0 := rfl
@[simp] theorem State.setIo_io (s : State) (off : Nat) (v : W32) : (s.setIo off v).io = tset s.io off v := rfl
@[simp] theorem State.setIo_tiles (s : State) (off : Nat) (v : W32) : (s.setIo off v).tiles = s.tiles := rfl
@[simp] theorem State.setIo_tileMap (s : State) (off : Nat) (v : W32) : (s.setIo off v).tileMap = s.tileMap := rfl
@[simp] theorem State.setIo_sfu (s : State) (off : Nat) (v : W32) : (s.setIo off v).sfu = s.sfu := rfl
@[simp] theorem State.setIo_mem (s : State) (off : Nat) (v : W32) : (s.setIo off v).mem = s.mem := rfl
@[simp] theorem State.setIo_ctxs (s : State) (off : Nat) (v : W32) : (s.setIo off v).ctxs = s.ctxs := rfl
@[simp] theorem State.setIo_sched (s : State) (off : Nat) (v : W32) : (s.setIo off v).sched = s.sched := rfl
@[simp] theorem State.setIo_ctl (s : State) (off : Nat) (v : W32) : (s.setIo off v).ctl = s.ctl := rfl
@[simp] theorem State.setIo_clk (s : State) (off : Nat) (v : W32) : (s.setIo off v).clk = s.clk := rfl
@[simp] theorem State.setIo_flt (s : State) (off : Nat) (v : W32) : (s.setIo off v).flt = s.flt := rfl
@[simp] theorem State.setIo_obs (s : State) (off : Nat) (v : W32) : (s.setIo off v).obs = s.obs := rfl
@[simp] theorem State.setIo_pwr (s : State) (off : Nat) (v : W32) : (s.setIo off v).pwr = s.pwr := rfl
@[simp] theorem State.setIo_net (s : State) (off : Nat) (v : W32) : (s.setIo off v).net = s.net := rfl
@[simp] theorem State.setIo_ember (s : State) (off : Nat) (v : W32) : (s.setIo off v).ember = s.ember := rfl

@[simp] theorem State.putSetting_pending (s : State) (id : Nat) (v : W64) : (s.putSetting id v).pending = s.pending := rfl
@[simp] theorem State.putSetting_out (s : State) (id : Nat) (v : W64) : (s.putSetting id v).out = s.out := rfl
@[simp] theorem State.putSetting_free (s : State) (id : Nat) (v : W64) : (s.putSetting id v).free = s.free := rfl
@[simp] theorem State.putSetting_bar0 (s : State) (id : Nat) (v : W64) : (s.putSetting id v).bar0 = s.bar0 := rfl
@[simp] theorem State.putSetting_io (s : State) (id : Nat) (v : W64) : (s.putSetting id v).io = s.io := rfl
@[simp] theorem State.putSetting_tiles (s : State) (id : Nat) (v : W64) : (s.putSetting id v).tiles = s.tiles := rfl
@[simp] theorem State.putSetting_tileMap (s : State) (id : Nat) (v : W64) : (s.putSetting id v).tileMap = s.tileMap := rfl
@[simp] theorem State.putSetting_sfu (s : State) (id : Nat) (v : W64) : (s.putSetting id v).sfu = s.sfu := rfl
@[simp] theorem State.putSetting_mem (s : State) (id : Nat) (v : W64) : (s.putSetting id v).mem = s.mem := rfl
@[simp] theorem State.putSetting_ctxs (s : State) (id : Nat) (v : W64) : (s.putSetting id v).ctxs = s.ctxs := rfl
@[simp] theorem State.putSetting_sched (s : State) (id : Nat) (v : W64) : (s.putSetting id v).sched = s.sched := rfl
@[simp] theorem State.putSetting_ctl (s : State) (id : Nat) (v : W64) : (s.putSetting id v).ctl = { s.ctl with settings := tset s.ctl.settings id v } := rfl
@[simp] theorem State.putSetting_clk (s : State) (id : Nat) (v : W64) : (s.putSetting id v).clk = s.clk := rfl
@[simp] theorem State.putSetting_flt (s : State) (id : Nat) (v : W64) : (s.putSetting id v).flt = s.flt := rfl
@[simp] theorem State.putSetting_obs (s : State) (id : Nat) (v : W64) : (s.putSetting id v).obs = s.obs := rfl
@[simp] theorem State.putSetting_pwr (s : State) (id : Nat) (v : W64) : (s.putSetting id v).pwr = s.pwr := rfl
@[simp] theorem State.putSetting_net (s : State) (id : Nat) (v : W64) : (s.putSetting id v).net = s.net := rfl
@[simp] theorem State.putSetting_ember (s : State) (id : Nat) (v : W64) : (s.putSetting id v).ember = s.ember := rfl

@[simp] theorem State.emit_pending (s : State) (o : Out) : (s.emit o).pending = s.pending := rfl
@[simp] theorem State.emit_out (s : State) (o : Out) : (s.emit o).out = s.out ++ [o] := rfl
@[simp] theorem State.emit_free (s : State) (o : Out) : (s.emit o).free = s.free := rfl
@[simp] theorem State.emit_bar0 (s : State) (o : Out) : (s.emit o).bar0 = s.bar0 := rfl
@[simp] theorem State.emit_io (s : State) (o : Out) : (s.emit o).io = s.io := rfl
@[simp] theorem State.emit_tiles (s : State) (o : Out) : (s.emit o).tiles = s.tiles := rfl
@[simp] theorem State.emit_tileMap (s : State) (o : Out) : (s.emit o).tileMap = s.tileMap := rfl
@[simp] theorem State.emit_sfu (s : State) (o : Out) : (s.emit o).sfu = s.sfu := rfl
@[simp] theorem State.emit_mem (s : State) (o : Out) : (s.emit o).mem = s.mem := rfl
@[simp] theorem State.emit_ctxs (s : State) (o : Out) : (s.emit o).ctxs = s.ctxs := rfl
@[simp] theorem State.emit_sched (s : State) (o : Out) : (s.emit o).sched = s.sched := rfl
@[simp] theorem State.emit_ctl (s : State) (o : Out) : (s.emit o).ctl = s.ctl := rfl
@[simp] theorem State.emit_clk (s : State) (o : Out) : (s.emit o).clk = s.clk := rfl
@[simp] theorem State.emit_flt (s : State) (o : Out) : (s.emit o).flt = s.flt := rfl
@[simp] theorem State.emit_obs (s : State) (o : Out) : (s.emit o).obs = s.obs := rfl
@[simp] theorem State.emit_pwr (s : State) (o : Out) : (s.emit o).pwr = s.pwr := rfl
@[simp] theorem State.emit_net (s : State) (o : Out) : (s.emit o).net = s.net := rfl
@[simp] theorem State.emit_ember (s : State) (o : Out) : (s.emit o).ember = s.ember := rfl

@[simp] theorem State.draw_pending (s : State) : (s.draw).pending = s.pending := rfl
@[simp] theorem State.draw_out (s : State) : (s.draw).out = s.out := rfl
@[simp] theorem State.draw_free (s : State) : (s.draw).free = s.free + 1 := rfl
@[simp] theorem State.draw_bar0 (s : State) : (s.draw).bar0 = s.bar0 := rfl
@[simp] theorem State.draw_io (s : State) : (s.draw).io = s.io := rfl
@[simp] theorem State.draw_tiles (s : State) : (s.draw).tiles = s.tiles := rfl
@[simp] theorem State.draw_tileMap (s : State) : (s.draw).tileMap = s.tileMap := rfl
@[simp] theorem State.draw_sfu (s : State) : (s.draw).sfu = s.sfu := rfl
@[simp] theorem State.draw_mem (s : State) : (s.draw).mem = s.mem := rfl
@[simp] theorem State.draw_ctxs (s : State) : (s.draw).ctxs = s.ctxs := rfl
@[simp] theorem State.draw_sched (s : State) : (s.draw).sched = s.sched := rfl
@[simp] theorem State.draw_ctl (s : State) : (s.draw).ctl = s.ctl := rfl
@[simp] theorem State.draw_clk (s : State) : (s.draw).clk = s.clk := rfl
@[simp] theorem State.draw_flt (s : State) : (s.draw).flt = s.flt := rfl
@[simp] theorem State.draw_obs (s : State) : (s.draw).obs = s.obs := rfl
@[simp] theorem State.draw_pwr (s : State) : (s.draw).pwr = s.pwr := rfl
@[simp] theorem State.draw_net (s : State) : (s.draw).net = s.net := rfl
@[simp] theorem State.draw_ember (s : State) : (s.draw).ember = s.ember := rfl

@[simp] theorem State.addReact_pending (s : State) (src : Nat) : (s.addReact src).pending = s.pending := rfl
@[simp] theorem State.addReact_out (s : State) (src : Nat) : (s.addReact src).out = s.out := rfl
@[simp] theorem State.addReact_free (s : State) (src : Nat) : (s.addReact src).free = s.free := rfl
@[simp] theorem State.addReact_bar0 (s : State) (src : Nat) : (s.addReact src).bar0 = s.bar0 := rfl
@[simp] theorem State.addReact_io (s : State) (src : Nat) : (s.addReact src).io = s.io := rfl
@[simp] theorem State.addReact_tiles (s : State) (src : Nat) : (s.addReact src).tiles = s.tiles := rfl
@[simp] theorem State.addReact_tileMap (s : State) (src : Nat) : (s.addReact src).tileMap = s.tileMap := rfl
@[simp] theorem State.addReact_sfu (s : State) (src : Nat) : (s.addReact src).sfu = s.sfu := rfl
@[simp] theorem State.addReact_mem (s : State) (src : Nat) : (s.addReact src).mem = s.mem := rfl
@[simp] theorem State.addReact_ctxs (s : State) (src : Nat) : (s.addReact src).ctxs = s.ctxs := rfl
@[simp] theorem State.addReact_sched (s : State) (src : Nat) : (s.addReact src).sched = s.sched := rfl
@[simp] theorem State.addReact_ctl (s : State) (src : Nat) : (s.addReact src).ctl = s.ctl := rfl
@[simp] theorem State.addReact_clk (s : State) (src : Nat) : (s.addReact src).clk = s.clk := rfl
@[simp] theorem State.addReact_flt (s : State) (src : Nat) : (s.addReact src).flt = { s.flt with reacts := s.flt.reacts ++ [src] } := rfl
@[simp] theorem State.addReact_obs (s : State) (src : Nat) : (s.addReact src).obs = s.obs := rfl
@[simp] theorem State.addReact_pwr (s : State) (src : Nat) : (s.addReact src).pwr = s.pwr := rfl
@[simp] theorem State.addReact_net (s : State) (src : Nat) : (s.addReact src).net = s.net := rfl
@[simp] theorem State.addReact_ember (s : State) (src : Nat) : (s.addReact src).ember = s.ember := rfl

@[simp] theorem State.stopSoon_pending (s : State) : (s.stopSoon).pending = s.pending := rfl
@[simp] theorem State.stopSoon_out (s : State) : (s.stopSoon).out = s.out := rfl
@[simp] theorem State.stopSoon_free (s : State) : (s.stopSoon).free = s.free := rfl
@[simp] theorem State.stopSoon_bar0 (s : State) : (s.stopSoon).bar0 = s.bar0 := rfl
@[simp] theorem State.stopSoon_io (s : State) : (s.stopSoon).io = s.io := rfl
@[simp] theorem State.stopSoon_tiles (s : State) : (s.stopSoon).tiles = s.tiles := rfl
@[simp] theorem State.stopSoon_tileMap (s : State) : (s.stopSoon).tileMap = s.tileMap := rfl
@[simp] theorem State.stopSoon_sfu (s : State) : (s.stopSoon).sfu = s.sfu := rfl
@[simp] theorem State.stopSoon_mem (s : State) : (s.stopSoon).mem = s.mem := rfl
@[simp] theorem State.stopSoon_ctxs (s : State) : (s.stopSoon).ctxs = s.ctxs := rfl
@[simp] theorem State.stopSoon_sched (s : State) : (s.stopSoon).sched = { s.sched with stopDue := true } := rfl
@[simp] theorem State.stopSoon_ctl (s : State) : (s.stopSoon).ctl = s.ctl := rfl
@[simp] theorem State.stopSoon_clk (s : State) : (s.stopSoon).clk = s.clk := rfl
@[simp] theorem State.stopSoon_flt (s : State) : (s.stopSoon).flt = s.flt := rfl
@[simp] theorem State.stopSoon_obs (s : State) : (s.stopSoon).obs = s.obs := rfl
@[simp] theorem State.stopSoon_pwr (s : State) : (s.stopSoon).pwr = s.pwr := rfl
@[simp] theorem State.stopSoon_net (s : State) : (s.stopSoon).net = s.net := rfl
@[simp] theorem State.stopSoon_ember (s : State) : (s.stopSoon).ember = s.ember := rfl

@[simp] theorem State.setTile_pending (s : State) (u : Nat) (t : Tile) : (s.setTile u t).pending = s.pending := rfl
@[simp] theorem State.setTile_out (s : State) (u : Nat) (t : Tile) : (s.setTile u t).out = s.out := rfl
@[simp] theorem State.setTile_free (s : State) (u : Nat) (t : Tile) : (s.setTile u t).free = s.free := rfl
@[simp] theorem State.setTile_bar0 (s : State) (u : Nat) (t : Tile) : (s.setTile u t).bar0 = s.bar0 := rfl
@[simp] theorem State.setTile_io (s : State) (u : Nat) (t : Tile) : (s.setTile u t).io = s.io := rfl
@[simp] theorem State.setTile_tiles (s : State) (u : Nat) (t : Tile) : (s.setTile u t).tiles = tset s.tiles u t := rfl
@[simp] theorem State.setTile_tileMap (s : State) (u : Nat) (t : Tile) : (s.setTile u t).tileMap = s.tileMap := rfl
@[simp] theorem State.setTile_sfu (s : State) (u : Nat) (t : Tile) : (s.setTile u t).sfu = s.sfu := rfl
@[simp] theorem State.setTile_mem (s : State) (u : Nat) (t : Tile) : (s.setTile u t).mem = s.mem := rfl
@[simp] theorem State.setTile_ctxs (s : State) (u : Nat) (t : Tile) : (s.setTile u t).ctxs = s.ctxs := rfl
@[simp] theorem State.setTile_sched (s : State) (u : Nat) (t : Tile) : (s.setTile u t).sched = s.sched := rfl
@[simp] theorem State.setTile_ctl (s : State) (u : Nat) (t : Tile) : (s.setTile u t).ctl = s.ctl := rfl
@[simp] theorem State.setTile_clk (s : State) (u : Nat) (t : Tile) : (s.setTile u t).clk = s.clk := rfl
@[simp] theorem State.setTile_flt (s : State) (u : Nat) (t : Tile) : (s.setTile u t).flt = s.flt := rfl
@[simp] theorem State.setTile_obs (s : State) (u : Nat) (t : Tile) : (s.setTile u t).obs = s.obs := rfl
@[simp] theorem State.setTile_pwr (s : State) (u : Nat) (t : Tile) : (s.setTile u t).pwr = s.pwr := rfl
@[simp] theorem State.setTile_net (s : State) (u : Nat) (t : Tile) : (s.setTile u t).net = s.net := rfl
@[simp] theorem State.setTile_ember (s : State) (u : Nat) (t : Tile) : (s.setTile u t).ember = s.ember := rfl

@[simp] theorem State.setCtx_pending (s : State) (c : Nat) (v : Ctx) : (s.setCtx c v).pending = s.pending := rfl
@[simp] theorem State.setCtx_out (s : State) (c : Nat) (v : Ctx) : (s.setCtx c v).out = s.out := rfl
@[simp] theorem State.setCtx_free (s : State) (c : Nat) (v : Ctx) : (s.setCtx c v).free = s.free := rfl
@[simp] theorem State.setCtx_bar0 (s : State) (c : Nat) (v : Ctx) : (s.setCtx c v).bar0 = s.bar0 := rfl
@[simp] theorem State.setCtx_io (s : State) (c : Nat) (v : Ctx) : (s.setCtx c v).io = s.io := rfl
@[simp] theorem State.setCtx_tiles (s : State) (c : Nat) (v : Ctx) : (s.setCtx c v).tiles = s.tiles := rfl
@[simp] theorem State.setCtx_tileMap (s : State) (c : Nat) (v : Ctx) : (s.setCtx c v).tileMap = s.tileMap := rfl
@[simp] theorem State.setCtx_sfu (s : State) (c : Nat) (v : Ctx) : (s.setCtx c v).sfu = s.sfu := rfl
@[simp] theorem State.setCtx_mem (s : State) (c : Nat) (v : Ctx) : (s.setCtx c v).mem = s.mem := rfl
@[simp] theorem State.setCtx_ctxs (s : State) (c : Nat) (v : Ctx) : (s.setCtx c v).ctxs = tset s.ctxs c v := rfl
@[simp] theorem State.setCtx_sched (s : State) (c : Nat) (v : Ctx) : (s.setCtx c v).sched = s.sched := rfl
@[simp] theorem State.setCtx_ctl (s : State) (c : Nat) (v : Ctx) : (s.setCtx c v).ctl = s.ctl := rfl
@[simp] theorem State.setCtx_clk (s : State) (c : Nat) (v : Ctx) : (s.setCtx c v).clk = s.clk := rfl
@[simp] theorem State.setCtx_flt (s : State) (c : Nat) (v : Ctx) : (s.setCtx c v).flt = s.flt := rfl
@[simp] theorem State.setCtx_obs (s : State) (c : Nat) (v : Ctx) : (s.setCtx c v).obs = s.obs := rfl
@[simp] theorem State.setCtx_pwr (s : State) (c : Nat) (v : Ctx) : (s.setCtx c v).pwr = s.pwr := rfl
@[simp] theorem State.setCtx_net (s : State) (c : Nat) (v : Ctx) : (s.setCtx c v).net = s.net := rfl
@[simp] theorem State.setCtx_ember (s : State) (c : Nat) (v : Ctx) : (s.setCtx c v).ember = s.ember := rfl

@[simp] theorem State.setCounter_pending (s : State) (k : Nat) (c : Counter) : (s.setCounter k c).pending = s.pending := rfl
@[simp] theorem State.setCounter_out (s : State) (k : Nat) (c : Counter) : (s.setCounter k c).out = s.out := rfl
@[simp] theorem State.setCounter_free (s : State) (k : Nat) (c : Counter) : (s.setCounter k c).free = s.free := rfl
@[simp] theorem State.setCounter_bar0 (s : State) (k : Nat) (c : Counter) : (s.setCounter k c).bar0 = s.bar0 := rfl
@[simp] theorem State.setCounter_io (s : State) (k : Nat) (c : Counter) : (s.setCounter k c).io = s.io := rfl
@[simp] theorem State.setCounter_tiles (s : State) (k : Nat) (c : Counter) : (s.setCounter k c).tiles = s.tiles := rfl
@[simp] theorem State.setCounter_tileMap (s : State) (k : Nat) (c : Counter) : (s.setCounter k c).tileMap = s.tileMap := rfl
@[simp] theorem State.setCounter_sfu (s : State) (k : Nat) (c : Counter) : (s.setCounter k c).sfu = s.sfu := rfl
@[simp] theorem State.setCounter_mem (s : State) (k : Nat) (c : Counter) : (s.setCounter k c).mem = s.mem := rfl
@[simp] theorem State.setCounter_ctxs (s : State) (k : Nat) (c : Counter) : (s.setCounter k c).ctxs = s.ctxs := rfl
@[simp] theorem State.setCounter_sched (s : State) (k : Nat) (c : Counter) : (s.setCounter k c).sched = s.sched := rfl
@[simp] theorem State.setCounter_ctl (s : State) (k : Nat) (c : Counter) : (s.setCounter k c).ctl = s.ctl := rfl
@[simp] theorem State.setCounter_clk (s : State) (k : Nat) (c : Counter) : (s.setCounter k c).clk = s.clk := rfl
@[simp] theorem State.setCounter_flt (s : State) (k : Nat) (c : Counter) : (s.setCounter k c).flt = s.flt := rfl
@[simp] theorem State.setCounter_obs (s : State) (k : Nat) (c : Counter) : (s.setCounter k c).obs = { s.obs with counters := tset s.obs.counters k c } := rfl
@[simp] theorem State.setCounter_pwr (s : State) (k : Nat) (c : Counter) : (s.setCounter k c).pwr = s.pwr := rfl
@[simp] theorem State.setCounter_net (s : State) (k : Nat) (c : Counter) : (s.setCounter k c).net = s.net := rfl
@[simp] theorem State.setCounter_ember (s : State) (k : Nat) (c : Counter) : (s.setCounter k c).ember = s.ember := rfl

end Sys2Proof.Machine
end

