-- ==== Sys2Proof/Laws/Tables.lean ====
section
/-! SUPPORT. What the plain operations of Machine/Bits.lean do: tables read back, memories read back and keep their
canonical form, numbers and bytes agree. -/

namespace Sys2Proof.Machine

/-! ## Tables -/

/-- A table reads back what was written. -/
@[simp] theorem tget_tset_same {α : Type} (d : α) (m : Table α) (k : Nat) (v : α) : tget d (tset m k v) k = v := by
  induction m with
  | nil => simp [tset, tget]
  | cons p r ih =>
    obtain ⟨j, w⟩ := p
    by_cases h : j = k
    · simp [tset, tget, h]
    · by_cases h' : k < j <;> simp [tset, tget, h, h', ih]

/-- A write leaves every other key. -/
theorem tget_tset_ne {α : Type} (d : α) (m : Table α) {k j : Nat} (v : α) (h : j ≠ k) :
    tget d (tset m k v) j = tget d m j := by
  induction m with
  | nil => simp [tset, tget, Ne.symm h]
  | cons p r ih =>
    obtain ⟨i, w⟩ := p
    by_cases hi : i = k
    · subst hi; simp [tset, tget, Ne.symm h]
    · by_cases h' : k < i
      · simp [tset, tget, hi, h', Ne.symm h]
      · by_cases hj : i = j
        · subst hj; simp [tset, tget, hi, h']
        · simp [tset, tget, hi, h', hj, ih]

/-- Both cases at once. -/
theorem tget_tset {α : Type} (d : α) (m : Table α) (k j : Nat) (v : α) :
    tget d (tset m k v) j = if j = k then v else tget d m j := by
  by_cases h : j = k
  · subst h; simp
  · simp [h, tget_tset_ne d m v h]

/-! ## Memories -/

/-- A read of filtered cells where the filter keeps the address. -/
theorem tget_filter {α : Type} (d : α) (m : Table α) (p : Nat → Bool) (a : Nat) :
    tget d (m.filter (fun c => p c.1)) a = if p a then tget d m a else d := by
  induction m with
  | nil => simp [tget]
  | cons c r ih =>
    obtain ⟨j, v⟩ := c
    by_cases hp : p j
    · by_cases hj : j = a
      · subst hj; simp [List.filter, hp, tget]
      · simp [List.filter, hp, tget, hj, ih]
    · by_cases hj : j = a
      · subst hj; simp [List.filter, hp, ih]
      · simp [List.filter, hp, tget, hj, ih]

/-- A read through joined lists. -/
theorem tget_append {α : Type} (d : α) (m n : Table α) (a : Nat) :
    tget d (m ++ n) a = if thas m a then tget d m a else tget d n a := by
  induction m with
  | nil => simp [thas]
  | cons c r ih =>
    obtain ⟨j, v⟩ := c
    by_cases hj : j = a
    · simp [tget, thas, hj]
    · have : thas ((j, v) :: r) a = thas r a := by simp [thas, hj]
      simp [tget, hj, ih, this]

/-- A key that is not listed reads the default. -/
theorem tget_not_has {α : Type} (d : α) (m : Table α) (a : Nat) (h : thas m a = false) : tget d m a = d := by
  induction m with
  | nil => rfl
  | cons c r ih =>
    obtain ⟨j, v⟩ := c
    have hj : j ≠ a := by intro hj; simp [thas, hj] at h
    have : thas r a = false := by simpa [thas, hj] using h
    simp [tget, hj, ih this]

/-- Which keys a filter lists. -/
theorem thas_filter {α : Type} (m : Table α) (p : Nat → Bool) (a : Nat) :
    thas (m.filter (fun c => p c.1)) a = (p a && thas m a) := by
  induction m with
  | nil => simp [thas]
  | cons c r ih =>
    obtain ⟨j, v⟩ := c
    have hc : thas ((j, v) :: r) a = ((j == a) || thas r a) := rfl
    rw [hc, List.filter_cons]
    by_cases hj : j = a
    · subst hj
      by_cases hp : p j
      · simp [hp, thas]
      · simp [hp, ih]
    · have hb : (j == a) = false := by simpa using hj
      by_cases hp : p j
      · have hd : thas ((j, v) :: r.filter (fun c => p c.1)) a = thas (r.filter (fun c => p c.1)) a := by
          simp only [thas, List.any_cons, hb, Bool.false_or]
        simp [hp, hd, ih, hb]
      · simp [hp, ih, hb]

/-- The byte that cells laid from an address hold. -/
theorem tget_cellsOf (bs : List Byte) (a x : Nat) :
    tget 0 (cellsOf a bs) x = if a ≤ x then bs.getD (x - a) 0 else 0 := by
  induction bs generalizing a with
  | nil => simp [cellsOf, tget]
  | cons b r ih =>
    by_cases hb : b = 0
    · rw [cellsOf, if_pos hb, ih]
      by_cases hx : a ≤ x
      · by_cases he : x = a
        · subst he; simp [hb]
        · have h1 : a + 1 ≤ x := by omega
          have h2 : x - a = (x - (a + 1)) + 1 := by omega
          simp [hx, h1, h2]
      · have h1 : ¬ a + 1 ≤ x := by omega
        simp [hx, h1]
    · rw [cellsOf, if_neg hb]
      by_cases he : a = x
      · subst he; simp [tget]
      · rw [tget, if_neg he, ih]
        by_cases hx : a ≤ x
        · have h1 : a + 1 ≤ x := by omega
          have h2 : x - a = (x - (a + 1)) + 1 := by omega
          simp [hx, h1, h2]
        · have h1 : ¬ a + 1 ≤ x := by omega
          simp [hx, h1]

/-- Cells laid from an address list no key outside their bytes. -/
theorem thas_cellsOf (bs : List Byte) (a x : Nat) (h : x < a ∨ a + bs.length ≤ x) : thas (cellsOf a bs) x = false := by
  induction bs generalizing a with
  | nil => simp [cellsOf, thas]
  | cons b r ih =>
    simp only [List.length_cons] at h
    have h' := ih (a + 1) (by omega)
    by_cases hb : b = 0
    · simpa [cellsOf, hb] using h'
    · have hx : (a == x) = false := by simp; omega
      rw [cellsOf, if_neg hb]
      simpa only [thas, List.any_cons, hx, Bool.false_or] using h'

/-- A read through three joined parts: the cells below an address, a middle part, the cells from another address on. -/
theorem tget_parts {α : Type} (z : α) (m : Table α) (a e x : Nat) (c : Table α) (hae : a ≤ e)
    (hc : x < a ∨ e ≤ x → thas c x = false) :
    tget z (m.filter (fun y => decide (y.1 < a)) ++ (c ++ m.filter (fun y => decide (e ≤ y.1)))) x =
      if a ≤ x ∧ x < e then tget z c x else tget z m x := by
  have hl := thas_filter m (fun y => decide (y < a)) x
  have gl := tget_filter z m (fun y => decide (y < a)) x
  have gr := tget_filter z m (fun y => decide (e ≤ y)) x
  rw [tget_append, tget_append, gl, gr, hl]
  by_cases h1 : x < a
  · have n1 : ¬ a ≤ x := by omega
    have n2 : ¬ e ≤ x := by omega
    have hc' := hc (.inl h1)
    by_cases hm : thas m x = true
    · simp [h1, n1, hm]
    · have hm' : thas m x = false := by simpa using hm
      simp [h1, n1, n2, hm', hc', tget_not_has z m x hm']
  · have p1 : a ≤ x := by omega
    by_cases h2 : x < e
    · have n2 : ¬ e ≤ x := by omega
      by_cases hx : thas c x = true
      · simp [h1, p1, h2, hx]
      · have hx' : thas c x = false := by simpa using hx
        simp [h1, p1, h2, hx', n2, tget_not_has z c x hx']
    · have p2 : e ≤ x := by omega
      have hc' := hc (.inr p2)
      simp [h1, p1, h2, hc', p2]

/-- A memory reads back what was stored, and every other byte is as before. -/
theorem mread_mwrite (m : Memory) (a : Nat) (bs : List Byte) (x : Nat) :
    mread (mwrite m a bs) x = if a ≤ x ∧ x < a + bs.length then bs.getD (x - a) 0 else mread m x := by
  unfold mread mwrite
  rw [tget_parts _ m a (a + bs.length) x _ (by omega) (thas_cellsOf bs a x), tget_cellsOf]
  by_cases h : a ≤ x <;> simp [h]

/-- n bytes read one by one. -/
theorem mreadN_eq (m : Memory) (a n : Nat) : mreadN m a n = (List.range n).map (fun i => mread m (a + i)) := by
  unfold mreadN mread
  apply List.map_congr_left
  intro i hi
  have := tget_filter (0 : Byte) m (fun y => decide (a ≤ y) && decide (y < a + n)) (a + i)
  have hlt : i < n := List.mem_range.mp hi
  simpa [hlt] using this

/-- A read of cleared bytes. -/
theorem mread_mclear (m : Memory) (a n x : Nat) :
    mread (mclear m a n) x = if a ≤ x ∧ x < a + n then 0 else mread m x := by
  unfold mread mclear
  exact tget_parts _ m a (a + n) x [] (by omega) (fun _ => rfl)

/-! ## The canonical form -/

theorem Memory.wf_nil : Memory.wf [] := ⟨List.Pairwise.nil, by simp⟩

/-- Cells laid from an address are canonical and lie within their bytes. -/
theorem cellsOf_wf (bs : List Byte) (a : Nat) :
    Memory.wf (cellsOf a bs) ∧ ∀ c ∈ cellsOf a bs, a ≤ c.1 ∧ c.1 < a + bs.length := by
  induction bs generalizing a with
  | nil => exact ⟨Memory.wf_nil, by simp [cellsOf]⟩
  | cons b r ih =>
    obtain ⟨⟨hp, hz⟩, hb⟩ := ih (a + 1)
    by_cases h0 : b = 0
    · refine ⟨by simpa [cellsOf, h0] using ⟨hp, hz⟩, ?_⟩
      intro c hc
      simp only [cellsOf, h0, if_true] at hc
      have := hb c hc
      simp only [List.length_cons]; omega
    · simp only [cellsOf, h0, if_false]
      refine ⟨⟨List.pairwise_cons.mpr ⟨fun c hc => ?_, hp⟩, ?_⟩, ?_⟩
      · have := hb c hc; simp only; omega
      · intro c hc
        rcases List.mem_cons.mp hc with rfl | hc
        · exact h0
        · exact hz c hc
      · intro c hc
        simp only [List.length_cons]
        rcases List.mem_cons.mp hc with rfl | hc
        · simp only; omega
        · have := hb c hc; omega

/-- Joined canonical lists are canonical where the addresses of one lie below those of the other. -/
theorem Memory.wf_append {m n : Memory} (hm : Memory.wf m) (hn : Memory.wf n)
    (h : ∀ c ∈ m, ∀ d ∈ n, c.1 < d.1) : Memory.wf (m ++ n) := by
  refine ⟨List.pairwise_append.mpr ⟨hm.1, hn.1, h⟩, fun c hc => ?_⟩
  rcases List.mem_append.mp hc with hc | hc
  · exact hm.2 c hc
  · exact hn.2 c hc

theorem Memory.wf_filter {m : Memory} (hm : Memory.wf m) (p : Host.Cell → Bool) : Memory.wf (m.filter p) :=
  ⟨hm.1.filter p, fun c hc => hm.2 c (List.mem_filter.mp hc).1⟩

/-- A store keeps the canonical form. -/
theorem Memory.wf_mwrite {m : Memory} (hm : Memory.wf m) (a : Nat) (bs : List Byte) : Memory.wf (mwrite m a bs) := by
  obtain ⟨hc, hb⟩ := cellsOf_wf bs a
  refine Memory.wf_append (Memory.wf_filter hm _) (Memory.wf_append hc (Memory.wf_filter hm _) ?_) ?_
  · intro c hc' d hd
    have h1 := hb c hc'
    have h2 := (List.mem_filter.mp hd).2
    simp only [decide_eq_true_eq] at h2; omega
  · intro c hc' d hd
    have h1 := (List.mem_filter.mp hc').2
    simp only [decide_eq_true_eq] at h1
    rcases List.mem_append.mp hd with hd | hd
    · have := hb d hd; omega
    · have h2 := (List.mem_filter.mp hd).2
      simp only [decide_eq_true_eq] at h2; omega

/-- Clearing bytes keeps the canonical form. -/
theorem Memory.wf_mclear {m : Memory} (hm : Memory.wf m) (a n : Nat) : Memory.wf (mclear m a n) := by
  refine Memory.wf_append (Memory.wf_filter hm _) (Memory.wf_filter hm _) ?_
  intro c hc d hd
  have h1 := (List.mem_filter.mp hc).2
  have h2 := (List.mem_filter.mp hd).2
  simp only [decide_eq_true_eq] at h1 h2; omega

/-- Moved cells are canonical and lie within their target. -/
theorem mextract_wf {m : Memory} (hm : Memory.wf m) (a n b : Nat) :
    Memory.wf (mextract m a n b) ∧ ∀ c ∈ mextract m a n b, b ≤ c.1 ∧ c.1 < b + n := by
  have hin : ∀ c ∈ m.filter (fun c => decide (a ≤ c.1) && decide (c.1 < a + n)), a ≤ c.1 ∧ c.1 < a + n := by
    intro c hc; simpa using (List.mem_filter.mp hc).2
  refine ⟨⟨?_, ?_⟩, ?_⟩
  · unfold mextract
    rw [List.pairwise_map]
    refine List.Pairwise.imp_of_mem ?_ (hm.1.filter _)
    intro c d hc hd h
    have := hin c hc; have := hin d hd; simp only; omega
  · intro c hc
    obtain ⟨d, hd, rfl⟩ := List.mem_map.mp hc
    exact hm.2 d (List.mem_filter.mp hd).1
  · intro c hc
    obtain ⟨d, hd, rfl⟩ := List.mem_map.mp hc
    have := hin d hd; simp only; omega

/-- A copy between memories keeps the canonical form. -/
theorem Memory.wf_mcopy {m d : Memory} (hm : Memory.wf m) (hd : Memory.wf d) (a n b : Nat) :
    Memory.wf (mcopy m a n d b) := by
  obtain ⟨hc, hb⟩ := mextract_wf hm a n b
  refine Memory.wf_append (Memory.wf_filter hd _) (Memory.wf_append hc (Memory.wf_filter hd _) ?_) ?_
  · intro c hc' e he
    have h1 := hb c hc'
    have h2 := (List.mem_filter.mp he).2
    simp only [decide_eq_true_eq] at h2; omega
  · intro c hc' e he
    have h1 := (List.mem_filter.mp hc').2
    simp only [decide_eq_true_eq] at h1
    rcases List.mem_append.mp he with he | he
    · have := hb e he; omega
    · have h2 := (List.mem_filter.mp he).2
      simp only [decide_eq_true_eq] at h2; omega

/-! ## Bytes and numbers -/

@[simp] theorem leBytes_length (n v : Nat) : (leBytes n v).length = n := by
  induction n generalizing v with
  | zero => rfl
  | succ n ih => simp [leBytes, ih]

/-- The number that the low bytes of a number spell. -/
theorem leNat_leBytes (n v : Nat) : leNat (leBytes n v) = v % 256 ^ n := by
  induction n generalizing v with
  | zero => simp [leBytes, leNat, Nat.mod_one]
  | succ n ih =>
    have h : (BitVec.ofNat 8 v).toNat = v % 256 := BitVec.toNat_ofNat v 8
    rw [leBytes, leNat, ih, h, Nat.pow_succ, Nat.mul_comm (256 ^ n) 256, Nat.mod_mul]

theorem leNat_lt (l : List Byte) : leNat l < 256 ^ l.length := by
  induction l with
  | nil => simp [leNat]
  | cons b r ih =>
    simp only [leNat, List.length_cons, Nat.pow_succ]
    have := b.isLt
    omega

@[simp] theorem beBytes_length (n v : Nat) : (beBytes n v).length = n := by simp [beBytes]

theorem beNat_beBytes (n v : Nat) : beNat (beBytes n v) = v % 256 ^ n := by
  simp [beNat, beBytes, leNat_leBytes]

@[simp] theorem nth_nil {α : Type} (d : α) (i : Nat) : nth d [] i = d := rfl

/-- nth of a mapped range. -/
theorem nth_eq_getD {α : Type} (d : α) (l : List α) (i : Nat) : nth d l i = l.getD i d := by
  induction l generalizing i with
  | nil => simp
  | cons a r ih =>
    cases i with
    | zero => rfl
    | succ i => simp [nth, ih]

end Sys2Proof.Machine
end

