-- ==== Sys2Proof/Laws/Counting.lean ====
section
/-! SUPPORT. What the register words, interrupt causes and performance counters of Machine/Ops.lean do: read-back of words,
and the frame of a count. -/

namespace Sys2Proof.Machine

/-! ## Register words -/

theorem State.bar_setBar (s : State) (o : Nat) (v : W32) (p : Nat) :
    (s.setBar o v).bar p = if p = o then v else s.bar p := by
  unfold State.bar State.setBar
  rw [tget_tset]

@[simp] theorem State.bar_setBar_same (s : State) (o : Nat) (v : W32) : (s.setBar o v).bar o = v := by
  simp [State.bar_setBar]

theorem State.ior_setIo (s : State) (o : Nat) (v : W32) (p : Nat) :
    (s.setIo o v).ior p = if p = o then v else s.ior p := by
  unfold State.ior State.setIo
  rw [tget_tset]

theorem State.bar_orBar (s : State) (o : Nat) (v : W32) (p : Nat) :
    (s.orBar o v).bar p = if p = o then s.bar o ||| v else s.bar p := State.bar_setBar ..

theorem State.bar_bumpBar (s : State) (o n p : Nat) :
    (s.bumpBar o n).bar p = if p = o then s.bar o + BitVec.ofNat 32 n else s.bar p := State.bar_setBar ..

theorem State.tile_setTile (s : State) (u : Nat) (t : Tile) (v : Nat) :
    (s.setTile u t).tile v = if v = u then t else s.tile v := by
  unfold State.tile State.setTile
  rw [tget_tset]

@[simp] theorem State.unitOf_setTile (s : State) (u : Nat) (t : Tile) (l : Nat) : (s.setTile u t).unitOf l = s.unitOf l := rfl

@[simp] theorem State.unitOf_setLtile (s : State) (u : Nat) (t : Tile) (l : Nat) : (s.setLtile u t).unitOf l = s.unitOf l := rfl

@[simp] theorem State.ltile_setLtile (s : State) (l : Nat) (t : Tile) : (s.setLtile l t).ltile l = t := by
  unfold State.ltile State.setLtile
  rw [State.unitOf_setTile, State.tile_setTile, if_pos rfl]

theorem State.ctx_setCtx (s : State) (c : Nat) (v : Ctx) (d : Nat) :
    (s.setCtx c v).ctx d = if d = c then v else s.ctx d := by
  unfold State.ctx State.setCtx
  rw [tget_tset]

theorem Tile.reg_setReg (t : Tile) (o : Nat) (v : W32) (p : Nat) :
    (t.setReg o v).reg p = if p = o then v else t.reg p := by
  unfold Tile.reg Tile.setReg
  rw [tget_tset]

theorem Tile.xget_xset (t : Tile) (n : Nat) (v : W32) (k : Nat) :
    (t.xset n v).xget k = if k % 16 ≠ 0 ∧ k % 16 = n % 16 then v else t.xget k := by
  unfold Tile.xget Tile.xset
  by_cases hn : n % 16 = 0
  · by_cases hk : k % 16 = 0
    · simp [hk]
    · have : k % 16 ≠ n % 16 := by omega
      simp [hn, hk]
  · by_cases hk : k % 16 = 0
    · simp [hk]
    · simp only [hn, hk, if_false, tget_tset, ne_eq, not_false_eq_true, true_and]

theorem Tile.mask_setMask (t : Tile) (n : Nat) (v : BitVec 2048) (k : Nat) :
    (t.setMask n v).mask k = if k % 8 = n % 8 then v else t.mask k := by
  unfold Tile.mask Tile.setMask
  rw [tget_tset]

theorem Tile.stream_setStream (t : Tile) (n : Nat) (v : Stream) (k : Nat) :
    (t.setStream n v).stream k = if k = n then v else t.stream k := by
  unfold Tile.stream Tile.setStream
  rw [tget_tset]

/-! ## Counting -/

/-- One state comes from another by counting: the counters, CC_STATUS, INT_PEND, and a vector sent or held. -/
structure Counted (s t : State) : Prop where
  rest : t = { s with
    obs := { s.obs with counters := t.obs.counters }, bar0 := t.bar0, out := t.out, ctl := { s.ctl with held := t.ctl.held } }
  words : ∀ off, off ≠ 0x30000 → off ≠ 0x1000C → t.bar off = s.bar off

theorem Counted.refl (s : State) : Counted s s := ⟨rfl, fun _ _ _ => rfl⟩

theorem Counted.trans {s t u : State} (h : Counted s t) (k : Counted t u) : Counted s u := by
  refine ⟨?_, fun o a b => (k.words o a b).trans (h.words o a b)⟩
  have h1 := h.rest
  have k1 := k.rest
  rw [k1]
  conv_lhs => rw [h1]

theorem Counted.tile {s t : State} (h : Counted s t) (u : Nat) : t.tile u = s.tile u := by
  have := congrArg State.tiles h.rest; simp only [State.tile]; rw [this]

theorem Counted.unitOf {s t : State} (h : Counted s t) (l : Nat) : t.unitOf l = s.unitOf l := by
  have := congrArg State.tileMap h.rest; simp only [State.unitOf]; rw [this]

theorem Counted.ltile {s t : State} (h : Counted s t) (l : Nat) : t.ltile l = s.ltile l := by
  simp [State.ltile, h.tile, h.unitOf]

theorem counted_sendMsix (s : State) (v : Nat) : Counted s (s.sendMsix v) := by
  unfold State.sendMsix
  split
  · exact ⟨rfl, fun _ _ _ => rfl⟩
  · split
    · exact ⟨rfl, fun _ _ _ => rfl⟩
    · exact Counted.refl s

theorem counted_orBar (s : State) (o : Nat) (v : W32) (h : o = 0x30000 ∨ o = 0x1000C) : Counted s (s.orBar o v) := by
  refine ⟨rfl, fun p a b => ?_⟩
  rw [State.bar_orBar, if_neg (by rintro rfl; rcases h with h | h <;> contradiction)]

theorem counted_cause (s : State) (j : Nat) : Counted s (s.cause j) :=
  (counted_orBar s _ _ (.inr rfl)).trans (counted_sendMsix _ _)

theorem counted_ccRise (s : State) (b : Nat) : Counted s (s.ccRise b) := by
  unfold State.ccRise
  split
  · exact Counted.refl s
  · exact (counted_orBar s _ _ (.inl rfl)).trans (counted_cause _ _)

theorem counted_setCounter (s : State) (k : Nat) (c : Counter) : Counted s (s.setCounter k c) := ⟨rfl, fun _ _ _ => rfl⟩

theorem counted_addCounter (s : State) (k n : Nat) : Counted s (s.addCounter k n) := by
  unfold State.addCounter
  simp only
  split
  · exact counted_setCounter _ _ _
  · exact (counted_setCounter _ _ _).trans (counted_ccRise _ _)

theorem counted_countOne (s : State) (k n : Nat) : Counted s (s.countOne k n) := by
  unfold State.countOne
  simp only
  split
  · exact (counted_addCounter _ _ _).trans (counted_addCounter _ _ _)
  · exact counted_addCounter _ _ _

theorem counted_foldl {α : Type} (f : State → α → State) (h : ∀ s a, Counted s (f s a)) (l : List α) (s : State) :
    Counted s (l.foldl f s) := by
  induction l generalizing s with
  | nil => exact Counted.refl s
  | cons a r ih => exact (h s a).trans (ih _)

/-- A count changes the counters and what their overflow raises, and nothing else. -/
theorem counted_count (s : State) (b e n : Nat) : Counted s (s.count b e n) := by
  unfold State.count
  split
  · exact Counted.refl s
  · apply counted_foldl
    intro s i
    simp only
    split
    · exact counted_countOne _ _ _
    · exact Counted.refl s

end Sys2Proof.Machine
end

