-- ==== Sys2Proof/Laws/Frames.lean ====
section
/-! SUPPORT. Bytes and frames: a number spelled in bytes is read back, and a frame that is put on a chimney is parsed as itself. -/

namespace Sys2Proof.Machine

/-- The piece of a list that stands between two others. -/
theorem slice_middle (a b c : List Byte) (o n : Nat) (ho : a.length = o) (hn : b.length = n) : slice (a ++ (b ++ c)) o n = b := by
  subst ho hn
  simp [slice]

/-- The fields of a frame fit their places (Table 11-2), and its type header is in order. -/
structure Frame.Fits (f : Frame) : Prop where
  typ : f.typ ≤ 5
  src : f.src < 2 ^ 20
  dst : f.dst < 2 ^ 20
  cluster : f.cluster < 65536
  epoch : f.epoch < 65536
  seq : f.seq < 2 ^ 32
  length : f.payload.length < 65536
  header : typeHeaderOk f.typ f.payload = true

/-- A frame put on a chimney is parsed as that frame, with the chimney in CHSEL (R272, R273). -/
theorem parse_frameBytes (f : Frame) (ch beat : Nat) (h : f.Fits) : parseFrame (frameBytes f ch beat) = some { f with chsel := ch % 2 } := by
  obtain ⟨typ, rtx, cs, syn, src, dst, cl, ep, seq, p⟩ := f
  obtain ⟨ht, hs, hd, hc, he, hq, hl, hok⟩ := h
  simp only at ht hs hd hc he hq hl hok
  generalize hw : 2 ^ 28 + 2 ^ 24 * typ + 2 ^ 23 * bnat rtx + 2 ^ 22 * (ch % 2) + 2 ^ 21 * bnat syn + p.length % 65536 = w
  have hb : ∀ b : Bool, bnat b ≤ 1 := fun b => by cases b <;> decide
  have hr := hb rtx
  have hy := hb syn
  have w32 : w < 2 ^ 32 := by omega
  let a0 := beBytes 4 w
  let a1 := beBytes 4 src
  let a2 := beBytes 4 dst
  let a3 := beBytes 2 cl
  let a4 := beBytes 2 ep
  let a5 := beBytes 4 seq
  let a6 := beBytes 4 beat
  let c := leBytes 4 (crc32c (a0 ++ a1 ++ a2 ++ a3 ++ a4 ++ a5 ++ a6 ++ p)).toNat
  have hbytes : frameBytes ⟨typ, rtx, cs, syn, src, dst, cl, ep, seq, p⟩ ch beat =
      a0 ++ (a1 ++ (a2 ++ (a3 ++ (a4 ++ (a5 ++ (a6 ++ (p ++ c))))))) := by
    simp only [frameBytes, hw, List.append_assoc, a0, a1, a2, a3, a4, a5, a6, c]
  generalize hL : frameBytes ⟨typ, rtx, cs, syn, src, dst, cl, ep, seq, p⟩ ch beat = l at hbytes ⊢
  have len : l.length = 28 + p.length := by
    rw [hbytes]; simp [a0, a1, a2, a3, a4, a5, a6, c]; omega
  have e0 : beAt l 0 4 = w := by
    rw [beAt, hbytes, ← List.nil_append (a0 ++ _), slice_middle [] a0 _ 0 4 rfl (by simp [a0]), beNat_beBytes, Nat.mod_eq_of_lt (by omega)]
  have e1 : beAt l 4 4 = src := by
    rw [beAt, hbytes, slice_middle a0 a1 _ 4 4 (by simp [a0]) (by simp [a1]), beNat_beBytes, Nat.mod_eq_of_lt (by omega)]
  have e2 : beAt l 8 4 = dst := by
    rw [beAt, hbytes, ← List.append_assoc, slice_middle (a0 ++ a1) a2 _ 8 4 (by simp [a0, a1]) (by simp [a2]), beNat_beBytes,
      Nat.mod_eq_of_lt (by omega)]
  have e3 : beAt l 12 2 = cl := by
    rw [beAt, hbytes, ← List.append_assoc, ← List.append_assoc, slice_middle (a0 ++ a1 ++ a2) a3 _ 12 2 (by simp [a0, a1, a2]) (by simp [a3]),
      beNat_beBytes, Nat.mod_eq_of_lt (by omega)]
  have e4 : beAt l 14 2 = ep := by
    rw [beAt, hbytes, ← List.append_assoc, ← List.append_assoc, ← List.append_assoc,
      slice_middle (a0 ++ a1 ++ a2 ++ a3) a4 _ 14 2 (by simp [a0, a1, a2, a3]) (by simp [a4]), beNat_beBytes, Nat.mod_eq_of_lt (by omega)]
  have e5 : beAt l 16 4 = seq := by
    rw [beAt, hbytes, ← List.append_assoc, ← List.append_assoc, ← List.append_assoc, ← List.append_assoc,
      slice_middle (a0 ++ a1 ++ a2 ++ a3 ++ a4) a5 _ 16 4 (by simp [a0, a1, a2, a3, a4]) (by simp [a5]), beNat_beBytes, Nat.mod_eq_of_lt (by omega)]
  have hh : l = (a0 ++ a1 ++ a2 ++ a3 ++ a4 ++ a5 ++ a6) ++ (p ++ c) := by rw [hbytes]; simp only [List.append_assoc]
  have ep24 : slice l 24 p.length = p := by
    rw [hh, slice_middle _ p c 24 p.length (by simp [a0, a1, a2, a3, a4, a5, a6]) rfl]
  have ec : leAt l (24 + p.length) 4 = (crc32c (l.take (24 + p.length))).toNat := by
    have hh2 : l = (a0 ++ a1 ++ a2 ++ a3 ++ a4 ++ a5 ++ a6 ++ p) ++ c := by rw [hh, ← List.append_assoc]
    have lh : (a0 ++ a1 ++ a2 ++ a3 ++ a4 ++ a5 ++ a6 ++ p).length = 24 + p.length := by simp [a0, a1, a2, a3, a4, a5, a6]; omega
    have tk : l.take (24 + p.length) = a0 ++ a1 ++ a2 ++ a3 ++ a4 ++ a5 ++ a6 ++ p := by rw [hh2, ← lh, List.take_left]
    have lt := (crc32c (a0 ++ a1 ++ a2 ++ a3 ++ a4 ++ a5 ++ a6 ++ p)).isLt
    rw [tk, leAt, hh2, ← List.append_nil c, slice_middle _ c [] _ 4 lh (by simp [c]), leNat_leBytes, Nat.mod_eq_of_lt (by omega)]
  have n1 : l.length - 28 = p.length := by omega
  have f1 : field w 24 4 = typ := by unfold field; omega
  have f2 : field w 28 4 = 1 := by unfold field; omega
  have f3 : field w 16 5 = 0 := by unfold field; omega
  have f4 : field w 0 16 = p.length := by unfold field; omega
  have f7 : field w 22 1 = ch % 2 := by
    have := hb rtx
    have := hb syn
    unfold field; omega
  have f5 : Nat.testBit w 23 = rtx := by
    rw [Nat.testBit_eq_decide_div_mod_eq]
    cases rtx with
    | false => rw [show bnat false = 0 from rfl] at hw; simp; omega
    | true => rw [show bnat true = 1 from rfl] at hw; simp; omega
  have f6 : Nat.testBit w 21 = syn := by
    rw [Nat.testBit_eq_decide_div_mod_eq]
    cases syn with
    | false => rw [show bnat false = 0 from rfl] at hw; simp; omega
    | true => rw [show bnat true = 1 from rfl] at hw; simp; omega
  have hs' : src < 1048576 := hs
  have hd' : dst < 1048576 := hd
  simp only [parseFrame, e0, e1, e2, e3, e4, e5, n1, ep24, ec, f1, f2, f3, f4, f5, f6, f7, hok, beq_self_eq_true, Bool.and_true]
  rw [if_pos]
  simp only [Bool.and_eq_true, decide_eq_true_eq]
  omega

end Sys2Proof.Machine
end

