-- ==== Sys2Proof/Laws/Words.lean ====
section
/-! SUPPORT. What a program word does (Machine/Stoker.lean, Machine/Grate.lean): the firebox after it, and its frame. -/

namespace Sys2Proof.Machine

theorem OnlyTile.of_counted {s m t : State} {u : Nat} {b : Tile} (h : Counted (s.setTile u b) m)
    (ht : t = { m with tiles := t.tiles }) (ho : ∀ v, v ≠ u → t.tile v = s.tile v) : OnlyTile s t u := by
  refine ⟨?_, ho, ?_⟩
  · have hr := h.rest
    rw [ht]
    conv_lhs => rw [hr]
    rfl
  · intro o h1 h2
    have hw := h.words o h1 h2
    have : t.bar o = m.bar o := by rw [ht]; rfl
    rw [this, hw]; rfl

/-- A word whose effect leaves the module, but for its own firebox and counting, as it is. -/
theorem word_next {s : State} {t : BitVec 8} {f : State → State × WordEnd} {b : Tile} {m : State} {n : Nat}
    (hi : s.issues t.toNat = true) (hf : f s = (m, .next n)) (hm : Counted (s.setLtile t.toNat b) m) :
    OnlyTile s (s.word t f) (s.unitOf t.toNat) ∧
    (s.word t f).ltile t.toNat = { b with stoker := { b.stoker with waitWord := false }.goto (b.stoker.pc + n) } := by
  have hb : m.ltile t.toNat = b := by rw [hm.ltile]; simp
  have hw : s.word t f = m.setLtile t.toNat { b with stoker := { b.stoker with waitWord := false }.goto (b.stoker.pc + n) } := by
    simp only [State.word, hi, Bool.not_true, Bool.false_eq_true, if_false, hf, hb]
  rw [hw]
  refine ⟨OnlyTile.of_counted hm rfl ?_, State.ltile_setLtile _ _ _⟩
  intro v hv
  have hu : m.unitOf t.toNat = s.unitOf t.toNat := by rw [hm.unitOf]; simp
  unfold State.setLtile
  rw [hu, State.tile_setTile, if_neg hv, hm.tile, State.setLtile, State.tile_setTile, if_neg hv]

/-- A grate instruction that completes without a fault, a wait, a free value or a refused store. -/
theorem grate_completes {s : State} {t : BitVec 8} {f : GEnv → Tile → GRes} {b : Tile} (h : GrateReady s t)
    {l k m : Nat} (hf : f (s.grateEnv (s.ltile t.toNat)) (s.ltile t.toNat) = { t := b, lanes := l, sfu := k, hard := m }) :
    OnlyTile s (s.grate t f) (s.unitOf t.toNat) ∧ (s.grate t f).ltile t.toNat = { b with stoker := b.stoker.past } := by
  obtain ⟨hi, hg⟩ := h
  have he : s.grate t f = s.word t (fun s =>
      s.grateEnd t.toNat (s.ltile t.toNat).stoker.pc (f (s.grateEnv (s.ltile t.toNat)) (s.ltile t.toNat))) := by
    simp only [State.grate, hg, Bool.not_true, Bool.false_eq_true, if_false]
  rw [he]
  refine word_next (m := (s.setLtile t.toNat b).countGrate ((s.setLtile t.toNat b).unitOf t.toNat)
    { t := b, lanes := l, sfu := k, hard := m }) (n := 1) hi ?_ (counted_foldl _ (fun _ _ => counted_count _ _ _ _) _ _)
  simp only [hf, State.grateEnd, Bool.false_eq_true, if_false, Bool.or_self]

/-- The same for an instruction that reads only its firebox. -/
theorem gratePlain_completes {s : State} {t : BitVec 8} {f : Tile → Tile} {lanes sfu : Tile → Nat} (h : GrateReady s t) :
    OnlyTile s (s.gratePlain t f lanes sfu) (s.unitOf t.toNat) ∧
    (s.gratePlain t f lanes sfu).ltile t.toNat = { f (s.ltile t.toNat) with stoker := (f (s.ltile t.toNat)).stoker.past } :=
  grate_completes h rfl

end Sys2Proof.Machine
end

