-- ==== Sys2Proof/Laws/Lanes.lean ====
section
/-! SUPPORT. Lanes of vector registers read back (Machine/Operands.lean). -/

namespace Sys2Proof.Machine

/-- A lane of grouped bytes. -/
theorem nth_groupLe (k n : Nat) (l : List Byte) (i : Nat) (h : i < n) :
    nth 0 (groupLe k n l) i = leNat ((l.drop (k * i)).take k) := by
  induction n generalizing l i with
  | zero => omega
  | succ n ih =>
    cases i with
    | zero => simp [groupLe, nth]
    | succ i =>
      rw [groupLe, nth, ih _ _ (by omega), List.drop_drop]
      congr 3
      rw [Nat.mul_add, Nat.mul_one]; omega

theorem groupLe_length (k n : Nat) (l : List Byte) : (groupLe k n l).length = n := by
  induction n generalizing l with
  | zero => rfl
  | succ n ih => simp [groupLe, ih]

@[simp] theorem Tile.lanes_length (t : Tile) (r w n : Nat) : (t.lanes r w n).length = n := groupLe_length _ _ _

theorem drop_take_map_range {α : Type} (f : Nat → α) (N a k : Nat) (h : a + k ≤ N) :
    (((List.range N).map f).drop a).take k = (List.range k).map (fun j => f (a + j)) := by
  apply List.ext_getElem?
  intro i
  by_cases hi : i < k
  · rw [List.getElem?_take_of_lt hi, List.getElem?_drop, List.getElem?_map, List.getElem?_map, List.getElem?_range (by omega),
      List.getElem?_range hi]
    rfl
  · rw [List.getElem?_eq_none (by simp; omega), List.getElem?_eq_none (by simp; omega)]

/-- A lane, byte by byte. -/
theorem Tile.nth_lanes (t : Tile) (r w n i : Nat) (h : i < n) :
    nth 0 (t.lanes r w n) i = leNat ((List.range (w / 8)).map (fun k => mread t.vregs (2048 * r + (w / 8 * i + k)))) := by
  unfold Tile.lanes
  have hle : w / 8 * i + w / 8 ≤ n * (w / 8) := by
    calc w / 8 * i + w / 8 = (i + 1) * (w / 8) := by ring
      _ ≤ n * (w / 8) := Nat.mul_le_mul_right _ h
  rw [nth_groupLe _ _ _ _ h, mreadN_eq, drop_take_map_range _ _ _ _ hle]

theorem flatMap_length_const {α : Type} (l : List (List α)) (k : Nat) (h : ∀ x ∈ l, x.length = k) :
    (l.flatMap id).length = l.length * k := by
  induction l with
  | nil => simp
  | cons a r ih =>
    simp only [List.flatMap_cons, id, List.length_append, List.length_cons]
    rw [ih (fun x hx => h x (List.mem_cons_of_mem _ hx)), h a (List.mem_cons_self ..)]
    ring

theorem flatMap_getD {α : Type} (d : α) (l : List (List α)) (k i j : Nat) (h : ∀ x ∈ l, x.length = k) (hj : j < k) (hi : i < l.length) :
    (l.flatMap id).getD (k * i + j) d = (l[i]).getD j d := by
  induction l generalizing i with
  | nil => simp at hi
  | cons a r ih =>
    have ha := h a (List.mem_cons_self ..)
    cases i with
    | zero =>
      simp only [List.flatMap_cons, id, Nat.mul_zero, Nat.zero_add, List.getElem_cons_zero]
      rw [List.getD_append _ _ _ _ (by omega)]
    | succ i =>
      simp only [List.flatMap_cons, id, List.getElem_cons_succ]
      have hk : k * (i + 1) = k + k * i := by ring
      rw [List.getD_append_right _ _ _ _ (by rw [ha, hk]; omega), ha, hk]
      have : k + k * i + j - k = k * i + j := by omega
      rw [this]
      exact ih i (fun x hx => h x (List.mem_cons_of_mem _ hx)) (by simpa using hi)

/-- The bytes that putLanes stores. -/
def putBytes (t : Tile) (r w : Nat) (vals : List (Option Nat)) : List Byte :=
  (List.zipWith (fun o v => leBytes (w / 8) (v.getD o)) (t.lanes r w vals.length) vals).flatMap id

theorem putBytes_parts (t : Tile) (r w : Nat) (vals : List (Option Nat)) :
    ∀ x ∈ List.zipWith (fun o v => leBytes (w / 8) (v.getD o)) (t.lanes r w vals.length) vals, x.length = w / 8 := by
  intro x hx
  obtain ⟨i, hi, rfl⟩ := List.mem_iff_getElem.mp hx
  simp

@[simp] theorem putBytes_length (t : Tile) (r w : Nat) (vals : List (Option Nat)) :
    (putBytes t r w vals).length = vals.length * (w / 8) := by
  unfold putBytes
  rw [flatMap_length_const _ _ (putBytes_parts t r w vals)]
  simp

theorem Tile.putLanes_eq (t : Tile) (r w : Nat) (vals : List (Option Nat)) :
    t.putLanes r w vals = { t with vregs := mwrite t.vregs (2048 * r) (putBytes t r w vals) } := rfl

/-- A lane written is read back cut to its width; a lane given as none keeps its value. -/
theorem Tile.nth_lanes_putLanes (t : Tile) (r w : Nat) (vals : List (Option Nat)) (i : Nat) (hi : i < vals.length) :
    nth 0 ((t.putLanes r w vals).lanes r w vals.length) i = ((vals[i]).getD (nth 0 (t.lanes r w vals.length) i)) % 256 ^ (w / 8) := by
  rw [Tile.nth_lanes _ _ _ _ _ hi, ← leNat_leBytes]
  congr 1
  apply List.ext_getElem
  · simp
  intro j h1 h2
  have hj : j < w / 8 := by simpa using h1
  have hlen : w / 8 * i + j < vals.length * (w / 8) := by
    calc w / 8 * i + j < w / 8 * i + w / 8 := by omega
      _ = (i + 1) * (w / 8) := by ring
      _ ≤ vals.length * (w / 8) := Nat.mul_le_mul_right _ hi
  simp only [List.getElem_map, List.getElem_range, Tile.putLanes_eq, mread_mwrite, putBytes_length]
  rw [if_pos (by omega), Nat.add_sub_cancel_left]
  unfold putBytes
  rw [flatMap_getD 0 _ _ i j (putBytes_parts t r w vals) hj (by simpa using hi)]
  have hn : (t.lanes r w vals.length)[i]'(by simpa using hi) = nth 0 (t.lanes r w vals.length) i := by
    rw [nth_eq_getD, List.getD_eq_getElem _ _ (by simpa using hi)]
  rw [List.getElem_zipWith, hn, List.getD_eq_getElem _ _ (by simpa using hj)]

/-- Bytes outside the lanes written are as before. -/
theorem Tile.vregs_putLanes (t : Tile) (r w : Nat) (vals : List (Option Nat)) (x : Nat)
    (h : ¬ (2048 * r ≤ x ∧ x < 2048 * r + vals.length * (w / 8))) : mread (t.putLanes r w vals).vregs x = mread t.vregs x := by
  rw [Tile.putLanes_eq]
  simp only [mread_mwrite, putBytes_length]
  rw [if_neg h]

/-- A lane is below its width. -/
theorem Tile.nth_lanes_lt (t : Tile) (r w n i : Nat) : nth 0 (t.lanes r w n) i < 256 ^ (w / 8) := by
  by_cases h : i < n
  · rw [Tile.nth_lanes _ _ _ _ _ h]
    have := leNat_lt ((List.range (w / 8)).map (fun k => mread t.vregs (2048 * r + (w / 8 * i + k))))
    simpa using this
  · rw [nth_eq_getD, List.getD_eq_default _ _ (by simp; omega)]
    exact Nat.pow_pos (by decide)

/-- A lane width is 8, 16 or 32. -/
theorem laneWidth_cases (f : BitVec 4) : laneWidth f = 8 ∨ laneWidth f = 16 ∨ laneWidth f = 32 := by
  unfold laneWidth
  split
  · simp
  · split <;> simp

/-! ## Flags -/

theorem getLsbD_foldl_or {α : Type} (f : α → W32) (l : List α) (z : W32) (j : Nat) :
    (l.foldl (fun acc p => acc ||| f p) z).getLsbD j = true ↔ z.getLsbD j = true ∨ ∃ p ∈ l, (f p).getLsbD j = true := by
  induction l generalizing z with
  | nil => simp
  | cons a r ih =>
    rw [List.foldl_cons, ih]
    simp only [BitVec.getLsbD_or, Bool.or_eq_true, List.mem_cons, exists_eq_or_imp]
    tauto

theorem Tile.reg_raise (t : Tile) (v : W32) (o : Nat) :
    (t.raise v).reg o = if o = 0x0100 then t.reg 0x0100 ||| v else t.reg o := Tile.reg_setReg ..

@[simp] theorem Tile.nfSeen_raise (t : Tile) (v : W32) : (t.raise v).nfSeen = (t.nfSeen || v.getLsbD 8) := rfl

/-! ## Lane and mask results -/

theorem pow_laneBytes {w : Nat} (hw : w = 8 ∨ w = 16 ∨ w = 32) : 256 ^ (w / 8) = 2 ^ w := by
  rcases hw with rfl | rfl | rfl <;> decide

theorem foldl_or_map {α : Type} (l : List α) (h : α → W32) :
    (l.map h).foldl (fun acc p => acc ||| p) (0 : W32) = l.foldl (fun acc p => acc ||| h p) 0 := by
  rw [List.foldl_map]

/-- Flags raised by the active ones of n lanes. -/
theorem flagsRaised_of {a b : Tile} {g : GrateWord} {n : Nat} {γ : Type} {fl : Nat → W32} {rs : List γ} {h : γ → W32} {m : Tile}
    (hm : m.regs = a.regs) (hn : m.nfSeen = a.nfSeen)
    (hb : b.regs = (m.raise (rs.foldl (fun acc p => acc ||| h p) 0)).regs)
    (hs : b.nfSeen = (m.raise (rs.foldl (fun acc p => acc ||| h p) 0)).nfSeen)
    (hr : ∀ j, (∃ p ∈ rs, (h p).getLsbD j = true) ↔ ∃ i, i < n ∧ a.active g i = true ∧ (fl i).getLsbD j = true) :
    flagsRaised a b g n fl := by
  have hreg : ∀ o, b.reg o = if o = 0x0100 then a.reg 0x0100 ||| rs.foldl (fun acc p => acc ||| h p) 0 else a.reg o := by
    intro o
    have h1 : b.reg o = (m.raise (rs.foldl (fun acc p => acc ||| h p) 0)).reg o := by unfold Tile.reg; rw [hb]
    have h2 : ∀ o, m.reg o = a.reg o := by intro o; unfold Tile.reg; rw [hm]
    rw [h1, Tile.reg_raise, h2, h2]
  refine ⟨fun o ho => by rw [hreg, if_neg ho], fun j => ?_, ?_⟩
  · rw [hreg, if_pos rfl, BitVec.getLsbD_or, Bool.or_eq_true, getLsbD_foldl_or, hr]
    simp
  · rw [hs, Tile.nfSeen_raise, hn, Bool.or_eq_true, getLsbD_foldl_or, hr]
    simp

/-- What writeLanes does. -/
theorem Tile.writeLanes_result (a : Tile) (g : GrateWord) (w n : Nat) (f : Nat → Nat × W32) (hw : w = 8 ∨ w = 16 ∨ w = 32) :
    lanesWritten a (a.writeLanes g w n f) g w n (fun i => (f i).1) ∧
    vregsKept a (a.writeLanes g w n f) [g.vd.toNat] (n * (w / 8)) ∧
    flagsRaised a (a.writeLanes g w n f) g n (fun i => (f i).2) ∧
    a.writeLanes g w n f = { a with
      vregs := (a.writeLanes g w n f).vregs, regs := (a.writeLanes g w n f).regs, nfSeen := (a.writeLanes g w n f).nfSeen } := by
  set rs := (List.range n).map (fun i => if a.active g i then let r := f i; (laneOut true g.mz r.1, r.2)
    else (laneOut false g.mz 0, (0 : W32))) with hrs
  set vals := rs.map (fun p => p.1) with hvals
  have hlen : vals.length = n := by simp [hvals, hrs]
  have hb : a.writeLanes g w n f = (a.putLanes g.vd.toNat w vals).raise (rs.foldl (fun acc p => acc ||| p.2) 0) := rfl
  refine ⟨?_, ?_, ?_, rfl⟩
  · intro i hi
    have h1 : (a.writeLanes g w n f).lanes g.vd.toNat w n = (a.putLanes g.vd.toNat w vals).lanes g.vd.toNat w vals.length := by
      rw [hb, hlen]; rfl
    rw [h1, Tile.nth_lanes_putLanes _ _ _ _ _ (by omega), pow_laneBytes hw]
    have h0 : nth 0 (a.lanes g.vd.toNat w vals.length) i = nth 0 (a.lanes g.vd.toNat w n) i := by rw [hlen]
    rw [h0]
    have hv : vals[i]'(by omega) = if a.active g i then some (f i).1 else if g.mz then some 0 else none := by
      simp only [hvals, hrs, List.getElem_map, List.getElem_range]
      by_cases h : a.active g i <;> simp [h, laneOut]
    rw [hv]
    by_cases h : a.active g i
    · simp [h]
    · by_cases hz : g.mz
      · simp [h, hz]
      · have := Tile.nth_lanes_lt a g.vd.toNat w n i
        rw [pow_laneBytes hw] at this
        simp [h, hz, Nat.mod_eq_of_lt this]
  · intro x hx
    have := Tile.vregs_putLanes a g.vd.toNat w vals x (by rw [hlen]; exact hx _ (List.mem_singleton.mpr rfl))
    rw [hb]; exact this
  · refine flagsRaised_of (rs := rs) (h := fun p => p.2) (m := a.putLanes g.vd.toNat w vals) rfl rfl (by rw [hb]) (by rw [hb]) ?_
    intro j
    constructor
    · rintro ⟨p, hp, hj⟩
      obtain ⟨i, hi, rfl⟩ := List.mem_map.mp (hrs ▸ hp)
      by_cases h : a.active g i
      · exact ⟨i, List.mem_range.mp hi, h, by simpa [h] using hj⟩
      · simp [h] at hj
    · rintro ⟨i, hi, h, hj⟩
      exact ⟨_, hrs ▸ List.mem_map.mpr ⟨i, List.mem_range.mpr hi, rfl⟩, by simpa [h] using hj⟩

/-- A row that writes lanes completes with its lane result. -/
theorem laneResult_plain {s : State} {t : BitVec 8} {f : Tile → Tile} {lanes sfu : Tile → Nat} {g : GrateWord} {w n : Nat} {r : Nat → Nat × W32}
    (h : GrateReady s t) (hw : w = 8 ∨ w = 16 ∨ w = 32) (hf : f (s.ltile t.toNat) = (s.ltile t.toNat).writeLanes g w n r) :
    LaneResult s (s.gratePlain t f lanes sfu) t g w n (fun i => (r i).1) (fun i => (r i).2) := by
  obtain ⟨h1, h2⟩ := gratePlain_completes (f := f) (lanes := lanes) (sfu := sfu) h
  obtain ⟨l1, l2, l3, l4⟩ := Tile.writeLanes_result (s.ltile t.toNat) g w n r hw
  rw [hf] at h2
  have hst : ((s.ltile t.toNat).writeLanes g w n r).stoker = (s.ltile t.toNat).stoker := rfl
  refine ⟨h1, ?_, ?_, ?_, ?_⟩
  · rw [h2, hst]
    conv_lhs => rw [l4]
  · rw [h2]; exact l1
  · rw [h2]; exact l2
  · rw [h2]; exact l3

/-- The same for a row that reads its environment. -/
theorem laneResult_grate {s : State} {t : BitVec 8} {f : GEnv → Tile → GRes} {g : GrateWord} {w n : Nat} {r : Nat → Nat × W32}
    (h : GrateReady s t) (hw : w = 8 ∨ w = 16 ∨ w = 32)
    {l k m : Nat}
    (hf : f (s.grateEnv (s.ltile t.toNat)) (s.ltile t.toNat) =
      { t := (s.ltile t.toNat).writeLanes g w n r, lanes := l, sfu := k, hard := m }) :
    LaneResult s (s.grate t f) t g w n (fun i => (r i).1) (fun i => (r i).2) := by
  obtain ⟨h1, h2⟩ := grate_completes h hf
  obtain ⟨l1, l2, l3, l4⟩ := Tile.writeLanes_result (s.ltile t.toNat) g w n r hw
  have hst : ((s.ltile t.toNat).writeLanes g w n r).stoker = (s.ltile t.toNat).stoker := rfl
  refine ⟨h1, ?_, ?_, ?_, ?_⟩
  · rw [h2, hst]
    conv_lhs => rw [l4]
  · rw [h2]; exact l1
  · rw [h2]; exact l2
  · rw [h2]; exact l3

/-! ## Masks -/

theorem testBit_bits (l : List Bool) (i : Nat) :
    Nat.testBit (l.foldr (fun b acc => bnat b + 2 * acc) 0) i = l.getD i false := by
  induction l generalizing i with
  | nil => simp
  | cons b r ih =>
    have hb : bnat b = b.toNat := by cases b <;> rfl
    cases i with
    | zero => rw [List.foldr_cons, Nat.testBit_zero, hb]; cases b <;> simp
    | succ i =>
      rw [List.foldr_cons, Nat.testBit_add_one]
      have : (bnat b + 2 * r.foldr (fun b acc => bnat b + 2 * acc) 0) / 2 = r.foldr (fun b acc => bnat b + 2 * acc) 0 := by
        rw [hb]
        cases b
        · simp
        · simp; omega
      rw [this, ih]; simp

/-- A bit of a mask word. -/
theorem getLsbD_maskOf (l : List Bool) (i : Nat) : (maskOf l).getLsbD i = (decide (i < 2048) && l.getD i false) := by
  unfold maskOf
  rw [BitVec.getLsbD_ofNat, testBit_bits]

/-- What writeBits does. -/
theorem Tile.writeBits_result (a : Tile) (g : GrateWord) (n : Nat) (f : Nat → Bool × W32) :
    (∀ i, i < 2048 → ((a.writeBits g n f).mask g.vd.toNat).getLsbD i =
      (decide (i < n) && (if a.active g i then (f i).1 else !g.mz && (a.mask g.vd.toNat).getLsbD i))) ∧
    (∀ r, r % 8 ≠ g.vd.toNat % 8 → (a.writeBits g n f).mask r = a.mask r) ∧
    flagsRaised a (a.writeBits g n f) g n (fun i => (f i).2) ∧
    a.writeBits g n f = { a with
      masks := (a.writeBits g n f).masks, regs := (a.writeBits g n f).regs, nfSeen := (a.writeBits g n f).nfSeen } := by
  set rs := (List.range n).map (fun i => if a.active g i then f i else (!g.mz && (a.mask g.vd.toNat).getLsbD i, (0 : W32))) with hrs
  have hb : a.writeBits g n f = (a.setMask g.vd.toNat (maskOf (rs.map (fun p => p.1)))).raise (rs.foldl (fun acc p => acc ||| p.2) 0) := rfl
  have hm : ∀ r, (a.writeBits g n f).mask r = (a.setMask g.vd.toNat (maskOf (rs.map (fun p => p.1)))).mask r := by
    intro r; rw [hb]; rfl
  refine ⟨?_, ?_, ?_, rfl⟩
  · intro i hi
    rw [hm, Tile.mask_setMask, if_pos rfl, getLsbD_maskOf]
    by_cases h : i < n
    · rw [List.getD_eq_getElem _ _ (by simpa [hrs] using h)]
      by_cases ha : a.active g i <;> simp [hrs, h, hi, ha]
    · rw [List.getD_eq_default _ _ (by simp [hrs]; omega)]; simp [h]
  · intro r hr
    rw [hm, Tile.mask_setMask, if_neg hr]
  · refine flagsRaised_of (rs := rs) (h := fun p => p.2) (m := a.setMask g.vd.toNat (maskOf (rs.map (fun p => p.1)))) rfl rfl (by rw [hb]) (by rw [hb]) ?_
    intro j
    constructor
    · rintro ⟨p, hp, hj⟩
      obtain ⟨i, hi, rfl⟩ := List.mem_map.mp (hrs ▸ hp)
      by_cases h : a.active g i
      · exact ⟨i, List.mem_range.mp hi, h, by simpa [h] using hj⟩
      · simp [h] at hj
    · rintro ⟨i, hi, h, hj⟩
      exact ⟨_, hrs ▸ List.mem_map.mpr ⟨i, List.mem_range.mpr hi, rfl⟩, by simpa [h] using hj⟩

/-- A row that writes a mask completes with its mask result. -/
theorem maskResult_plain {s : State} {t : BitVec 8} {f : Tile → Tile} {lanes sfu : Tile → Nat} {g : GrateWord} {n : Nat} {r : Nat → Bool × W32}
    (h : GrateReady s t) (hf : f (s.ltile t.toNat) = (s.ltile t.toNat).writeBits g n r) :
    MaskResult s (s.gratePlain t f lanes sfu) t g n (fun i => (r i).1) (fun i => (r i).2) := by
  obtain ⟨h1, h2⟩ := gratePlain_completes (f := f) (lanes := lanes) (sfu := sfu) h
  obtain ⟨l1, l2, l3, l4⟩ := Tile.writeBits_result (s.ltile t.toNat) g n r
  rw [hf] at h2
  have hst : ((s.ltile t.toNat).writeBits g n r).stoker = (s.ltile t.toNat).stoker := rfl
  refine ⟨h1, ?_, ?_, ?_, ?_⟩
  · rw [h2, hst]
    conv_lhs => rw [l4]
  · rw [h2]; exact l1
  · rw [h2]; exact l2
  · rw [h2]; exact l3

/-- A row that writes one scalar register. -/
theorem scalarResult_plain {s : State} {t : BitVec 8} {f : Tile → Tile} {lanes sfu : Tile → Nat} {n : Nat} {v : W32}
    (h : GrateReady s t) (hf : f (s.ltile t.toNat) = (s.ltile t.toNat).xset n v) :
    ScalarResult s (s.gratePlain t f lanes sfu) t n v := by
  obtain ⟨h1, h2⟩ := gratePlain_completes (f := f) (lanes := lanes) (sfu := sfu) h
  rw [hf] at h2
  have hst : ((s.ltile t.toNat).xset n v).stoker = (s.ltile t.toNat).stoker := by unfold Tile.xset; split <;> rfl
  have hx : (s.ltile t.toNat).xset n v = { s.ltile t.toNat with x := ((s.ltile t.toNat).xset n v).x } := by
    unfold Tile.xset; split <;> rfl
  refine ⟨h1, ?_, ?_⟩
  · rw [h2, hst]
    conv_lhs => rw [hx]
  · intro k
    rw [h2]
    exact Tile.xget_xset _ _ _ _

end Sys2Proof.Machine
end

