-- ==== Sys2Proof/Tests/Slice0.lean ====
section
/-! SUPPORT. The model's own tests: ill-formed commands, values of the spec's worked examples, and a witness for the hypotheses of every
statement. -/

namespace Sys2Proof.Tests

open Sys2Proof.Machine

set_option Elab.async false

/-! ## Ill-formed commands: one term for each check -/

/-- A host access is of 4 or 8 bytes and aligned to its size. -/
theorem test_wf_bar0_access :
    [Instr.mailboxRequestWrite 0 2 [0, 0, 0, 0], .mailboxRequestWrite 0 0 [0, 0], .bar0BadAccess true 0x100 4,
      .registerWrite .bar0 0x2 0 false, .registerWrite .ioDie 0x4 0 true, .registerWrite (.firebox 272) 0 0 false].all
      (fun c => !c.wellFormed) = true := by decide

/-- Pages, entry counts and lengths of Kwaop requests. -/
theorem test_wf_requests :
    [Instr.devInfo .sideband 7, .parityGroupSet .sideband false (List.replicate 9 0) 0, .setWrite .sideband [],
      .setWrite .sideband (List.replicate 33 (0, 0)), .setStore .sideband false (List.replicate 33 0),
      .keyRotate .sideband (List.replicate 39 0), .portConfig .sideband [], .portConfig .sideband (List.replicate 33 (0, 0))].all
      (fun c => !c.wellFormed) = true := by decide

/-- Numbers of sources, counter blocks, clock domains and inputs. -/
theorem test_wf_service_numbers :
    [Instr.faultForce .sideband 0x0000 true 1, .faultForce .sideband 0x2114 true 1, .faultForce .sideband 0x2000 true 0,
      .ctrConfig .sideband 0x300 0 false true false 1, .scanDump .sideband 5 4, .scanDump .sideband 0 327,
      .clkSelectDomain .sideband 327 0, .clkSelectDomain .sideband 0 3, .faultReport 0xF000 0, .counterWrap 0x114 0,
      .traceEvent 16 0 0 0 0 0, .domsel 327].all (fun c => !c.wellFormed) = true := by decide

/-- A poker line is printable; a request on BAR2 stays within a page. -/
theorem test_wf_lines_and_bar2 :
    [Instr.pokerLine [10], .pokerLine [127], .bar2Read 0xFFF 2, .bar2Read 0 0, .bar2Write 0x1FFF [0, 0], .bar2Write 0 []].all
      (fun c => !c.wellFormed) = true := by decide

/-- Grate words: a reserved format, a rounding mode above 4, SR where it is not allowed, MEN on a row without it, BS on a row
without it, a register past the last, IMM on a row without it, and the two stages of VSMXF. -/
theorem test_wf_grate_words :
    [Instr.vadd 0 { fmt := 15 }, .vadd 0 { rm := 5 }, .vand 0 { rm := 1 }, .setvl 0 { men := true }, .vmov 0 { imm := 1, bs := true },
      .mand 0 { vd := 8 }, .vadd 0 { imm := 1 }, .vsmxfMerge 0 { imm := 16 }, .vsmxfProbabilities 0 {}].all
      (fun c => !c.wellFormed) = true := by decide

/-- Fireboxes, hobs, loops and passes. -/
theorem test_wf_tile_numbers :
    [Instr.grateRegisterUe 272 false 0, .grateRegisterCe 272 false 0, .tbufReqSet 272, .tbufReqClear 272, .effLvlApply 272,
      .spareSelfTest 272 true, .sfuStoreError 272 true, .cellLevelInjection (.scratch 272 0) 0 false, .loop 0 0 1,
      .passStart 0 3, .passCommit 0 3, .hstateUe 0 3 (.acc 0), .hobStateCe 0 3 (.gsb false), .checkMismatch 0 3 0 { parity := true },
      .checkMismatch 0 0 0 {}, .replayMismatch 0 0 0 {}].all (fun c => !c.wellFormed) = true := by decide

/-- Pass descriptors: a hob of 3, a reserved format pair, a split pass with no quadrant, one flue used twice. -/
theorem test_wf_passes :
    [Instr.pass 0 { hob := 3 }, .pass 0 { fmtA := 15, fmtB := 15 }, .pass 0 { fmtA := 0, fmtB := 1 },
      .pass 0 { split := true, quadEn := 0 }, .pass 0 { flueA := 3, flueB := 3 }, .pass 0 { flueA := 32, flueB := 3 },
      .pass 0 { flueA := 1, flueB := 2, mValid := 0 }].all (fun c => !c.wellFormed) = true := by decide

/-- Pages, frames and channels of the memory. -/
theorem test_wf_memory_numbers :
    [Instr.translationMiss 273 0 0, .translationMiss 0 0 (2 ^ 26), .inval 0 1 (2 ^ 26) false, .pageMove 0 (2 ^ 26),
      .deltaPageSend 0 (2 ^ 26), .correctedError .t1 (2 ^ 40), .uncorrectableRead (.stream 0 0 .t1 (2 ^ 40) 0),
      .uncorrectableRead (.pageMap 0 (2 ^ 23) false), .pageRetirement .t2 (2 ^ 40) 1, .patrolScrubRead .t1 (2 ^ 40) 0 .clean false,
      .retrainWindowEnd .t2 16, .retrainingFailure .t2 16, .migrationCopy 0 (some (3 * 2 ^ 20))].all
      (fun c => !c.wellFormed) = true := by decide

/-- Clock domains and kindling lists. -/
theorem test_wf_domains_and_kindling :
    [Instr.clkCtlSel 327 0, .clkCtlSel 323 1, .clkCtlForce 325 1, .domainHold 327 true, .clockSwitchDone 327, .switchTimeout 327,
      .clkMonWindow 327 0, .domainDead 327, .beatToken 327, .kindlingSelfTest [272] [] [], .kindlingSelfTest [] [256] [],
      .kindlingSelfTest [] [] [16]].all (fun c => !c.wellFormed) = true := by decide

/-- Boundary terms that are well formed. -/
theorem test_wf_boundaries :
    [Instr.mailboxRequestWrite 15 0xFF8 (List.replicate 8 0), .devInfo .poker 6, .faultForce .sideband 0xE000 true 1,
      .ctrConfig .sideband 0x2FF 7 true true true 1023, .scanDump .sideband 326 326, .bar2Read 0xFFF 1, .tbufReqSet 271,
      .vadd 255 { rm := 3, men := true, msk := 7 }, .pass 0 { flueA := 30, flueB := 31 }, .inval 3 (2 ^ 26 - 1) 1 false].all
      (fun c => c.wellFormed) = true := by decide

/-- Words written out from Table 04-2: VADD v3 := v1 + v2 under m5 with SAT 1, and a word whose reserved bit 16 is set. -/
theorem test_grate_command_words :
    grateCommand 9 0x20001D0C22000000 = some (.vadd 9 { men := true, msk := 5, vd := 3, va := 1, vb := 2 }) ∧
    grateCommand 9 0x20001D0C22010000 = none := by decide +kernel

/-- The hypotheses of GrateWordRoundTrip's last clause: a word of VSMXF stage 1 spells its command. -/
theorem wit_GrateWordRoundTrip :
    grateCommand 0 0x8800000000000010 = some (.vsmxfProbabilities 0 { sat := false, imm := 16 }) := by decide +kernel

/-! ## Values of the spec's worked examples -/

/-- The SB16 block of 02: S = 0x7B, codes 0x3FC0 and 0xBB01. -/
theorem test_sb16_example :
    (let r := sbEncode [some (val32 0x3DBFE5C9), some (val32 0xB900F990)]; (r.1, r.2.1)) = (0x7B, [0x3FC0, 0xBB01]) := by decide +kernel

/-- Stochastic rounding of 1 + 2^-10 to BF16 (02). -/
theorem test_sr_example :
    (convertNum 1 (.sr 0xE3A1) true (val32 0x3F802000)).1 = 0x3F81 ∧ (convertNum 1 (.sr 0x1234) true (val32 0x3F802000)).1 = 0x3F80 := by
  decide +kernel

/-- The scanned recurrence of 04. -/
theorem test_vscanlr_example :
    (let t : Tile := ((({ vl := 8, masks := [(2, 16)] } : Tile).putLanes 1 32
        ([0x3F000000, 0x3F400000, 0x3F000000, 0x3E800000, 0x3F000000, 0x3F000000, 0x3F400000, 0x3F000000].map some)).putLanes 3 32
        ([0x3F800000, 0x3F800000, 0x40800000, 0x40400000, 0x40400000, 0x3F800000, 0x40000000, 0x40000000].map some)).putLanes 0 32
        [none, none, none, none, none, none, none, some 0x3F800000];
      (gScan true false t { vd := 4, va := 1, vb := 3, vc := 0, msk := 2, imm := 5 }).lanes 4 32 8) =
      [0x3FC00000, 0x40080000, 0x40A20000, 0x40888000, 0x40400000, 0x40200000, 0x40780000, 0x407C0000] := by decide +kernel

/-- The statistics of 05: lanes 2, 4, 6, 8 and 1, 3, 5, 7 merge to n = 8, mean 4.5 and variance 5.25. -/
theorem test_vstat_example :
    (let feed := fun (t : Tile) (p : Nat × Nat) => gStat (t.putLanes 0 32 [some p.1, some p.2]) { vd := 4, va := 0 };
      let t := [(0x40000000, 0x3F800000), (0x40800000, 0x40400000), (0x40C00000, 0x40A00000), (0x41000000, 0x40E00000)].foldl feed
        ({ vl := 2 } : Tile);
      let u := gStatM t { vd := 8, va := 4, imm := 0x11 };
      ((u.lanes 8 32 1), (u.lanes 9 32 1), (u.lanes 10 32 1))) = ([8], [0x40900000], [0x40A80000]) := by decide +kernel

/-- Row 1 of the soft maximum of 05: probabilities 0.5, +0, 0.5, +0 in BF16. -/
theorem test_smx_example :
    ([Num.inf false, val32 0x40400000, .inf false, .inf true].map (fun a => (smxProb 1 .rne 0x7F800000 0x40000000 a).1)) =
      [0x3F00, 0, 0x3F00, 0] := by decide +kernel

/-- The descriptor of 06. -/
def gradDesc : Desc :=
  { ndim := 3, fmt := 1, acc := 3, base := 0x10003FE000, allocBase := 0x1000000000, allocSize := 33554432
    extents := [4096, 512, 8], strides := [1, -4096, 2097152] }

/-- Its range is its whole allocation, and its variants fail as the example says. -/
theorem test_desc_example :
    gradDesc.ranges.1 = ((0x1000000000 : Int), 0x1000000000 + 33554431) ∧ gradDesc.rangeOk = true ∧ gradDesc.aliasOk = true ∧
      ({ gradDesc with acc := 1, strides := [1, -4096, 0] } : Desc).aliasOk = true ∧
      ({ gradDesc with acc := 2, strides := [1, -4096, 0] } : Desc).aliasOk = false ∧
      ({ gradDesc with base := gradDesc.base + 8192 } : Desc).rangeOk = false := by decide +kernel

/-- The cartridge life of 08. -/
theorem test_life_example :
    (let k : Cartridge := { bytesWritten := 40 * 10 ^ 15, rate7d := 800 }; (usedBp k, daysLeft k, lifeState k)) = (2500, 1736, 0) := by
  decide +kernel

/-- The first addition of the collective of 11: 1.0 + 2^-9 travels as 1.0 in narrow mode and whole in wide mode. -/
theorem test_quantise_example :
    (let l := (add32 0x3F800000 0x3B000000).1 :: List.replicate 63 (0 : W32)
     (quantise false l).head? = some 0x3F800000 ∧ (quantise true l).head? = some 0x3F804000) := by
  decide +kernel

/-! ## Small states -/

/-- A module after kindling: the link up, the compute dies powered. -/
def live : State :=
  { State.reset with ctl := { linkUp := true }, pwr := { stage := 8, diesUp := true }, clk := { started := true } }

/-- The same with one firebox. -/
def withTile (u : Nat) (tl : Tile) : State := { live with tiles := [(u, tl)] }

/-- The same with one stored BAR0 word. -/
def withBar (off : Nat) (v : W32) : State := { live with bar0 := [(off, v)] }

/-- The same with one word of the I/O die. -/
def withIo (off : Nat) (v : W32) : State := { live with io := [(off, v)] }

/-- The same with context 0. -/
def withCtx (c : Ctx) : State := { live with ctxs := [(0, c)] }

/-- The same with settings in force. -/
def withSet (l : List (Nat × W64)) : State := { live with ctl := { live.ctl with settings := l } }

theorem wit_StepRunsFront : ({ live with pending := [.domscan, .perstN] } : State).pending = .domscan :: [.perstN] := rfl

theorem wit_CommandsLeaveTheQueue : ∃ t, exec .perstN { live with pending := [.domscan] } = .next t := ⟨_, rfl⟩

theorem wit_IdleTickCounts : live.pending = [] ∧ live.clk.started = true ∧ (live.bar 0x4000C).toNat = 78125 ∧
    ({ live with clk := { live.clk with phase := 78123 } } : State).clk.phase + 1 < (live.bar 0x4000C).toNat ∧
    (live.bar 0x4000C).toNat ≤ ({ live with clk := { live.clk with phase := 78124 } } : State).clk.phase + 1 ∧
    State.reset.clk.started = false := by decide

theorem wit_MailboxInvariantKept :
    MailboxesOk { live with pending := [.dbRing 0xFFFF] } ∧ ∃ t, step { live with pending := [.mbDoneClear 1] } = .next t := by
  refine ⟨⟨fun n => ?_, by decide⟩, ⟨_, rfl⟩⟩
  exact Nat.zero_le 2

theorem wit_DoorbellPosts : live.hostUp = true ∧ (0x8001 : BitVec 16).getLsbD 15 = true ∧ (0x8001 : BitVec 16).getLsbD 14 = false ∧
    live.mbState 15 ≠ 1 ∧ ({ live with ctl := { live.ctl with mbState := [(0, 1)] } } : State).mbState 0 = 1 := by decide

theorem wit_MailboxWritesAndDone : live.hostUp = true ∧ accessOk 0xBF8 8 = true ∧ 0xBF8 < 0xC00 ∧ accessOk 0xC00 4 = true ∧
    live.mbState 0 ≠ 1 ∧ ({ live with ctl := { live.ctl with mbState := [(15, 1)] } } : State).mbState 15 = 1 := by decide

theorem wit_BadAccessReported : live.hostUp = true ∧ 0x7FFF8 < 0x80000 ∧ accessOk 0x7FFF8 8 = true ∧ accessOk 0x7FFFC 8 = false ∧
    accessOk 0x10000 4 = true ∧ (0x8000 : BitVec 64).getLsbD 15 = true ∧ accessOk 0 2 = false ∧ accessOk 1 4 = false := by decide

theorem wit_RegisterWriteAccess : live.hostUp = true ∧ 0x10008 % 4 = 0 ∧ 0x7FFFC % 4 = 0 ∧ live.pwr.diesUp = true ∧
    statusStream 0x0300 = none ∧ 271 < 272 ∧ 1 ≤ live.pwr.stage ∧ ioW1c 0x2004 ≠ 0x800 := by decide

theorem wit_LoReadLatchesHi : (Instr.gsBeatLoRead, 0x3004C) ∈ loReads.map (fun e => (e.1, e.2.1)) ∧ live.hostUp = true := by decide

/-- A slot with a message in flight whose outcome is recorded. -/
def answered (k : Slot) : State :=
  { live with ctl := { live.ctl with inflight := [(k, { op := 1, tag := 7 })], results := [(k, { status := 0, data := [1] })] } }

theorem wit_ReplySent : (∀ k ∈ [Slot.mailbox 0, .mailbox 15, .sideband, .poker],
      getSlot (answered k).ctl.inflight k = some { op := 1, tag := 7 } ∧
      getSlot (answered k).ctl.results k = some { status := 0, data := [1] } ∧ getSlot (answered k).ctl.waiting k = none) := by decide

theorem wit_SidebandPokerAndLink : 3 ≤ live.pwr.stage ∧ getSlot live.ctl.inflight .sideband = none ∧
    (getSlot (answered .sideband).ctl.inflight .sideband).isSome = true ∧ live.pwr.stuckStage3 = false ∧ live.setting 0x0051 ≠ 2 ∧
    lineOk [0x68] = true ∧ live.ctl.linkUp = true ∧ 8 ≤ live.pwr.stage ∧
    ({ live with pwr := { live.pwr with stage := 7 } } : State).pwr.stage < 8 := by decide

/-! ## Witnesses -/

/-- A firebox whose streams 0 to 4 are IDLE, RUNNING, PARKED, DONE and RUNNING with entries. -/
def fireA : Tile :=
  { vl := 4, x := [(1, 0x300000), (2, 4)], regs := [(0x0300, 0), (0x0304, 1)]
    streams := [(1, { state := 1, units := 1 }), (2, { state := 2 }), (3, { state := 3 }),
      (4, { state := 1, units := 1, entries := [(15, 0), (16, 0), (3, 0), (1, 0)] })] }

/-- A running grate: the witness of every statement that asks for GrateReady (FloatLaneRows, BitLaneRows, MaskRows,
ConversionRandomAndSfuRows, ReductionAndStateRows and the others). Logical tile 255 lies in slot 267. -/
theorem wit_grate_word_starts : GrateReady (withTile 0 fireA) 0 ∧ GrateReady (withTile 267 fireA) 255 := by
  unfold GrateReady; decide

theorem wit_ScalarAndControlRows : (511 : BitVec 16).toNat < (live.ltile 0).vle (laneWidth 0) := by decide

theorem wit_PermuteRows : (live.ltile 0).vle 32 = 512 ∧ ((live.ltile 0).reg 0x0304).getLsbD 0 = false ∧
    (let a : Tile := { vl := 4, x := [(2, 4)], regs := [(0x0300, 0)] }
     let row : GrateWord → Tile → Nat → Nat → Bool × Int := fun g a _ _ => (false, (a.sval g : Int))
     (∀ i, i < 4 → a.active { imm := 3 } i = true → 0 ≤ (row { imm := 3 } a 4 i).2 ∧ (row { imm := 3 } a 4 i).2 < 4) ∧
     ¬ (∀ i, i < 4 → a.active { imm := 4 } i = true → 0 ≤ (row { imm := 4 } a 4 i).2 ∧ (row { imm := 4 } a 4 i).2 < 4)) := by decide

theorem wit_StrictRangeStops : GrateReady (withTile 0 fireA) 0 ∧ (fireA.reg 0x0304).getLsbD 0 = true ∧ fireA.vle (laneWidth 0) = 4 ∧
    4 ≤ (4 : BitVec 16).toNat ∧ fireA.active { imm := 4 } 0 = true ∧ 4 ≤ fireA.sval { bs := true, vb := 2 } := by
  unfold GrateReady; decide

theorem wit_ReductionTreeSplits : ([some 1, none, some 3, some 4] : List (Option W32)).length = 2 ^ (1 + 1) := rfl

/-- A running module whose context 0 keeps scratch bytes 64 to 127 persistent. -/
def guarded : State :=
  { withTile 0 { vl := 4, regs := [(0x0300, 0)] } with
    sched := { running := true }, ctxs := [(0, { allocs := [{ base := 64, size := 64, space := 1, cls := 1 }] })] }

theorem wit_ScratchAndFlueRows : laneWidth 0 = 32 ∧ fireA.vle 32 = 4 ∧
    ((fireA.xget 0).toNat + 64 * (49151 : BitVec 16).toNat + 4 * (32 / 8) ≤ 3 * 2 ^ 20) ∧
    3 * 2 ^ 20 < (fireA.xget 1).toNat + 64 * (0 : BitVec 16).toNat + 4 * (32 / 8) ∧
    guarded.guards (guarded.ltile 0) = [(64, 128)] ∧ GrateReady guarded 0 ∧
    (∀ r ∈ guarded.guards (guarded.ltile 0), r.2 ≤ 128 ∨ 128 + 16 ≤ r.1) ∧
    4 ≤ (fireA.stream 4).entries.length - (fireA.stream 4).claimed ∧ (fireA.stream 1).room 0 1024 = true ∧
    (fireA.stream 1).room 0 1025 = false := by unfold GrateReady; decide

theorem wit_AshRows :
    (let a : Tile := { regs := [(0x0300, 0)], ash := [{ seq := 5, hob := 0, committed := true, visible := true }] }
     GrateReady (withTile 0 a) 0 ∧ (∃ st rest, a.ash = st :: rest ∧ st.visible = true) ∧ (1 : BitVec 16).toNat ≤ 1) ∧
    GrateReady (withTile 0 { regs := [(0x0300, 0)] }) 0 ∧ (live.ltile 0).ashHead = none ∧ (live.ltile 0).compat = false := by
  refine ⟨⟨by unfold GrateReady; decide, ⟨_, _, rfl, rfl⟩, by decide⟩, by unfold GrateReady; decide⟩

/-- A running job in context 0 whose tile 0 has layer 7 forward in words 0 and 1, and class 15 at word 9. -/
def scheduled : State :=
  { withTile 0 fireA with
    sched := { running := true }
    ctxs := [(0, { prog := [(0, [0xD700000000000007, 0])], layers := [0x0000000104000007], nclass := 16, classes := List.replicate 16 9 })] }

theorem wit_StokerAndScheduleWords : scheduled.issues 0 = true ∧ (1 : BitVec 16) ≠ 0 ∧ (scheduled.ltile 0).stoker.loops = [] ∧
    (scheduled.ltile 0).stoker.recomp = none ∧ marksFence (scheduled.ltile 0).stoker = true ∧
    (∀ n, n < 32 → (0xD : W32).getLsbD n = true →
      (fireA.stream n).state = 0 ∨ (fireA.stream n).state = 2 ∨ (fireA.stream n).state = 3) ∧
    (2 : W32).getLsbD 1 = true ∧ (fireA.stream 1).state = 1 ∧
    forwardRange ((scheduled.ctx 0).program 0) 7 = some (0, 2) ∧ layerStreams (scheduled.ctx 0).layers 7 = some (4, 1) ∧
    (fireA.stream 4).entries.drop 0 = (15, 0) :: (fireA.stream 4).entries.drop 1 ∧ (15 : Nat) < 16 ∧ 15 < (scheduled.ctx 0).nclass ∧
    (let st : Stream := { fireA.stream 4 with claimed := 1 }
     st.entries.drop st.claimed = (16, 0) :: st.entries.drop 2 ∧ 16 ≤ (16 : Nat)) := by decide

theorem wit_GateRunsOrSkips : scheduled.issues 0 = true ∧ scheduled.sched.running = true ∧ scheduled.sched.gateKnown = false ∧
    (let s : State := { scheduled with sched := { running := true, gateKnown := true, gateNf := true } }
     s.issues 0 = true ∧ s.sched.gateKnown = true ∧ s.sched.gateNf = true ∧ (s.ltile 0).stoker.loops = [] ∧ (s.ltile 0).stoker.recomp = none) ∧
    (let s : State := { scheduled with sched := { running := true, gateKnown := true } }
     s.issues 0 = true ∧ s.sched.gateNf = false ∧ s.sched.gateFail = false ∧ (1 : BitVec 16) ≠ 0) := by decide

theorem wit_ClockDomainCommands : 326 < 327 ∧ inputOk 326 2 = true ∧ inputOk 323 0 = true ∧
    (let s := withIo (0x1000 + 8 * 326) 0x502
     (s.ior (0x1000 + 8 * 326)).getLsbD 10 = true ∧ (s.ior (0x1000 + 8 * 326)).getLsbD 8 = true ∧
     (s.ior (0x1004 + 8 * 326)).getLsbD 31 = false ∧ s.selectSlot 326 = none ∧ 326 ≠ 324 ∧ s.clk.started = true ∧
     s.domPowered 0 = true ∧ s.domainHz 318 = some 1250000000) ∧
    (326 : BitVec 9).toNat = 326 ∧ (live.ior (0x1000 + 8 * 326)).getLsbD 8 = false := by decide

theorem wit_AbsentPartsFault : 272 ≤ 272 ∧ 327 ≤ 327 ∧ frameOk .t1 (2 ^ 27) = false ∧ frameOk .t2 (2 ^ 27) = false ∧
    16 ≤ (16 : BitVec 8).toNat ∧ blockOk 0x114 = false ∧ blockOk 0x300 = false := by decide

theorem wit_CollectorReports : 1 ≤ (0x1000 : BitVec 16).toNat / 4096 ∧ unitAssigned 1 0 = true ∧ (0xE000 : BitVec 16).toNat / 4096 ≤ 14 ∧
    unitAssigned 14 0 = true ∧ live.faultSet = false ∧ live.latchable 6 = true ∧ (withBar 0x20000 0x100).faultSet = true ∧
    (withBar 0x20000 0x100).latchable 6 = true ∧ (1 : BitVec 8) ≠ 0 ∧ (0xB : Nat) < 0xC ∧ unitAssigned 0xB 0 = true ∧
    (withBar 0x20000 0x100).flt.reacts = [] ∧ (withBar 0x20000 0x100).modFlt = false := by decide

/-- A module with a migration of logical tile 0 to spare 64. -/
def migrating (phase : Nat) : State := { live with flt := { migrations := [{ tile := 0, src := 0, dst := 64, phase := phase }] } }

theorem wit_SpareMigrationPhases :
    (let s : State := { live with flt := { reacts := [0xA000] } }
     s.migOf 0 = none ∧ s.firebad (s.unitOf 0) = true ∧ (∀ m ∈ s.flt.migrations, m.src / 68 ≠ s.unitOf 0 / 68) ∧ s.spareOf 0 = some 64) ∧
    (let s : State := { live with flt := { reacts := [0xA000] }, tiles := [(64, { suspect := true }), (65, { suspect := true }),
        (66, { testOk := false }), (67, { suspect := true })] }
     s.migOf 0 = none ∧ s.firebad (s.unitOf 0) = true ∧ s.spareOf 0 = none) ∧
    (∀ p ∈ [2, 3, 4], (migrating p).migOf 0 = some { tile := 0, src := 0, dst := 64, phase := p }) ∧ (0 : Nat) ≠ 64 ∧
    (∀ h ∈ ((migrating 2).tile 0).hobs, h.2.stopped = true ∨ h.2.fly = []) := by decide

/-- Each image passes its checks or fails them: which one is the implementation's. -/
theorem wit_FirmwareImages : (∀ l, (∃ v, Config.firmwareVersion l = some v) ∨ Config.firmwareVersion l = none) ∧
    (let s := withBar 0x20020 4
     s.flt.bAct = none ∧ s.clk.beatNow + 16 ≤ (16 : BitVec 64).toNat ∧ s.barBit 0x20020 2 = true ∧
     (let t : State := { s with flt := { bAct := some 0 } }
      t.flt.bAct = some 0 ∧ 0 ≤ t.clk.beatNow ∧ t.flt.migrations = [] ∧ t.barBit 0x20020 2 = true)) ∧
    ({ live with flt := { switched := true } } : State).flt.switched = true ∧
    (let s : State := { live with flt := { backDue := true }, clk := { live.clk with started := true }, sched := {}, ctl := { live.ctl with inflight := [] } }
     s.clk.started = true ∧ s.flt.backDue = true ∧ s.flt.migrations = [] ∧ s.sched.running = false ∧ s.sched.b0 = none ∧
     s.sched.stopDue = false ∧ s.ctl.inflight = []) ∧
    (let s : State := { live with ctl := { live.ctl with inflight := [(.poker, { op := 1, tag := 0, dispatched := true })] } }
     (Slot.poker, ({ op := 1, tag := 0, dispatched := true } : Inflight)) ∈ s.ctl.inflight ∧ getSlot s.ctl.results .poker = none) := by
  refine ⟨fun l => ?_, by decide⟩
  cases h : Config.firmwareVersion l with
  | none => exact .inr rfl
  | some v => exact .inl ⟨v, rfl⟩

theorem wit_SparesSensorsAndFactory : 271 < 272 ∧ live.tileOf 271 = none ∧
    ({ live with pwr := { stage := 7 } } : State).pwr.stage < 8 ∧ 1 ≤ ({ live with pwr := { stage := 1 } } : State).pwr.stage ∧
    (withBar 0x20000 0x8000).factory = true ∧ 3 * 2 ^ 20 - 1 < 3 * 2 ^ 20 ∧ 2 ^ 16 - 1 < 2 ^ 16 ∧ (15 : BitVec 4) ≠ 0 := by decide

/-- A module whose context 0 maps page 0 to frame 3 of tier 2, readable and with the write bits w. -/
def mapped (w : Bool) : State :=
  { live with mem := { pmap := [(0, mkEntry true w true w false 1 3)], pmapCopy := [(0, mkEntry true w true w false 1 3)] } }

theorem wit_HostAccessThroughBar2 : (mapped true).hostUp = true ∧ (mapped true).bar2Dva 0 = (0, 0) ∧
    (let e := hostEntry (mapped true) 0 0
     (mapped true).entryFault 0 e true false = 0 ∧ (mapped true).entryFault 0 e true true = 0 ∧ eMov e = false ∧ eProt e = false ∧
     eTier e ≠ 2 ∧ (mapped true).spanHeld (eTier e) (eFrame e) 0 4096 = false ∧ (mapped true).spanBad (eTier e) (eFrame e) 0 4096 = false ∧
     (mapped true).groupFails 0 0 = false) ∧
    (let s : State := { mapped true with mem := { (mapped true).mem with
        pmap := [(0, mkEntry true true true true false 1 3 ||| 2 ^ 57)] } }
     let e := hostEntry s 0 0
     s.groupFails 0 0 = false ∧ s.entryFault 0 e true false = 0 ∧ s.entryFault 0 e true true = 0 ∧ eMov e = true) ∧
    (let s : State := { mapped true with mem := { (mapped true).mem with window2 := some 3 } }
     s.spanHeld 1 3 0 4096 = true) ∧
    live.mem.hostCache.find 0 0 = none ∧ live.entryFault 0 (hostEntry live 0 0) true false ≠ 0 ∧
    (mapped false).entryFault 0 (hostEntry (mapped false) 0 0) true true ≠ 0 ∧
    ({ live with mem := { badLines := [0] } } : State).groupFails 0 0 = true := by decide +kernel

/-- The move of page 0 from frame 3 to frame 5 of tier 2, in a stage. -/
def inMove (stage : Nat) : State :=
  { mapped true with mem := { (mapped true).mem with
      inval := some (0, 0, 1), moving := some { ctx := 0, page := 0, old := 3, new := 5, reason := 0, stage := stage } } }

theorem wit_InvalidationsAndPageMoves : 2 ^ 26 - 1 < 2 ^ 26 ∧ 0 < 2 ^ 26 ∧ eV ((mapped true).pentry 0 0) = true ∧
    eTier ((mapped true).pentry 0 0) < 2 ∧ (mapped true).mem.moving = none ∧ ((mapped true).spareFrame 1 (3 % banksOf 1)).isSome = true ∧
    (∀ k ∈ [1, 2], (inMove k).mem.inval = some (0, 0, 1) ∧
      (inMove k).mem.moving = some { ctx := 0, page := 0, old := 3, new := 5, reason := 0, stage := k } ∧ (inMove k).mem.heldHost = []) ∧
    (5 : Nat) < 2 ^ 27 ∧ ({ live with mem := { inval := some (0, 0, 1) } } : State).mem.moving = none := by decide

theorem wit_MemoryErrorsAndRetirement : frameOk .t1 0 = true ∧ frameOk .t2 0 = true ∧ live.pageOfFrame 0 0 = none ∧
    live.mem.retired.length < 8192 ∧ 2 ^ 23 - 1 < 2 ^ 23 ∧ live.setting 0x0021 ≠ 0 ∧
    (0 : Nat) + 1 < live.setting 0x0021 ∧ 122070311 < 122070312 ∧ (live.streamAt (live.at 255 31)).state ≠ 1 ∧
    live.pmBad 3 (2 ^ 23 - 1) true = false ∧ (inMove 1).mem.moving.isSome = true := by decide

theorem wit_RetrainingWindows : (∀ w ∈ live.mem.window1, w / 32 ≠ 255 / 32) ∧ 255 ∉ live.mem.dead1 ∧ live.mem.window2 = none ∧
    15 ∉ live.mem.dead2 ∧ (15 : BitVec 8).toNat < 16 ∧ live.mem.heldHost = [] ∧
    (let s : State := { live with mem := { failRuns := [(channelKey 1 15, 2), (channelKey 0 255, 1)] } }
     2 ≤ tget 0 s.mem.failRuns (channelKey 1 15) ∧ 15 ∉ s.mem.dead2 ∧ tget 0 s.mem.failRuns (channelKey 0 255) < 2) := by decide

/-- A running time exchange of a module whose time parent is 9 on chimney 0. -/
def exchanging (full : Bool) : State :=
  { withSet [(0x0152, 9)] with clk := { started := true, exch := some { tseq := 4, t1 := 1, t2 := 2, t3 := 3, pbeat := none, full := full } } }

theorem wit_ClockSourcesAndTime : live.clk.started = true ∧ live.clk.src ≤ 2 ∧ srcNum .xo = live.clk.src ∧ srcNum .pri ≠ live.clk.src ∧
    326 < 327 ∧ (exchanging true).portsUp = true ∧ (exchanging true).timeParent.isSome = true ∧
    (exchanging false).clk.exch = some { tseq := 4, t1 := 1, t2 := 2, t3 := 3, pbeat := none, full := false } ∧ (4 : BitVec 16).toNat = 4 ∧
    (exchanging true).clk.delays = [] ∧
    (let s : State := { live with clk := { live.clk with tokens := tpush { beat := 65537, before := 3 } 327 0 [] } }
     tget [] s.clk.tokens 326 = [{ beat := 65537, before := 3 }] ∧ s.clocked 326 = true) ∧
    tget [] live.clk.tokens 0 = [] := by decide +kernel

theorem wit_DampersFollowTheirDemands : 8 ≤ live.pwr.stage ∧ live.clk.pwrLow = false ∧ live.setting 0x0030 ≤ 15 ∧
    ({ live with pwr := { stage := 7 } } : State).pwr.stage < 8 ∧ live.clk.slowWritten ≠ some live.clk.beatNow ∧
    live.clk.slowPower ≤ 15 ∧ live.clk.slowThermal ≤ 15 ∧ live.clk.fastLevel ≤ 15 ∧ 271 < 272 ∧ live.clk.phase = 0 ∧
    live.setting 0x0032 ≤ (BitVec.ofNat 16 (live.setting 0x0033)).toNat ∧
    (BitVec.ofNat 16 (live.setting 0x0033)).toNat ≤ live.setting 0x0033 ∧
    (let s : State := { live with clk := { fastLevel := 16, fastDecay := true } }
     s.clk.pwrLow = false ∧ 0 < s.clk.fastLevel ∧ s.clk.fastDecay = true ∧ s.clk.fastLevel ≤ 16) ∧
    (let s : State := { live with clk := { live.clk with levels := [(271, [{ level := 15, tick := 16 }])] } }
     tget [] s.clk.levels 271 = [{ level := 15, tick := 16 }] ∧ s.clocked 271 = true) ∧ tget [] live.clk.levels 271 = [] := by decide

/-- A job of context 0, of steps of 100 beats, at SCHED_NOW now, with the OR for its flags. -/
def beating (now : Nat) (or : List Round) : State :=
  { withCtx { stepBeats := 100, flagLat := 8, state := 1 } with
    sched := { running := true, now := now, gateKnown := true }, clk := { started := true, beatNow := 1000 }, net := { ors := or } }

theorem wit_BeatEdgesPaceTheSchedule : (live.plainEdge ∧ live.sched.b0 = none ∧ live.sched.running = false) ∧
    (let s := beating 98 [{ edge := 993 }]
     s.plainEdge ∧ s.goEdge ∧ s.sched.b0 = none ∧ s.sched.running = true ∧ (s.sched.now : Int) + 1 < s.sched.base + 100) ∧
    (let s := beating 99 [{ edge := 993, nr := true }]
     s.plainEdge ∧ s.sched.startEdge + 8 ≤ s.clk.beatNow + 1 ∧ s.orOf 993 = some { edge := 993, nr := true } ∧
     (s.sched.now : Int) < s.sched.base + 100) ∧
    (let s := beating 98 []
     s.plainEdge ∧ s.sched.startEdge + 8 ≤ s.clk.beatNow + 1 ∧ s.orOf 993 = none) ∧
    (let s := beating 99 [{ edge := 993 }]
     s.plainEdge ∧ s.goEdge ∧ s.sched.base + 100 ≤ (s.sched.now : Int) + 1 ∧ s.fencesMet (fun m => m.op == 0xD4) = true ∧
     s.sealHolds = false ∧ s.sched.gateKnown = true ∧ s.sched.gateNf = false ∧ s.sched.gateFail = false ∧ s.sched.blockBad = false ∧
     s.sched.late = false ∧ s.everyTile (fun a => !a.nfSeen) = true ∧ s.tableHolds = false ∧ s.stopsAt s.stepNow = false) ∧
    (let s : State := { live with sched := { b0 := some (3, 1) } }
     s.plainEdge ∧ s.sched.b0 = some (3, s.clk.beatNow + 1) ∧ s.pwr.diesUp = true) := by
  have go : ∀ n, (beating n [{ edge := 993 }]).goEdge := fun n => .inr ⟨{ edge := 993 }, by simp [State.orOf, beating, State.ctx, withCtx, tget], by decide⟩
  refine ⟨by unfold State.plainEdge; decide, ⟨by unfold State.plainEdge; decide, go 98, by decide⟩,
    by unfold State.plainEdge; decide, by unfold State.plainEdge; decide, ⟨by unfold State.plainEdge; decide, go 99, by decide +kernel⟩,
    by unfold State.plainEdge; decide⟩

/-! ## A small job image -/

/-- A snapshot policy: K and CUT_EVERY 64, an area of 16 GiB, two generations kept, no overrides, no drain. -/
def smallPolicy : List Byte :=
  leBytes 2 64 ++ leBytes 4 0 ++ leBytes 2 64 ++ leBytes 2 1 ++ leBytes 2 1 ++ leBytes 4 1 ++ leBytes 8 (2 ^ 34) ++ leBytes 16 0 ++
    leBytes 4 1000 ++ leBytes 4 0 ++ leBytes 2 0 ++ leBytes 2 2 ++ leBytes 12 0 ++ leBytes 0x30 0

/-- A directory entry of a section. -/
def sectionWords (ofs cnt : Nat) : List Byte := leBytes 8 ofs ++ leBytes 8 cnt

/-- The words of every tile: FLAG at 0, AT 1, GATED without a block, STEP at 100. -/
def smallWords : List W64 := [0xD200000000000000, 0xD000000000000001, 0xD300000000000000, 0xD400000000000064]

/-- What stands before the tile directory: the header and the policy. -/
def smallHead : List Byte :=
  leBytes 4 0x54594A49 ++ leBytes 4 1 ++ leBytes 8 7 ++ leBytes 4 (2 ^ 22 + 2 ^ 18) ++ leBytes 2 0 ++ leBytes 2 100 ++ leBytes 8 0 ++
    (List.replicate 4 (sectionWords 0 0)).flatten ++ sectionWords 0x140 256 ++ sectionWords 0x1140 4 ++ sectionWords 0x1160 1 ++
    sectionWords 0 0 ++ sectionWords 0 0 ++ sectionWords 0 0 ++ sectionWords 0xD0 1 ++ smallPolicy

/-- An entry of the directory: words 0 to 3. -/
def smallEntry : List Byte := leBytes 8 0 ++ leBytes 8 4

/-- What stands behind it: the words and the class. -/
def smallTail : List Byte := smallWords.flatMap (fun w => leBytes 8 w.toNat) ++ leBytes 8 3

/-- An image without tensors: 256 tiles with the same four words, and one class. -/
def smallImage : List Byte := smallHead ++ ((List.replicate 256 smallEntry).flatten ++ smallTail)

theorem small_drop (t n : Nat) (c : List Byte) (h : t ≤ n) :
    ((List.replicate n smallEntry).flatten ++ c).drop (16 * t) = (List.replicate (n - t) smallEntry).flatten ++ c := by
  induction t generalizing n with
  | zero => simp
  | succ k ih =>
    obtain ⟨m, rfl⟩ : ∃ m, n = m + 1 := ⟨n - 1, by omega⟩
    have e : smallEntry.length = 16 := rfl
    rw [List.replicate_succ, List.flatten_cons, List.append_assoc, show 16 * (k + 1) = smallEntry.length + 16 * k by omega,
      List.drop_append, List.drop_eq_nil_of_le (by omega), List.nil_append, show smallEntry.length + 16 * k - smallEntry.length = 16 * k by omega,
      ih m (by omega), show m + 1 - (k + 1) = m - k by omega]

theorem small_slice (t k n : Nat) (h : t < 256) (hk : k + n ≤ 16) : slice smallImage (0x140 + 16 * t + k) n = slice smallEntry k n := by
  have e : smallEntry.length = 16 := rfl
  have hd : smallImage.drop (0x140 + 16 * t + k) = smallEntry.drop k ++ ((List.replicate (255 - t) smallEntry).flatten ++ smallTail) := by
    have hh : smallHead.length = 0x140 := by decide +kernel
    rw [← List.drop_drop, ← List.drop_drop]
    unfold smallImage
    rw [← hh, List.drop_left, small_drop t 256 _ (by omega), show 256 - t = (255 - t) + 1 by omega, List.replicate_succ,
      List.flatten_cons, List.append_assoc, List.drop_append, show k - smallEntry.length = 0 by omega, List.drop_zero]
  unfold slice
  rw [hd, List.take_append_of_le_length (by rw [List.length_drop]; omega)]

theorem small_sec4 : secOfs smallImage 4 = 0x140 := by decide +kernel

theorem small_directory (t : Nat) (h : t < 256) : dirEntry smallImage t = (0, 4, 0, 0) := by
  have o : entryOfs smallImage 4 t = 0x140 + 16 * t := by
    unfold entryOfs
    rw [small_sec4]
    rfl
  unfold dirEntry leAt
  rw [o]
  have a := small_slice t 0 8 h (by omega)
  rw [Nat.add_zero] at a
  simp only [a, small_slice t 8 4 h (by omega), small_slice t 12 2 h (by omega), small_slice t 14 2 h (by omega)]
  decide +kernel
theorem small_words (t : Nat) (h : t < 256) : tileWords smallImage t = smallWords := by
  unfold tileWords
  rw [small_directory t h]
  decide +kernel
theorem small_job_checks : firstBad (live.jobChecks smallImage) = none := by decide +kernel
theorem small_dir_checks : (dirChecks smallImage).all (fun c => c.2.2) = true := by
  have fold : ∀ (xs : List Nat) (n : Nat), (∀ i ∈ xs, i < 256) → xs.foldl (fun n i => n + (dirEntry smallImage i).2.2.1) n = n := by
    intro xs
    induction xs with
    | nil => intro n _; rfl
    | cons x r ih =>
      intro n h
      rw [List.foldl_cons, small_directory x (h x (by simp))]
      exact ih n (fun i hi => h i (by simp [hi]))
  have base : ∀ t, t < 256 → rearmBase smallImage t = 0 := fun t h =>
    fold _ 0 (fun i hi => Nat.lt_trans (List.mem_range.mp hi) h)
  unfold dirChecks
  rw [List.all_append, Bool.and_eq_true]
  refine ⟨by decide +kernel, ?_⟩
  rw [List.all_map, List.all_eq_true]
  intro t ht
  have h : t < 256 := List.mem_range.mp ht
  simp only [Function.comp, chk, small_directory t h, base t h]
  decide +kernel

/-- The context that the image makes. -/
def smallCtx : Ctx := (imageCtx smallImage).withSchedule smallImage

/-- What the checks of its programs read of it. -/
theorem small_prog (ofs : Nat) (h : ofs = 0x1140) :
    (Prog.of smallCtx smallWords 0 ofs).checks.all (fun c => c.2.2) = true := by
  subst h
  decide +kernel

theorem small_checks_pass (l : List Check) (h : l.all (fun c => c.2.2) = true) : firstBad l = none := by
  unfold firstBad
  rw [List.find?_eq_none.mpr]
  · rfl
  · intro c hc
    simp [List.all_eq_true.mp h c hc]

theorem small_sched_checks : firstBad (live.schedChecks smallCtx smallImage) = none := by
  unfold State.schedChecks
  simp only [small_checks_pass _ small_dir_checks]
  apply small_checks_pass
  have ofs : entryOfs smallImage 5 0 = 0x1140 := by decide +kernel
  have cnt : secCnt smallImage 9 = 0 := by decide +kernel
  rw [show (none : Option (Nat × Nat)).isSome = false from rfl, if_neg (by decide), List.all_append, List.all_append, List.all_append]
  simp only [Bool.and_eq_true]
  refine ⟨⟨⟨small_dir_checks, by decide +kernel⟩, ?_⟩, ?_⟩
  · unfold progChecks
    rw [List.all_append, Bool.and_eq_true]
    constructor
    · rw [List.all_flatMap, List.all_eq_true]
      intro t ht
      have h : t < 256 := List.mem_range.mp ht
      simp only [small_words t h, small_directory t h]
      exact small_prog _ ofs
    · rw [List.all_map, List.all_eq_true]
      intro t ht
      have h : t < 256 := List.mem_range.mp ht
      simp only [Function.comp, chk, small_words t h, small_words 0 (by decide)]
      simp [Prog.of, Prog.flagT, Prog.gateT, Prog.having]
  · unfold State.exchChecks
    rw [cnt]
    rfl

theorem small_place : ∃ s1, live.placeImage 0 smallImage = .inl s1 := by
  have h : (match live.placeImage 0 smallImage with | .inl _ => true | .inr _ => false) = true := by decide +kernel
  cases e : live.placeImage 0 smallImage with
  | inl s1 => exact ⟨s1, rfl⟩
  | inr i => rw [e] at h; cases h

/-- A module with DEVID 5 whose context 3 is ready to start. -/
def ready : State :=
  { withSet [(0x0100, 5)] with ctxs := [(3, { jobLoaded := true, schedLoaded := true })] }

theorem wit_JobsLoadStartAndStop :
    ((live.ctx 0).state ≠ 1 ∧ (live.ctx 0).state ≠ 2 ∧ live.factory = false ∧ firstBad (live.jobChecks smallImage) = none ∧
      ∃ s1, live.placeImage 0 smallImage = .inl s1) ∧
    (let s := withCtx (imageCtx smallImage)
     (s.ctx 0).state ≠ 1 ∧ (s.ctx 0).jobLoaded = true ∧ firstBad (sameJob (s.ctx 0).image smallImage) = none ∧
      firstBad (live.schedChecks ((s.ctx 0).withSchedule smallImage) smallImage) = none) ∧
    (let cx := ready.ctx 3
     ready.anyRunning = false ∧ cx.jobLoaded = true ∧ cx.schedLoaded = true ∧ ready.clk.beatNow + 16 ≤ (16 : BitVec 64).toNat ∧
      cx.bankOk (ready.bankImage 3 cx.tgen) = true ∧ cx.pendSwap = none ∧ cx.restored = false ∧ ready.devid.isSome = true ∧
      ready.pwr.diesUp = true ∧ ready.clusterSize ≤ 1 ∧ ready.wouldMirror 3 = false) ∧
    ((withCtx { state := 1 }).ctx 0).state = 1 ∧ ((withCtx { state := 1 }).ctx 0).stepCommitted < (1 : BitVec 48).toNat := by
  refine ⟨⟨by decide, by decide, by decide, small_job_checks, small_place⟩, ⟨by decide, by decide, ?_, small_sched_checks⟩, by decide, by decide⟩
  exact small_checks_pass _ (by simp [sameJob, chk, withCtx, State.ctx, tget, imageCtx, List.all_append, List.all_map, List.all_flatMap])

theorem wit_SettingsKeysAndInformation :
    live.entriesRefused (entryNats [(0x0030, 15), (0x0030, 0)]) isSetWrite = none ∧
    live.entriesRefused (entryNats [(0x0030, 15), (0x0030, 16)]) isSetWrite = some 1 ∧
    live.anyRunning = false ∧ live.entriesRefused (entryNats (List.replicate 32 (0x0100, 0))) isPortItem = none ∧
    ((List.replicate 32 0x0030 : List (BitVec 16)).length ≤ 32 ∧ settingIds.contains 0x0030 = true ∧ isStored 0x0030 = true) ∧
    (let s : State := { live with ctl := { storeTick := some 0 }, clk := { ticks := 4 * ticksPerSecond } }
     s.ctl.storeTick = some 0 ∧ 0 + 4 * ticksPerSecond ≤ s.clk.ticks) ∧
    (List.replicate 40 (0 : Byte)).length = 40 ∧
    (∃ d, live.infoPage 1 = some d ∧ live.fits .poker d.length = true) ∧ 7 ≤ (7 : BitVec 8).toNat ∧
    (0 : BitVec 1) ≠ 1 ∧ (7 : BitVec 4).toNat ≤ 7 ∧ live.barBit 0x40010 31 = false ∧ 320 ≤ (320 : BitVec 18).toNat ∧
    (163840 : BitVec 18).toNat ≤ 163840 ∧ live.clk.beatNow + 16 ≤ (16 : BitVec 64).toNat ∧
    (let es : List (BitVec 16 × BitVec 64) := [(0x0010, 0), (0x0011, 3)]
     let s : State := { live with mem := { heldHost := [{ isWrite := false, off := 0, len := 4, ctx := 0, dva := 0 }] } }
     s.entriesRefused (entryNats es) isSetWrite = none ∧ s.mem.heldHost ≠ [] ∧ ∃ e ∈ es, e.1 = 0x0010 ∨ e.1 = 0x0011) := by
  have page : (match live.infoPage 1 with | some d => live.fits .poker d.length | none => false) = true := by decide +kernel
  refine ⟨by decide +kernel, by decide +kernel, by decide, by decide +kernel, by decide +kernel, by decide +kernel, by decide, ?_, by decide +kernel⟩
  cases h : live.infoPage 1 with
  | none => rw [h] at page; cases page
  | some d => rw [h] at page; exact ⟨d, rfl, page⟩

/-- A generation that a context holds. -/
def gen1 : GenRec := { ctx := 0, gen := 1, cutStep := 4 }

/-- A module with DEVID 0, of the cluster's group 0 to 9, whose peers' pairing frames came. -/
def paired : State :=
  { withSet [(0x0100, 0)] with ember := { pairs := (List.range 9).map (fun i => (i + 1, i + 1, 0)) } }

theorem wit_SnapshotPoliciesAndRestores :
    (policyBad smallPolicy (live.ctx 0).polIds = none ∧ polHasParity smallPolicy = false ∧ polAdopt smallPolicy = false ∧
      live.anyRunning = false ∧
      ((({ live with ember := { live.ember with pendPolicy := tset live.ember.pendPolicy 0 smallPolicy } } : State).takePolicy 0).sizeRegions).regionsFit
        = true) ∧
    (((withCtx { state := 1, policy := smallPolicy }).ctx 0).state = 1 ∧ regionsDiffer smallPolicy smallPolicy = false) ∧
    (live.ctx 0).stepCommitted + 1 < (2 : BitVec 48).toNat ∧
    (let s : State := { withCtx { jobLoaded := true } with ember := { gens := [gen1] } }
     (s.ctx 0).jobLoaded = true ∧ (s.ctx 0).state = 0 ∧ s.ember.gens.find? (fun q => q.ctx == 0 && q.gen == 1) = some gen1) ∧
    (paired.pairWaits = false ∧ paired.ember.pairs.find? (fun q => q.1 == 1) = some (1, 1, 0) ∧ paired.devid = some 0 ∧
      feedOf 1 ≠ feedOf 2 ∧ paired.ember.pairs.find? (fun q => q.1 == 10) = none) ∧
    (let m := List.range 10
     m.length = 10 ∧ m.Nodup ∧ 0 ∈ m ∧ ∀ d ∈ m, d ≠ 0 → paired.ember.pairs.find? (fun q => q.1 == d) = some (d, d, 0)) := by
  decide +kernel

theorem wit_CountersFreezeAndWrap :
    blockOk 0x2FF = true ∧ eventOk 0x2FF 1 = true ∧ (0x2FF < 0x110 ∨ 0x200 ≤ 0x2FF) ∧ eventOk 0 0 = true ∧ 7 % 2 = 1 ∧
    live.frozen = false ∧ live.freezePend = false ∧ live.clk.beatNow < (1 : BitVec 64).toNat ∧ (withBar 0x30000 8).frozen = true ∧
    (withBar 0x30000 8).freezePend = false ∧
    (let s : State := { live with obs := { action := some (true, 0, .poker) }, ctl := { live.ctl with waiting := [(.poker, .ctrFreeze .poker 0)] } }
     0 ≤ s.clk.beatNow ∧ (getSlot s.ctl.waiting .poker).isSome = true ∧ s.obs.action = some (true, 0, .poker)) ∧
    (let s : State := { live with obs := { action := some (false, 0, .poker) }, ctl := { live.ctl with waiting := [(.poker, .ctrRelease .poker 0)] } }
     (getSlot s.ctl.waiting .poker).isSome = true ∧ s.obs.action = some (false, 0, .poker)) ∧
    (let s : State := { live with obs := { counters := [(0, { event := 1, en := true }), (2, { event := 1, en := true }),
        (3, { en := true, chain := true })] } }
     s.frozen = false ∧ (s.counter 0).en = true ∧ (s.counter 0).chain = false ∧ (s.counter 0).event ∉ countedEvents ∧
     s.chainedUp 0 = false ∧ s.chainedUp 2 = true ∧ (s.counter 3).en = true ∧ (s.counter 2).event ∉ countedEvents) := by decide +kernel

theorem wit_TraceStopsAndScan :
    field (0xC00000000000FFFF : BitVec 64).toNat 16 46 = 0 ∧
    ((2 ^ 20 : Nat) % 65536 = 0 ∧ 2 ^ 20 ≤ 2 ^ 34 ∧ live.traceOn = false ∧ live.ringMeets (2 ^ 20) = false ∧ (live.newRing (2 ^ 20)).isSome = true) ∧
    (let s : State := { withBar 0x30020 5 with obs := { traceMask := 0x8000 } }
     s.traceTakes 7 15 = true ∧ s.traceWaits = true ∧ (tget [] s.obs.queues 7).length < 16) ∧
    (let s : State := { withBar 0x30020 1 with obs := { traceMask := 0x8000, ringSize := 2 ^ 20 } }
     s.traceTakes 7 15 = true ∧ s.traceWaits = false ∧ 0 < s.obs.ringSize ∧ tfind s.obs.drops 7 = none) ∧
    live.gsPend = false ∧ live.gsState ≠ 2 ∧ (withBar 0x30040 2).gsState = 2 ∧ (withBar 0x30040 2).gsPend = false ∧
    (withBar 0x30040 2).net.rxHeld = [] ∧ live.gsState = 0 ∧ (withCtx { state := 1 }).anyRunning = true ∧
    (let s : State := { withBar 0x30040 16 with obs := { gsEdge := some (0, false) } }
     0 ≤ s.clk.beatNow ∧ s.traceOn = false ∧ s.obs.gsEdge = some (0, false) ∧ s.barBit 0x30040 4 = true ∧ s.quiescent = true) ∧
    ({ live with obs := { gsEdge := some (0, true), gsFroze := true } } : State).obs.gsEdge = some (0, true) ∧
    live.obs.dom < 327 ∧
    (let s : State := { withBar 0x30040 1 with ctl := { live.ctl with inflight := [(.poker, { op := 1, tag := 0, outAddr := 64, outLen := 2 ^ 20 })] } }
     s.gsState ≠ 0 ∧ getSlot s.ctl.inflight .poker = some { op := 1, tag := 0, outAddr := 64, outLen := 2 ^ 20 } ∧
     (scanDoms 326 326).foldl (fun n d => n + scanBound d) 0 ≤ 2 ^ 20) := by decide +kernel


theorem wit_TablesAreCheckedAndSwapped :
    (live.sfu.swapArmed = false ∧ live.sfu.checkRun = false ∧ (live.ctx 0).pendSwap = none ∧ parseImages 0 [] = some [] ∧
      (1 : BitVec 16).toNat ≠ (live.ctx 0).tgen ∧ (live.ctx 0).state ≠ 1 ∧ live.anyRunning = false ∧ live.spareFree = true ∧
      ((live.bankImage 0 (live.ctx 0).tgen).withImages []).hard.length ≤ 8192 ∧
      (live.ctx 0).bankOk ((live.bankImage 0 (live.ctx 0).tgen).withImages []) = true) ∧
    (let cx := (withCtx { state := 1 }).ctx 0
     cx.state = 1 ∧ (1 : BitVec 16).toNat ≠ (withCtx { state := 1 }).sfu.actGen.toNat ∧ cx.stepCommitted + 1 < (2 : BitVec 48).toNat) ∧
    (let s : State := { live with
        sfu := { checking := some (.poker, 0, 1, 0, {}) }
        ctl := { live.ctl with waiting := [(.poker, .tableLoad .poker 1 0 0 [])] } }
     s.sfu.checking = some (.poker, 0, 1, 0, {}) ∧ (getSlot s.ctl.waiting .poker).isSome = true ∧
     ({} : Bank).slots.all (fun p => slotPasses {} p.1 p.2) = true ∧ (s.ctx 0).state ≠ 1 ∧ s.anyRunning = false) ∧
    (let b : Bank := { slots := [(0, { header := 1 })] }
     b.slots.all (fun p => slotPasses b p.1 p.2) = false) ∧ 271 < 272 ∧ live.pwr.diesUp = true := by decide +kernel

theorem wit_GrateRegisterErrors : 271 < 272 ∧ live.faultSet = false ∧ live.latchable 1 = false ∧ (withSet [(0x0041, 2)]).latchable 1 = true ∧
    live.latchable 0xA = true ∧ live.slotInUse 0 = true := by decide +kernel

/-- A stream descriptor over descriptors a and b (0xFFFF: none), without index. -/
def sdOf (kind persist a b units : Nat) : Nat :=
  kind * 2 ^ 28 + persist * 2 ^ 26 + a * 2 ^ 32 + b * 2 ^ 48 + 0xFFFF * 2 ^ 64 + units * 2 ^ 88

/-- A vector of 1,024 FP32 elements at the start of scratch. -/
def vec : Desc := { space := 1, acc := 3, allocSize := 4096, extents := [1024], strides := [1] }

/-- The bytes of that descriptor. -/
def vecBytes : List Byte :=
  leBytes 8 (2 ^ 28 + 2 ^ 22 + 3 * 2 ^ 19) ++ leBytes 16 0 ++ leBytes 8 4096 ++ leBytes 16 0 ++ leBytes 8 1024 ++ leBytes 8 1 ++ leBytes 112 0

/-- A running job of context 0 with that vector, a load, a store and a persistent load of it, and one re-arm entry of tile 0. -/
def streaming (tl : Tile) : State :=
  { withTile 0 tl with ctxs := [(0, {
      jobLoaded := true, state := 1, allocs := [{ space := 1, size := 4096 }], descs := [vec]
      sdt := [sdOf 0 0 0 0xFFFF 1, sdOf 1 0 0 0xFFFF 1, sdOf 0 1 0 0xFFFF 1], rearm := [(0, [(0, 0)])] })] }

/-- A stream in a state, with an optional slot, of a persistent load. -/
def loadAt (state : Nat) (slot : Option (Nat × Nat)) : Tile :=
  { streams := [(31, { sd := sdOf 0 1 0 0xFFFF 1, state := state, units := 1, slot := slot })] }

theorem wit_StreamsAreArmedAndReArmed :
    (let s := streaming {}
     let d := sdOf 0 0 0 0xFFFF 1
     s.issues 0 = true ∧ (s.ctx s.sched.ctx).sdt[0]? = some d ∧ streamOk (s.ctx 0) d = true ∧ ((s.ltile 0).stream 31).armable = true ∧
     armNeeds ((s.ltile 0).stream 31) d ≤ armUnits (s.ltile 0) 31) ∧
    (let s := streaming { streams := [(0, { units := 64, state := 1 })] }
     s.issues 0 = true ∧ armUnits (s.ltile 0) 31 < armNeeds ((s.ltile 0).stream 31) (sdOf 0 0 0 0xFFFF 1)) ∧
    (let s := streaming { streams := [(0, { units := 60, state := 1 }), (31, { units := 4, state := 4, entries := [(1, 0)] })] }
     let d := sdOf 0 0 0 0xFFFF 5
     s.issues 0 = true ∧ ((s.ltile 0).stream 31).armable = true ∧ armUnits (s.ltile 0) 31 < armNeeds ((s.ltile 0).stream 31) d) ∧
    (let s := streaming { streams := [(31, { state := 5, pendArm := some (sdOf 0 0 0 0xFFFF 1) })] }
     let st := (s.ltile 0).stream 31
     s.issues 0 = true ∧ st.state = 5 ∧ st.pendArm = some (sdOf 0 0 0 0xFFFF 1) ∧ armNeeds st (sdOf 0 0 0 0xFFFF 1) ≤ armUnits (s.ltile 0) 31) ∧
    (∀ k ∈ [1, 2], let s := streaming (loadAt k none)
     let st := (s.ltile 0).stream 31
     s.issues 0 = true ∧ (tget [] (s.ctx s.sched.ctx).rearm 0)[0]? = some (0, 0) ∧ st.takesRearm = true ∧ st.slot = none ∧
     rearmOk (s.ctx st.ctx) st.sd 0 (st.newScale 0) = true ∧ st.state = k) ∧
    ((streaming {}).ltile 0).stream 31 = {} ∧ ({} : Stream).takesRearm = false ∧
    (let s := streaming (loadAt 1 (some (0, 0)))
     let st := (s.ltile 0).stream 31
     s.issues 0 = true ∧ st.takesRearm = true ∧ st.slot.isSome = true) ∧
    (let cx := (streaming {}).ctx 0
     cx.jobLoaded = true ∧ cx.descs.length < 16384 ∧ validateDesc vecBytes = 0 ∧ validateDesc [] ≠ 0) ∧
    (let s := streaming {}
     let st := (s.ltile 0).stream 31
     s.hostJob 0 = true ∧ streamOk (s.ctx 0) (sdOf 0 0 0 0xFFFF 1) = true ∧ sdKind (sdOf 0 0 0 0xFFFF 1) ∈ [0, 3] ∧ st.armable = true ∧
     st.state ≠ 5 ∧ armNeeds st (sdOf 0 0 0 0xFFFF 1) ≤ armUnits (s.ltile 0) 31) ∧
    (streaming (loadAt 1 none)).hostJob 0 = true := by decide +kernel

theorem wit_StreamPassEndDone :
    (let s := streaming { streams := [(31, { sd := sdOf 0 0 0 0xFFFF 1, state := 1, pos := 1024 })] }
     let st := (s.ltile 0).stream 31
     s.works (s.unitOf 0) = true ∧ st.state = 1 ∧ st.stall = false ∧ sdKind st.sd ≠ 3 ∧ sdPersist st.sd = false ∧ st.disarm = false ∧
     walkCount (s.ctx st.ctx) st.sd ≤ st.pos ∧ st.buf = []) ∧
    (let s := streaming { streams := [(31, { sd := sdOf 0 0 0 0xFFFF 1, state := 1, pos := 1023 })] }
     ((s.ltile 0).stream 31).pos < walkCount (s.ctx 0) ((s.ltile 0).stream 31).sd) ∧
    (let s := streaming { streams := [(31, { sd := sdOf 3 0 0 0 0, state := 1 })], ring := { active := true, s := 31, step := 255 } }
     let tl := s.ltile 0
     s.bellowsRun 0 = true ∧ tl.ring.active = true ∧ tl.ring.s = 31 ∧ tl.ring.step = 255 ∧ (tl.stream 31).state = 1 ∧
     sdPersist (tl.stream 31).sd = false ∧ (tl.stream 31).disarm = false ∧
     ∀ k ∈ tl.linked 31, ((tl.stream k).state = 2 ∨ (tl.stream k).state = 3) ∧ (tl.stream k).slot = none) := by decide +kernel

/-- The vector in external memory. -/
def vecX : Desc := { vec with space := 0, allocSize := 65536 }

/-- A stream 31 of tile 0 over that vector with one page map entry. -/
def external (kind : Nat) (e : W64) (em : Ember) : State :=
  { withTile 0 { streams := [(31, { sd := sdOf kind 0 0 0xFFFF 1, state := 1, units := 1, entries := if kind = 1 then [(1, 0)] else [] })] } with
    ctxs := [(0, { jobLoaded := true, descs := [vecX] })], mem := { pmap := [(0, e)] }, ember := em }

/-- A stream held by a page that is not present. -/
def heldAt (touch : Bool) (code : Nat) : State :=
  { withTile 0 { streams := [(31, { state := 1, stall := true, fault := BitVec.ofNat 32 (code * 2 ^ 28) })] } with
    ctxs := [(0, { allocs := [{ size := 65536, touch := touch }] })] }

theorem wit_TransfersAndTheirFaults :
    (let s := streaming { streams := [(31, { sd := sdOf 0 0 0 0xFFFF 1, state := 1, units := 1 })] }
     let st := (s.ltile 0).stream 31
     s.bellowsRun 0 = true ∧ st.stall = false ∧ plainRun s st 0 1 ∧ st.room (st.descA (s.ctx st.ctx)).fmt 1 = true) ∧
    (let s := streaming { streams := [(31, { sd := sdOf 1 0 0 0xFFFF 1, state := 1, pos := 1023, units := 1, entries := [(7, 0)] })] }
     let st := (s.ltile 0).stream 31
     st.stall = false ∧ plainRun s st 1 1 ∧ (st.descA (s.ctx st.ctx)).ovl = 0 ∧ st.entries.drop st.claimed = (7, 0) :: [] ∧
     (st.armedIn ≠ 0 ∨ meetsGuard (s.guards (s.ltile 0)) (cursorPlace s st).unit (cursorPlace s st).unitBytes = false)) ∧
    (271 < 272 ∧ (live.tile 271).xc.find 3 7 = none ∧ live.mem.hostCache.find 3 7 = none) ∧
    (∀ e ∈ [(0, 2), (mkEntry false true true true false 1 0, 3)], let s := external 0 e.1 {}
     let st := (s.tile (s.unitOf 0)).stream 31
     s.bellowsRun 0 = true ∧ plainRun s st 0 0 ∧ st.room (st.descA (s.ctx st.ctx)).fmt 1 = true ∧
     (s.tile (s.unitOf 0)).xc.find st.ctx ((cursorPlace s st).unit / 65536 / 8) = none ∧ s.groupFails st.ctx 0 = false ∧
     s.entryFault st.ctx (nth (0 : W64) (s.groupLine st.ctx 0).1 0) false false = e.2) ∧
    (∀ area ∈ [0, 65536], let s := external 1 (mkEntry true true true true true 1 0) { nextGen := [(0, 2)], areaBytes := area }
     let st := (s.tile (s.unitOf 0)).stream 31
     s.bellowsRun 0 = true ∧ plainRun s st 1 0 ∧ (s.nextStop ⟨s.unitOf 0, 0, 31⟩ st.ctx).2 = .access .cow 0 ∧ s.curGen st.ctx = some 1 ∧
     s.hasCopy 1 (pageKey st.ctx 0) = false ∧ (s.ember.copies.length < s.areaFrames ↔ area = 65536)) ∧
    (let s := heldAt false 3
     ((s.tile (s.unitOf 0)).stream 31).stall = true ∧ getField ((s.tile (s.unitOf 0)).stream 31).fault 28 4 ≠ 2) ∧
    (let s := heldAt true 2
     let st := (s.tile (s.unitOf 0)).stream 31
     st.stall = true ∧ getField st.fault 28 4 = 2 ∧ eV (s.pentry st.ctx 0) = false ∧ s.allocOfPage st.ctx 0 = some { size := 65536, touch := true } ∧
     (s.mapPage st.ctx { size := 65536, touch := true } 0).isSome = true ∧ s.unitOf 0 < 272 ∧ st.state = 1 ∧
     ((2 : BitVec 4).toNat = 2 ∨ (2 : BitVec 4).toNat = 3)) ∧
    guarded.guards (guarded.ltile 0) ≠ [] := by
  unfold plainRun
  refine ⟨by decide +kernel, by decide +kernel, by decide +kernel, by decide +kernel, by decide +kernel, by decide +kernel, by decide +kernel, by decide +kernel⟩

/-- A ring stream 31 at two neighbouring stations, whose slices lie in page 0. -/
def ringing (r0 r1 : Ring) (sent : Ring) : State :=
  let st : Stream := { sd := sdOf 3 0 0 1 0, state := 1 }
  { live with
    tiles := [(0, { streams := [(31, st)], ring := r0 }), (1, { streams := [(31, st)], ring := r1 }), (2, { streams := [(31, st)], ring := sent })]
    ctxs := [(0, { descs := [{ ndim := 2, acc := 1, allocSize := 65536, extents := [64, 256], strides := [1, 64] },
        { ndim := 2, space := 1, acc := 2, allocSize := 512, extents := [64, 2], strides := [1, 64] }] })]
    mem := { pmap := [(0, mkEntry true true true true false 1 0)] } }

theorem wit_TheWeightRing :
    (let s := ringing {} {} {}
     let tl := s.ltile 0
     let st := tl.stream 31
     let da := st.descA (s.ctx st.ctx)
     s.issues 0 = true ∧ tl.ring.active = false ∧ st.state = 1 ∧ st.stall = false ∧ sdKind st.sd = 3 ∧ ((s.ctx 0).desc 1).space = 1 ∧
     ((s.ctx 0).desc 1).ovl = 0 ∧ sdRingLink st.sd = false ∧ (∀ j ∈ tl.linked 31, (tl.stream j).slot = none) ∧ da.space ≠ 1 ∧
     (s.sliceReach 0 st.ctx da 0).2 = none ∧
     da.packedSlice = true ∧ ((s.ctx 0).desc 1).packedSlice = true ∧ scaleBlock da.fmt = 0 ∧ s.guards tl = []) ∧
    (let s := ringing { active := true, s := 31, step := 254 } { active := true, s := 31, step := 254 } {}
     s.bellowsRun 1 = true ∧ s.unitOf 1 = 1 ∧ s.upstream 1 = some 0 ∧ (s.tile 1).ring.active = true ∧ (s.tile 1).ring.s = 31 ∧
     (s.tile 1).ring.recv = none ∧ (s.tile 1).ring.step < 255 ∧ (s.tile 0).ring.active = true ∧ (s.tile 0).ring.sent = false ∧
     (s.tile 0).ring.step = (s.tile 1).ring.step ∧ ((s.tile 0).stream 31).state = 1 ∧
     ((s.tile 1).stream 31).state = 1 ∧ (s.tile 0).ring.s = 31 ∧ ((s.ctx 0).desc 1).ovl = 0 ∧ ((s.ctx 0).desc 1).packedSlice = true ∧
     scaleBlock ((s.ctx 0).desc 1).fmt = 0 ∧ ((s.ctx 0).desc 1).space = 1 ∧ s.guards (s.tile 1) = []) ∧
    (let s := ringing {} {} { active := true, s := 31, step := 254, recv := some 7, sent := true }
     let tl := s.ltile 2
     s.bellowsRun 2 = true ∧ tl.ring.active = true ∧ tl.ring.s = 31 ∧ tl.ring.step ≠ 255 ∧ tl.ring.recv = some 7 ∧ tl.ring.sent = true ∧
     (tl.stream 31).state = 1 ∧ (∀ k ∈ tl.linked 31, ((tl.stream k).state = 2 ∨ (tl.stream k).state = 3) ∧ (tl.stream k).slot = none) ∧
     sdRingLink (tl.stream 31).sd = false) := by
  decide +kernel

/-- A pass of hob 2 with full operands from flue B. -/
def passB (final : Bool) : PassDesc :=
  { hob := 2, statNew := false, final := final, mValid := 63, nValid := 64, kValid := 64, quadEn := 15, flueB := 4, passSeq := 9 }

/-- Tile 0 with hob 2 in a state and entries on flue 4. -/
def passing (h : Hob) : State :=
  withTile 0 { hobs := [(2, h)], streams := [(4, { state := 1, units := 64, entries := List.replicate 4096 (0, 0) })] }

theorem wit_PassesRunAndAreChecked :
    ((passing {}).issues 0 = true ∧ (2 : BitVec 2).toNat < 3 ∧ ((passing {}).ltile 0).stoker.preempt = false ∧
      (((passing {}).ltile 0).hob 2).stopped = false) ∧
    (let s := passing { held := some (passB true) }
     let tl := s.ltile 0
     s.stokerRuns 0 = true ∧ tl.stoker.preempt = false ∧ (tl.hob 2).stopped = false ∧ (tl.hob 2).held = some (passB true) ∧
     (tl.holdOf (tl.hob 2) (passB true) (s.laneOf 0 2)).clear = true ∧ (passB true).strmSrc = 0 ∧ (passB true).statNew = false ∧ (passB true).accIn ≠ 2) ∧
    (let s := withTile 0 { hobs := [(2, { held := some (passB false) })] }
     let tl := s.ltile 0
     s.stokerRuns 0 = true ∧ (tl.holdOf (tl.hob 2) (passB false) (s.laneOf 0 2)).clear = false) ∧
    (∀ b ∈ [true, false], let s := passing { fly := [{ d := passB b, replay := b }] }
     let tl := s.ltile 0
     s.works (s.unitOf 0) = true ∧ (tl.hob 2).fly = { d := passB b, replay := b } :: [] ∧ s.unitOf 0 < 272 ∧
     (tl.hob 2).fly.find? (fun q => q.d.passSeq.toNat == 9) = some { d := passB b, replay := b } ∧
     checkCounts (tl.hob 2) { parity := true } { d := passB b, replay := b } = true) := by
  refine ⟨by decide +kernel, by decide +kernel, by decide +kernel, by decide +kernel⟩

/-- A frame from module 2 to module 1. -/
def fr (typ : Nat) (p : List Byte) : Frame := { typ := typ, src := 2, dst := 1, cluster := 0, payload := p }

/-- The packet it comes in on chimney 0: an IPv4 datagram for module 1 in the cluster of prefix 0x0A0. -/
def wire (f : Frame) : List Byte :=
  etherBytes 1 2 none { v6 := false, src := 0x0A000002, dst := 0x0A000001, dscp := 46 }
    (udpBytes { v6 := false, src := 0x0A000002, dst := 0x0A000001, dscp := 46 } 49152 (live.setting 0x0120) (frameBytes f 0 0))

/-- The settings that give module 1 its address on chimney 0. -/
def own1 : List (Nat × W64) := [(0x0100, 1), (0x0104, 0), (0x0114, 0x0A0)]

/-- Module 1 with a flag parent and a time parent. -/
def module1 (flagUp timeUp : W64) : State := withSet (own1 ++ [(0x0102, 2), (0x0150, flagUp), (0x0151, 1), (0x0152, timeUp)])

/-- Frames that come, as a question that can be decided. -/
theorem comes_iff (s : State) (ch : BitVec 1) (l : List Byte) (f : Frame) (typ : Nat) :
    comes s ch l f typ ↔ s.portsUp = true ∧
      (match linkArrives s.ip6 (s.ownAddr ch.toNat) (s.setting 0x0120) l with
        | .payload u => parseFrame u
        | .counted | .ignored => none) = some f ∧ f.typ = typ ∧ f.cluster = s.setting 0x0103 ∧ s.devid = some f.dst := by
  unfold comes
  cases linkArrives s.ip6 (s.ownAddr ch.toNat) (s.setting 0x0120) l <;> simp

/-- The round of edge 9 of one module. -/
def round9 : Round := { edge := 9, nr := true, cnt := 1 }

/-- The answer of a time parent to exchange 4. -/
def respP : List Byte := timePayload 2 0 4 77 0

theorem wit_FlagRoundsAndTimeFrames :
    (let s := module1 (BitVec.ofNat 64 noneValue) 2
     let f := fr 0 (flagPayload false round9)
     comes s 0 (wire f) f 0 ∧ parseRound f.payload = (false, round9) ∧ (s.noteUp f.src 9 f.chsel).2 = true ∧
     (s.noteUp f.src 9 f.chsel).1.orOf 9 = none ∧ s.orOf 9 = none ∧ s.flagParent = none ∧ s.setting 0x0151 = 1 ∧
     s.net.ups = [] ∧ s.net.own = [] ∧ flagConflict [round9, round9] = false ∧ round9.cnt + round9.cnt = s.clusterSize) ∧
    (let s := module1 2 2
     let f := fr 0 (flagPayload true { round9 with cnt := 2 })
     comes s 0 (wire f) f 0 ∧ (parseRound f.payload).1 = true ∧ s.flagParent = some f.src ∧ s.orOf 9 = none) ∧
    (let s : State := { module1 2 2 with net := { upSeen := [((2, 9), (1, 2))] } }
     let f := fr 0 (flagPayload false round9)
     comes s 0 (wire f) f 0 ∧ (parseRound f.payload).1 = false ∧ (s.noteUp f.src 9 f.chsel).2 = false ∧ s.upCount f.src 9 = (1, 2)) ∧
    (let s : State := { module1 2 2 with net := { ors := [round9] } }
     s.flagParent = some 2 ∧ s.orOf 9 ≠ none) ∧
    (let f := fr 0 (flagPayload true { edge := gstopMark, gstop := true, cnt := 0 })
     comes (module1 2 2) 0 (wire f) f 0 ∧ (parseRound f.payload).2.gstop = true ∧ (parseRound f.payload).2.edge = gstopMark) ∧
    (let s : State := { module1 2 2 with io := [(0x2004, 3)] }
     s.portsUp = true ∧ s.clk.started = true ∧ s.chimneysTo 2 = [0, 1]) := by
  simp only [comes_iff]
  refine ⟨by decide +kernel, by decide +kernel, by decide +kernel, by decide +kernel, by decide +kernel, by decide +kernel⟩

theorem wit_time_frames :
    (let s := module1 2 2
     let f := fr 1 (timePayload 0 s.beatDiv 4 5 6)
     comes s 0 (wire f) f 1 ∧ s.timeParent = some (f.src, 0) ∧ timeMsg f.payload = 0 ∧ s.clk.started = true ∧
     field (beAt f.payload 0 4) 0 18 = s.beatDiv) ∧
    (let f := fr 1 (timePayload 0 320 4 5 6)
     comes (module1 2 2) 0 (wire f) f 1 ∧ field (beAt f.payload 0 4) 0 18 ≠ (module1 2 2).beatDiv) ∧
    (let f := fr 1 (timePayload 1 0 4 5 0)
     let s : State := { module1 2 2 with io := [(0x2004, 1)] }
     comes s 0 (wire f) f 1 ∧ timeMsg f.payload = 1 ∧ 0 ∈ s.chimneysTo f.src) ∧
    (let e : TimeExch := { tseq := 4, t1 := 1, t2 := 2, t3 := 3, pbeat := some 0 }
     let s : State := { module1 2 2 with clk := { started := true, exch := some e } }
     comes s 0 (wire (fr 1 respP)) (fr 1 respP) 1 ∧ s.clk.exch = some e ∧ timeMsg respP = 2 ∧ timeSeq respP = e.tseq ∧ e.pbeat.isSome = true ∧
     s.clk.delays = [] ∧ s.clk.everAligned = false) := by
  simp only [comes_iff]
  refine ⟨by decide +kernel, by decide +kernel, by decide +kernel, by decide +kernel⟩

/-- Slot 7, of 4 shards over two ranks in two levels of radix 2, its result in descriptor 0 and its source in descriptor 1. -/
def exch7 : Exch := { tOpen := 0, slot := 7, kind := 0, wide := false, nlev := 2, shards := 4, dst := 0, src := 1, radices := [2, 2] }

/-- Rank 1 of two in a running job with that exchange. -/
def folding (slots : Table ExSlot) : State :=
  { withSet (own1 ++ [(0x0101, 0), (0x0102, 2)]) with
    sched := { running := true }, net := { slots := slots }
    ctxs := [(0, {
      descs := [{ acc := 2, allocSize := 256, extents := [64], strides := [1] }, { ndim := 2, space := 1, acc := 1, extents := [64, 2], strides := [1, 64] }]
      exch := leBytes 4 7 ++ leBytes 4 (2 * 2 ^ 24 + 4) ++ leBytes 4 1 ++ leBytes 2 2 ++ leBytes 2 2 ++ leBytes 16 0 })] }

/-- A block of zeros. -/
def zeroBlock : List Byte := List.replicate 129 0

/-- A COLL frame of rank 0: slot 7, chunk 0, level lev, position 0, one block of zeros. -/
def collFrame (slot lev : Nat) : Frame :=
  { typ := 2, src := 0, dst := 1, cluster := 0
    payload := beBytes 4 (slot * 65536) ++ beBytes 4 0 ++ beBytes 4 (lev * 2 ^ 24) ++ beBytes 4 65536 ++ zeroBlock }

set_option maxRecDepth 20000 in
theorem wit_ExchangeSlotsFold :
    (let s := folding []
     (s.ctx s.sched.ctx).exchOf 7 = some exch7 ∧ s.sched.running = true ∧ s.sched.desync = false ∧ s.sched.abandoned = false ∧
     thas s.net.slots 7 = false ∧ s.sched.base + exch7.tOpen ≤ s.localNow 318 ∧ s.edgeSeen 318 = true ∧ s.fencesMet (fun m => m.op == 0xD1 && m.barrier && m.beat == exch7.tOpen) = true) ∧
    (let s := folding [(7, { accs := [((0, 1, 2), [zeroBlock])] })]
     let cx := s.ctx s.sched.ctx
     let sl := s.slotOf 7
     cx.exchOf 7 = some exch7 ∧ s.pwr.diesUp = true ∧ s.gsState ≠ 2 ∧ sl.isOpen = true ∧ 1 ≤ exch7.nlev ∧ 0 < nth 1 exch7.radices 0 ∧
     3 < exch7.shards ∧ 0 < cx.chunks exch7 ∧ s.holder exch7 0 2 = s.rank ∧ s.holder exch7 0 3 = s.rank ∧ 2 % nth 1 exch7.radices 0 = 0 ∧
     3 % nth 1 exch7.radices 0 ≠ 0 ∧ (∀ p ∈ [2, 3], s.exReach (cx.desc exch7.src) (s.srcTuples cx exch7 0 p) false = (s, true)) ∧
     valAt sl.accs (0, 1, 2) = some [zeroBlock] ∧ valAt sl.accs (0, 1, 3) = none ∧
     valAt ((folding [(7, {})]).slotOf 7).accs (0, 1, 2) = none) ∧
    (let s := folding [(7, {})]
     let f := collFrame 7 2
     comes s 0 (wire f) f 2 ∧ (s.acceptSeq f 0).2 = true ∧ beAt f.payload 0 2 = 7 ∧ f.epoch = s.sched.base.toNat % 65536 ∧
     (s.slotOf 7).isOpen = true ∧ s.collFits (s.ctx 0) exch7 f.src f.payload = true ∧ Nat.testBit (beAt f.payload 8 4) 31 = false) ∧
    (let s := folding [(7, {})]
     comes s 0 (wire (collFrame 6 2)) (collFrame 6 2) 2 ∧ (s.acceptSeq (collFrame 6 2) 0).2 = true ∧ (s.ctx 0).exchOf 6 = none ∧
     comes s 0 (wire (collFrame 7 1)) (collFrame 7 1) 2 ∧ (s.acceptSeq (collFrame 7 1) 0).2 = true ∧
     s.collFits (s.ctx 0) exch7 0 (collFrame 7 1).payload = false) := by
  simp only [comes_iff]
  refine ⟨by decide +kernel, by decide +kernel, by decide +kernel, by decide +kernel⟩

/-- A PART or PAR payload: GEN, item, OFS, FRAG, DATA. -/
def partP (gen item ofs frag : Nat) (data : List Byte) : List Byte :=
  beBytes 4 gen ++ beBytes 4 item ++ beBytes 2 ofs ++ beBytes 2 frag ++ data

/-- Module 1 of a group with partner 2. -/
def partnered (gr : List Nat) : State := { module1 2 2 with ember := { partner := some 2, group := gr } }

/-- Module 1 with a frame that module 2 has not acknowledged. -/
def unacked (n : Nat) : State :=
  { module1 2 2 with net := { peers := [(2, { arrivals := 1, syn := decide (n ≠ 0), unacked := [{ seq := 0, typ := 2, sent := true, sends := 1, payload := [] }] })] }, io := [(0x2004, 1)] }

theorem wit_ReliableFramesAndPairStates :
    (let f := fr 3 (partP 5 0 65528 0 (List.replicate 8 1))
     comes (partnered []) 0 (wire f) f 3 ∧ ((partnered []).acceptSeq f 0).2 = true ∧ isEndMark f = false ∧ isPairing f = false ∧
     (partnered []).ember.partner = some f.src ∧ (module1 2 2).ember.partner ≠ some f.src ∧ comes (module1 2 2) 0 (wire f) f 3 ∧
     ((module1 2 2).acceptSeq f 0).2 = true) ∧
    (∀ g ∈ [[0, 1, 2, 3, 4, 5, 6, 7, 8, 9], [2, 1, 0, 3, 4, 5, 6, 7, 8, 9]],
     let s := partnered g
     let f := fr 4 (partP 5 (if g.head? = some 0 then 0 else 1) 0 7 (List.replicate 8 1))
     comes s 0 (wire f) f 4 ∧ (s.acceptSeq f 0).2 = true ∧ isEndMark f = false ∧ s.member = some 1 ∧ s.ember.group.contains f.src = true ∧
     partFrag f < 8 ∧ (s.arrived f).pieces.contains (partItem f * 65536 + partOfs f) = false ∧
     s.ember.parity.find? (fun x => x.key == partItem f) = none ∧
     (if g.head? = some 0 then 1 ≠ partItem f % 10 ∧ 1 = (partItem f + 1) % 10 else 1 = partItem f % 10)) ∧
    (let f := fr 3 (partP 5 0 0xFFFF 0 [])
     comes (partnered []) 0 (wire f) f 3 ∧ ((partnered []).acceptSeq f 0).2 = true ∧ isEndMark f = true ∧
     (let a := (partnered []).arrived f
      a.items = partItem f % 2 ^ 26 ∧ a.bytes = partItem f % 2 ^ 26 * 65536) ∧
     (let f := fr 3 (partP 5 1 0xFFFF 0 [])
      comes (partnered []) 0 (wire f) f 3 ∧ ((partnered []).acceptSeq f 0).2 = true ∧ isEndMark f = true ∧
      ((partnered []).arrived f).items ≠ partItem f % 2 ^ 26)) ∧
    (let f := fr 3 (partP 0xFFFFFFFF 0 0 0 (leBytes 8 2 ++ leBytes 8 1))
     comes (module1 2 2) 0 (wire f) f 3 ∧ ((module1 2 2).acceptSeq f 0).2 = true ∧ isPairing f = true ∧ (module1 2 2).pairWaits = false ∧
     (module1 2 2).ember.partner ≠ some f.src ∧ (module1 2 2).ember.group.contains f.src = false) := by
  simp only [comes_iff]
  refine ⟨by decide +kernel, by decide +kernel, by decide +kernel, by decide +kernel⟩

theorem wit_pair_states :
    (let s := unacked 0
     let f := fr 5 (beBytes 4 0 ++ beBytes 8 0)
     comes s 0 (wire f) f 5 ∧ (s.peer f.src).syn = false ∧
     (∀ x ∈ (s.peer f.src).unacked, 0 < x.sends ∧ serialBelow (beAt f.payload 0 4) x.seq = false) ∧
     comes (unacked 1) 0 (wire f) f 5 ∧ ((unacked 1).peer f.src).syn = true ∧ f.syn = false) ∧
    (let s := unacked 0
     s.portsUp = true ∧ 0 < (s.peer 2).arrivals ∧ (s.peer 2).arrCh ∈ s.chimneysTo 2 ∧ thas s.net.peers 2 = true ∧
     ((s.peer 2).unacked.find? (fun y => y.seq == 0 && y.sent)).map (fun x => x.typ) = some 2) := by
  simp only [comes_iff]
  refine ⟨by decide +kernel, by decide +kernel⟩

theorem wit_ChimneysPathsAndEthernet :
    (live.linksAlive = true ∧ (live.ior (chReg 1)).getLsbD 13 = false ∧ (withIo (chReg 1) 0x200F).linksAlive = true ∧
      ((withIo (chReg 1) 0x200F).ior (chReg 1)).getLsbD 13 = true ∧ (withIo (chReg 1) 0x200F).allLinksUp 1 = true ∧
      ({ withSet [(0x0131, 0x30)] with io := [] } : State).linkConfigured 1 3 = true ∧ live.linkConfigured 0 0 = true) ∧
    (let s : State := { live with io := [(0x2004, 2)], net := { peers := [(2, { missed := [(1, 2)] })] } }
     s.chActive 1 = true ∧ 2 ≤ tget 0 (s.peer 2).missed 1 ∧ (s.peer 2).pathloss = none) ∧
    ({ live with net := { peers := [(2, { pathloss := some 1, unacked := [{ seq := 0, typ := 2, payload := [] }] })] } } : State).peer 2 =
      { pathloss := some 1, unacked := [{ seq := 0, typ := 2, payload := [] }] } ∧
    (let s := withSet [(0x0100, 1), (0x0104, 0), (0x0114, 0x0A0)]
     s.asksMe 0 false ((s.ownAddr 0).getD 0) = true ∧ s.asksMe 0 false ((s.ownAddr 0).getD 0 + 1) = false ∧ s.portsUp = true ∧
     s.ip6 = false ∧ 0 = s.gateway 0 % 2 ^ 32) ∧
    (withSet [(0x0142, 0x80)]).portsUp = true ∧ Nat.testBit ((withSet [(0x0142, 0x80)]).setting 0x0142) 7 = true ∧
    (({ live with net := { qps := [(63, { sent := [.uart []] })] } } : State).qp 63).sent = .uart [] :: [] ∧ (live.qp 63).sent = [] := by
  decide +kernel

/-- A module with a cartridge in a state, and generations. -/
def bay (st : Nat) (gens : List GenRec) : State := { live with ember := { cart := some {}, cartState := st, cartRead := true, gens := gens } }

/-- A policy whose generations are all drained. -/
def drainPolicy (room : Nat) : List Byte :=
  smallPolicy.take 0x2C ++ leBytes 4 1 ++ (smallPolicy.drop 0x30).take 0x10 ++ leBytes 0x20 0 ++ leBytes 8 room ++ leBytes 8 0

theorem wit_EmberSendsSealsAndTheBay :
    (let r : GenRec := { gen1 with todo := [0, 5] }
     (bay 1 [r]).sending 0 = some r ∧ r.todo.head? = some 0 ∧ (bay 1 [r]).gsState ≠ 2) ∧
    (∀ r ∈ [{ gen1 with cartOn := true, cartTodo := [3] }, { gen1 with cartOn := true, cartTail := 2 }, { gen1 with cartOn := true, cartTail := 1 }],
      (bay 1 [r]).ember.cart = some {} ∧ (bay 1 [r]).cartUsable = true ∧ (bay 1 [r]).ember.gens.find? (fun q => q.cartOn && !q.cartDone) = some r ∧
      r.cartBuf = [] ∧ (r.cartTodo = [3] ∨ (r.cartTodo = [] ∧ (r.cartTail = 2 ∨ r.cartTail < 2)))) ∧
    ((bay 0 [{ gen1 with endSent := true }]).unsealed 0 = some { gen1 with endSent := true } ∧
      (bay 0 [{ gen1 with endSent := true }]).canSeal { gen1 with endSent := true } = true ∧ (bay 0 [gen1]).unsealed 0 = some gen1 ∧
      (bay 0 [gen1]).canSeal gen1 = false ∧
      (let s : State := { live with
          ember := { gens := [{ gen1 with endSent := true }], drain := some (0, 0) }, ctxs := [(0, { policy := drainPolicy 0 })] }
       s.unsealed s.sched.ctx = some { gen1 with endSent := true } ∧ s.canSeal { gen1 with endSent := true } = true ∧
        s.ember.drain.isSome = true ∧ polDrain (s.ctx 0).policy ≠ 0 ∧ 1 % polDrain (s.ctx 0).policy = 0)) ∧
    (let r : GenRec := { gen1 with isSealed := true }
     ∀ room ∈ [2 ^ 20 - 1, 2 ^ 20], let s : State := { bay 0 [r] with ctxs := [(0, { policy := drainPolicy room })] }
     let p := (s.ctx 0).policy
     (s.ember.gens.filter (fun q => q.ctx == 0 && q.isSealed)).getLast? = some r ∧ polDrain p ≠ 0 ∧ r.gen % polDrain p = 0 ∧ s.ember.drain = none ∧
     (s.protectedPages r.ctx).length = 0 ∧ imagePageCount r = 0 ∧ leAt p (polDrainAt p + 0x20) 8 = room) ∧
    (let s : State := { live with ember := { drain := some (0, 1) } }
     s.ember.drain = some (0, 1) ∧ s.ember.drainLeft = 0) ∧
    (live.ember.cart = none ∧ ({ live with ember := { cart := some {} } } : State).ember.cartRead = false ∧ 3 ≤ live.pwr.stage ∧
      (bay 6 []).ember.cartState = 6 ∧ (bay 1 []).ember.cartState ≠ 6 ∧ (bay 1 []).ember.cartGone = false ∧ 8 ≤ live.pwr.stage ∧
      live.flt.latchOpen = false) ∧
    ({ live with ember := { cartGone := true } } : State).ember.cartGone = true ∧
    (live.cartHeld = false ∧ (bay 1 []).cartHeld = true ∧ (bay 1 []).drainReads = false ∧ (bay 1 []).ember.cartState ≠ 5 ∧
      (let s : State := { bay 5 [] with ctl := { live.ctl with waiting := [(.poker, .cartEject .poker)] } }
       s.ember.cartState = 5 ∧ getSlot s.ctl.waiting .poker = some (.cartEject .poker))) ∧
    ((bay 1 []).ember.ejectWait = false ∧ live.barBit 0x20000 0 = false ∧ (withBar 0x20000 1).barBit 0x20000 0 = true) := by
  refine ⟨by decide +kernel, by decide +kernel, by decide +kernel, by decide +kernel, by decide +kernel, by decide +kernel, by decide +kernel, by decide +kernel, by decide +kernel⟩

/-- A module with its power in a state. -/
def power (p : Pwr) : State := { live with pwr := p }

theorem wit_FeedThermalAndDieRestart :
    (live.pwr.tj < 95 ∧ 95 ≤ (95 : Nat) ∧ 1 ≤ live.pwr.stage ∧ live.pwr.coolHold = false ∧ live.pwr.diesUp = true) ∧
    (95 ≤ (power { tj := 95 }).pwr.tj ∧ (94 : Nat) < 95) ∧
    (let p := (power { stage := 8, tj := 84 }).pwr
     p.diesUp = false ∧ p.stage = 8 ∧ p.lost = false ∧ p.noRestart = false ∧ p.tj < 85 ∧ p.coolHold = false) ∧
    (let p := (power { stage := 8, restarting := true, restartUnits := [0] }).pwr
     p.restarting = true ∧ p.lost = false ∧ p.stage = 8 ∧ p.restartUnits = [0] ∧ p.restartTier1 = []) ∧
    (let p := (power { stage := 8, restarting := true, restartTier1 := [255] }).pwr
     p.restarting = true ∧ p.lost = false ∧ p.restartUnits = [] ∧ p.restartTier1 = [255]) ∧
    ((48000 : Nat) ≤ 48000 ∧ 44000 ≤ (44000 : Nat) ∧ (47999 : Nat) < 48000 ∧ (60000 : Nat) < 60001 ∧ (62000 : Nat) ≤ 62000 ∧ (43999 : Nat) < 44000 ∧
      (62000 : Nat) < 62001) ∧
    (live.pwr.feedHold = false ∧ live.pwr.stage ≠ 0 ∧ live.pwr.lost = false ∧ live.pwr.dark = false) ∧
    (power { lost := true }).pwr.lost = true ∧ (power { dark := true }).pwr.dark = true ∧ (power { dark := true }).pwr.lost = false ∧
    ({ live with pwr := { lost := true }, ember := { cartGone := false } } : State).ember.cartGone = false := by decide

theorem wit_KindlingStages :
    (∀ n, 1 ≤ n → n ≤ 8 → kindles (power { stage := n - 1 }) n) ∧
    (State.reset.barBit 0x20020 1 = false ∧ (State.reset.slotVersion false).isSome = true ∧ (State.reset.slotVersion true).isSome = true) ∧
    State.reset.ember.cart = none ∧ (State.reset.tile (68 * 3 + 63)).suspect = false ∧ (State.reset.tile (68 * 3 + 63)).testOk = true ∧
    State.reset.pwr.mgmtDue = false ∧ State.reset.clk.pwrLow = false ∧ State.reset.pwr.stage ≠ 2 := by
  refine ⟨fun n h1 h2 => ⟨by show n - 1 + 1 = n; omega, rfl, rfl, rfl⟩, by decide⟩

/-! ## Further cases of the hypotheses -/

/-- A lane out of range for each permute that can name one: VROT turns within VLe. -/
theorem wit_permute_out_of_range :
    (let a : Tile := ({ vl := 4, x := [(2, 9)], regs := [(0x0300, 0), (0x0304, 1)] } : Tile).putLanes 1 16 [some 4]
     ∀ i ∈ [0, 1, 3, 4], ∃ row, permuteRows[i]? = some row ∧
       let g : GrateWord := { vb := 1, imm := 9 }
       a.active g 0 = true ∧ ¬ (0 ≤ (row.2 g a 4 0).2 ∧ (row.2 g a 4 0).2 < 4)) := by
  intro a i hi
  simp only [List.mem_cons, List.not_mem_nil, or_false] at hi
  rcases hi with rfl | rfl | rfl | rfl <;> exact ⟨_, rfl, by decide +kernel⟩

theorem wit_clock_domain_waits :
    (let s : State := { live with clk := { live.clk with timedOut := [5] } }
     5 ∈ s.clk.timedOut ∧ 5 ∉ s.clk.forced) ∧ (326 : Nat) ∉ live.clk.timedOut ∧ (326 ≠ 324 ∧ live.mem.heldHost = []) ∧
    (live.domRuns 326 = true ∧ domainBlock 326 = none ∧ domainBlock 271 = some 271 ∧ (withBar 0x30040 2).domRuns 271 = false) ∧
    (let s : State := { live with clk := { live.clk with levels := [(271, [{ level := 15, tick := 16 }])] } }
     s.domRuns 271 = true ∧ s.clk.ticks < 16 ∧ 16 ≤ ({ s with clk := { s.clk with ticks := 16 } } : State).clk.ticks) ∧
    (let s : State := { live with clk := { live.clk with fastOn := true, fastLevel := 15 } }
     s.clk.pwrLow = false ∧ s.clk.fastOn = true ∧ s.clk.fastLevel ≤ 15) ∧ live.clk.fastOn = false := by decide

theorem wit_quiet_timer_held :
    (∀ s ∈ [({ live with flt := { reacts := [0xA000] } } : State), { live with pwr := { live.pwr with restarting := true } }, inMove 1],
      s.flt.reacts ≠ [] ∨ s.mem.moving.isSome = true ∨ s.pwr.restarting = true) ∧ (withBar 0x20000 0x2000).modFlt = true ∧
    (withBar 0x20000 0x100).reacting = false ∧ live.clocked 323 = true ∧ frameOk .t2 5 = true := by decide

/-- A page of tier 3 whose cartridge is away. -/
def away : State :=
  let e := mkEntry true true true true false 2 5
  { live with mem := { pmap := [(0, e)], pmapCopy := [(0, e)] } }

/-- A read of such a page rebuilds it; a page that was never mapped is a fault. -/
theorem wit_page_rebuilt :
    (∃ f, (List.range 16).findSome? (fun i => away.freeFrame 1 ((0 + i) % 16)) = some f ∧ away.spanHeld 1 f 0 4 = false) ∧
    (let e := hostEntry away 0 0
     away.bar2Dva 0 = (0, 0) ∧ away.pentry 0 0 = e ∧ away.groupFails 0 0 = false ∧ away.entryFault 0 e true false = 2 ∧ eV e = true) ∧
    (live.entryFault 0 (hostEntry live 0 0) true false = 2 ∧ eV (hostEntry live 0 0) = false ∧ eV (live.pentry 0 0) = false) ∧
    (live.pageOfFrame 1 (live.pmFrame 0 0 false) = none ∧ live.pageOfFrame 1 (live.pmFrame 0 0 true) = none ∧
     live.mem.retired.length + 1 < 8192 ∧ live.pmFrame 0 0 true < 2 ^ 27) := by
  refine ⟨?_, by decide +kernel, by decide +kernel, by decide +kernel⟩
  have h : ((List.range 16).findSome? (fun i => away.freeFrame 1 ((0 + i) % 16))).any (fun f => !away.spanHeld 1 f 0 4) = true := by
    decide +kernel
  revert h
  cases (List.range 16).findSome? (fun i => away.freeFrame 1 ((0 + i) % 16)) with
  | none => exact fun h => by cases h
  | some f => exact fun h => ⟨f, rfl, by simpa using h⟩

theorem wit_local_edges :
    (let s : State := { live with clk := { live.clk with beatNow := 2, tokens := [(271, [{ beat := 2, before := 0 }])] } }
     s.localBeat (s.blockUnit 271) < s.clk.beatNow ∧ s.clk.beatNow ≤ s.localBeat (s.blockUnit 270)) ∧
    live.blockFrozen 0 = false ∧ (withCtx { state := 1 }).anyRunning = true ∧
    ({ withBar 0x30040 2 with obs := { snapCut := true } } : State).obs.snapCut = true ∧
    (let s : State := { withBar 0x30040 1 with ctl := { live.ctl with inflight := [(.poker, { op := 1, tag := 0 })] } }
     getSlot s.ctl.inflight .poker = some { op := 1, tag := 0 } ∧ s.gsState ≠ 0) ∧
    (let s : State := { live with flt := { reacts := [] }, clk := { live.clk with beatNow := 3 } }
     s.localBeat 7 = 3) := by decide +kernel

/-- A check of a table for the step that waits for it, and for a later one. -/
theorem wit_table_check_now :
    (∀ st ∈ [1, 2], ∀ step ∈ [1, 2], let s : State := { withCtx { state := st } with
        sfu := { checking := some (.poker, 0, 1, step, {}) }
        ctl := { live.ctl with waiting := [(.poker, .tableLoad .poker 1 0 step [])] } }
     s.sfu.checking = some (.poker, 0, 1, step, {}) ∧ (getSlot s.ctl.waiting .poker).isSome = true ∧
     ({} : Bank).slots.all (fun p => slotPasses {} p.1 p.2) = true ∧ ((s.ctx 0).state = 1 ∨ (s.ctx 0).state = 2) ∧
     (step = (s.ctx 0).stepCommitted + 1 ∨ (s.ctx 0).stepCommitted + 1 < step)) := by decide +kernel

theorem wit_acted_ahead :
    (let s := streaming { stoker := { ahead := [0] } }
     s.issues 0 = true ∧ (s.ltile 0).stoker.pc ∈ (s.ltile 0).stoker.ahead ∧ (streaming {}).issues 0 = true ∧
     ((streaming {}).ltile 0).stoker.pc ∉ ((streaming {}).ltile 0).stoker.ahead) ∧
    (let s : State := { streaming {} with pwr := { live.pwr with diesUp := false } }
     s.hostJob 0 = true ∧ streamOk (s.ctx 0) (sdOf 0 0 0 0xFFFF 1) = true ∧ sdKind (sdOf 0 0 0 0xFFFF 1) ∈ [0, 3] ∧ s.works (s.unitOf 0) = false) ∧
    (streaming {}).works ((streaming {}).unitOf 0) = true ∧ live.works 271 = true := by decide +kernel

/-- A program whose word 0 is a pass of hob 2, word 5 an ARM of flue 3, and word 6 the hob's next pass, whose operand flue 3 gives. -/
def aheadWords : List W64 :=
  let body : List W64 := [0x0403000090000000, 0x000F0000003F4040, 0, 0]
  0xF000000000000000 :: body ++ [0xC100000000000003, 0xF000000000000000] ++ body

theorem wit_pass_looks_ahead :
    (let s : State := { withTile 0 { hobs := [(2, { held := some (passB false) })] } with ctxs := [(0, { prog := [(0, aheadWords)] })] }
     let d := passB false
     let next := s.laneOf 0 2
     let tm := (s.setLtile 0 ((s.ltile 0).passStart 2 next)).ltile 0
     s.stokerRuns 0 = true ∧ ((s.ltile 0).hob 2).held = some d ∧ ((s.ltile 0).holdOf ((s.ltile 0).hob 2) d next).clear = false ∧
     (match next with
      | some p => decide (p.statSrc = 0 ∧ p.flueA = 3 ∧ (tm.stream p.flueA.toNat).avail < passNeedA p) &&
          ((reachable ((s.ctx s.sched.ctx).program 0) 64 (s.ahead 0 d).1).find? (fun x =>
            feeds tm p.flueA.toNat x.1 x.2 && !tm.stoker.ahead.contains x.1.pc)).isSome
      | none => false) = true) ∧
    (let s := withTile 0 { hobs := [(2, { held := some (passB false) })] }
     s.laneOf 0 2 = none) := by decide +kernel

theorem wit_packets :
    (let s : State := { module1 2 2 with io := [(0x2004, 1)], net := { macs := [(0, 7)] } }
     s.mayPass 0 0 = !s.net.paused.contains (0, (Config.ipPriority 0).toNat) ∧ s.net.paused = [] ∧ (module1 2 2).mayPass 0 0 = false) ∧
    (let s : State := { module1 2 2 with net := { gstopSent := true } }
     s.net.gstopSent = true ∧ (module1 2 2).net.gstopSent = false) ∧
    (let s : State := { module1 2 2 with net := { sentUp := [round9] }, io := [(0x2004, 3)] }
     s.flagParent = some 2 ∧ round9 ∈ s.net.sentUp ∧ 1 ∈ s.chimneysTo 2) := by decide +kernel

theorem wit_cartridge_buffer :
    (∀ r ∈ [{ gen1 with cartOn := true, cartBuf := [(0, [1])] }, { gen1 with cartOn := true, cartTail := 3 }],
      (bay 1 [r]).cartUsable = true ∧ (bay 1 [r]).ember.gens.find? (fun q => q.cartOn && !q.cartDone) = some r) ∧
    ((power { stage := 8 }).pwr.diesUp = false ∧ (power { stage := 8 }).pwr.restarting = false ∧ (power { stage := 8, restarting := true }).pwr.stage ≠ 0) ∧
    (power { stage := 6 }).pwr.restarting = false ∧
    ((power { lost := true }).pwr.lost = true ∧ (power {}).pwr.stage = 0 ∧ (power {}).pwr.lost = false) := by decide

theorem wit_kindling_turns :
    (∀ b ∈ [true, false], let s := withBar 0x20020 (if b then 2 else 0)
     s.barBit 0x20020 1 = b ∧ (s.slotVersion b).isSome = true ∧ (s.slotVersion (!b)).isSome = true) ∧
    (∀ n, 1 ≤ n → n ≤ 8 → ¬ kindles (power { stage := n - 1, dark := true }) n ∧ ¬ kindles (power { stage := n }) n) ∧
    (let s : State := { bay 2 [] with pwr := { stage := 7 }, ember := { (bay 2 []).ember with adoptDue := some (0, 4, true) } }
     kindles s 8 ∧ s.ember.adoptDue = some (0, 4, true) ∧ s.foreignCart = true ∧ s.pwr.mgmtDue = false ∧ s.clk.pwrLow = false) := by
  refine ⟨by decide, fun n h1 h2 => ⟨fun h => by simpa [power] using h.2.2.1, fun h => by have := h.1; simp [power] at this⟩, ⟨by unfold kindles; decide, by decide⟩⟩

end Sys2Proof.Tests
end

/-! Register writes by host and firmware (R10 to R12, Machine/Control.lean): what each of the three written words holds
afterwards, and what a write leaves as it is. -/

namespace Sys2Proof.Machine

/-! ## Words with bits cleared -/

theorem State.bar_andnBar (s : State) (o : Nat) (v : W32) (p : Nat) :
    (s.andnBar o v).bar p = if p = o then s.bar o &&& ~~~v else s.bar p := State.bar_setBar ..

theorem State.ior_andnIo (s : State) (o : Nat) (v : W32) (p : Nat) :
    (s.andnIo o v).ior p = if p = o then s.ior o &&& ~~~v else s.ior p := State.ior_setIo ..

/-- Clearing a bit undoes its having been set just before. -/
theorem or_twoPow_and_not {n : Nat} (x c : BitVec n) (i : Nat) (h : c.getLsbD i = true) :
    (x ||| BitVec.twoPow n i) &&& ~~~c = x &&& ~~~c := by
  apply BitVec.eq_of_getLsbD_eq
  intro j _
  by_cases hj : i = j
  · subst hj
    simp [h]
  · simp [BitVec.getLsbD_twoPow, hj]

/-- Clearing none of a word's bits leaves every word as it is. -/
theorem cleared_none (f : Nat → W32) (v : W32) (off o : Nat) :
    (if o = off then f off &&& ~~~(v &&& 0) else f o) = f o := by
  by_cases ho : o = off
  · subst ho
    rw [if_pos rfl, BitVec.ofNat_eq_ofNat, BitVec.and_zero, BitVec.not_zero, BitVec.and_allOnes]
  · rw [if_neg ho]

/-! ## NF forgotten -/

/-- A table whose entries are all changed by a function that keeps the default. -/
theorem tget_map_snd {α : Type} (f : α → α) (d : α) (hd : f d = d) (m : Table α) (k : Nat) :
    tget d (m.map (fun p => (p.1, f p.2))) k = f (tget d m k) := by
  induction m with
  | nil => exact hd.symm
  | cons p r ih =>
    by_cases h : p.1 = k
    · simp [tget, h]
    · simp [tget, h, ih]

@[simp] theorem State.bar_forgetNf (s : State) (o : Nat) : s.forgetNf.bar o = s.bar o := rfl

theorem State.tile_forgetNf (s : State) (u : Nat) : s.forgetNf.tile u = { s.tile u with nfSeen := false } :=
  tget_map_snd (fun t : Tile => { t with nfSeen := false }) {} rfl s.tiles u

theorem State.ltile_nfSeen_forgetNf (s : State) (l : Nat) : (s.forgetNf.ltile l).nfSeen = false := by
  rw [State.ltile, State.tile_forgetNf]

/-- No NF is late once every firebox has forgotten it. -/
theorem State.lateNow_forgetNf (s : State) : s.forgetNf.lateNow = false := by
  have hall : s.forgetNf.everyTile (fun t => !t.nfSeen) = true := by
    simp [State.everyTile, State.ltile_nfSeen_forgetNf]
  simp [State.lateNow, hall]

/-! ## LATE_NF latched -/

/-- Latching LATE_NF changes SCHED_STATUS and the schedule's own note of it. -/
theorem State.latchLate_frame (s : State) :
    s.latchLate = { s with bar0 := s.latchLate.bar0, sched := { s.sched with late := s.latchLate.sched.late } } := by
  unfold State.latchLate
  split
  · rfl
  · rfl

theorem State.tile_latchLate (s : State) (u : Nat) : s.latchLate.tile u = s.tile u := by
  rw [s.latchLate_frame]
  rfl

theorem State.bar_latchLate (s : State) (o : Nat) :
    s.latchLate.bar o = if o = 0x40100 ∧ s.lateNow = true then s.bar 0x40100 ||| 0x2000 else s.bar o := by
  unfold State.latchLate
  by_cases hl : s.lateNow = true
  · rw [if_pos hl, State.bar_orBar]
    simp only [hl, and_true]
    rfl
  · rw [if_neg hl, if_neg (fun h => hl h.2)]

/-! ## BAR0 -/

/-- A host write that clears LATE_NF in SCHED_STATUS. -/
def clearsLate (off : Nat) (v : W32) : Prop := off = 0x40100 ∧ v.getLsbD 13 = true

/-- A host write of LATE_NF: what is late by now is latched, the written bits are cleared, and NF counts anew. -/
def State.clearLate (s : State) (v : W32) : State := (s.latchLate.andnBar 0x40100 (v &&& barW1c 0x40100)).forgetNf

/-- What a write of a BAR0 word past the doorbells does. -/
theorem State.writeBar0_cases (s : State) (off : Nat) (v : W32) (h : 0x10008 ≤ off) :
    (off = 0x10010 ∧ s.writeBar0 off v = s.setBar off (v &&& 0x3FFFFF)) ∨
    (off ≠ 0x10010 ∧ barW1c off = 0 ∧ s.writeBar0 off v = s) ∨
    (clearsLate off v ∧ s.writeBar0 off v = s.clearLate v) ∨
    (off ≠ 0x10010 ∧ ¬ clearsLate off v ∧ s.writeBar0 off v = s.andnBar off (v &&& barW1c off)) := by
  have h1 : ¬ off < 0x10000 := by omega
  have h2 : off ≠ 0x10000 := by omega
  have h3 : off ≠ 0x10004 := by omega
  simp only [State.writeBar0, h1, h2, h3, if_false]
  by_cases h4 : off = 0x10010
  · subst h4
    exact .inl ⟨rfl, if_pos rfl⟩
  · rw [if_neg h4]
    by_cases h5 : barW1c off = 0
    · exact .inr (.inl ⟨h4, h5, if_pos h5⟩)
    · rw [if_neg h5]
      by_cases h6 : off = 0x40100 ∧ v.getLsbD 13 = true
      · rw [if_pos h6]
        obtain ⟨rfl, hv⟩ := h6
        exact .inr (.inr (.inl ⟨⟨rfl, hv⟩, rfl⟩))
      · exact .inr (.inr (.inr ⟨h4, h6, if_neg h6⟩))

/-- The latch that comes first does not survive: the write clears its bit. -/
theorem State.bar_clearLate (s : State) (v : W32) (hv : v.getLsbD 13 = true) (o : Nat) :
    (s.clearLate v).bar o = if o = 0x40100 then s.bar 0x40100 &&& ~~~(v &&& barW1c 0x40100) else s.bar o := by
  have hc : (v &&& barW1c 0x40100).getLsbD 13 = true := by
    rw [BitVec.getLsbD_and, hv]
    decide
  rw [State.clearLate, State.bar_forgetNf, State.bar_andnBar, State.bar_latchLate, State.bar_latchLate]
  by_cases ho : o = 0x40100
  · by_cases hl : s.lateNow = true
    · simp only [ho, hl, and_self, if_true]
      exact or_twoPow_and_not _ _ 13 hc
    · simp [ho, hl]
  · simp [ho]

theorem State.tile_clearLate (s : State) (v : W32) (u : Nat) :
    (s.clearLate v).tile u = { s.tile u with nfSeen := false } := by
  have hl : (s.latchLate.andnBar 0x40100 (v &&& barW1c 0x40100)).tile u = s.tile u := s.tile_latchLate u
  rw [State.clearLate, State.tile_forgetNf, hl]

theorem State.clearLate_frame (s : State) (v : W32) :
    s.clearLate v = { s with
      bar0 := (s.clearLate v).bar0, tiles := (s.clearLate v).tiles
      sched := { s.sched with late := (s.clearLate v).sched.late } } := by
  unfold State.clearLate
  rw [s.latchLate_frame]
  rfl

/-- The word written, and every other BAR0 word. -/
theorem State.bar_writeBar0 (s : State) (off : Nat) (v : W32) (h : 0x10008 ≤ off) (o : Nat) :
    (s.writeBar0 off v).bar o =
      if o = off then (if off = 0x10010 then v &&& 0x3FFFFF else s.bar off &&& ~~~(v &&& barW1c off)) else s.bar o := by
  obtain ⟨hoff, hw⟩ | ⟨hoff, hro, hw⟩ | ⟨⟨rfl, hv⟩, hw⟩ | ⟨hoff, -, hw⟩ := s.writeBar0_cases off v h
  · rw [hw, State.bar_setBar, if_pos hoff]
  · rw [hw, if_neg hoff, hro, cleared_none s.bar]
  · rw [hw, s.bar_clearLate v hv]
    rfl
  · rw [hw, State.bar_andnBar, if_neg hoff]

/-- Beyond its own word, only a write of LATE_NF changes anything. -/
theorem State.writeBar0_frame (s : State) (off : Nat) (v : W32) (h : 0x10008 ≤ off) (hl : ¬ clearsLate off v) :
    s.writeBar0 off v = { s with bar0 := (s.writeBar0 off v).bar0 } := by
  obtain ⟨-, hw⟩ | ⟨-, -, hw⟩ | ⟨hc, -⟩ | ⟨-, -, hw⟩ := s.writeBar0_cases off v h
  · rw [hw]; rfl
  · rw [hw]
  · exact absurd hc hl
  · rw [hw]; rfl

theorem State.writeBar0_of_clearsLate (s : State) {off : Nat} {v : W32} (hc : clearsLate off v) :
    s.writeBar0 off v = s.clearLate v := by
  obtain ⟨hoff, -⟩ | ⟨-, hro, -⟩ | ⟨-, hw⟩ | ⟨-, hn, -⟩ := s.writeBar0_cases off v (by rw [hc.1]; decide)
  · exact absurd (hc.1.symm.trans hoff) (by decide)
  · rw [hc.1] at hro
    exact absurd hro (by decide)
  · exact hw
  · exact absurd hc hn

/-! ## The firebox and the I/O die -/

/-- A firmware write to a stored firebox word that has no rule of its own clears its W1C bits. -/
theorem Tile.writeReg_w1c (t : Tile) (off : Nat) (v : W32) (hc : off ≠ 0x02C0) (ht : off ≠ 0x0304) (hs : statusStream off = none) :
    t.writeReg off v = if tileW1c off = 0 then t else t.setReg off (t.reg off &&& ~~~(v &&& tileW1c off)) := by
  simp only [Tile.writeReg, hc, ht, hs, if_false]

theorem Tile.reg_writeReg (t : Tile) (off : Nat) (v : W32) (hc : off ≠ 0x02C0) (ht : off ≠ 0x0304) (hs : statusStream off = none)
    (o : Nat) :
    (t.writeReg off v).reg o = if o = off then t.reg off &&& ~~~(v &&& tileW1c off) else t.reg o := by
  rw [t.writeReg_w1c off v hc ht hs]
  by_cases hz : tileW1c off = 0
  · rw [if_pos hz, hz, cleared_none t.reg]
  · rw [if_neg hz, Tile.reg_setReg]

/-- A firmware write to a word of the I/O die that is no clock control clears its W1C bits. -/
theorem State.writeIo_w1c (s : State) (off : Nat) (v : W32) (h : ioW1c off ≠ 0x800) :
    s.writeIo off v = if ioW1c off = 0 then s else s.andnIo off (v &&& ioW1c off) := by
  simp only [State.writeIo, h, if_false]

theorem State.ior_writeIo (s : State) (off : Nat) (v : W32) (h : ioW1c off ≠ 0x800) (o : Nat) :
    (s.writeIo off v).ior o = if o = off then s.ior off &&& ~~~(v &&& ioW1c off) else s.ior o := by
  rw [s.writeIo_w1c off v h]
  by_cases hz : ioW1c off = 0
  · rw [if_pos hz, hz, cleared_none s.ior]
  · rw [if_neg hz, State.ior_andnIo]

theorem State.writeIo_frame (s : State) (off : Nat) (v : W32) (h : ioW1c off ≠ 0x800) :
    s.writeIo off v = { s with io := (s.writeIo off v).io } := by
  rw [s.writeIo_w1c off v h]
  split
  · rfl
  · rfl

/-! ## REGISTER_WRITE, aligned and 32 bits wide -/

theorem accessOk_word {off : Nat} (h : off % 4 = 0) : accessOk off 4 = true := by
  simp [accessOk, h]

theorem exec_registerWrite_bar0 (s : State) (off : Nat) (v : BitVec 64) (hu : s.hostUp = true) (ha : off % 4 = 0)
    (hl : 0x10000 ≤ off) (hh : off < 0x80000) :
    exec (.registerWrite .bar0 off v false) s = .next (s.writeBar0 off (v.setWidth 32)) := by
  have h1 : ¬ 0x80000 ≤ off := by omega
  have h2 : ¬ off < 0x10000 := by omega
  simp [exec, execRegisterWrite, twoWords, hu, accessOk_word ha, h1, h2]

theorem exec_registerWrite_firebox (s : State) (u off : Nat) (v : BitVec 64) (hu : u < 272) (hw : s.works u = true)
    (ha : off % 4 = 0) :
    exec (.registerWrite (.firebox u) off v false) s = .next (s.setTile u ((s.tile u).writeReg off (v.setWidth 32))) := by
  simp [exec, execRegisterWrite, guardPart, unitOk, twoWords, hu, hw, accessOk_word ha]

theorem exec_registerWrite_ioDie (s : State) (off : Nat) (v : BitVec 64) (hp : 1 ≤ s.pwr.stage) (ha : off % 4 = 0) :
    exec (.registerWrite .ioDie off v false) s = .next (s.writeIo off (v.setWidth 32)) := by
  simp [exec, execRegisterWrite, twoWords, hp, accessOk_word ha]

theorem clearsLate_setWidth_iff (off : Nat) (v : BitVec 64) :
    clearsLate off (v.setWidth 32) ↔ off = 0x40100 ∧ v.getLsbD 13 = true := by
  simp [clearsLate]

/-- Settles O12: each of the three spaces runs its own write of one word, whose cases are the write of INT_EN, of a word
without writable bits, of LATE_NF, and of any other W1C word. That a firmware
write clears NF of NUM_STATUS at any time is the model's choice (log 138). -/
theorem registerWriteAccess : Obligations.RegisterWriteAccess := by
  refine ⟨fun s off v hu ha hl hh => ?_, fun s u off v hu hw ha hc ht hs => ?_, fun s off v hp ha hio => ?_⟩
  · refine ⟨_, exec_registerWrite_bar0 s off v hu ha (by omega) hh, ?_, fun o ho => ?_, fun hn => ?_, fun hoff hv => ?_⟩
    · rw [s.bar_writeBar0 off _ hl, if_pos rfl]
    · rw [s.bar_writeBar0 off _ hl, if_neg ho]
    · exact s.writeBar0_frame off _ hl (fun h => hn ((clearsLate_setWidth_iff off v).mp h))
    · rw [s.writeBar0_of_clearsLate ((clearsLate_setWidth_iff off v).mpr ⟨hoff, hv⟩)]
      exact ⟨State.lateNow_forgetNf _, s.tile_clearLate _, s.clearLate_frame _⟩
  · refine ⟨_, exec_registerWrite_firebox s u off v hu hw ha, ?_, fun o ho => ?_, fun w hne => ?_, rfl⟩
    · rw [State.tile_setTile, if_pos rfl, Tile.reg_writeReg _ _ _ hc ht hs, if_pos rfl]
    · rw [State.tile_setTile, if_pos rfl, Tile.reg_writeReg _ _ _ hc ht hs, if_neg ho]
    · rw [State.tile_setTile, if_neg hne]
  · refine ⟨_, exec_registerWrite_ioDie s off v hp ha, ?_, fun o ho => ?_, s.writeIo_frame off _ hio⟩
    · rw [s.ior_writeIo off _ hio, if_pos rfl]
    · rw [s.ior_writeIo off _ hio, if_neg ho]

end Sys2Proof.Machine

/-! Parts that do not exist (R16, R78, R184, R204, R205, R214, R379): each command that names one runs behind a guard
(`guardPart`, Machine/Ops.lean), and a guard that fails answers its fault whatever the state is. -/

namespace Sys2Proof.Machine

/-! ## The guards' range checks -/

theorem guardPart_of_absent {b : Bool} (h : b = false) (f : Fault) (s : State) : guardPart b f s = .fault f := by
  rw [guardPart, h, if_neg Bool.false_ne_true]

theorem unitOk_eq_false_iff {u : Nat} : unitOk u = false ↔ 272 ≤ u := by
  rw [unitOk, decide_eq_false_iff_not, Nat.not_lt]

theorem domOk_eq_false_iff {d : Nat} : domOk d = false ↔ 327 ≤ d := by
  rw [domOk, decide_eq_false_iff_not, Nat.not_lt]

/-- Hob 3 is reserved (R78), and no other number is. -/
theorem hobOk_eq_false_iff {h : BitVec 2} : hobOk h = false ↔ h = 3 := by
  revert h
  decide

theorem channelOk_t2_eq_false_iff {c : BitVec 8} : channelOk .t2 c = false ↔ 16 ≤ c.toNat := by
  rw [channelOk, decide_eq_false_iff_not, Nat.not_lt]

/-! ## The commands that name a firebox slot, a clock domain or a hob -/

theorem exec_unit_absent (s : State) {u : Nat} (hu : 272 ≤ u) :
    ∀ c ∈ [Instr.tbufReqSet u, .tbufReqClear u, .effLvlApply u, .spareSelfTest u true, .spareSelfTest u false,
      .sfuStoreError u true, .sfuStoreError u false], exec c s = .fault .noSuchUnit := by
  have absent (t : State) : guardPart (unitOk u) .noSuchUnit t = .fault .noSuchUnit :=
    guardPart_of_absent (unitOk_eq_false_iff.mpr hu) _ t
  simp only [List.forall_mem_cons, List.not_mem_nil, false_implies, implies_true, and_true]
  exact ⟨absent _, absent _, absent _, absent _, absent _, absent _, absent _⟩

theorem exec_domain_absent (s : State) {d : Nat} (sel : BitVec 2) (b : Bool) (n : Nat) (hd : 327 ≤ d) :
    ∀ c ∈ [Instr.clkCtlSel d sel, .clkCtlForce d sel, .domainHold d b, .clockSwitchDone d, .switchTimeout d,
      .clkMonWindow d n, .domainDead d, .beatToken d], exec c s = .fault .noSuchDomain := by
  have absent (t : State) : guardPart (domOk d) .noSuchDomain t = .fault .noSuchDomain :=
    guardPart_of_absent (domOk_eq_false_iff.mpr hd) _ t
  simp only [List.forall_mem_cons, List.not_mem_nil, false_implies, implies_true, and_true]
  exact ⟨absent _, absent _, absent _, absent _, absent _, absent _, absent _, absent _⟩

/-- The hob number stays a variable here: at 3 itself the guard computes away and its effect cannot be read off. -/
theorem exec_hob_absent (s : State) (t : BitVec 8) {h : BitVec 2} (hh : hobOk h = false) :
    exec (.passStart t h) s = .fault .noSuchHob ∧ exec (.passCommit t h) s = .fault .noSuchHob := by
  have absent := guardPart_of_absent hh .noSuchHob
  exact ⟨absent _, absent _⟩

/-- Settles O30: of every command named, `exec` is the guard of its part around the command's effect, and the guard of a
part that does not exist fails. -/
theorem absentPartsFault : Obligations.AbsentPartsFault := by
  refine ⟨fun s u => exec_unit_absent s, fun s u r b hu => ?_, fun s d sel b n => exec_domain_absent s sel b n,
    fun s t => exec_hob_absent s t (hobOk_eq_false_iff.mpr rfl), fun s tier f r hf => ?_, fun s c hc => ?_,
    fun s b i hb => guardPart_of_absent hb .noSuchCounter _⟩
  · have absent := guardPart_of_absent (unitOk_eq_false_iff.mpr hu) .noSuchUnit
    exact ⟨absent _, absent _⟩
  · have absent := guardPart_of_absent hf .noSuchFrame
    exact ⟨absent _, absent _⟩
  · have absent := guardPart_of_absent (channelOk_t2_eq_false_iff.mpr hc) .noSuchFrame
    exact ⟨absent _, absent _⟩

end Sys2Proof.Machine

/-! Rows of the grate that write lanes and masks (R83, R84, R90, Table 04-3): each runs one of a few shared operations, and
answers with the result that the operation's own law gives. -/

namespace Sys2Proof.Machine

/-! ## Float rows -/

/-- The lanes of an F opcode f, from the sources of FMT, rounded to FMTD. -/
def floatLane (f : GrateWord → Num → Num → Num → Nat × W32) (g : GrateWord) (a : Tile) (i : Nat) : Nat × W32 :=
  let n := a.vle (max (laneWidth g.fmt) (laneWidth g.fmtd))
  let src := fun (l : List Nat) => decodeFloat (fmtF g.fmt) (nth 0 l i)
  f g (src (a.lanes g.va.toNat (laneWidth g.fmt) n)) (src (a.srcB g (laneWidth g.fmt) n)) (src (a.lanes g.vc.toNat (laneWidth g.fmt) n))

/-- An instruction that completes and writes lanes is answered with its lane result. -/
theorem answers_lanes {c : Instr} {s : State} {t : BitVec 8} {f : GEnv → Tile → GRes} {g : GrateWord} {w n l k m : Nat}
    {r : Nat → Nat × W32} (hc : exec c s = .next (s.grate t f)) (h : GrateReady s t) (hw : w = 8 ∨ w = 16 ∨ w = 32)
    (hf : f (s.grateEnv (s.ltile t.toNat)) (s.ltile t.toNat) =
      { t := (s.ltile t.toNat).writeLanes g w n r, lanes := l, sfu := k, hard := m }) :
    Answers c s (fun s' => LaneResult s s' t g w n (fun i => (r i).1) (fun i => (r i).2)) :=
  ⟨_, hc, laneResult_grate h hw hf⟩

/-- The same for an F opcode. -/
theorem answers_gFloat {c : Instr} {s : State} {t : BitVec 8} {lanes sfu : Tile → Nat} {g : GrateWord}
    (f : RMode → Num → Num → Num → Num × W32) (hc : exec c s = .next (s.gratePlain t (fun a => gFloat f a g) lanes sfu))
    (h : GrateReady s t) :
    Answers c s (fun s' =>
      let a := s.ltile t.toNat
      let r := floatLane (fun g x y z => rounded g (f (rmOf g.rm 0) x y z)) g a
      LaneResult s s' t g (laneWidth g.fmtd) (a.vle (max (laneWidth g.fmt) (laneWidth g.fmtd))) (fun i => (r i).1) (fun i => (r i).2)) :=
  answers_lanes (f := fun _ a => { t := gFloat f a g, lanes := lanes a, sfu := sfu a }) hc h (laneWidth_cases _) rfl

/-- The function of VCLAMP: a held between b and c. -/
def clampNum (_rm : RMode) (a b c : Num) : Num × W32 :=
  ((minNum (maxNum a b).1 c).1, (maxNum a b).2 ||| (minNum (maxNum a b).1 c).2)

/-- The function of VLERP, whose difference is rounded to the result's format first. -/
def lerpNum (f : FloatFmt) (rm : RMode) (a b c : Num) : Num × W32 :=
  let d := addNum rm a b.neg
  let p := packArith f rm d.1
  let r := fmaNum rm c (decodeFloat f p.1) b
  (r.1, d.2 ||| p.2 ||| r.2)

/-- Settles O16: every row but VRSQRT is `gFloat` of its exact function; VRSQRT writes its lanes with a rounding of its own. -/
theorem floatLaneRows : Obligations.FloatLaneRows := by
  unfold Obligations.FloatLaneRows floatRows
  simp only [List.forall_mem_cons, List.not_mem_nil, false_implies, implies_true, and_true]
  refine ⟨?vadd, ?vsub, ?vmul, ?vfma, ?vfms, ?vfnma, ?vmin, ?vmax, ?vabs, ?vneg, ?vclamp, ?vlerp, ?vdiv, ?vsqrt, ?vrsqrt⟩
  case vadd => exact fun t g s => answers_gFloat (fun rm a b _ => addNum rm a b) rfl
  case vsub => exact fun t g s => answers_gFloat (fun rm a b _ => addNum rm a b.neg) rfl
  case vmul => exact fun t g s => answers_gFloat (fun _ a b _ => mulNum a b) rfl
  case vfma => exact fun t g s => answers_gFloat (fun rm a b c => fmaNum rm a b c) rfl
  case vfms => exact fun t g s => answers_gFloat (fun rm a b c => fmaNum rm a b c.neg) rfl
  case vfnma => exact fun t g s => answers_gFloat (fun rm a b c => fmaNum rm a.neg b c) rfl
  case vmin => exact fun t g s => answers_gFloat (fun _ a b _ => minNum a b) rfl
  case vmax => exact fun t g s => answers_gFloat (fun _ a b _ => maxNum a b) rfl
  case vabs => exact fun t g s => answers_gFloat (fun _ a _ _ => (a.abs, snanFlags [a])) rfl
  case vneg => exact fun t g s => answers_gFloat (fun _ a _ _ => (a.neg, snanFlags [a])) rfl
  case vclamp => exact fun t g s => answers_gFloat clampNum rfl
  case vlerp => exact fun t g s => answers_gFloat (lerpNum (fmtF g.fmtd)) rfl
  case vdiv => exact fun t g s => answers_gFloat (fun _ a b _ => divNum a b) rfl
  case vsqrt => exact fun t g s => answers_gFloat (fun _ a _ _ => sqrtNum a) rfl
  case vrsqrt => exact fun t g s h => answers_lanes (f := fun _ a => { t := gRsqrt a g, sfu := a.activeLanes g (wideOf g) }) rfl h (laneWidth_cases _) rfl

/-! ## Mask rows -/

/-- An instruction that always completes and writes a mask is answered with its mask result. -/
theorem answers_bits {c : Instr} {s : State} {t : BitVec 8} {f : Tile → Tile} {lanes sfu : Tile → Nat} {g : GrateWord} {n : Nat}
    {r : Nat → Bool × W32} (hc : exec c s = .next (s.gratePlain t f lanes sfu)) (h : GrateReady s t)
    (hf : f (s.ltile t.toNat) = (s.ltile t.toNat).writeBits g n r) :
    Answers c s (fun s' => MaskResult s s' t g n (fun i => (r i).1) (fun i => (r i).2)) :=
  ⟨_, hc, maskResult_plain h hf⟩

/-- Settles O18: a compare runs `gCompare` of its order, VCLASS `gClass`, a mask row of two sources `gMask` of its bit
function, MPREFIX `gPrefix`; each of them is `writeBits` of the row's bit by its definition. That a signalling NaN of VCLASS
raises NV is the model's reading of R29 (log 109), and a compare orders the values of MX and E8M0 codes (log 12). -/
theorem maskRows_hold : Obligations.MaskRows := by
  unfold Obligations.MaskRows maskRows
  simp only [List.forall_mem_cons, List.not_mem_nil, false_implies, implies_true, and_true, if_true, Bool.false_eq_true, if_false]
  refine ⟨?vcmpeq, ?vcmpne, ?vcmplt, ?vcmple, ?vclass, ?mand, ?mor, ?mxor, ?mnot, ?mprefix⟩
  case vcmpeq => exact fun t g s h => answers_bits (f := fun a => gCompare eqNum a g) rfl h rfl
  case vcmpne => exact fun t g s h => answers_bits (f := fun a => gCompare (fun x y => !eqNum x y) a g) rfl h rfl
  case vcmplt => exact fun t g s h => answers_bits (f := fun a => gCompare ltNum a g) rfl h rfl
  case vcmple => exact fun t g s h => answers_bits (f := fun a => gCompare leNum a g) rfl h rfl
  case vclass => exact fun t g s h => answers_bits (f := fun a => gClass a g) rfl h rfl
  case mand => exact fun t g s h => answers_bits (f := fun a => gMask and a g) rfl h rfl
  case mor => exact fun t g s h => answers_bits (f := fun a => gMask or a g) rfl h rfl
  case mxor => exact fun t g s h => answers_bits (f := fun a => gMask bne a g) rfl h rfl
  case mnot => exact fun t g s h => answers_bits (f := fun a => gMask (fun b _ => !b) a g) rfl h rfl
  case mprefix => exact fun t g s h => answers_bits (f := fun a => gPrefix a g) rfl h rfl

/-! ## Conversion, random and gate rows -/

/-- The lanes of a gate row: the gate of source b applied to source a, by a product (VGATE) or with source c added (VGATEA),
the flags of the gate joined. -/
def gateRow (f : RMode → Num → Num → Num → Num × W32) (e : GEnv) (a : Tile) (g : GrateWord) (i : Nat) : Nat × W32 :=
  let n := a.vle (max (laneWidth g.fmt) (laneWidth g.fmtd))
  let x := fun (l : List Nat) => decodeFloat (fmtF g.fmt) (nth 0 l i)
  let gate := gateLane e g (nth 0 (a.srcB g (laneWidth g.fmt) n) i)
  let r := rounded g (f (rmOf g.rm 0) (x (a.lanes g.va.toNat (laneWidth g.fmt) n)) (decodeFloat fp32 gate.1)
    (x (a.lanes g.vc.toNat (laneWidth g.fmt) n)))
  (r.1, gate.2.1 ||| r.2)

/-- The model joins the three sources of flags from the left, the row from the right. -/
theorem gGate_eq_writeLanes (add : Bool) (e : GEnv) (a : Tile) (g : GrateWord) :
    gGate add e a g = a.writeLanes g (laneWidth g.fmtd) (a.vle (max (laneWidth g.fmt) (laneWidth g.fmtd)))
      (gateRow (fun rm x y z => if add then fmaNum rm x y z else mulNum x y) e a g) := by
  exact congrArg (a.writeLanes g _ _) (funext fun i => Prod.ext rfl (BitVec.or_assoc ..))

/-! ## VSFU and VSFU2 -/

/-- A grate instruction that completes without a fault, a wait or a refused store, and may draw a free value. -/
theorem grate_completes_drawing {s : State} {t : BitVec 8} {f : GEnv → Tile → GRes} {b : Tile} (h : GrateReady s t)
    {d : Bool} {l k m : Nat}
    (hf : f (s.grateEnv (s.ltile t.toNat)) (s.ltile t.toNat) = { t := b, drew := d, lanes := l, sfu := k, hard := m }) :
    OnlyTile { s with free := (s.grate t f).free } (s.grate t f) (s.unitOf t.toNat) ∧
    (s.grate t f).ltile t.toNat = { b with stoker := b.stoker.past } := by
  obtain ⟨hi, hg⟩ := h
  let s1 := s.setLtile t.toNat b
  let s2 := if d then s1.draw else s1
  let m' := s2.countGrate (s2.unitOf t.toNat) { t := b, drew := d, lanes := l, sfu := k, hard := m }
  let s0 := { s with free := s2.free }
  have h2 : s2 = s0.setLtile t.toNat b := by cases d <;> rfl
  have hm : Counted s2 m' := counted_foldl _ (fun _ _ => counted_count _ _ _ _) _ _
  have hw : s.grate t f = s0.word t (fun _ => (m', .next 1)) := by
    have hi0 : s0.issues t.toNat = true := hi
    simp only [State.grate, State.word, hg, hi, hi0, hf, State.grateEnd, Bool.not_true, Bool.false_eq_true, if_false, Bool.or_self]
    rfl
  have hn : OnlyTile s0 (s.grate t f) (s.unitOf t.toNat) ∧ (s.grate t f).ltile t.toNat = { b with stoker := b.stoker.past } :=
    hw ▸ word_next hi rfl (h2 ▸ hm)
  have hfree : (s.grate t f).free = s0.free := (congrArg State.free hn.1.rest).trans rfl
  rw [hfree]
  exact hn

/-- What VSFU and VSFU2 do to a firebox, beside the free value that they may draw: lanes written and SFU_CNT_HARD raised. -/
theorem writeHard_eq (e : GEnv) (a : Tile) (g : GrateWord) (w n : Nat) (f : Nat → Nat × W32 × Option Bool) :
    ∃ k d m l, writeHard e a g w n f =
      { t := (a.writeLanes g w n (fun i => ((f i).1, (f i).2.1))).bump 0x0350 k, drew := d, sfu := m, hard := l } :=
  ⟨_, _, _, _, rfl⟩

/-- Lanes written, then a counter of the status block raised that is not NUM_STATUS. -/
theorem Tile.writeLanes_bump_result (a : Tile) (g : GrateWord) (w n o k : Nat) (f : Nat → Nat × W32) (hw : w = 8 ∨ w = 16 ∨ w = 32)
    (ho : o ≠ 0x0100) {b : Tile} (hb : b = (a.writeLanes g w n f).bump o k) :
    lanesWritten a b g w n (fun i => (f i).1) ∧ vregsKept a b [g.vd.toNat] (n * (w / 8)) ∧
    b = { a with vregs := b.vregs, regs := b.regs, nfSeen := b.nfSeen } ∧
    (∀ p, p ≠ 0x0100 → p ≠ o → b.reg p = a.reg p) ∧
    (∀ j, (b.reg 0x0100).getLsbD j = true ↔
      (a.reg 0x0100).getLsbD j = true ∨ ∃ i, i < n ∧ a.active g i = true ∧ (f i).2.getLsbD j = true) ∧
    (b.nfSeen = true ↔ a.nfSeen = true ∨ ∃ i, i < n ∧ a.active g i = true ∧ (f i).2.getLsbD 8 = true) := by
  obtain ⟨hl, hv, ⟨hr, hf, hn⟩, he⟩ := Tile.writeLanes_result a g w n f hw
  have hreg : ∀ p, b.reg p = if p = o then (a.writeLanes g w n f).reg o + BitVec.ofNat 32 k else (a.writeLanes g w n f).reg p :=
    fun p => hb ▸ Tile.reg_setReg ..
  subst hb
  refine ⟨hl, hv, ?_, fun p h1 h2 => ?_, fun j => ?_, hn⟩
  · conv_lhs => rw [Tile.bump, Tile.setReg, he]
    rfl
  · rw [hreg, if_neg h2, hr p h1]
  · rw [hreg, if_neg ho.symm, hf j]

/-- The lanes of a slot function. -/
def sfuLane (e : GEnv) (a : Tile) (g : GrateWord) (i : Nat) : Nat × W32 × Option Bool :=
  let n := a.vle (max (laneWidth g.fmt) (laneWidth g.fmtd))
  let two := (tget {} e.bank.slots (g.imm.toNat % 64)).arity2
  let x := nth 0 (a.lanes g.va.toNat (laneWidth g.fmt) n) i
  let y := if two then nth 0 (a.srcB g (laneWidth g.fmt) n) i else 0
  slotLane e.bank (g.imm.toNat % 64) g.fmtd (rmOf g.rm 0) (rmSel g.rm) x y (decodeFloat (fmtF g.fmt) x) (decodeFloat (fmtF g.fmt) y)

theorem gSfu_eq_writeHard (e : GEnv) (a : Tile) (g : GrateWord) :
    gSfu e a g = writeHard e a g (laneWidth g.fmtd) (a.vle (max (laneWidth g.fmt) (laneWidth g.fmtd))) (sfuLane e a g) := rfl

theorem exec_sfu (t : BitVec 8) (g : GrateWord) (s : State) :
    ∀ row ∈ [Instr.vsfu, Instr.vsfu2], exec (row t g) s = .next (s.grate t (fun e a => gSfu e a g)) := by
  simp only [List.forall_mem_cons, List.not_mem_nil, false_implies, implies_true, and_true]
  exact ⟨rfl, rfl⟩

/-- Settles O22: VGATE and VGATEA are `gGate`, VSFU and VSFU2 `gSfu`, and every other row is `writeLanes` of its lane by the
definition of its operation. The free value that VSFU and VSFU2 may draw (logs 3, 76, 77) is all that they change beside the
firebox and the performance counters; which results set no NX is as log 108 reads R112. -/
theorem conversionRandomAndSfuRows : Obligations.ConversionRandomAndSfuRows := by
  unfold Obligations.ConversionRandomAndSfuRows envRows
  intro t g s h a e n x y dec
  refine ⟨?env, ?vgate, ?vgatea, fun row hrow => ?sfu⟩
  case env =>
    simp only [List.forall_mem_cons, List.not_mem_nil, false_implies, implies_true, and_true]
    refine ⟨?vcvt, ?vdcmx, ?vdcsb, ?vrngb, ?vrngu, ?vsmxf⟩
    case vcvt => exact answers_lanes (f := fun e a => { t := gCvt e a g, lanes := a.activeLanes g (wideOf g) }) rfl h (laneWidth_cases _) rfl
    case vdcmx => exact answers_lanes (f := fun _ a => { t := gDcMx a g, lanes := a.activeLanes g 32 }) rfl h (by decide) rfl
    case vdcsb => exact answers_lanes (f := fun _ a => { t := gDcSb a g, lanes := a.activeLanes g 32 }) rfl h (by decide) rfl
    case vrngb => exact answers_lanes (f := fun e a => { t := gRngB e a g, lanes := a.activeLanes g 16 }) rfl h (by decide) rfl
    case vrngu => exact answers_lanes (f := fun e a => { t := gRngU e a g, lanes := a.activeLanes g 32 }) rfl h (by decide) rfl
    case vsmxf => exact answers_lanes (f := fun _ a => { t := gSmxProb a g, sfu := a.activeLanes g 32 }) rfl h (laneWidth_cases _) rfl
  case vgate =>
    exact answers_lanes (r := gateRow (fun _ x y _ => mulNum x y) e a g) rfl h (laneWidth_cases _)
      (congrArg (fun b : Tile => ({ t := b, sfu := a.activeLanes g (wideOf g) } : GRes)) (gGate_eq_writeLanes false e a g))
  case vgatea =>
    exact answers_lanes (r := gateRow fmaNum e a g) rfl h (laneWidth_cases _)
      (congrArg (fun b : Tile => ({ t := b, sfu := a.activeLanes g (wideOf g) } : GRes)) (gGate_eq_writeLanes true e a g))
  case sfu =>
    obtain ⟨k, d, m, l, hk⟩ := writeHard_eq e a g (laneWidth g.fmtd) n (sfuLane e a g)
    obtain ⟨ho, hb⟩ := grate_completes_drawing (f := fun e a => gSfu e a g) h hk
    obtain ⟨hl, hv, hf, hr, hn, hs⟩ := Tile.writeLanes_bump_result a g (laneWidth g.fmtd) n 0x0350 k _ (laneWidth_cases _) (by decide) rfl
    refine ⟨_, exec_sfu t g s row hrow, ?_⟩
    simp only [hb]
    exact ⟨hl, hv, congrArg (fun b : Tile => { b with stoker := b.stoker.past }) hf, hr, hn, hs, ho⟩

end Sys2Proof.Machine

/-! Rows of the grate that combine lanes (R25, R26, R91, R92, R95, R123 to R127): what each of them writes beside its result
lanes, by the plain writes that it is made of. -/

namespace Sys2Proof.Machine

/-! ## Fireboxes that differ by register lanes, flags and SFU counts -/

/-- A firebox comes from another by writes of the vector registers rs, of NUM_STATUS, and of SFU_STATUS and its counts. -/
structure WritesOnly (rs : List Nat) (a b : Tile) : Prop where
  rest : b = { a with vregs := b.vregs, regs := b.regs, nfSeen := b.nfSeen }
  kept : vregsKept a b rs 2048
  words : ∀ o, o ≠ 0x0100 → o ≠ 0x0340 → o ≠ 0x0348 → o ≠ 0x034C → b.reg o = a.reg o

theorem WritesOnly.refl (rs : List Nat) (a : Tile) : WritesOnly rs a a := ⟨rfl, fun _ _ => rfl, fun _ _ _ _ _ => rfl⟩

theorem WritesOnly.trans {rs : List Nat} {a b c : Tile} (h : WritesOnly rs a b) (k : WritesOnly rs b c) : WritesOnly rs a c := by
  refine ⟨?_, fun x hx => (k.kept x hx).trans (h.kept x hx),
    fun o h1 h2 h3 h4 => (k.words o h1 h2 h3 h4).trans (h.words o h1 h2 h3 h4)⟩
  have hb := h.rest
  rw [k.rest]
  conv_lhs => rw [hb]

theorem WritesOnly.putLanes {rs : List Nat} {a b : Tile} (h : WritesOnly rs a b) {r w : Nat} (hr : r ∈ rs) (vals : List (Option Nat))
    (hv : vals.length * (w / 8) ≤ 2048) : WritesOnly rs a (b.putLanes r w vals) := by
  refine h.trans ⟨rfl, fun x hx => Tile.vregs_putLanes b r w vals x (fun hn => hx r hr ?_), fun _ _ _ _ _ => rfl⟩
  omega

theorem WritesOnly.setReg {rs : List Nat} {a b : Tile} (h : WritesOnly rs a b) {o : Nat} (v : W32)
    (ho : o ∈ [0x0100, 0x0340, 0x0348, 0x034C]) : WritesOnly rs a (b.setReg o v) := by
  refine h.trans ⟨rfl, fun _ _ => rfl, fun p h1 h2 h3 h4 => ?_⟩
  rw [Tile.reg_setReg, if_neg]
  rintro rfl
  simp [h1, h2, h3, h4] at ho

theorem WritesOnly.raise {rs : List Nat} {a b : Tile} (h : WritesOnly rs a b) (v : W32) : WritesOnly rs a (b.raise v) :=
  (h.setReg (b.reg 0x0100 ||| v) (by decide)).trans ⟨rfl, fun _ _ => rfl, fun _ _ _ _ _ => rfl⟩

theorem WritesOnly.writeLanes {rs : List Nat} {a b : Tile} (h : WritesOnly rs a b) (g : GrateWord) {w n : Nat} (f : Nat → Nat × W32)
    (hr : g.vd.toNat ∈ rs) (hn : n * (w / 8) ≤ 2048) : WritesOnly rs a (b.writeLanes g w n f) :=
  (h.putLanes hr _ (by simpa using hn)).raise _

/-! ## The registers hold what the rows write -/

/-- Lanes of w bits up to the vector length of a width from w on fill at most one register. -/
theorem Tile.vle_bytes_le (a : Tile) {w v n : Nat} (hn : n ≤ a.vle v) (hw : w ≤ v) : n * (w / 8) ≤ 2048 := by
  have h1 : n ≤ 16384 / v := hn.trans (Nat.min_le_right ..)
  have h2 : n * w ≤ 16384 := calc
    n * w ≤ 16384 / v * v := Nat.mul_le_mul h1 hw
    _ ≤ 16384 := Nat.div_mul_le_self ..
  have h3 : n * (w / 8) * 8 ≤ n * w := by
    rw [Nat.mul_assoc]
    exact Nat.mul_le_mul_left _ (Nat.div_mul_le_self ..)
  omega

/-- Blocks of n lanes are no more than the lanes. -/
theorem blocks_le (n k : Nat) (hk : 0 < k) : (n + k - 1) / k ≤ n := by
  rw [Nat.div_le_iff_le_mul_add_pred hk]
  have := Nat.le_mul_of_pos_left n hk
  omega

theorem chunks_length {α : Type} (k n : Nat) (l : List α) : (chunks k n l).length = n := by
  induction n generalizing l with
  | zero => rfl
  | succ n ih => simp [chunks, ih]

theorem segments_length_le {α : Type} (k n : Nat) (l : List (Option α)) : (segments k n l).length ≤ n := by
  rw [segments, List.length_map, chunks_length]
  exact blocks_le n _ (Nat.two_pow_pos k)

/-! ## The rows -/

theorem gVcmpr_writesOnly (a : Tile) (g : GrateWord) : WritesOnly [g.vd.toNat] a (gVcmpr a g) :=
  (WritesOnly.refl _ a).putLanes (List.mem_singleton_self _) _ (by simpa using a.vle_bytes_le le_rfl le_rfl)

theorem gReduce_writesOnly (pre : Num → Num) (f : W32 → W32 → W32 × W32) (a : Tile) (g : GrateWord) :
    WritesOnly [g.vd.toNat] a (gReduce pre f a g) := by
  refine ((WritesOnly.refl _ a).putLanes (List.mem_singleton_self _) _ (a.vle_bytes_le (v := wideOf g) ?_ (Nat.le_max_right ..))).raise _
  simp only [List.length_map]
  exact segments_length_le ..

theorem gArgMax_writesOnly (a : Tile) (g : GrateWord) : WritesOnly [g.vd.toNat] a (gArgMax a g) := by
  refine ((WritesOnly.refl _ a).putLanes (List.mem_singleton_self _) _ (a.vle_bytes_le (v := 32) ?_ le_rfl)).raise _
  simp only [List.length_map]
  exact segments_length_le ..

theorem gScan_writesOnly (lin maxi : Bool) (a : Tile) (g : GrateWord) : WritesOnly [g.vd.toNat] a (gScan lin maxi a g) := by
  refine ((WritesOnly.refl _ a).putLanes (List.mem_singleton_self _) _ (a.vle_bytes_le (v := wideOf g) ?_ (Nat.le_max_right ..))).raise _
  simp

theorem gEncode_writesOnly (k : Nat) (hk : 0 < k) (enc : List (Option Num × RMode) → Nat × List Nat × W32) (e : GEnv) (a : Tile)
    (g : GrateWord) : WritesOnly [g.vd.toNat, g.vc.toNat] a (gEncode k enc e a g) := by
  refine (((WritesOnly.refl _ a).writeLanes g _ (by simp) (a.vle_bytes_le le_rfl (Nat.le_max_right ..))).putLanes (by simp) _
    (a.vle_bytes_le (v := wideOf g) ?_ ?_)).raise _
  · simp only [List.length_map, chunks_length]
    exact blocks_le _ k hk
  · obtain h | h | h := laneWidth_cases g.fmt <;> simp [wideOf, h]

theorem WritesOnly.put3 {a b : Tile} {r : Nat} (h : WritesOnly [r, r + 1, r + 2] a b) (l : List (Option (Nat × Nat × Nat)))
    (hl : l.length ≤ 512) : WritesOnly [r, r + 1, r + 2] a (put3 b r l) := by
  have hb : ∀ {α : Type} (m : List α), m.length = l.length → m.length * (32 / 8) ≤ 2048 := fun m hm => by omega
  exact ((h.putLanes (by simp) _ (hb _ (List.length_map _))).putLanes (by simp) _ (hb _ (List.length_map _))).putLanes (by simp) _
    (hb _ (List.length_map _))

theorem WritesOnly.statEvents {rs : List Nat} {a b : Tile} (h : WritesOnly rs a b) (e : StatEv) : WritesOnly rs a (statEvents b e) := by
  have h1 := h.raise e.fl
  have h2 : WritesOnly rs a (if e.clamps = 0 then b.raise e.fl else ((b.raise e.fl).orReg 0x0340 0x100).bump 0x0348 e.clamps) := by
    split
    · exact h1
    · exact (h1.setReg _ (by decide)).setReg _ (by decide)
  unfold Machine.statEvents
  simp only
  split
  · exact h2.setReg _ (by decide)
  · exact h2

/-- 32-bit lanes fill a register of 512. -/
theorem Tile.vle_32_le (a : Tile) : a.vle 32 ≤ 512 := Nat.min_le_right ..

theorem gStat_writesOnly (a : Tile) (g : GrateWord) :
    WritesOnly [g.vd.toNat, g.vd.toNat + 1, g.vd.toNat + 2] a (gStat a g) := by
  refine ((WritesOnly.refl _ a).put3 _ ?_).statEvents _
  simpa [triples] using a.vle_32_le

theorem gStatM_writesOnly (a : Tile) (g : GrateWord) :
    WritesOnly [g.vd.toNat, g.vd.toNat + 1, g.vd.toNat + 2] a (gStatM a g) := by
  refine ((WritesOnly.refl _ a).put3 _ ?_).statEvents _
  simp only [List.length_map]
  exact (segments_length_le ..).trans a.vle_32_le

theorem gSmxU_writesOnly (a : Tile) (g : GrateWord) : WritesOnly [g.vd.toNat, g.vd.toNat + 1] a (gSmxU a g) := by
  have := a.vle_32_le
  refine (((WritesOnly.refl _ a).putLanes (by simp) _ ?_).putLanes (by simp) _ ?_).raise _
  · simp [pairs]; omega
  · simp [pairs]; omega

theorem gSmxMerge_writesOnly (a : Tile) (g : GrateWord) :
    WritesOnly [g.vd.toNat, g.vd.toNat + 1, g.vd.toNat + 2] a (gSmxMerge a g) := by
  unfold gSmxMerge
  extract_lets k n ins ms rs empties t1
  have h1 : WritesOnly [g.vd.toNat, g.vd.toNat + 1, g.vd.toNat + 2] a t1 := by
    refine ((WritesOnly.refl _ a).put3 _ ?_).raise _
    simp only [rs, ms, List.length_map]
    exact (segments_length_le ..).trans a.vle_32_le
  split
  · exact h1
  · exact (h1.setReg _ (by decide)).setReg _ (by decide)

/-- A row that completes with such a firebox. -/
theorem answers_combine {c : Instr} {s : State} {t : BitVec 8} {f : GEnv → Tile → GRes} {b : Tile} {rs : List Nat} {l k m : Nat}
    (hc : exec c s = .next (s.grate t f)) (h : GrateReady s t)
    (hf : f (s.grateEnv (s.ltile t.toNat)) (s.ltile t.toNat) = { t := b, lanes := l, sfu := k, hard := m })
    (hw : WritesOnly rs (s.ltile t.toNat) b) :
    Answers c s (fun s' =>
      let a := s.ltile t.toNat
      let b' := s'.ltile t.toNat
      TileResult s s' t b ∧ b' = { a with vregs := b'.vregs, regs := b'.regs, nfSeen := b'.nfSeen, stoker := a.stoker.past } ∧
      vregsKept a b' rs 2048 ∧
      (∀ o, o ≠ 0x0100 → o ≠ 0x0340 → o ≠ 0x0348 → o ≠ 0x034C → b'.reg o = a.reg o)) := by
  have hr := grate_completes h hf
  refine ⟨_, hc, hr, ?_⟩
  simp only [hr.2]
  exact ⟨congrArg (fun b : Tile => { b with stoker := b.stoker.past }) hw.rest, hw.kept, hw.words⟩

/-- Settles O23: each row is made of register lanes put, flags raised, and (for VSTAT, VSTATM and VSMXF) SFU_STATUS and its counts
set; the lanes are no more than a register holds. The value of the row is the model's own function. -/
theorem reductionAndStateRows : Obligations.ReductionAndStateRows := by
  unfold Obligations.ReductionAndStateRows combineRows
  simp only [List.forall_mem_cons, List.not_mem_nil, false_implies, implies_true, and_true]
  refine ⟨?vcmpr, ?vrsum, ?vrmax, ?vrmin, ?vramax, ?vrargmax, ?vscanlr, ?vscansum, ?vscanmax, ?vcvtmx, ?vcvtsb, ?vstat, ?vstatm,
    ?vsmxu, ?vsmxfMerge⟩
  case vcmpr => exact fun t g s h => answers_combine rfl h rfl (gVcmpr_writesOnly _ g)
  case vrsum => exact fun t g s h => answers_combine rfl h rfl (gReduce_writesOnly id add32 _ g)
  case vrmax => exact fun t g s h => answers_combine rfl h rfl (gReduce_writesOnly id max32 _ g)
  case vrmin => exact fun t g s h => answers_combine rfl h rfl (gReduce_writesOnly id min32 _ g)
  case vramax => exact fun t g s h => answers_combine rfl h rfl (gReduce_writesOnly Num.abs max32 _ g)
  case vrargmax => exact fun t g s h => answers_combine rfl h rfl (gArgMax_writesOnly _ g)
  case vscanlr => exact fun t g s h => answers_combine rfl h rfl (gScan_writesOnly true false _ g)
  case vscansum => exact fun t g s h => answers_combine rfl h rfl (gScan_writesOnly false false _ g)
  case vscanmax => exact fun t g s h => answers_combine rfl h rfl (gScan_writesOnly false true _ g)
  case vcvtmx => exact fun t g s h => answers_combine rfl h rfl (gEncode_writesOnly 32 (by decide) _ _ _ g)
  case vcvtsb => exact fun t g s h => answers_combine rfl h rfl (gEncode_writesOnly 64 (by decide) _ _ _ g)
  case vstat => exact fun t g s h => answers_combine rfl h rfl (gStat_writesOnly _ g)
  case vstatm => exact fun t g s h => answers_combine rfl h rfl (gStatM_writesOnly _ g)
  case vsmxu => exact fun t g s h => answers_combine rfl h rfl (gSmxU_writesOnly _ g)
  case vsmxfMerge => exact fun t g s h => answers_combine rfl h rfl (gSmxMerge_writesOnly _ g)

end Sys2Proof.Machine

/-! Beat edges (R228, R243, R248 to R263): what the housekeeping of an edge, its sends and the commit edge's own work leave as they are,
and from that the pace of the schedule. -/

namespace Sys2Proof.Machine

/-! ## What housekeeping keeps -/

/-- What a report, a count and a sample leave as it is. Of the BAR0 words these are the ones above the counters' own, but for
SCHED_STATUS. -/
structure Kept where
  clk : Clk
  sched : Sched
  tiles : Table Tile
  tileMap : Table Nat
  ctxs : Table Ctx
  mem : Mem
  sfu : Sfu
  ember : Ember
  pwr : Pwr
  net : Net
  settings : Table W64
  inflight : List (Slot × Inflight)
  word : Nat → W32

def State.standing (s : State) : Kept :=
  { clk := s.clk, sched := s.sched, tiles := s.tiles, tileMap := s.tileMap, ctxs := s.ctxs, mem := s.mem, sfu := s.sfu, ember := s.ember
    pwr := s.pwr, net := s.net, settings := s.ctl.settings, inflight := s.ctl.inflight
    word := fun o => if 0x30000 < o then s.bar o else 0 }

/-- The same without SCHED_STATUS, which the edge itself writes. -/
def State.kept (s : State) : Kept :=
  { s.standing with word := fun o => if o = 0x40100 then 0 else s.standing.word o }

theorem State.kept_of_standing {s t : State} (h : t.standing = s.standing) : t.kept = s.kept := by
  rw [State.kept, h, State.kept]

/-! Each part, as what is kept gives it. -/

theorem State.clk_of_kept {s : State} {k : Kept} (h : s.kept = k) : s.clk = k.clk := congrArg Kept.clk h
theorem State.sched_of_kept {s : State} {k : Kept} (h : s.kept = k) : s.sched = k.sched := congrArg Kept.sched h
theorem State.tiles_of_kept {s : State} {k : Kept} (h : s.kept = k) : s.tiles = k.tiles := congrArg Kept.tiles h
theorem State.tileMap_of_kept {s : State} {k : Kept} (h : s.kept = k) : s.tileMap = k.tileMap := congrArg Kept.tileMap h
theorem State.ctxs_of_kept {s : State} {k : Kept} (h : s.kept = k) : s.ctxs = k.ctxs := congrArg Kept.ctxs h
theorem State.mem_of_kept {s : State} {k : Kept} (h : s.kept = k) : s.mem = k.mem := congrArg Kept.mem h
theorem State.sfu_of_kept {s : State} {k : Kept} (h : s.kept = k) : s.sfu = k.sfu := congrArg Kept.sfu h
theorem State.ember_of_kept {s : State} {k : Kept} (h : s.kept = k) : s.ember = k.ember := congrArg Kept.ember h
theorem State.pwr_of_kept {s : State} {k : Kept} (h : s.kept = k) : s.pwr = k.pwr := congrArg Kept.pwr h
theorem State.net_of_kept {s : State} {k : Kept} (h : s.kept = k) : s.net = k.net := congrArg Kept.net h
theorem State.settings_of_kept {s : State} {k : Kept} (h : s.kept = k) : s.ctl.settings = k.settings := congrArg Kept.settings h
theorem State.inflight_of_kept {s : State} {k : Kept} (h : s.kept = k) : s.ctl.inflight = k.inflight := congrArg Kept.inflight h
theorem State.tile_of_kept {s : State} {k : Kept} (h : s.kept = k) (u : Nat) : s.tile u = tget {} k.tiles u :=
  congrArg (fun m => (tget {} m u : Tile)) (State.tiles_of_kept h)
theorem State.ctx_of_kept {s : State} {k : Kept} (h : s.kept = k) (c : Nat) : s.ctx c = tget {} k.ctxs c :=
  congrArg (fun m => (tget {} m c : Ctx)) (State.ctxs_of_kept h)

theorem State.standing_word (s : State) {o : Nat} (ho : 0x30000 < o) : s.standing.word o = s.bar o := if_pos ho

theorem State.word_of_standing {s : State} {k : Kept} (h : s.standing = k) {o : Nat} (ho : 0x30000 < o) : s.bar o = k.word o :=
  (s.standing_word ho).symm.trans (congrFun (congrArg Kept.word h) o)

theorem State.word_of_kept {s : State} {k : Kept} (h : s.kept = k) {o : Nat} (ho : 0x30000 < o) (h1 : o ≠ 0x40100) : s.bar o = k.word o :=
  calc s.bar o = s.standing.word o := State.word_of_standing rfl ho
    _ = s.kept.word o := (if_neg h1).symm
    _ = k.word o := congrFun (congrArg Kept.word h) o

/-- A part of the state that each round of a fold keeps is kept. -/
theorem foldl_keeps {α β : Type} (f : State → β) (g : State → α → State) (h : ∀ s a, f (g s a) = f s) (l : List α) (s : State) :
    f (l.foldl g s) = f s := by
  induction l generalizing s with
  | nil => rfl
  | cons a r ih => exact (ih _).trans (h s a)

theorem State.standing_setBar (s : State) (o : Nat) (v : W32) (h : o ≤ 0x30000) : (s.setBar o v).standing = s.standing := by
  unfold State.standing
  congr 1
  funext p
  rw [State.bar_setBar]
  by_cases hp : p = o
  · subst hp
    rw [if_neg (by omega), if_neg (by omega)]
  · rw [if_neg hp]

theorem State.standing_orBar (s : State) (o : Nat) (v : W32) (h : o ≤ 0x30000) : (s.orBar o v).standing = s.standing :=
  s.standing_setBar o _ h

theorem State.standing_bumpBar (s : State) (o n : Nat) (h : o ≤ 0x30000) : (s.bumpBar o n).standing = s.standing :=
  s.standing_setBar o _ h

theorem State.standing_barField (s : State) (o lo n v : Nat) (h : o ≤ 0x30000) : (s.barField o lo n v).standing = s.standing :=
  s.standing_setBar o _ h

/-- A write of SCHED_STATUS. -/
theorem State.kept_setStatus (s : State) (v : W32) : (s.setBar 0x40100 v).kept = s.kept := by
  have hw : (s.setBar 0x40100 v).kept.word = s.kept.word := by
    funext o
    by_cases ho : o = 0x40100
    · simp only [State.kept, if_pos ho]
    · simp only [State.kept, State.standing, if_neg ho, State.bar_setBar]
  calc (s.setBar 0x40100 v).kept = { s.kept with word := (s.setBar 0x40100 v).kept.word } := rfl
    _ = s.kept := by rw [hw]

theorem State.kept_statusField (s : State) (lo n v : Nat) : (s.barField 0x40100 lo n v).kept = s.kept := s.kept_setStatus _

theorem Counted.standing {s t : State} (h : Counted s t) : t.standing = s.standing := by
  have hw : t.standing.word = s.standing.word := by
    funext o
    by_cases ho : 0x30000 < o
    · simp only [State.standing, if_pos ho]
      exact h.words o (by omega) (by omega)
    · simp only [State.standing, if_neg ho]
  have hr := h.rest
  calc t.standing = { t.standing with word := s.standing.word } := by rw [← hw]
    _ = s.standing := by rw [hr]; rfl

@[simp] theorem State.standing_count (s : State) (b e n : Nat) : (s.count b e n).standing = s.standing := (counted_count s b e n).standing

@[simp] theorem State.standing_cause (s : State) (j : Nat) : (s.cause j).standing = s.standing := (counted_cause s j).standing

/-! ## Reports -/

theorem State.standing_collect (s : State) (src : Nat) (info : W32) (forced : Bool) : (s.collect src info forced).standing = s.standing := by
  have hc : (if 1 ≤ src / 4096 % 16 ∧ src / 4096 % 16 ≤ 14 then s.bumpBar (0x20040 + 4 * (src / 4096 % 16)) 1 else s).standing = s.standing := by
    split
    · exact s.standing_setBar _ _ (by omega)
    · rfl
  unfold State.collect
  extract_lets c s1 s2 s3 s4
  split
  · exact hc
  · split
    · rw [State.standing_barField _ _ _ _ _ (by decide), State.standing_bumpBar _ _ _ (by decide), State.standing_orBar _ _ _ (by decide)]
      exact hc
    · rw [State.standing_cause, State.standing_setBar _ _ _ (by decide), State.standing_setBar _ _ _ (by decide), State.standing_setBar _ _ _ (by decide)]
      exact hc

/-- A MGMT report waits for MANTEL_RESTART, and does nothing else by itself. -/
theorem State.standing_mgmtReport (s : State) (u : Nat) : (s.mgmtReport u).standing = s.standing := by
  have hclass : srcId 0xC u / 4096 % 16 = 0xC := by unfold srcId; omega
  have hr : ∀ t : State, t.react (srcId 0xC u) = t.addReact (srcId 0xC u) := fun t => by simp [State.react, hclass]
  unfold State.mgmtReport State.report
  rw [hr]
  exact s.standing_collect ..

theorem State.standing_switchBack (s : State) : s.switchBack.standing = s.standing := by
  unfold State.switchBack
  split
  · rw [State.standing_mgmtReport, State.standing_orBar _ _ _ (by decide), State.runSlot, State.standing_barField _ _ _ _ _ (by decide),
      State.standing_barField _ _ _ _ _ (by decide)]
    rfl
  · rfl

/-! ## Samples -/

theorem State.standing_freeCount (s : State) (k : Nat) : (s.freeCount k).standing = s.standing := by
  unfold State.freeCount
  simp only
  split <;> rfl

theorem State.standing_latchBlock (s : State) (b : Nat) : (s.latchBlock b).standing = s.standing :=
  foldl_keeps State.standing (fun s k => (s.freeCount k).latch k) (fun s k => s.standing_freeCount k) _ _

theorem State.standing_markCoin (s : State) (k : Nat) : (s.markCoin k).standing = s.standing := by
  unfold State.markCoin
  simp only
  split <;> rfl

theorem State.standing_takeCfg (s : State) (n : Nat) (c : Counter) (chain : Bool) : (s.takeCfg n c chain).standing = s.standing := by
  have hr : ∀ (s : State) (k : Nat) (c : Counter), (s.resetCounter k c).standing = s.standing := fun s k c => State.standing_markCoin _ _
  unfold State.takeCfg
  simp only
  split
  · exact (hr _ _ _).trans (hr _ _ _)
  · exact hr _ _ _

theorem State.standing_localEdge (s : State) (b beat : Nat) : (s.localEdge b beat).standing = s.standing := by
  have hd : ∀ s : State, (s.dueCfgs b beat).standing = s.standing := fun s => foldl_keeps State.standing _ (fun s q => s.standing_takeCfg _ _ _) _ _
  unfold State.localEdge
  simp only [hd, State.standing_count]
  split
  · exact s.standing_latchBlock b
  · rfl

theorem State.standing_publish (s : State) : s.publish.standing = s.standing := by
  unfold State.publish
  split <;> rfl

theorem State.standing_sampleEdge (s : State) : s.sampleEdge.standing = s.standing := by
  unfold State.sampleEdge
  simp only
  split
  · exact s.standing_publish
  · exact (foldl_keeps State.standing _ (fun s b => s.standing_localEdge b _) _ _).trans s.standing_publish

/-! ## The edge before the schedule -/

/-- BEAT_NOW, the tick and the tokens of an edge. -/
def State.tickBeat (s : State) : State :=
  { s with clk := { s.clk with
    beatNow := s.clk.beatNow + 1, ticks := s.clk.ticks + (max 1 ((s.bar 0x4000C).toNat - s.clk.phase)), phase := 0
    tokens := tpush { beat := s.clk.beatNow + 1, before := s.sched.now } 327 0 s.clk.tokens, tokSent := s.clk.tokSent + 1 } }

/-- The work of an edge that comes before the schedule. -/
def State.edgePrelude (s : State) : State :=
  let s1 := s.tickBeat.takeSlow.switchBack.barField 0x40100 12 1 0
  ((if s1.sched.stopDue then ({ s1 with sched := { s1.sched with stopDue := false } } : State).stopJob else s1).applyBeatDiv.clampTileClock
    ).sampleEdge.settleStop

/-- What is left of it on a plain edge. -/
def State.edgeReady (s : State) : State := (s.tickBeat.switchBack.barField 0x40100 12 1 0).clampTileClock.sampleEdge

/-- The schedule at an edge: the job that starts, or the due OR and the commit edge of the one that runs. -/
def State.edgeSchedule (s : State) : State :=
  match s.sched.b0 with
  | some b => if b.2 = s.clk.beatNow ∧ s.pwr.diesUp then s.startEdge b.1
    else if s.sched.running then s.dueOr.noteSeal.commitEdge else s
  | none => if s.sched.running then s.dueOr.noteSeal.commitEdge else s

/-- What follows the schedule: dispatch, and the module's own round. -/
def State.edgeEnd (s : State) (dma : List (Slot × List Byte)) : State :=
  let s4 := s.dispatch dma
  if s4.sched.running && getField (s4.bar 0x30040) 0 2 != 2 then s4.sendOwnRound else s4

/-- The clock after an edge. -/
def State.tickedClk (s : State) : Clk := s.tickBeat.clampTileClock.clk

theorem State.setting_congr {s t : State} (h : t.ctl.settings = s.ctl.settings) (id : Nat) : t.setting id = s.setting id := by
  unfold State.setting State.settingOpt
  rw [h]

theorem State.kept_clampTileClock {s t : State} (h : t.kept = s.kept) : t.clampTileClock.kept = s.clampTileClock.kept := by
  have hs : t.ctl.settings = s.ctl.settings := State.settings_of_kept h
  have hc : t.clk = s.clk := State.clk_of_kept h
  calc t.clampTileClock.kept
      = { t.kept with clk := { t.clk with tileMhz := max (t.setting 0x0032) (min (t.setting 0x0033) t.clk.tileMhz) } } := rfl
    _ = { s.kept with clk := { s.clk with tileMhz := max (s.setting 0x0032) (min (s.setting 0x0033) s.clk.tileMhz) } } := by
      rw [h, hc, State.setting_congr hs, State.setting_congr hs]
    _ = s.clampTileClock.kept := rfl

/-- The work before the clock's own clamp keeps all but the words of its reports. -/
theorem State.kept_edgeWork (s : State) : (s.switchBack.barField 0x40100 12 1 0).kept = s.kept := by
  rw [State.kept_statusField, State.kept_of_standing s.standing_switchBack]

/-- Up to the schedule, an edge changes the clock alone. -/
theorem State.kept_edgeReady (s : State) : s.edgeReady.kept = { s.kept with clk := s.tickedClk } :=
  calc s.edgeReady.kept = (s.tickBeat.switchBack.barField 0x40100 12 1 0).clampTileClock.kept := State.kept_of_standing (State.standing_sampleEdge _)
    _ = s.tickBeat.clampTileClock.kept := State.kept_clampTileClock s.tickBeat.kept_edgeWork
    _ = { s.kept with clk := s.tickedClk } := rfl

theorem State.beatEdge_of_started (s : State) (dma : List (Slot × List Byte)) (hs : s.clk.started = true) (hc : s.clocked 323 = true) :
    s.beatEdge dma = s.edgePrelude.edgeSchedule.edgeEnd dma := by
  have h : ¬ (!s.clk.started || !s.clocked 323) = true := by simp [hs, hc]
  unfold State.beatEdge
  rw [if_neg h]
  rfl

/-- A plain edge has no slow level that waits, no stop, no change of BEAT_DIV and no beat stop to complete. -/
theorem State.edgePrelude_of_plain (s : State) (h : s.plainEdge) : s.edgePrelude = s.edgeReady := by
  obtain ⟨-, -, hslow, hstop, hdiv, hgs, -⟩ := h
  have hw := s.tickBeat.kept_edgeWork
  have hslow' : s.tickBeat.takeSlow = s.tickBeat := by
    have hn : s.tickBeat.clk.slowNext = none := hslow
    simp only [State.takeSlow, hn]
  have hstop' : (s.tickBeat.switchBack.barField 0x40100 12 1 0).sched.stopDue = false :=
    (congrArg Sched.stopDue (State.sched_of_kept hw)).trans hstop
  have hdiv' : (s.tickBeat.switchBack.barField 0x40100 12 1 0).applyBeatDiv = s.tickBeat.switchBack.barField 0x40100 12 1 0 := by
    have hb : (s.tickBeat.switchBack.barField 0x40100 12 1 0).barBit 0x40010 31 = false := by
      rw [State.barBit, State.word_of_kept hw (by decide) (by decide)]
      exact hdiv
    simp only [State.applyBeatDiv, hb, Bool.false_and, Bool.false_eq_true, if_false]
  have hgs' : s.edgeReady.settleStop = s.edgeReady := by
    have hn : s.edgeReady.barBit 0x30040 4 = false := by
      rw [State.barBit, State.word_of_kept s.kept_edgeReady (by decide) (by decide)]
      exact hgs
    simp only [State.settleStop, hn, Bool.false_and, Bool.false_eq_true, if_false]
  simp only [State.edgePrelude]
  rw [hslow', hstop', if_neg Bool.false_ne_true, hdiv']
  exact hgs'

theorem State.beatEdge_of_plain (s : State) (dma : List (Slot × List Byte)) (h : s.plainEdge) :
    s.beatEdge dma = s.edgeReady.edgeSchedule.edgeEnd dma := by
  have ⟨hs, hc, _⟩ := h
  rw [s.beatEdge_of_started dma hs hc, s.edgePrelude_of_plain h]

/-! ## Sends -/

/-- Beside what housekeeping does, a send changes the network's part of the state. -/
def NetOnly (s t : State) : Prop := t.kept = { s.kept with net := t.net }

theorem NetOnly.of_kept {s t : State} (h : t.kept = s.kept) : NetOnly s t := by
  have hn : t.net = s.net := State.net_of_kept h
  unfold NetOnly
  rw [h, hn]
  rfl

theorem NetOnly.refl (s : State) : NetOnly s s := rfl

theorem NetOnly.trans {s t u : State} (h : NetOnly s t) (k : NetOnly t u) : NetOnly s u := by
  unfold NetOnly at h k ⊢
  rw [k, h]

theorem NetOnly.foldl {α : Type} (g : State → α → State) (h : ∀ s a, NetOnly s (g s a)) (l : List α) (s : State) :
    NetOnly s (l.foldl g s) := by
  induction l generalizing s with
  | nil => exact NetOnly.refl s
  | cons a r ih => exact (h s a).trans (ih _)

theorem State.kept_sendOut (s : State) (ch : Nat) (o : Out) : (s.sendOut ch o).kept = s.kept :=
  State.kept_of_standing (State.standing_count _ _ _ _)

theorem State.kept_askGateway (s : State) (ch : Nat) : (s.askGateway ch).kept = s.kept := by
  unfold State.askGateway
  split
  · rfl
  · exact s.kept_sendOut _ _

theorem netOnly_putFrame (s : State) (ch : Nat) (f : Frame) : NetOnly s (s.putFrame ch f) := by
  unfold State.putFrame
  split
  · exact .of_kept (s.kept_sendOut _ _)
  · exact (NetOnly.of_kept (s.kept_askGateway ch)).trans rfl

theorem netOnly_sendBoth (s : State) (d typ : Nat) (p : List Byte) : NetOnly s (s.sendBoth d typ p) :=
  NetOnly.foldl _ (fun s ch => netOnly_putFrame s ch _) _ _

theorem netOnly_tryJoin (s : State) (e : Nat) : NetOnly s (s.tryJoin e) := by
  unfold State.tryJoin
  split
  · exact NetOnly.refl s
  · extract_lets ups n s1 r
    have h1 : NetOnly s s1 := rfl
    split
    · exact NetOnly.refl s
    · split
      · exact h1.trans rfl
      · split
        · exact (h1.trans rfl).trans (netOnly_sendBoth _ _ _ _)
        · split
          · exact (h1.trans rfl).trans (NetOnly.foldl _ (fun s c => netOnly_sendBoth s c _ _) _ _)
          · exact h1

theorem netOnly_sendRound (s : State) (r : Round) : NetOnly s (s.sendRound r) :=
  NetOnly.trans rfl (netOnly_tryJoin _ _)

/-- The module's own round changes the network's part, and notes whether the flag bits went out. -/
theorem State.kept_sendOwnRound (s : State) :
    ∃ n b, s.sendOwnRound.kept = { s.kept with net := n, sched := { s.sched with flagSent := b } } := by
  unfold State.sendOwnRound
  extract_lets nr fv fail r k s1
  have h1 : s1.kept = { s.kept with sched := { s.sched with flagSent := s.sched.flagSent || fv } } := State.kept_statusField _ _ _ _
  have h2 : (s1.sendRound r).kept = { s1.kept with net := (s1.sendRound r).net } := netOnly_sendRound s1 r
  exact ⟨_, _, h2.trans (by rw [h1])⟩

/-- Dispatch with no message in flight lets delivered keys act. -/
theorem State.dispatch_of_quiet (s : State) (dma : List (Slot × List Byte)) (h : s.ctl.inflight = []) : s.dispatch dma = s.promoteKeys := by
  have hg : ∀ k, getSlot s.promoteKeys.ctl.inflight k = none := fun k => by
    have hi : s.promoteKeys.ctl.inflight = [] := h
    rw [hi]
    rfl
  have hd : s.promoteKeys.due = [] := by
    simp only [State.due, hg, List.filterMap_eq_nil_iff, implies_true]
  simp only [State.dispatch, hd]
  rfl

/-- The end of an edge with no message in flight: the network, the notes of the own round, the keys. -/
theorem State.kept_edgeEnd (s : State) (dma : List (Slot × List Byte)) (h : s.ctl.inflight = []) :
    ∃ n b, (s.edgeEnd dma).kept = { s.kept with net := n, sched := { s.sched with flagSent := b } } := by
  simp only [State.edgeEnd, s.dispatch_of_quiet dma h]
  split
  · exact s.promoteKeys.kept_sendOwnRound
  · exact ⟨s.net, s.sched.flagSent, rfl⟩

/-- Without a job, the end of an edge lets delivered keys act alone. -/
theorem State.edgeEnd_of_idle (s : State) (dma : List (Slot × List Byte)) (h : s.ctl.inflight = []) (hr : s.sched.running = false) :
    s.edgeEnd dma = s.promoteKeys := by
  have hr' : s.promoteKeys.sched.running = false := hr
  simp only [State.edgeEnd, s.dispatch_of_quiet dma h, hr', Bool.false_and, Bool.false_eq_true, if_false]

/-! ## The OR of an edge -/

theorem State.kept_pace_go (s : State) (e : Nat) :
    (s.pace false e).kept = { s.kept with sched := { s.sched with held := false, now := s.sched.now + 1 } } :=
  State.kept_statusField _ _ _ _

/-- A stretch counts in the word 0x40118. -/
theorem State.kept_pace_stretch (s : State) (e : Nat) :
    ∃ b, (s.pace true e).kept = { s.kept with
      sched := { s.sched with held := true, sealHold := b }
      word := fun o => if o = 0x40118 then s.bar 0x40118 + 1 else s.kept.word o } := by
  let s0 : State := { s with sched := { s.sched with held := true, sealHold := s.sched.sealHold || s.sched.atSeal e } }
  have hb : ((s0.bumpBar 0x40118 1).barField 0x40100 12 1 1).kept = { s0.kept with
      word := fun o => if o = 0x40118 then s.bar 0x40118 + 1 else s.kept.word o } := by
    rw [State.kept_statusField]
    have hw : (s0.bumpBar 0x40118 1).kept.word = fun o => if o = 0x40118 then s.bar 0x40118 + 1 else s.kept.word o := by
      funext o
      by_cases ho : o = 0x40118
      · subst ho
        simp only [State.kept, State.standing, State.bar_bumpBar]
        rfl
      · simp only [State.kept, State.standing, State.bar_bumpBar, if_neg ho]
        rfl
    rw [← hw]
    rfl
  refine ⟨s.sched.sealHold || s.sched.atSeal e, ?_⟩
  simp only [State.pace, if_true]
  split
  · exact hb
  · exact hb

/-- One state comes from another by the bits of the gate, and by NF counted anew. -/
structure Gated (s t : State) : Prop where
  kept : t.kept = { s.kept with
    tiles := t.tiles
    sched := { s.sched with gateFv := t.sched.gateFv, gateKnown := t.sched.gateKnown, gateNf := t.sched.gateNf, gateFail := t.sched.gateFail } }
  tile : ∀ u, t.tile u = { s.tile u with nfSeen := (t.tile u).nfSeen }

theorem Gated.refl (s : State) : Gated s s := ⟨rfl, fun _ => rfl⟩

/-- An OR without FAIL and GSTOP paces the schedule, and moves the gate. -/
theorem gated_applyOr (s : State) (r : Round) (hf : r.fail = false) (hg : r.gstop = false) :
    Gated (s.pace r.nr r.edge) (s.applyOr r) := by
  unfold State.applyOr
  simp only [hf, hg, Bool.and_false, Bool.false_and, Bool.false_eq_true, if_false]
  split
  · split
    · exact ⟨rfl, fun u => by rw [State.tile_forgetNf]⟩
    · exact Gated.refl _
  · split
    · exact ⟨rfl, fun u => by rw [State.tile_forgetNf]; rfl⟩
    · exact ⟨rfl, fun _ => rfl⟩

/-- A known gate stays as it is. -/
theorem State.applyOr_of_known (s : State) (r : Round) (hf : r.fail = false) (hg : r.gstop = false) (hk : (s.pace r.nr r.edge).sched.gateKnown = true) :
    s.applyOr r = s.pace r.nr r.edge := by
  unfold State.applyOr
  simp only [hf, hg, hk, Bool.and_false, Bool.false_and, Bool.false_eq_true, if_false, if_true, Bool.not_true]

theorem State.noteSeal_eq (s : State) : ∃ f, s.noteSeal = { s with sched := { s.sched with sealFrom := f } } := by
  unfold State.noteSeal
  split
  · exact ⟨_, rfl⟩
  · exact ⟨s.sched.sealFrom, rfl⟩

theorem State.kept_noteSeal (s : State) : ∃ f, s.noteSeal.kept = { s.kept with sched := { s.sched with sealFrom := f } } := by
  obtain ⟨f, hf⟩ := s.noteSeal_eq
  exact ⟨f, by rw [hf]; rfl⟩

/-! ## An edge that does not commit -/

theorem State.dueOr_of_early (s : State) (h : s.clk.beatNow < s.sched.startEdge + (s.ctx s.sched.ctx).flagLat) :
    s.dueOr = s.pace false (s.clk.beatNow - (s.ctx s.sched.ctx).flagLat) := by
  simp only [State.dueOr, if_pos h]

theorem State.dueOr_of_some (s : State) {r : Round} (h : s.sched.startEdge + (s.ctx s.sched.ctx).flagLat ≤ s.clk.beatNow)
    (hr : s.orOf (s.clk.beatNow - (s.ctx s.sched.ctx).flagLat) = some r) : s.dueOr = s.applyOr r := by
  simp only [State.dueOr, if_neg (Nat.not_lt.mpr h), hr]

theorem State.dueOr_of_none (s : State) (h : s.sched.startEdge + (s.ctx s.sched.ctx).flagLat ≤ s.clk.beatNow)
    (hr : s.orOf (s.clk.beatNow - (s.ctx s.sched.ctx).flagLat) = none) : s.dueOr = s.desync := by
  simp only [State.dueOr, if_neg (Nat.not_lt.mpr h), hr]

theorem State.commitEdge_of_not_due (s : State) (h : (s.sched.now : Int) < s.sched.base + (s.ctx s.sched.ctx).stepBeats) :
    s.commitEdge = s := by
  have ha : s.atCommit = false := by simp [State.atCommit, h]
  simp [State.commitEdge, ha]

section
variable {s : State}

/-! The state at the schedule, in terms of the state before the edge. -/

theorem State.edgeReady_sched : s.edgeReady.sched = s.sched := State.sched_of_kept s.kept_edgeReady
theorem State.edgeReady_clk : s.edgeReady.clk = s.tickedClk := State.clk_of_kept s.kept_edgeReady
theorem State.edgeReady_ctxs : s.edgeReady.ctxs = s.ctxs := State.ctxs_of_kept s.kept_edgeReady
theorem State.edgeReady_tiles : s.edgeReady.tiles = s.tiles := State.tiles_of_kept s.kept_edgeReady
theorem State.edgeReady_mem : s.edgeReady.mem = s.mem := State.mem_of_kept s.kept_edgeReady
theorem State.edgeReady_net : s.edgeReady.net = s.net := State.net_of_kept s.kept_edgeReady
theorem State.edgeReady_inflight : s.edgeReady.ctl.inflight = s.ctl.inflight := State.inflight_of_kept s.kept_edgeReady
theorem State.edgeReady_ctx (c : Nat) : s.edgeReady.ctx c = s.ctx c := congrArg (fun m => (tget {} m c : Ctx)) s.edgeReady_ctxs
theorem State.edgeReady_orOf (e : Nat) : s.edgeReady.orOf e = s.orOf e := congrArg (·.ors.find? (fun r => r.edge == e)) s.edgeReady_net
theorem State.edgeReady_bar {o : Nat} (ho : 0x30000 < o) (h1 : o ≠ 0x40100) : s.edgeReady.bar o = s.bar o :=
  (State.word_of_kept s.kept_edgeReady ho h1).trans (s.word_of_kept rfl ho h1).symm
theorem State.tickedClk_beatNow : s.tickedClk.beatNow = s.clk.beatNow + 1 := rfl

end

/-! The OR that is due then. -/

section
variable {s : State}

theorem State.edgeReady_dueOr_of_early (h : s.clk.beatNow + 1 < s.sched.startEdge + (s.ctx s.sched.ctx).flagLat) :
    ∃ e, s.edgeReady.dueOr = s.edgeReady.pace false e := by
  refine ⟨_, s.edgeReady.dueOr_of_early ?_⟩
  rw [State.edgeReady_sched, State.edgeReady_ctx, State.edgeReady_clk]
  exact h

theorem State.edgeReady_dueOr_of_some {r : Round} (h : s.sched.startEdge + (s.ctx s.sched.ctx).flagLat ≤ s.clk.beatNow + 1)
    (hr : s.orOf (s.clk.beatNow + 1 - (s.ctx s.sched.ctx).flagLat) = some r) : s.edgeReady.dueOr = s.edgeReady.applyOr r := by
  apply State.dueOr_of_some
  · rw [State.edgeReady_sched, State.edgeReady_ctx, State.edgeReady_clk]
    exact h
  · rw [State.edgeReady_sched, State.edgeReady_ctx, State.edgeReady_clk, State.edgeReady_orOf]
    exact hr

theorem State.edgeReady_dueOr_of_none (h : s.sched.startEdge + (s.ctx s.sched.ctx).flagLat ≤ s.clk.beatNow + 1)
    (hr : s.orOf (s.clk.beatNow + 1 - (s.ctx s.sched.ctx).flagLat) = none) : s.edgeReady.dueOr = s.edgeReady.desync := by
  apply State.dueOr_of_none
  · rw [State.edgeReady_sched, State.edgeReady_ctx, State.edgeReady_clk]
    exact h
  · rw [State.edgeReady_sched, State.edgeReady_ctx, State.edgeReady_clk, State.edgeReady_orOf]
    exact hr

/-- An edge that lets the schedule advance has no OR due, or one without NR, FAIL and GSTOP. -/
theorem State.goEdge_cases (h : s.goEdge) :
    (∃ e, s.edgeReady.dueOr = s.edgeReady.pace false e) ∨
      ∃ r, s.edgeReady.dueOr = s.edgeReady.applyOr r ∧ r.nr = false ∧ r.fail = false ∧ r.gstop = false := by
  by_cases hl : s.clk.beatNow + 1 < s.sched.startEdge + (s.ctx s.sched.ctx).flagLat
  · exact .inl (State.edgeReady_dueOr_of_early hl)
  · obtain h | ⟨r, hr, hn⟩ := h
    · exact absurd h hl
    · exact .inr ⟨r, State.edgeReady_dueOr_of_some (Nat.not_lt.mp hl) hr, hn⟩

end

/-- The schedule advances then. -/
theorem gated_dueOr_go (s : State) (h : s.goEdge) : ∃ e, Gated (s.edgeReady.pace false e) s.edgeReady.dueOr := by
  obtain ⟨e, he⟩ | ⟨r, hr, hn, hf, hg⟩ := State.goEdge_cases h
  · rw [he]
    exact ⟨e, Gated.refl _⟩
  · rw [hr]
    exact ⟨r.edge, hn ▸ gated_applyOr _ r hf hg⟩

/-- It stretches at an OR with NR. -/
theorem gated_dueOr_stretch (s : State) {r : Round} (hl : s.sched.startEdge + (s.ctx s.sched.ctx).flagLat ≤ s.clk.beatNow + 1)
    (hr : s.orOf (s.clk.beatNow + 1 - (s.ctx s.sched.ctx).flagLat) = some r) (hn : r.nr = true) (hf : r.fail = false) (hg : r.gstop = false) :
    ∃ e, Gated (s.edgeReady.pace true e) s.edgeReady.dueOr := by
  rw [State.edgeReady_dueOr_of_some hl hr]
  exact ⟨r.edge, hn ▸ gated_applyOr _ r hf hg⟩

/-- An edge whose pace is p, with the schedule d then, and that is no commit edge. -/
theorem edge_goes_on {s p : State} {d : Sched} {w : Nat → W32} (dma : List (Slot × List Byte)) (hq : s.ctl.inflight = [])
    (hp : p.kept = { s.kept with clk := s.tickedClk, sched := d, word := w })
    (hdb : d.base = s.sched.base) (hdc : d.ctx = s.sched.ctx) (hdr : d.running = true) (hg : Gated p s.edgeReady.dueOr)
    (hn : (d.now : Int) < s.sched.base + (s.ctx s.sched.ctx).stepBeats) :
    let t := s.edgeReady.dueOr.noteSeal.commitEdge.edgeEnd dma
    t.clk = s.tickedClk ∧ t.sched.now = d.now ∧ t.sched.base = s.sched.base ∧ t.sched.running = true ∧ t.bar 0x40118 = w 0x40118 ∧
      (∀ u, t.tile u = { s.tile u with nfSeen := (t.tile u).nfSeen }) ∧ t.ctxs = s.ctxs ∧ t.mem = s.mem := by
  have hps : p.sched = d := State.sched_of_kept hp
  have hgs := State.sched_of_kept hg.kept
  obtain ⟨f, hf⟩ := State.kept_noteSeal s.edgeReady.dueOr
  have hvs := State.sched_of_kept hf
  generalize s.edgeReady.dueOr.noteSeal = v at hf hvs ⊢
  have hv : v.kept = { s.kept with clk := s.tickedClk, tiles := s.edgeReady.dueOr.tiles, sched := v.sched, word := w } := by
    rw [hvs, hf, hg.kept, hp]
  rw [hgs, hps] at hvs
  have hnow : v.sched.now = d.now := by rw [hvs]
  have hbase : v.sched.base = s.sched.base := by rw [hvs]; exact hdb
  have hctx : v.sched.ctx = s.sched.ctx := by rw [hvs]; exact hdc
  have hrun : v.sched.running = true := by rw [hvs]; exact hdr
  have hnd : v.commitEdge = v := by
    refine v.commitEdge_of_not_due ?_
    rw [State.ctx_of_kept hv, hnow, hbase, hctx]
    exact hn
  obtain ⟨n, b, ht⟩ := v.kept_edgeEnd dma ((State.inflight_of_kept hv).trans hq)
  have hts := State.sched_of_kept ht
  rw [hnd]
  rw [hv] at ht
  generalize v.edgeEnd dma = t at ht hts
  refine ⟨State.clk_of_kept ht, ?_, ?_, ?_, State.word_of_kept ht (by decide) (by decide), fun u => ?_, State.ctxs_of_kept ht,
    State.mem_of_kept ht⟩
  · rw [hts, ← hnow]
  · rw [hts, ← hbase]
  · rw [hts, ← hrun]
  · have hpt := State.tile_of_kept hp u
    have hgu := hg.tile u
    rw [hpt] at hgu
    rw [State.tile_of_kept ht]
    exact hgu

/-! ## A step that begins -/

/-- The state without its fireboxes. -/
def State.bare (s : State) : State := { s with tiles := [] }

theorem State.kept_of_bare {s t : State} (h : t.bare = s.bare) : t.kept = { s.kept with tiles := t.tiles } := by
  have hk := congrArg State.kept h
  calc t.kept = { t.bare.kept with tiles := t.tiles } := rfl
    _ = { s.bare.kept with tiles := t.tiles } := by rw [hk]
    _ = { s.kept with tiles := t.tiles } := rfl

@[simp] theorem State.bare_clearNum (s : State) : s.clearNum.bare = s.bare := rfl

theorem State.bare_eachTile (s : State) (f : Nat → Tile → Tile) : (s.eachTile f).bare = s.bare := by
  unfold State.eachTile
  exact foldl_keeps State.bare (fun (s : State) t => s.setLtile t (f t (s.ltile t))) (fun _ _ => rfl) _ _

theorem State.bare_restoreStreams (s : State) (c : Nat) (saved : Table StreamSave) (keep : List (Nat × Nat)) :
    (s.restoreStreams c saved keep).bare = s.bare := by
  unfold State.restoreStreams
  refine foldl_keeps State.bare _ (fun s t => ?_) _ _
  simp only
  split <;> rfl

/-- What holds of every firebox, and of a firebox changed, holds of every firebox once one is changed. -/
theorem State.setLtile_forall {P : Tile → Prop} {s : State} (h : ∀ u, P (s.tile u)) {l : Nat} {v : Tile} (hv : P v) (u : Nat) :
    P ((s.setLtile l v).tile u) := by
  rw [State.setLtile, State.tile_setTile]
  split
  · exact hv
  · exact h u

theorem State.eachTile_forall {P : Tile → Prop} {s : State} (h : ∀ u, P (s.tile u)) {f : Nat → Tile → Tile}
    (hf : ∀ l v, P v → P (f l v)) : ∀ u, P ((s.eachTile f).tile u) := by
  unfold State.eachTile
  exact List.foldlRecOn (motive := fun s : State => ∀ u, P (s.tile u)) _ _ h
    (fun _ hs l _ => State.setLtile_forall hs (hf l _ (hs _)))

theorem State.restoreStreams_forall {P : Tile → Prop} {s : State} (h : ∀ u, P (s.tile u)) (hP : ∀ v n st, P v → P (v.setStream n st))
    (c : Nat) (saved : Table StreamSave) (keep : List (Nat × Nat)) : ∀ u, P ((s.restoreStreams c saved keep).tile u) := by
  unfold State.restoreStreams
  refine List.foldlRecOn (motive := fun s : State => ∀ u, P (s.tile u)) _ _ h (fun s hs l _ => ?_)
  simp only
  split
  · exact hs
  · exact State.setLtile_forall hs (List.foldlRecOn (motive := P) _ _ (hs _) (fun v hv n _ => hP _ _ _ hv))

/-- An entry of a table whose entries are all changed. -/
theorem tget_map_cases {α : Type} (f : α → α) (d : α) (m : Table α) (k : Nat) :
    tget d (m.map (fun p => (p.1, f p.2))) k = f (tget d m k) ∨ tget d (m.map (fun p => (p.1, f p.2))) k = d := by
  induction m with
  | nil => exact .inr rfl
  | cons p r ih =>
    by_cases h : p.1 = k
    · left; simp [tget, h]
    · simpa [tget, h] using ih

theorem State.kept_beginStep (s : State) (base : Int) (pro : Bool) :
    (s.beginStep base pro).kept = { s.kept with
      tiles := (s.beginStep base pro).tiles, net := { s.net with slots := [] }
      sched := { s.clearStep.sched with base := base, execEdge := s.clk.beatNow, proExec := pro } } := by
  unfold State.beginStep
  extract_lets cx s1 d s2
  exact State.kept_of_bare (State.bare_eachTile s2.forgetNf _)

/-- The stokers start, and NF is forgotten: a property of fireboxes that reads neither is kept. -/
theorem State.beginStep_forall {P : Tile → Prop} {s : State} (h : ∀ u, P (s.tile u))
    (hP : ∀ v b k ss, P v → P { v with nfSeen := b, stoker := k, streams := ss }) (base : Int) (pro : Bool) :
    ∀ u, P ((s.beginStep base pro).tile u) := by
  unfold State.beginStep
  extract_lets cx s1 d s2
  refine State.eachTile_forall (fun u => ?_) (fun l v hv => hP v v.nfSeen _ _ hv)
  rw [State.tile_forgetNf]
  exact hP (s.tile u) false (s.tile u).stoker (s.tile u).streams (h u)

/-! ## B0 -/

/-- The registers of a firebox at the first instruction of a job, as far as a statement speaks of them. -/
def Tile.isNewJob (a : Tile) : Prop := a.vl = 512 ∧ a.vregs = [] ∧ a.x = []

theorem State.clearNum_forall {s : State} (h : ∀ u, (s.tile u).isNewJob) : ∀ u, (s.clearNum.tile u).isNewJob ∧ (s.clearNum.tile u).reg 0x0100 = 0 := by
  intro u
  obtain hu | hu := tget_map_cases (fun a : Tile => if a.reg 0x0100 = 0 then a else a.setReg 0x0100 0) {} s.tiles u
  · rw [show s.clearNum.tile u = _ from hu]
    split
    case isTrue hz => exact ⟨h u, hz⟩
    case isFalse => exact ⟨h u, by rw [Tile.reg_setReg, if_pos rfl]⟩
  · rw [show s.clearNum.tile u = _ from hu]
    exact ⟨⟨rfl, rfl, rfl⟩, rfl⟩

/-- What a job start sets before its streams and its first step. -/
def State.resetForJob (s : State) (c : Nat) : State :=
  { s with
    sched := { ctx := c, now := 0, running := true, startEdge := s.clk.beatNow, sStop := s.sched.sStop, stopSlot := s.sched.stopSlot }
    tiles := s.tiles.map (fun p => (p.1, p.2.endStep.zeroSlots.newJob))
    net := { s.net with own := [], ups := s.net.ups } }

theorem State.startEdge_eq (s : State) (c : Nat) :
    s.startEdge c = ((s.resetForJob c).restoreStreams c (s.ctx c).streams []).clearNum.beginStep (s.ctx c).proBeats true := rfl

theorem State.startEdge_tiles (s : State) (c : Nat) (u : Nat) : ((s.startEdge c).tile u).isNewJob ∧ ((s.startEdge c).tile u).reg 0x0100 = 0 := by
  have h2 : ∀ u, ((s.resetForJob c).tile u).isNewJob := by
    intro u
    obtain hu | hu := tget_map_cases (fun a : Tile => a.endStep.zeroSlots.newJob) {} s.tiles u
    · rw [show (s.resetForJob c).tile u = _ from hu]
      exact ⟨rfl, rfl, rfl⟩
    · rw [show (s.resetForJob c).tile u = _ from hu]
      exact ⟨rfl, rfl, rfl⟩
  rw [s.startEdge_eq]
  exact State.beginStep_forall (P := fun a => a.isNewJob ∧ a.reg 0x0100 = 0)
    (State.clearNum_forall (State.restoreStreams_forall h2 (fun _ _ _ h => h) c _ _)) (fun _ _ _ _ h => h) _ _ u

/-- The streams return and NUM_STATUS is cleared in the fireboxes alone. -/
theorem State.kept_startStreams (s : State) (c : Nat) (m : Table StreamSave) :
    ∃ l, ((s.resetForJob c).restoreStreams c m []).clearNum.kept = { (s.resetForJob c).kept with tiles := l } :=
  ⟨_, State.kept_of_bare ((State.bare_clearNum _).trans (State.bare_restoreStreams _ _ _ _))⟩

theorem State.kept_startEdge (s : State) (c : Nat) : ∃ n, (s.startEdge c).kept = { s.kept with
    tiles := (s.startEdge c).tiles, net := n
    sched := { (s.resetForJob c).clearStep.sched with base := (s.ctx c).proBeats, execEdge := s.clk.beatNow, proExec := true } } := by
  obtain ⟨l, hl⟩ := s.kept_startStreams c (s.ctx c).streams
  rw [s.startEdge_eq]
  generalize ((s.resetForJob c).restoreStreams c (s.ctx c).streams []).clearNum = v at hl ⊢
  have hs : v.clearStep.sched = (s.resetForJob c).clearStep.sched := by
    simp only [State.clearStep, State.andnIo, State.setIo_sched, State.sched_of_kept hl, State.clk_of_kept hl]
    rfl
  have hb := v.kept_beginStep (s.ctx c).proBeats true
  rw [hs, hl, State.clk_of_kept hl] at hb
  exact ⟨_, hb⟩

/-! ## A missing OR -/

/-- A hob without its held pass. -/
def Hob.withdrawn (h : Hob) : Hob := { h with held := none, preloading := h.preloading && !h.fly.isEmpty }

/-- A hob at the end of a step: an aborted pass is gone, the others commit with their outputs dropped. -/
def Hob.endStep (h : Hob) : Hob :=
  { h with
    lane := none
    fly := (h.fly.filter (fun f => !f.aborted)).map (fun f => { f with dropped := true, takenA := 0, takenB := 0, takenI := 0 }) }

theorem Tile.hobs_endStep (a : Tile) : a.endStep.hobs = (a.hobs.map (fun p => (p.1, p.2.withdrawn))).map (fun p => (p.1, p.2.endStep)) := rfl

/-- The end of a step starts no pass. -/
theorem Tile.endStep_quiet (a : Tile) (h : a.hobs.all (fun h => h.2.fly.isEmpty) = true) : a.endStep.hobs.all (fun h => h.2.fly.isEmpty) = true := by
  rw [a.hobs_endStep, List.all_map, List.all_map, List.all_eq_true]
  intro p hp
  have hf : p.2.fly = [] := List.isEmpty_iff.mp (List.all_eq_true.mp h p hp)
  have he : p.2.withdrawn.endStep.fly = [] := by simp [Hob.withdrawn, Hob.endStep, hf]
  exact List.isEmpty_iff.mpr he
theorem State.quiescent_endStep {s t : State} (h : s.quiescent = true) (ht : t.tiles = s.tiles.map (fun p => (p.1, p.2.endStep)))
    (hm : t.tileMap = s.tileMap) : t.quiescent = true := by
  have hu : ∀ u, t.tileOf u = s.tileOf u := fun u => by simp only [State.tileOf, State.unitOf, hm]
  simp only [State.quiescent, ht, hu, List.all_map, List.all_eq_true, Function.comp_apply, Bool.or_eq_true] at h ⊢
  exact fun p hp => (h p hp).imp (fun hq => List.all_eq_true.mp (p.2.endStep_quiet (List.all_eq_true.mpr hq))) id

theorem State.standing_jobReport (s : State) : s.jobReport.standing = s.standing := by
  have hclass : srcId 0xB (0x1C0 + s.sched.ctx) / 4096 % 16 = 0xB := by unfold srcId; omega
  have hr : ∀ t : State, t.react (srcId 0xB (0x1C0 + s.sched.ctx)) = t := fun t => by simp [State.react, hclass]
  unfold State.jobReport State.report
  rw [hr]
  exact s.standing_collect ..

theorem State.standing_okWaiting (s : State) (k : Slot) (l : List Byte) : (s.okWaiting k l).standing = s.standing := by
  unfold State.okWaiting
  split
  · rfl
  · rfl

theorem State.standing_setJobState (s : State) (c : Nat) :
    ∃ m, (tget {} m c : Ctx).state = 3 ∧ (s.setJobState c 3).standing = { s.standing with ctxs := m } := by
  unfold State.setJobState
  by_cases h : (s.ctx c).state = 3
  · rw [if_pos h]
    exact ⟨s.ctxs, h, rfl⟩
  · rw [if_neg h]
    refine ⟨(s.setCtx c { s.ctx c with state := 3 }).ctxs, ?_, ?_⟩
    · have := s.ctx_setCtx c { s.ctx c with state := 3 } c
      rw [if_pos rfl] at this
      exact congrArg Ctx.state this
    · exact State.standing_cause _ _

/-- A stop that is complete. -/
theorem State.standing_finishJob (s : State) (h : s.sched.draining = true) :
    ∃ m, (tget {} m s.sched.ctx : Ctx).state = 3 ∧
      s.finishJob.standing = { s.standing with ctxs := m, sched := { s.sched with draining := false, stopSlot := none } } := by
  obtain ⟨m, h3, hm⟩ := ({ s with sched := { s.sched with draining := false, stopSlot := none } } : State).standing_setJobState s.sched.ctx
  refine ⟨m, h3, ?_⟩
  unfold State.finishJob
  simp only [h, Bool.not_true, Bool.false_eq_true, if_false]
  split
  · rw [State.standing_okWaiting, hm]
    rfl
  · rw [hm]
    rfl

/-- The job ends on the module: what remains of it is its draining passes. -/
theorem State.standing_endJob (s : State) : ∃ m f, s.endSched.endUnits.standing = { s.standing with
    sched := s.sched.ended, ctxs := m, sfu := f, net := { s.net with slots := [] }, tiles := s.tiles.map (fun p => (p.1, p.2.endStep)) } := by
  unfold State.endSched State.disarmSwap
  split
  · exact ⟨_, _, rfl⟩
  · exact ⟨s.ctxs, s.sfu, rfl⟩

/-- Where the stop of a running job leaves the module. -/
structure Stopped (s t : State) : Prop where
  clk : t.clk = s.clk
  inflight : t.ctl.inflight = s.ctl.inflight
  running : t.sched.running = false
  word : ∀ o, 0x30000 < o → t.bar o = s.bar o
  state : (t.ctx s.sched.ctx).state = 3 ∨ t.sched.draining = true
  atOnce : s.quiescent = true → (t.ctx s.sched.ctx).state = 3

theorem stopped_stopJob (s : State) (h : s.sched.running = true) : Stopped s s.stopJob := by
  have hj : s.jobHere = true := by simp [State.jobHere, h]
  obtain ⟨m, f, hk⟩ := s.standing_endJob
  rw [State.stopJob, if_pos hj]
  generalize s.endSched.endUnits = v at hk ⊢
  have hclk : v.clk = s.clk := congrArg Kept.clk hk
  have hin : v.ctl.inflight = s.ctl.inflight := congrArg Kept.inflight hk
  have hs : v.sched = s.sched.ended := congrArg Kept.sched hk
  have hw : ∀ o, 0x30000 < o → v.bar o = s.bar o := fun o ho => (State.word_of_standing hk ho).trans (s.standing_word ho)
  have hdrain : v.sched.draining = true := by rw [hs]; rfl
  have hrun : v.sched.running = false := by rw [hs]; rfl
  have hctx : v.sched.ctx = s.sched.ctx := by rw [hs]; rfl
  unfold State.settleJob
  split
  case isTrue hq =>
    obtain ⟨m', h3, hf⟩ := v.standing_finishJob hdrain
    have hst : (v.finishJob.ctx s.sched.ctx).state = 3 := by
      rw [← hctx, show v.finishJob.ctx v.sched.ctx = tget {} m' v.sched.ctx from congrArg (fun k : Kept => (tget {} k.ctxs v.sched.ctx : Ctx)) hf]
      exact h3
    exact ⟨(congrArg Kept.clk hf).trans hclk, (congrArg Kept.inflight hf).trans hin,
      (congrArg (fun k : Kept => k.sched.running) hf).trans hrun,
      fun o ho => ((State.word_of_standing hf ho).trans (v.standing_word ho)).trans (hw o ho), .inl hst, fun _ => hst⟩
  case isFalse hq =>
    exact ⟨hclk, hin, hrun, hw, .inr hdrain,
      fun h => absurd (State.quiescent_endStep h (congrArg Kept.tiles hk) (congrArg Kept.tileMap hk)) hq⟩

/-- SCHED_DESYNC. -/
theorem State.standing_desync (s : State) (h : s.sched.running = true) :
    ∃ v : State, s.desync = v.stopJob ∧ v.sched.running = true ∧ v.sched.ctx = s.sched.ctx ∧ v.clk = s.clk ∧
      v.ctl.inflight = s.ctl.inflight ∧ v.tiles = s.tiles ∧ v.tileMap = s.tileMap ∧ v.bar 0x40100 = s.bar 0x40100 ||| 0x8000 := by
  have hj := State.standing_jobReport (({ s with sched := { s.sched with desync := true } } : State).orBar 0x40100 0x8000)
  refine ⟨_, rfl, ?_⟩
  generalize (({ s with sched := { s.sched with desync := true } } : State).orBar 0x40100 0x8000).jobReport = v at hj ⊢
  refine ⟨?_, congrArg (fun k : Kept => k.sched.ctx) hj, congrArg Kept.clk hj, congrArg Kept.inflight hj, congrArg Kept.tiles hj,
    congrArg Kept.tileMap hj, ?_⟩
  · rw [show v.sched = _ from congrArg Kept.sched hj]
    exact h
  · calc v.bar 0x40100 = (({ s with sched := { s.sched with desync := true } } : State).orBar 0x40100 0x8000).bar 0x40100 :=
          (State.word_of_standing hj (by decide)).trans (State.standing_word _ (by decide))
      _ = s.bar 0x40100 ||| 0x8000 := by rw [State.bar_orBar, if_pos rfl]; rfl

theorem State.quiescent_congr {s t : State} (ht : t.tiles = s.tiles) (hm : t.tileMap = s.tileMap) : t.quiescent = s.quiescent := by
  unfold State.quiescent State.tileOf State.unitOf
  rw [ht, hm]

theorem State.commitEdge_of_idle (s : State) (h : s.sched.running = false) : s.commitEdge = s := by
  simp [State.commitEdge, h]

/-- The edge of a missing OR. -/
theorem edge_desync {s : State} (dma : List (Slot × List Byte)) (hq : s.ctl.inflight = []) (hr : s.sched.running = true)
    (hl : s.sched.startEdge + (s.ctx s.sched.ctx).flagLat ≤ s.clk.beatNow + 1)
    (ho : s.orOf (s.clk.beatNow + 1 - (s.ctx s.sched.ctx).flagLat) = none) :
    let t := s.edgeReady.dueOr.noteSeal.commitEdge.edgeEnd dma
    t.clk = s.tickedClk ∧ t.sched.running = false ∧ t.barBit 0x40100 15 = true ∧
      ((t.ctx s.sched.ctx).state = 3 ∨ t.sched.draining = true) ∧ (s.quiescent = true → (t.ctx s.sched.ctx).state = 3) := by
  have hd := State.edgeReady_dueOr_of_none hl ho
  have hrun : s.edgeReady.sched.running = true := by rw [State.edgeReady_sched]; exact hr
  obtain ⟨v, hv, hvrun, hvctx, hvclk, hvin, hvtiles, hvmap, hvbar⟩ := s.edgeReady.standing_desync hrun
  have hstop := stopped_stopJob v hvrun
  obtain ⟨f, hf⟩ := v.stopJob.noteSeal_eq
  have hnr : v.stopJob.noteSeal.sched.running = false := by rw [hf]; exact hstop.running
  have hni : v.stopJob.noteSeal.ctl.inflight = [] := by
    rw [hf]
    exact hstop.inflight.trans (hvin.trans (s.edgeReady_inflight.trans hq))
  have hc : v.sched.ctx = s.sched.ctx := by rw [hvctx, State.edgeReady_sched]
  rw [hd, hv, State.commitEdge_of_idle _ hnr, State.edgeEnd_of_idle _ dma hni hnr, hf, ← hc]
  refine ⟨hstop.clk.trans (hvclk.trans s.edgeReady_clk), hstop.running, ?_, hstop.state, fun hsq => hstop.atOnce ?_⟩
  · have hb : v.stopJob.bar 0x40100 = s.edgeReady.bar 0x40100 ||| 0x8000 := (hstop.word _ (by decide)).trans hvbar
    change (v.stopJob.bar 0x40100).getLsbD 15 = true
    rw [hb, BitVec.getLsbD_or]
    exact Bool.or_eq_true_iff.mpr (.inr (by decide))
  · rw [State.quiescent_congr hvtiles hvmap, State.quiescent_congr s.edgeReady_tiles (State.tileMap_of_kept s.kept_edgeReady)]
    exact hsq

/-! ## What the work of a commit edge keeps -/

/-- What the seal fence, the cut, the swap and all that follows from them leave as it is. A report there may raise FAIL or ask
for a stop, at the next edge. -/
structure Pacing where
  clk : Clk
  inflight : List (Slot × Inflight)
  sched : Sched
  committed : Nat → Nat

def State.pacing (s : State) : Pacing :=
  { clk := s.clk, inflight := s.ctl.inflight, sched := { s.sched with failStep := none, stopDue := false }
    committed := fun c => (s.ctx c).stepCommitted }

def Kept.pacing (k : Kept) : Pacing :=
  { clk := k.clk, inflight := k.inflight, sched := { k.sched with failStep := none, stopDue := false }
    committed := fun c => (tget {} k.ctxs c : Ctx).stepCommitted }

theorem State.pacing_of_kept {s : State} {k : Kept} (h : s.kept = k) : s.pacing = k.pacing := congrArg Kept.pacing h

theorem State.pacing_of_standing {s t : State} (h : t.standing = s.standing) : t.pacing = s.pacing := State.pacing_of_kept (State.kept_of_standing h)

theorem NetOnly.pacing {s t : State} (h : NetOnly s t) : t.pacing = s.pacing := State.pacing_of_kept h

/-- A context that keeps its committed step. -/
theorem State.pacing_setCtx (s : State) (c : Nat) (x : Ctx) (h : x.stepCommitted = (s.ctx c).stepCommitted) :
    (s.setCtx c x).pacing = s.pacing := by
  have hc : (s.setCtx c x).pacing.committed = s.pacing.committed := by
    funext d
    change ((s.setCtx c x).ctx d).stepCommitted = (s.ctx d).stepCommitted
    rw [State.ctx_setCtx]
    by_cases hd : d = c
    · rw [if_pos hd, hd]; exact h
    · rw [if_neg hd]
  calc (s.setCtx c x).pacing = { s.pacing with committed := (s.setCtx c x).pacing.committed } := rfl
    _ = s.pacing := by rw [hc]

@[simp] theorem State.pacing_setIo (s : State) (o : Nat) (v : W32) : (s.setIo o v).pacing = s.pacing := rfl
@[simp] theorem State.pacing_orIo (s : State) (o : Nat) (v : W32) : (s.orIo o v).pacing = s.pacing := rfl
@[simp] theorem State.pacing_bumpIo (s : State) (o n : Nat) : (s.bumpIo o n).pacing = s.pacing := rfl
@[simp] theorem State.pacing_emit (s : State) (o : Out) : (s.emit o).pacing = s.pacing := rfl
@[simp] theorem State.pacing_setTile (s : State) (u : Nat) (a : Tile) : (s.setTile u a).pacing = s.pacing := rfl
@[simp] theorem State.pacing_setGen (s : State) (r : GenRec) : (s.setGen r).pacing = s.pacing := rfl
@[simp] theorem State.pacing_setCad (s : State) (c : Nat) (v : Nat × Nat) : (s.setCad c v).pacing = s.pacing := rfl
@[simp] theorem State.pacing_setPeer (s : State) (d : Nat) (p : Peer) : (s.setPeer d p).pacing = s.pacing := rfl
@[simp] theorem State.pacing_editCart (s : State) (f : Cartridge → Cartridge) : (s.editCart f).pacing = s.pacing := rfl
@[simp] theorem State.pacing_countWritten (s : State) (n : Nat) : (s.countWritten n).pacing = s.pacing := rfl
@[simp] theorem State.pacing_setPentry (s : State) (c p : Nat) (e : W64) : (s.setPentry c p e).pacing = s.pacing := rfl
@[simp] theorem State.pacing_holdHost (s : State) (h : HostAccess) : (s.holdHost h).pacing = s.pacing := rfl
@[simp] theorem State.pacing_clearCps (s : State) (c : Nat) : (s.clearCps c).pacing = s.pacing := rfl

@[simp] theorem State.pacing_count (s : State) (b e n : Nat) : (s.count b e n).pacing = s.pacing := State.pacing_of_standing (s.standing_count b e n)
@[simp] theorem State.pacing_cause (s : State) (j : Nat) : (s.cause j).pacing = s.pacing := State.pacing_of_standing (s.standing_cause j)
@[simp] theorem State.pacing_countEmber (s : State) (e n : Nat) : (s.countEmber e n).pacing = s.pacing := by
  simp only [State.countEmber, State.pacing_count]

/-! Reports. -/

theorem State.pacing_react (s : State) (src : Nat) : (s.react src).pacing = s.pacing := by
  have hf : s.raiseFail.pacing = s.pacing := by
    unfold State.raiseFail
    split <;> rfl
  unfold State.react
  dsimp only
  split
  · split
    · exact hf
    · rfl
  · split
    · split <;> rfl
    · split
      · rfl
      · split <;> rfl

@[simp] theorem State.pacing_report (s : State) (src : Nat) (info : W32) : (s.report src info).pacing = s.pacing :=
  (State.pacing_react _ _).trans (State.pacing_of_standing (s.standing_collect ..))

@[simp] theorem State.pacing_moduleFault (s : State) (u : Nat) : (s.moduleFault u).pacing = s.pacing := State.pacing_report ..

@[simp] theorem State.pacing_hostError (s : State) (off : Nat) : (s.hostError off).pacing = s.pacing := State.pacing_report ..

@[simp] theorem State.pacing_okWaiting (s : State) (k : Slot) (l : List Byte) : (s.okWaiting k l).pacing = s.pacing :=
  State.pacing_of_standing (s.standing_okWaiting k l)

/-! ## Memory and host accesses -/

@[simp] theorem State.pacing_setTierMem (s : State) (tier : Nat) (m : Memory) : (s.setTierMem tier m).pacing = s.pacing := by
  unfold State.setTierMem
  split
  · rfl
  · split
    · rfl
    · split <;> rfl

@[simp] theorem State.pacing_writeTier (s : State) (tier f off : Nat) (l : List Byte) : (s.writeTier tier f off l).pacing = s.pacing := by
  unfold State.writeTier
  dsimp only
  split
  · exact s.pacing_setTierMem _ _
  · exact s.pacing_setTierMem _ _

@[simp] theorem State.pacing_takeFrame (s : State) (tier f : Nat) : (s.takeFrame tier f).pacing = s.pacing := by
  unfold State.takeFrame
  dsimp only
  split
  · exact s.pacing_setTierMem _ _
  · exact s.pacing_setTierMem _ _

theorem State.pacing_rebuildPage {s t : State} {c p : Nat} (h : s.rebuildPage c p = some t) : t.pacing = s.pacing := by
  unfold State.rebuildPage at h
  dsimp only at h
  split at h
  · exact absurd h (by simp)
  · rw [← Option.some.inj h, State.pacing_setPentry, State.pacing_writeTier, State.pacing_takeFrame]

@[simp] theorem State.pacing_setXc (s : State) (x : Xlat) (v : XCache) : (s.setXc x v).pacing = s.pacing := by
  cases x <;> rfl

@[simp] theorem State.pacing_xcCount (s : State) (x : Xlat) (o : Nat) : (s.xcCount x o).pacing = s.pacing := by
  cases x <;> rfl

@[simp] theorem State.pacing_rewriteGroup (s : State) (c g : Nat) : (s.rewriteGroup c g).pacing = s.pacing := by
  unfold State.rewriteGroup
  split <;> rfl

@[simp] theorem State.pacing_xcFill (s : State) (x : Xlat) (c g : Nat) : (s.xcFill x c g).1.pacing = s.pacing := by
  unfold State.xcFill
  dsimp only
  cases x
  case none => simp
  case some u =>
    dsimp only
    rw [State.pacing_count, State.pacing_rewriteGroup]
    split <;> simp

@[simp] theorem State.pacing_xcMark (s : State) (x : Xlat) (c p : Nat) : (s.xcMark x c p).pacing = s.pacing := by
  unfold State.xcMark
  split
  · exact s.pacing_setXc _ _
  · rfl

/-- The translation of an access: the cached group, or the one filled. -/
@[simp] theorem State.pacing_access (s : State) (x : Xlat) (c p : Nat) (w : Bool) : (s.access x c p w).1.pacing = s.pacing := by
  unfold State.access
  extract_lets g host hit stale r s1 e f _
  have h1 : s1.pacing = s.pacing := by
    change r.1.pacing = s.pacing
    unfold r
    clear_value stale hit
    cases hit with
    | none => exact s.pacing_xcFill _ _ _
    | some grp =>
      dsimp only
      split
      · simp
      · simp
  split
  · simp
  · split
    · split
      · exact h1
      · exact h1
    · split
      · exact h1
      · split
        · split
          · split
            · exact (s1.pacing_xcMark _ _ _).trans h1
            · exact h1
          · exact (s1.pacing_xcMark _ _ _).trans h1
        · exact h1

@[simp] theorem State.pacing_cow (s : State) (c p : Nat) (first : Bool) : (s.cow c p first).1.pacing = s.pacing := by
  unfold State.cow
  split
  · rfl
  · dsimp only
    split
    · rfl
    · split
      · split <;> rfl
      · exact State.pacing_countEmber _ _ _

@[simp] theorem State.pacing_markWritten (s : State) (c p : Nat) : (s.markWritten c p).pacing = s.pacing := by
  unfold State.markWritten
  split
  · split <;> rfl
  · rfl

@[simp] theorem State.pacing_hostStore (s : State) (h : HostAccess) (tier f : Nat) : (s.hostStore h tier f).pacing = s.pacing := by
  unfold State.hostStore
  split
  · rfl
  · split
    · exact s.pacing_hostError _
    · dsimp only
      split
      · simp
      · simp

@[simp] theorem State.pacing_hostWrite (s : State) (h : HostAccess) : (s.hostWrite h).pacing = s.pacing := by
  unfold State.hostWrite
  dsimp only
  split
  · simp
  · simp
  · simp
  · simp
  · split
    · simp
    · simp

@[simp] theorem State.pacing_hostRead (s : State) (h : HostAccess) : (s.hostRead h).pacing = s.pacing := by
  unfold State.hostRead
  extract_lets r bad take
  have hr : r.1.pacing = s.pacing := s.pacing_access _ _ _ _
  have hbad : ∀ v : State, (bad v).pacing = v.pacing := fun v => (v.hostError h.off).pacing_emit _ |>.trans (v.pacing_hostError _)
  have htake : ∀ (v : State) (tier f : Nat), (take v tier f).pacing = v.pacing := by
    intro v tier f
    unfold take
    split
    · rfl
    · split
      · exact hbad v
      · rfl
  split
  · exact (htake _ _ _).trans hr
  · split
    · split
      case _ hb => exact (htake _ _ _).trans ((State.pacing_rebuildPage hb).trans hr)
      · exact (hbad _).trans hr
    · exact (hbad _).trans hr
  · exact (State.pacing_holdHost _ _).trans hr

@[simp] theorem State.pacing_hostAccess (s : State) (h : HostAccess) : (s.hostAccess h).pacing = s.pacing := by
  unfold State.hostAccess
  split
  · exact s.pacing_hostWrite h
  · exact s.pacing_hostRead h

@[simp] theorem State.pacing_retryHost (s : State) : s.retryHost.pacing = s.pacing := by
  unfold State.retryHost
  extract_lets _ s1 slots
  have h1 : s1.pacing = s.pacing := foldl_keeps State.pacing (fun s h => s.hostAccess h) (fun s h => s.pacing_hostAccess h) _ _
  exact (foldl_keeps State.pacing (fun (s : State) k => s.okWaiting k []) (fun s k => s.pacing_okWaiting k _) _ _).trans h1

/-! ## The planes, the bay and the log -/

@[simp] theorem State.pacing_clearPlane (s : State) (c plane : Nat) : (s.clearPlane c plane).pacing = s.pacing := by
  unfold State.clearPlane
  dsimp only
  split <;> rfl

@[simp] theorem State.pacing_freePlanes (s : State) (c : Nat) : (s.freePlanes c).pacing = s.pacing := by
  unfold State.freePlanes
  split
  · rfl
  · extract_lets pinned s1
    refine foldl_keeps State.pacing _ (fun s i => ?_) _ _
    extract_lets h
    split
    · exact s.pacing_clearPlane _ _
    · rfl

@[simp] theorem State.pacing_promote (s : State) (g : Nat) : (s.promote g).pacing = s.pacing := by
  unfold State.promote
  extract_lets up held s1
  split
  · rfl
  · rfl

@[simp] theorem State.pacing_setCartState (s : State) (st : Nat) : (s.setCartState st).pacing = s.pacing := by
  unfold State.setCartState
  split
  · rfl
  · rw [State.pacing_report, State.pacing_cause]
    rfl

@[simp] theorem State.pacing_beginEject (s : State) : s.beginEject.pacing = s.pacing := State.pacing_setCartState _ _

@[simp] theorem State.pacing_endDrain (s : State) : s.endDrain.pacing = s.pacing := by
  unfold State.endDrain
  extract_lets _ _ s1 s2
  have h2 : s2.pacing = s.pacing := by
    unfold s2
    split
    · rw [State.pacing_retryHost, State.pacing_freePlanes]
      rfl
    · rfl
  split
  · rw [State.pacing_beginEject, h2]
  · exact h2

@[simp] theorem State.pacing_unpinFor (s : State) (c g : Nat) : (s.unpinFor c g).pacing = s.pacing := by
  unfold State.unpinFor State.abandonDrain
  split
  · split
    · rw [State.pacing_bumpIo, State.pacing_orIo, State.pacing_endDrain]
    · rfl
  · rfl

@[simp] theorem State.pacing_appendRecord (s : State) (r : CartRecord) : (s.appendRecord r).pacing = s.pacing := by
  unfold State.appendRecord
  dsimp only
  split
  · rfl
  · rfl

@[simp] theorem State.pacing_truncateCart (s : State) (c g : Nat) : (s.truncateCart c g).pacing = s.pacing := by
  unfold State.truncateCart
  dsimp only
  split
  · rfl
  · rw [State.pacing_setIo, State.pacing_editCart, State.pacing_countWritten, State.pacing_appendRecord]

@[simp] theorem State.pacing_readyCart (s : State) (c : Nat) : (s.readyCart c).pacing = s.pacing := by
  unfold State.readyCart
  extract_lets _ _ s1 _ _
  have h1 : s1.pacing = s.pacing := by
    unfold s1
    split
    · rw [State.pacing_setCartState]
      rfl
    · rfl
  split
  · split
    · exact (s1.pacing_truncateCart c 0).trans h1
    · exact h1
  · exact h1

@[simp] theorem State.pacing_reclaimCart (s : State) (n : Nat) : (s.reclaimCart n).pacing = s.pacing := by
  unfold State.reclaimCart
  split
  · rfl
  · dsimp only
    split <;> rfl

@[simp] theorem State.pacing_keepFewer (n k : Nat) (s : State) : (s.keepFewer n k).pacing = s.pacing := by
  induction k generalizing s with
  | zero => rfl
  | succ k ih =>
    unfold State.keepFewer
    dsimp only
    split
    · exact s.pacing_reclaimCart _
    · exact (ih _).trans (s.pacing_reclaimCart _)

@[simp] theorem State.pacing_makeRoom (s : State) (keep n : Nat) : (s.makeRoom keep n).pacing = s.pacing := by
  unfold State.makeRoom
  dsimp only
  split
  · rfl
  · split
    · exact s.pacing_reclaimCart _
    · simp

@[simp] theorem State.pacing_cartBegin (s : State) (c : Nat) (r : GenRec) : (s.cartBegin c r).1.pacing = s.pacing := by
  unfold State.cartBegin
  extract_lets s1 lag s2 s3 base log has banks todo s4
  have h1 : s1.pacing = s.pacing := s.pacing_readyCart c
  split
  · exact h1
  · have h3 : s3.pacing = s.pacing := by
      unfold s3
      split
      · exact h1
      · exact h1
    exact (s3.pacing_makeRoom _ _).trans h3

/-! ## Reliable frames -/

@[simp] theorem State.pacing_putFrame (s : State) (ch : Nat) (f : Frame) : (s.putFrame ch f).pacing = s.pacing := (netOnly_putFrame s ch f).pacing

@[simp] theorem State.pacing_transmit (s : State) (d ch : Nat) (t : TxFrame) : (s.transmit d ch t).pacing = s.pacing := by
  unfold State.transmit
  dsimp only
  split
  · simp
  · simp

@[simp] theorem State.pacing_tryTransmit (s : State) (d : Nat) (t : TxFrame) : (s.tryTransmit d t).pacing = s.pacing := by
  unfold State.tryTransmit
  dsimp only
  split
  · rfl
  · split
    · rfl
    · split
      · rfl
      · exact s.pacing_transmit _ _ _

@[simp] theorem State.pacing_pumpSome (s : State) (d : Nat) (again : Bool) : (s.pumpSome d again).pacing = s.pacing :=
  foldl_keeps State.pacing _ (fun s t => s.pacing_tryTransmit d t) _ _

@[simp] theorem State.pacing_sendRel (s : State) (d typ epoch : Nat) (l : List Byte) : (s.sendRel d typ epoch l).pacing = s.pacing := by
  unfold State.sendRel State.pump
  dsimp only
  rw [State.pacing_pumpSome, State.pacing_pumpSome, State.pacing_setPeer]

@[simp] theorem State.pacing_sendMirror (s : State) (g c p : Nat) (m : Memory) : (s.sendMirror g c p m).pacing = s.pacing := by
  unfold State.sendMirror
  split
  · rfl
  · exact foldl_keeps State.pacing _ (fun s q => s.pacing_sendRel _ _ _ _) _ _

@[simp] theorem State.pacing_sendImages (s : State) (r : GenRec) (l : List Nat) : (s.sendImages r l).pacing = s.pacing := by
  unfold State.sendImages
  refine foldl_keeps State.pacing _ (fun s g => ?_) _ _
  exact foldl_keeps State.pacing (fun (s : State) i => s.sendMirror r.gen r.ctx (Config.imagePage i).toNat (s.imageBody r.ctx g i))
    (fun s i => s.pacing_sendMirror _ _ _ _) _ _

@[simp] theorem State.pacing_sendEnds (s : State) (r0 : GenRec) : (s.sendEnds r0).pacing = s.pacing := by
  unfold State.sendEnds
  extract_lets n r t _ s1 s2
  have ht : t.pacing = s.pacing := by
    unfold t
    split
    · rfl
    · exact (State.pacing_countEmber _ _ _).trans (s.pacing_sendImages _ _)
  have h1 : s1.pacing = s.pacing := by
    unfold s1
    split
    · exact (State.pacing_sendRel _ _ _ _ _).trans ht
    · rfl
  have h2 : s2.pacing = s1.pacing := by
    unfold s2
    split
    · refine foldl_keeps State.pacing _ (fun s q => ?_) _ _
      split
      · rfl
      · exact s.pacing_sendRel _ _ _ _
    · rfl
  rw [State.pacing_setGen, h2, h1]

/-! ## The seal fence, the cut and the swap -/

@[simp] theorem State.pacing_takePolicy (s : State) (c : Nat) : (s.takePolicy c).pacing = s.pacing := by
  unfold State.takePolicy
  split
  · rfl
  · dsimp only
    rw [State.pacing_setCad]
    exact s.pacing_setCtx c _ rfl

@[simp] theorem State.pacing_sealFence (s : State) (c : Nat) (held : Bool) : (s.sealFence c held).pacing = s.pacing := by
  unfold State.sealFence
  split
  · rfl
  · extract_lets p s1 s3 s4 s5
    have h3 : s3.pacing = s.pacing := by
      unfold s3 s1
      rw [State.pacing_freePlanes, State.pacing_promote, State.pacing_setIo, State.pacing_setGen]
    have h4 : s4.pacing = s.pacing := by
      unfold s4
      split
      · exact h3
      · exact h3
    have h5 : s5.pacing = s.pacing := s4.pacing_retryHost.trans h4
    split
    · exact h5
    · exact h5

@[simp] theorem State.pacing_cut (s : State) (c : Nat) : (s.cut c).pacing = s.pacing := by
  unfold State.cut
  extract_lets s0 g cx picks ms ls changed base delta v r s1 _ s2 b _ _ s3 s4
  have h1 : s1.pacing = s.pacing := by
    unfold s1
    rw [State.pacing_clearCps, State.pacing_clearPlane, State.pacing_unpinFor]
    exact s.pacing_takePolicy c
  have h4 : s4.pacing = s.pacing := (s2.pacing_cartBegin c r).trans h1
  split
  · exact (s4.pacing_sendEnds _).trans h4
  · exact h4

@[simp] theorem State.pacing_swapBanks (s : State) : s.swapBanks.pacing = s.pacing := State.pacing_setCtx _ _ _ rfl

@[simp] theorem State.pacing_clearNum (s : State) : s.clearNum.pacing = s.pacing := rfl

@[simp] theorem State.pacing_writeHobCfg (s : State) : s.writeHobCfg.pacing = s.pacing := by
  unfold State.writeHobCfg
  dsimp only
  split <;> rfl

/-! ## The commit edge -/

/-- A gate already known leaves an edge that advances to its pace. -/
theorem dueOr_of_known (s : State) (h : s.goEdge) (hk : s.sched.gateKnown = true) :
    ∃ e, s.edgeReady.dueOr = s.edgeReady.pace false e := by
  obtain he | ⟨r, hr, hn, hf, hg⟩ := State.goEdge_cases h
  · exact he
  · have hp : (s.edgeReady.pace r.nr r.edge).sched.gateKnown = true := by
      rw [hn, State.sched_of_kept (s.edgeReady.kept_pace_go r.edge)]
      exact (congrArg Sched.gateKnown s.edgeReady_sched).trans hk
    exact ⟨r.edge, by rw [hr, State.applyOr_of_known _ r hf hg hp, hn]⟩

/-- What the conditions of a commit edge read: the units, the generations, the tables, the contexts, and the stop and gate bits. -/
structure SameWaits (s t : State) : Prop where
  tiles : t.tiles = s.tiles
  tileMap : t.tileMap = s.tileMap
  ember : t.ember = s.ember
  sfu : t.sfu = s.sfu
  ctxs : t.ctxs = s.ctxs
  ctx : t.sched.ctx = s.sched.ctx
  sStop : t.sched.sStop = s.sched.sStop
  gateNf : t.sched.gateNf = s.sched.gateNf
  gateFail : t.sched.gateFail = s.sched.gateFail

section
variable {s t : State} (h : SameWaits s t)
include h

theorem SameWaits.everyTile (p : Tile → Bool) : t.everyTile p = s.everyTile p := by
  unfold State.everyTile State.ltile State.tile State.unitOf
  rw [h.tiles, h.tileMap]

theorem SameWaits.fencesMet (q : FenceMark → Bool) : t.fencesMet q = s.fencesMet q := h.everyTile _

theorem SameWaits.sealHolds : t.sealHolds = s.sealHolds := by
  unfold State.sealHolds
  rw [h.ember, h.ctx]

theorem SameWaits.stepNow : t.stepNow = s.stepNow := by
  unfold State.stepNow
  rw [h.ctxs, h.ctx]

theorem SameWaits.stopsAt (n : Nat) : t.stopsAt n = s.stopsAt n := by
  unfold State.stopsAt
  rw [h.sStop]

theorem SameWaits.tableHolds : t.tableHolds = s.tableHolds := by
  unfold State.tableHolds
  rw [h.sfu, h.ctx, h.stepNow, h.stopsAt, h.gateNf, h.gateFail]

end

/-- The commit of a step up to the one that begins: STEP_COMMITTED and the streams, the seal fence, a cut, a swap, NUM_STATUS and HOB_CFG. -/
def State.commitWork (s : State) : State :=
  let c := s.sched.ctx
  let s1 := (s.setCtx c { s.ctx c with stepCommitted := s.stepNow, streams := s.savedStreams c }).barField 0x40100 20 6 0
  let s2 := s1.sealFence c s.sched.sealHold
  let s3 := if s2.cutDue c s.stepNow then s2.cut c else s2
  let s4 := if s3.sfu.swapArmed && s3.sfu.swapCtx == c && s3.sfu.swapStep == s.stepNow + 1 then s3.swapBanks else s3
  s4.clearNum.writeHobCfg

theorem State.commitClear_eq (s : State) :
    s.commitClear = if s.commitWork.stopsAt s.stepNow then s.commitWork.stopJob
      else s.commitWork.beginStep (s.sched.base + (s.ctx s.sched.ctx).stepBeats) false := rfl

/-- It raises STEP_COMMITTED, and leaves the pace of the schedule as it is. -/
theorem State.pacing_commitWork (s : State) : s.commitWork.pacing = { s.pacing with
    committed := fun d => if d = s.sched.ctx then (s.ctx s.sched.ctx).stepCommitted + 1 else (s.ctx d).stepCommitted } := by
  unfold State.commitWork
  extract_lets c _ s1 s2 s3 s4
  have h1 : s1.pacing = { s.pacing with
      committed := fun d => if d = s.sched.ctx then (s.ctx s.sched.ctx).stepCommitted + 1 else (s.ctx d).stepCommitted } := by
    have hc : s1.pacing.committed = fun d => if d = s.sched.ctx then (s.ctx s.sched.ctx).stepCommitted + 1 else (s.ctx d).stepCommitted := by
      funext d
      have hd := s.ctx_setCtx c { s.ctx c with stepCommitted := s.stepNow, streams := s.savedStreams c } d
      refine (congrArg Ctx.stepCommitted hd).trans ?_
      split
      · rfl
      · rfl
    rw [← hc]
    rfl
  have h3 : s3.pacing = s2.pacing := by
    unfold s3
    split
    · exact s2.pacing_cut c
    · rfl
  have h4 : s4.pacing = s3.pacing := by
    unfold s4
    split
    · exact s3.pacing_swapBanks
    · rfl
  rw [State.pacing_writeHobCfg, State.pacing_clearNum, h4, h3, State.pacing_sealFence, h1]

/-- A commit edge whose conditions hold, with a clear gate and no stop. -/
theorem State.commitEdge_of_clear (s : State) (hr : s.sched.running = true) (ha : s.atCommit = true) (hb : s.sched.blockBad = false)
    (hl : s.sched.late = false) (hn : s.lateNow = false) (hnf : s.sched.gateNf = false) (hf : s.sched.gateFail = false)
    (hs : s.stopsAt s.stepNow = false) :
    s.commitEdge = s.commitWork.beginStep (s.sched.base + (s.ctx s.sched.ctx).stepBeats) false := by
  have hst : s.commitWork.stopsAt s.stepNow = false := by
    have hp : s.commitWork.sched.sStop = s.sched.sStop := congrArg (fun p : Pacing => p.sched.sStop) s.pacing_commitWork
    unfold State.stopsAt
    rw [hp]
    exact hs
  have hc : s.commitEdge = s.commitClear := by
    simp only [State.commitEdge, hr, ha, hb, hl, hn, hnf, hf, Bool.not_true, Bool.or_false, Bool.false_eq_true, if_false]
  rw [hc, s.commitClear_eq, hst, if_neg Bool.false_ne_true]

/-- The edge that commits a step. -/
theorem edge_commits {s : State} (dma : List (Slot × List Byte)) (hq : s.ctl.inflight = []) (hr : s.sched.running = true)
    (hgo : s.goEdge) (hend : s.sched.base + ((s.ctx s.sched.ctx).stepBeats : Int) ≤ (s.sched.now : Int) + 1)
    (hfen : s.fencesMet (fun m => m.op == 0xD4) = true) (hseal : s.sealHolds = false) (hk : s.sched.gateKnown = true)
    (hnf : s.sched.gateNf = false) (hf : s.sched.gateFail = false) (hb : s.sched.blockBad = false) (hl : s.sched.late = false)
    (hseen : s.everyTile (fun a => !a.nfSeen) = true) (ht : s.tableHolds = false) (hs : s.stopsAt s.stepNow = false) :
    let t := s.edgeReady.dueOr.noteSeal.commitEdge.edgeEnd dma
    t.clk = s.tickedClk ∧ (t.ctx s.sched.ctx).stepCommitted = (s.ctx s.sched.ctx).stepCommitted + 1 ∧
      t.sched.base = s.sched.base + (s.ctx s.sched.ctx).stepBeats ∧ t.sched.now = s.sched.now + 1 ∧ t.sched.gateKnown = false ∧
      t.sched.proExec = false ∧ t.sched.running = true := by
  obtain ⟨e, hd⟩ := dueOr_of_known s hgo hk
  obtain ⟨f, hv⟩ := State.kept_noteSeal (s.edgeReady.pace false e)
  rw [State.sched_of_kept (s.edgeReady.kept_pace_go e), s.edgeReady.kept_pace_go e, State.edgeReady_sched, s.kept_edgeReady] at hv
  rw [hd]
  generalize (s.edgeReady.pace false e).noteSeal = v at hv ⊢
  have hvs := State.sched_of_kept hv
  have hw : SameWaits s v := by
    refine ⟨State.tiles_of_kept hv, State.tileMap_of_kept hv, State.ember_of_kept hv, State.sfu_of_kept hv, State.ctxs_of_kept hv, ?_, ?_, ?_, ?_⟩
    · rw [hvs]
    · rw [hvs]
    · rw [hvs]
    · rw [hvs]
  have hctx : v.ctx v.sched.ctx = s.ctx s.sched.ctx := by rw [hw.ctx]; exact State.ctx_of_kept hv _
  have hbase : v.sched.base = s.sched.base := by rw [hvs]
  have hnow : v.sched.now = s.sched.now + 1 := by rw [hvs]
  have hrun : v.sched.running = true := by rw [hvs]; exact hr
  have hat : v.atCommit = true := by
    have hdue : v.sched.base + ((v.ctx v.sched.ctx).stepBeats : Int) ≤ v.sched.now := by
      rw [hctx, hbase, hnow]
      exact_mod_cast hend
    simp only [State.atCommit, hw.fencesMet, hfen, hw.sealHolds, hseal, hw.tableHolds, ht, hdue, decide_true, Bool.not_false, Bool.and_true]
  have hlate : v.lateNow = false := by
    simp only [State.lateNow, hw.everyTile, hseen, Bool.not_true, Bool.and_false]
  have hc : v.commitEdge = v.commitWork.beginStep (s.sched.base + (s.ctx s.sched.ctx).stepBeats) false := by
    rw [← hbase, ← hctx]
    refine v.commitEdge_of_clear hrun hat (by rw [hvs]; exact hb) (by rw [hvs]; exact hl) hlate (hw.gateNf.trans hnf) (hw.gateFail.trans hf) ?_
    rw [hw.stepNow, hw.stopsAt]
    exact hs
  have hp := v.pacing_commitWork
  have hb := v.commitWork.kept_beginStep (s.sched.base + (s.ctx s.sched.ctx).stepBeats) false
  rw [hc]
  generalize v.commitWork = u at hp hb ⊢
  generalize u.beginStep (s.sched.base + (s.ctx s.sched.ctx).stepBeats) false = w at hb ⊢
  have hin : w.ctl.inflight = [] := by
    rw [State.inflight_of_kept hb]
    exact (congrArg Pacing.inflight hp).trans ((State.inflight_of_kept hv).trans hq)
  obtain ⟨n, b, hk⟩ := w.kept_edgeEnd dma hin
  have hws := State.sched_of_kept hb
  have hts := State.sched_of_kept hk
  rw [hws] at hts
  refine ⟨?_, ?_, ?_, ?_, ?_, ?_, ?_⟩
  · rw [State.clk_of_kept hk]
    exact (State.clk_of_kept hb).trans ((congrArg Pacing.clk hp).trans (State.clk_of_kept hv))
  · rw [State.ctx_of_kept hk]
    have hm : (u.ctx s.sched.ctx).stepCommitted = _ := congrArg (fun p : Pacing => p.committed s.sched.ctx) hp
    dsimp only at hm
    rw [if_pos hw.ctx.symm, hctx] at hm
    exact (congrArg Ctx.stepCommitted (State.ctx_of_kept hb s.sched.ctx)).trans hm
  · rw [hts]
  · rw [hts]
    exact (congrArg (fun p : Pacing => p.sched.now) hp).trans hnow
  · rw [hts]
    rfl
  · rw [hts]
  · rw [hts]
    exact (congrArg (fun p : Pacing => p.sched.running) hp).trans hrun

/-! ## The edge, case by case -/

theorem exec_beatEdge (s : State) (dma : List (Slot × List Byte)) : exec (.beatEdge dma) s = .next (s.beatEdge dma) := rfl

theorem State.edgeSchedule_of_job (s : State) (hb : s.sched.b0 = none) (hr : s.sched.running = true) :
    s.edgeSchedule = s.dueOr.noteSeal.commitEdge := by
  simp only [State.edgeSchedule, hb, hr, if_true]

theorem State.edgeSchedule_of_none (s : State) (hb : s.sched.b0 = none) (hr : s.sched.running = false) : s.edgeSchedule = s := by
  simp only [State.edgeSchedule, hb, hr, Bool.false_eq_true, if_false]

theorem State.edgeSchedule_of_b0 (s : State) {b : Nat × Nat} (hb : s.sched.b0 = some b) (ht : b.2 = s.clk.beatNow) (hp : s.pwr.diesUp = true) :
    s.edgeSchedule = s.startEdge b.1 := by
  simp only [State.edgeSchedule, hb, ht, hp, and_self, if_true]

/-- A plain edge of a running job. -/
theorem State.beatEdge_of_job {s : State} (dma : List (Slot × List Byte)) (hp : s.plainEdge) (hb : s.sched.b0 = none)
    (hr : s.sched.running = true) : s.beatEdge dma = s.edgeReady.dueOr.noteSeal.commitEdge.edgeEnd dma := by
  rw [s.beatEdge_of_plain dma hp, State.edgeSchedule_of_job _ (by rw [State.edgeReady_sched]; exact hb) (by rw [State.edgeReady_sched]; exact hr)]

/-- An edge without a job. -/
theorem edge_idle {s : State} (dma : List (Slot × List Byte)) (hp : s.plainEdge) (hq : s.ctl.inflight = []) (hb : s.sched.b0 = none)
    (hr : s.sched.running = false) :
    let t := s.beatEdge dma
    t.clk = s.tickedClk ∧ t.sched = s.sched ∧ t.tiles = s.tiles ∧ t.ctxs = s.ctxs ∧ t.mem = s.mem := by
  have hr' : s.edgeReady.sched.running = false := by rw [State.edgeReady_sched]; exact hr
  rw [s.beatEdge_of_plain dma hp, State.edgeSchedule_of_none _ (by rw [State.edgeReady_sched]; exact hb) hr',
    State.edgeEnd_of_idle _ dma (s.edgeReady_inflight.trans hq) hr']
  exact ⟨s.edgeReady_clk, s.edgeReady_sched, s.edgeReady_tiles, s.edgeReady_ctxs, s.edgeReady_mem⟩

/-- The edge B0. -/
theorem edge_starts {s : State} (dma : List (Slot × List Byte)) (hp : s.plainEdge) (hq : s.ctl.inflight = []) {c : Nat}
    (hb : s.sched.b0 = some (c, s.clk.beatNow + 1)) (hd : s.pwr.diesUp = true) :
    let t := s.beatEdge dma
    t.clk = s.tickedClk ∧ t.sched.running = true ∧ t.sched.ctx = c ∧ t.sched.now = 0 ∧ t.sched.base = ((s.ctx c).proBeats : Int) ∧
      t.sched.proExec = true ∧ t.sched.b0 = none ∧ t.ctxs = s.ctxs ∧ t.mem = s.mem ∧
      ∀ u, (t.tile u).isNewJob ∧ (t.tile u).reg 0x0100 = 0 := by
  have hs : s.edgeReady.edgeSchedule = s.edgeReady.startEdge c := by
    refine s.edgeReady.edgeSchedule_of_b0 (b := (c, s.clk.beatNow + 1)) ?_ ?_ ?_
    · rw [State.edgeReady_sched, hb]
    · rw [State.edgeReady_clk, State.tickedClk_beatNow]
    · rw [State.pwr_of_kept s.kept_edgeReady]
      exact hd
  have htiles := s.edgeReady.startEdge_tiles c
  obtain ⟨n, hk⟩ := s.edgeReady.kept_startEdge c
  rw [State.edgeReady_ctx] at hk
  rw [s.beatEdge_of_plain dma hp, hs]
  generalize s.edgeReady.startEdge c = v at htiles hk ⊢
  have hin : v.ctl.inflight = [] := by
    rw [State.inflight_of_kept hk]
    exact s.edgeReady_inflight.trans hq
  obtain ⟨n', b, he⟩ := v.kept_edgeEnd dma hin
  have hes := State.sched_of_kept he
  rw [State.sched_of_kept hk] at hes
  refine ⟨?_, ?_, ?_, ?_, ?_, ?_, ?_, ?_, ?_, fun u => ?_⟩
  · exact (State.clk_of_kept he).trans ((State.clk_of_kept hk).trans s.edgeReady_clk)
  · rw [hes]; rfl
  · rw [hes]; rfl
  · rw [hes]; rfl
  · rw [hes]
  · rw [hes]
  · rw [hes]; rfl
  · exact (State.ctxs_of_kept he).trans ((State.ctxs_of_kept hk).trans s.edgeReady_ctxs)
  · exact (State.mem_of_kept he).trans ((State.mem_of_kept hk).trans s.edgeReady_mem)
  · rw [State.tile_of_kept he]
    exact htiles u

/-- Settles O41: on a plain edge the work before the schedule changes the clock alone (`State.kept_edgeReady`); the OR then paces
the schedule, stops the job, or lets the step commit, and the sends that follow leave the schedule's pace alone
(`State.kept_edgeEnd`). The order of the edge's work and the stop after SCHED_DESYNC are the model's own choice (log 9), as is the state
of the job at B0 (log 105). -/
theorem beatEdgesPaceTheSchedule : Obligations.BeatEdgesPaceTheSchedule := by
  unfold Obligations.BeatEdgesPaceTheSchedule
  intro s dma hp lat len ticked
  obtain ⟨-, -, -, -, -, -, hq⟩ := id hp
  refine ⟨fun hb hr => ⟨_, exec_beatEdge s dma, edge_idle dma hp hq hb hr⟩, fun hb hr => ?_, fun c hb hd => ⟨_, exec_beatEdge s dma, ?_⟩⟩
  · have he : exec (.beatEdge dma) s = .next (s.edgeReady.dueOr.noteSeal.commitEdge.edgeEnd dma) := by
      rw [exec_beatEdge, State.beatEdge_of_job dma hp hb hr]
    refine ⟨fun hgo hn => ⟨_, he, ?_⟩, fun r hl hr' hnr hf hg hn => ⟨_, he, ?_⟩, fun hl ho => ⟨_, he, edge_desync dma hq hr hl ho⟩,
      fun hgo hend hfen hseal hk hnf hf hbb hlate hseen ht hs =>
        ⟨_, he, edge_commits dma hq hr hgo hend hfen hseal hk hnf hf hbb hlate hseen ht hs⟩⟩
    · obtain ⟨e, hg⟩ := gated_dueOr_go s hgo
      have hpace := s.edgeReady.kept_pace_go e
      rw [State.edgeReady_sched, s.kept_edgeReady] at hpace
      exact edge_goes_on dma hq hpace rfl rfl hr hg (by exact_mod_cast hn)
    · obtain ⟨e, hg⟩ := gated_dueOr_stretch s hl hr' hnr hf hg
      obtain ⟨b, hpace⟩ := s.edgeReady.kept_pace_stretch e
      rw [State.edgeReady_sched, s.kept_edgeReady] at hpace
      have hbar : s.edgeReady.bar 0x40118 = s.bar 0x40118 := State.edgeReady_bar (by decide) (by decide)
      obtain ⟨hclk, hnow, hbase, -, hw, htiles, hctxs, hmem⟩ := edge_goes_on dma hq hpace rfl rfl hr hg hn
      exact ⟨hclk, hnow, hbase, by rw [hw, if_pos rfl, hbar], htiles, hctxs, hmem⟩
  · obtain ⟨hclk, hrun, hctx, hnow, hbase, hpro, hb0, hctxs, hmem, htiles⟩ := edge_starts dma hp hq hb hd
    refine ⟨hclk, hrun, hctx, hnow, hbase, hpro, hb0, hctxs, hmem, fun u => ?_⟩
    obtain ⟨⟨hvl, hvregs, hx⟩, hnum⟩ := htiles u
    exact ⟨hvl, hvregs, hx, hnum⟩

end Sys2Proof.Machine

/-! Pass descriptors (R78, Table 03-7): the words that their 32 bytes spell, and each field as the piece of its word. -/

namespace Sys2Proof.Machine

/-! ## Numbers read at an offset -/

/-- What stands past a list's first part is read in the second. -/
theorem leAt_append_right (a b : List Byte) (o n : Nat) (h : a.length ≤ o) : leAt (a ++ b) o n = leAt b (o - a.length) n := by
  simp only [leAt, slice, List.drop_append, List.drop_eq_nil_of_le h, List.nil_append]

theorem leAt_leBytes_append (n v : Nat) (b : List Byte) : leAt (leBytes n v ++ b) 0 n = v % 256 ^ n := by
  rw [leAt, ← List.nil_append (leBytes n v ++ b), slice_middle [] (leBytes n v) b 0 n rfl (leBytes_length n v), leNat_leBytes]

/-- A 32-bit word as it is laid out is read back. -/
theorem leAt_word_append (w : W32) (b : List Byte) : leAt (leBytes 4 w.toNat ++ b) 0 4 = w.toNat := by
  rw [leAt_leBytes_append, Nat.mod_eq_of_lt (by omega)]

/-! ## Bits of a word, as numbers give them -/

theorem ofNat_div_eq_extract {w : Nat} (x : BitVec w) (lo n : Nat) : BitVec.ofNat n (x.toNat / 2 ^ lo) = x.extractLsb' lo n := by
  rw [BitVec.extractLsb', Nat.shiftRight_eq_div_pow]

theorem ofNat_toNat_eq_extract {w : Nat} (x : BitVec w) (n : Nat) : BitVec.ofNat n x.toNat = x.extractLsb' 0 n := by
  rw [← ofNat_div_eq_extract, Nat.pow_zero, Nat.div_one]

theorem testBit_eq_extract {w : Nat} (x : BitVec w) (i : Nat) : Nat.testBit x.toNat i = (x.extractLsb' i 1).getLsbD 0 := by
  rw [BitVec.getLsbD_extractLsb', Nat.add_zero, BitVec.testBit_toNat, decide_eq_true (by decide), Bool.true_and]

theorem field_eq_extract {w : Nat} (x : BitVec w) (lo n : Nat) : field x.toNat lo n = (x.extractLsb' lo n).toNat := by
  rw [← ofNat_div_eq_extract, BitVec.toNat_ofNat, field]

/-! ## The words of a pass descriptor (Table 03-7) -/

def passWord4 (d : PassDesc) : W32 := d.flueB ++ d.flueA ++ d.flueInit ++ (0 : BitVec 8)

def passWord8 (d : PassDesc) : W32 := (0 : BitVec 9) ++ d.mValid ++ (0 : BitVec 1) ++ d.nValid ++ (0 : BitVec 1) ++ d.kValid

def passWordC (d : PassDesc) : W32 := (0 : BitVec 12) ++ d.quadEn ++ d.tileTag

/-- The reserved bytes as the check of them reads them: a word and a double word. -/
theorem encodePass_eq (d : PassDesc) :
    encodePass d = leBytes 4 (passWord0 d).toNat ++ (leBytes 4 (passWord4 d).toNat ++ (leBytes 4 (passWord8 d).toNat ++
      (leBytes 4 (passWordC d).toNat ++ (leBytes 4 d.passSeq.toNat ++ (leBytes 4 0 ++ (leBytes 8 0 ++ [])))))) := by
  simp only [← List.append_assoc]
  rfl

section
variable (d : PassDesc)

theorem leAt_encodePass_0 : leAt (encodePass d) 0 4 = (passWord0 d).toNat := by
  rw [encodePass_eq, leAt_word_append]

theorem leAt_encodePass_4 : leAt (encodePass d) 4 4 = (passWord4 d).toNat := by
  simp only [encodePass_eq, leAt_append_right, leBytes_length, Nat.reduceLeDiff, Nat.reduceSub, leAt_word_append]

theorem leAt_encodePass_8 : leAt (encodePass d) 8 4 = (passWord8 d).toNat := by
  simp only [encodePass_eq, leAt_append_right, leBytes_length, Nat.reduceLeDiff, Nat.reduceSub, leAt_word_append]

theorem leAt_encodePass_12 : leAt (encodePass d) 12 4 = (passWordC d).toNat := by
  simp only [encodePass_eq, leAt_append_right, leBytes_length, Nat.reduceLeDiff, Nat.reduceSub, leAt_word_append]

theorem leAt_encodePass_16 : leAt (encodePass d) 16 4 = d.passSeq.toNat := by
  simp only [encodePass_eq, leAt_append_right, leBytes_length, Nat.reduceLeDiff, Nat.reduceSub, leAt_word_append]

theorem leAt_encodePass_20 : leAt (encodePass d) 0x14 4 = 0 := by
  simp only [encodePass_eq, leAt_append_right, leBytes_length, Nat.reduceLeDiff, Nat.reduceSub, leAt_leBytes_append, Nat.zero_mod]

theorem leAt_encodePass_24 : leAt (encodePass d) 0x18 8 = 0 := by
  simp only [encodePass_eq, leAt_append_right, leBytes_length, Nat.reduceLeDiff, Nat.reduceSub, leAt_leBytes_append, Nat.zero_mod]

end

/-- The words' fields are read one by one: the pieces to the right of a field are left out, then those to its left. -/
theorem parsePass_encodePass (d : PassDesc) : parsePass (encodePass d) = d := by
  have hcap : BitVec.ofNat 2 ((passWord0 d).toNat / 4) = (passWord0 d).extractLsb' 2 2 := ofNat_div_eq_extract (passWord0 d) 2 2
  simp only [parsePass, leAt_encodePass_0, leAt_encodePass_4, leAt_encodePass_8, leAt_encodePass_12, leAt_encodePass_16,
    ofNat_div_eq_extract, ofNat_toNat_eq_extract, testBit_eq_extract, hcap]
  simp (disch := decide) only [passWord0, passWord4, passWord8, passWordC, BitVec.extractLsb'_append_eq_of_le,
    BitVec.extractLsb'_append_eq_of_add_le, Nat.reduceSub]
  simp

/-- The bits of the third word that its VALID fields take. -/
def validBits : W32 :=
  (0 : BitVec 9) ++ BitVec.allOnes 7 ++ (0 : BitVec 1) ++ BitVec.allOnes 7 ++ (0 : BitVec 1) ++ BitVec.allOnes 7

theorem passWord8_or_validBits (d : PassDesc) : passWord8 d ||| validBits = validBits := by
  rw [passWord8, validBits, BitVec.or_append, BitVec.or_append, BitVec.or_append, BitVec.or_append, BitVec.or_append]
  simp only [BitVec.or_allOnes, BitVec.or_self]

theorem passWord8_clear (d : PassDesc) : (passWord8 d).toNat ||| 0x7F7F7F = 0x7F7F7F := by
  have hbits : validBits.toNat = 0x7F7F7F := by decide
  rw [← hbits, ← BitVec.toNat_or, passWord8_or_validBits]

theorem passClear_encodePass (d : PassDesc) : passClear (encodePass d) = true := by
  simp only [passClear, leAt_encodePass_0, leAt_encodePass_4, leAt_encodePass_8, leAt_encodePass_12, leAt_encodePass_20,
    leAt_encodePass_24, passWord8_clear, field_eq_extract]
  simp (disch := decide) only [passWord0, passWord4, passWordC, BitVec.extractLsb'_append_eq_of_le,
    BitVec.extractLsb'_append_eq_of_add_le, Nat.reduceSub]
  simp

/-- Settles O5: each word of the 32 bytes is read back whole, and each field of a word is the piece of it that was put there; the
reserved pieces are zeros. -/
theorem passDescriptorRoundTrip : Obligations.PassDescriptorRoundTrip := by
  unfold Obligations.PassDescriptorRoundTrip
  exact fun d => ⟨rfl, parsePass_encodePass d, passClear_encodePass d⟩

end Sys2Proof.Machine

/-! The ash rows (R66, R98 to R101): what each does where the head stage is visible, and where none is. -/

namespace Sys2Proof.Machine

/-! ## Words that wait -/

/-- A word that waits, having changed only its firebox. -/
theorem word_waits {s : State} {t : BitVec 8} {f : State → State × WordEnd} {b : Tile} (hi : s.issues t.toNat = true)
    (hf : f s = (s.setLtile t.toNat b, .wait)) :
    OnlyTile s (s.word t f) (s.unitOf t.toNat) ∧
    (s.word t f).ltile t.toNat = { b with stoker := { b.stoker with waitWord := true } } := by
  have hw : s.word t f = (s.setLtile t.toNat b).setLtile t.toNat { b with stoker := { b.stoker with waitWord := true } } := by
    simp only [State.word, hi, Bool.not_true, Bool.false_eq_true, if_false, hf, State.ltile_setLtile]
  rw [hw]
  refine ⟨OnlyTile.of_counted (Counted.refl _) rfl fun v hv => ?_, State.ltile_setLtile ..⟩
  rw [State.setLtile, State.unitOf_setLtile, State.tile_setTile, if_neg hv, State.setLtile, State.tile_setTile, if_neg hv]

/-- A grate instruction that waits. -/
theorem grate_waits {s : State} {t : BitVec 8} {f : GEnv → Tile → GRes} {b : Tile} (h : GrateReady s t)
    (hf : f (s.grateEnv (s.ltile t.toNat)) (s.ltile t.toNat) = { t := b, wait := true }) :
    (s.grate t f).ltile t.toNat = { b with stoker := { b.stoker with waitWord := true } } := by
  obtain ⟨hi, hg⟩ := h
  have he : s.grate t f = s.word t (fun s =>
      s.grateEnd t.toNat (s.ltile t.toNat).stoker.pc (f (s.grateEnv (s.ltile t.toNat)) (s.ltile t.toNat))) := by
    simp only [State.grate, hg, Bool.not_true, Bool.false_eq_true, if_false]
  rw [he]
  refine (word_waits (b := b) hi ?_).2
  simp only [hf, State.grateEnd, Bool.false_eq_true, if_false, Bool.or_true, if_true]

/-- A grate instruction that completes is answered with its firebox. -/
theorem exec_grate_tile {c : Instr} {s : State} {t : BitVec 8} {f : GEnv → Tile → GRes} {b : Tile} {d : Bool} {l k m : Nat}
    (hc : exec c s = .next (s.grate t f)) (h : GrateReady s t)
    (hf : f (s.grateEnv (s.ltile t.toNat)) (s.ltile t.toNat) = { t := b, drew := d, lanes := l, sfu := k, hard := m }) :
    ∃ s', exec c s = .next s' ∧ s'.ltile t.toNat = { b with stoker := b.stoker.past } :=
  ⟨_, hc, (grate_completes_drawing h hf).2⟩

/-- The same for one that reads only its firebox. -/
theorem exec_plain_tile {c : Instr} {s : State} {t : BitVec 8} {f : Tile → Tile} {b : Tile} {lanes sfu : Tile → Nat}
    (hc : exec c s = .next (s.gratePlain t f lanes sfu)) (h : GrateReady s t) (hf : f (s.ltile t.toNat) = b) :
    ∃ s', exec c s = .next s' ∧ s'.ltile t.toNat = { b with stoker := b.stoker.past } :=
  hf ▸ ⟨_, hc, (gratePlain_completes h).2⟩

/-! ## The head stage -/

theorem Tile.ashHead_of_visible {a : Tile} {st : AshStage} {rest : List AshStage} (h : a.ash = st :: rest) (hv : st.visible = true) :
    a.ashHead = some st := by
  rw [Tile.ashHead, h]
  exact if_pos hv

theorem Tile.ashVis_eq_zero_iff (a : Tile) : a.ashVis = 0 ↔ a.ashHead = none := by
  unfold Tile.ashVis Tile.ashHead
  cases a.ash with
  | nil => simp
  | cons st rest => by_cases hv : st.visible = true <;> simp [hv]

/-! ## The wait marks cleared -/

@[simp] theorem Tile.ashHead_noWait (a : Tile) : a.noWait.ashHead = a.ashHead := rfl

@[simp] theorem Tile.ashVis_noWait (a : Tile) : a.noWait.ashVis = a.ashVis := rfl

theorem Tile.reg_noWait (a : Tile) {o : Nat} (h : o ≠ 0x0300) : a.noWait.reg o = a.reg o := by
  rw [Tile.noWait, Tile.reg_setReg, if_neg h]

theorem Tile.compat_noWait (a : Tile) : a.noWait.compat = a.compat := by
  rw [Tile.compat, Tile.reg_noWait a (by decide), Tile.compat]

/-! ## The rows where a stage is visible -/

/-- A lane of a chunk of a tile (R98). -/
theorem nth_ashChunk (d : Tile64) (c : Nat) (cols : Bool) {i : Nat} (hi : i < 512) :
    nth 0 (ashChunk d c cols) i =
      nth 0 d (if cols then 64 * (i % 64) + (8 * c + i / 64) else 64 * (8 * c + i / 64) + i % 64) := by
  rw [ashChunk, nth_eq_getD, List.getD_eq_getElem _ _ (by simpa using hi), List.getElem_map, List.getElem_range]

/-- What was written to lanes is a matter of masks, vector registers and the lanes' values alone. -/
theorem lanesWritten_congr {a b a' b' : Tile} {g : GrateWord} {w n : Nat} {f f' : Nat → Nat} (h : lanesWritten a b g w n f)
    (hm : a'.masks = a.masks) (ha : a'.vregs = a.vregs) (hb : b'.vregs = b.vregs) (he : ∀ i, i < n → f i = f' i) :
    lanesWritten a' b' g w n f' := by
  have act : ∀ i, a'.active g i = a.active g i := fun i => by simp only [Tile.active, Tile.mask, hm]
  have old : a'.lanes g.vd.toNat w n = a.lanes g.vd.toNat w n := by simp only [Tile.lanes, ha]
  have new : b'.lanes g.vd.toNat w n = b.lanes g.vd.toNat w n := by simp only [Tile.lanes, hb]
  intro i hi
  rw [act, old, new, h i hi, he i hi]

section
variable {a : Tile} {st : AshStage} (h : a.ashHead = some st)
include h

theorem gAshWait_of_visible : gAshWait a = { t := a.noWait } := by
  have hv : ¬ a.ashVis = 0 := by rw [Tile.ashVis_eq_zero_iff, h]; simp
  rw [gAshWait, Tile.ashVis_noWait, if_neg hv]

theorem gAshRd_of_visible (g : GrateWord) :
    gAshRd a g =
      { a.noWait.writeLanes g 32 512 (fun i => ((nth 0 (ashChunk st.data (g.imm.toNat % 8) (g.imm.getLsbD 3)) i).toNat, 0)) with
        ashHold := ashChunk st.data (g.imm.toNat % 8) (g.imm.getLsbD 3), ashHoldHdr := st.header } := by
  simp only [gAshRd, Tile.ashHead_noWait, h]

theorem gAshHdr_of_visible (e : GEnv) (g : GrateWord) (hg : g.imm.toNat ≤ 1) :
    gAshHdr e a g =
      { t := a.noWait.xset g.vd.toNat (if g.imm = 0 then st.header.setWidth 32 else (st.header >>> 32).setWidth 32) } := by
  have hd : decide (1 < g.imm.toNat) = false := by simpa using hg
  have hlo : BitVec.ofNat 32 (field st.header.toNat 0 32) = st.header.setWidth 32 := by
    apply BitVec.eq_of_toNat_eq
    simp [field]
  have hhi : BitVec.ofNat 32 (field st.header.toNat 32 32) = (st.header >>> 32).setWidth 32 := by
    apply BitVec.eq_of_toNat_eq
    simp [field, Nat.shiftRight_eq_div_pow]
  by_cases h0 : g.imm = 0
  · simp only [gAshHdr, Tile.ashHead_noWait, h, hd, if_pos h0, hlo]
  · have h1 : g.imm = 1 := BitVec.eq_of_toNat_eq (by
      have : g.imm.toNat ≠ 0 := fun hz => h0 (BitVec.eq_of_toNat_eq hz)
      exact (by omega : g.imm.toNat = 1))
    simp only [gAshHdr, Tile.ashHead_noWait, h, hd, if_neg h0, if_pos h1, hhi]

theorem gAshPop_of_visible : gAshPop a = { a.noWait with ash := a.ash.drop 1 } := by
  simp only [gAshPop, Tile.ashHead_noWait, h]
  rfl

end

/-! ## The rows where none is -/

theorem Tile.bit_orReg (m : Tile) (o : Nat) {v : W32} {i : Nat} (h : v.getLsbD i = true) : ((m.orReg o v).reg o).getLsbD i = true := by
  rw [Tile.orReg, Tile.reg_setReg, if_pos rfl, BitVec.getLsbD_or, h, Bool.or_true]

/-- A firebox that an empty read has marked (R100). -/
structure EmptyMarked (a b : Tile) : Prop where
  undr : (b.reg 0x0300).getLsbD 9 = true
  counted : b.reg 0x0314 = a.reg 0x0314 + 1
  ash : b.ash = a.ash

/-- Marking a firebox that differs in nothing that the mark counts on. -/
theorem emptyMarked_of {a m : Tile} (hr : m.reg 0x0314 = a.reg 0x0314) (ha : m.ash = a.ash) :
    EmptyMarked a ((m.orReg 0x0300 0x200).bump 0x0314 1) := by
  refine ⟨?_, ?_, ha⟩
  · rw [Tile.bump, Tile.reg_setReg, if_neg (by decide)]
    exact m.bit_orReg 0x0300 (by decide)
  · rw [Tile.bump, Tile.reg_setReg, if_pos rfl, Tile.orReg, Tile.reg_setReg, if_neg (by decide), hr]
    rfl

theorem Tile.xset_frame (a : Tile) (n : Nat) (v : W32) : a.xset n v = { a with x := (a.xset n v).x } := by
  unfold Tile.xset
  split
  · rfl
  · rfl

theorem Tile.emptyRead_of_native {m : Tile} (h : m.compat = false) : m.emptyRead = (m.orReg 0x0300 0x200).bump 0x0314 1 := by
  rw [Tile.emptyRead, h]
  rfl

section
variable {a : Tile} (h : a.ashHead = none)
include h

theorem gAshWait_of_none : gAshWait a = { t := a.noWait.orReg 0x0300 4, wait := true } := by
  rw [gAshWait, Tile.ashVis_noWait, if_pos (a.ashVis_eq_zero_iff.mpr h)]

variable (hc : a.compat = false)
include hc

theorem gAshRd_of_native (g : GrateWord) : EmptyMarked a (gAshRd a g) := by
  have hn : a.noWait.compat = false := a.compat_noWait.trans hc
  let f := fun i => ((nth 0 a.ashHold i).toNat, (0 : W32))
  have hr : ∀ o, o ≠ 0x0100 → (a.noWait.writeLanes g 32 512 f).reg o = a.noWait.reg o :=
    fun o ho => (Tile.writeLanes_result a.noWait g 32 512 f (.inr (.inr rfl))).2.2.1.1 o ho
  have he : gAshRd a g = (a.noWait.writeLanes g 32 512 f).emptyRead := by
    simp only [gAshRd, Tile.ashHead_noWait, h, hn, Bool.false_eq_true, if_false]
    rfl
  rw [he, Tile.emptyRead_of_native]
  · exact emptyMarked_of ((hr _ (by decide)).trans (a.reg_noWait (by decide))) rfl
  · rw [Tile.compat, hr _ (by decide)]
    exact hn

theorem gAshHdr_of_native (e : GEnv) (g : GrateWord) : ∃ b d, gAshHdr e a g = { t := b, drew := d } ∧ EmptyMarked a b := by
  have hn : a.noWait.compat = false := a.compat_noWait.trans hc
  obtain ⟨v, hv⟩ : ∃ v, gAshHdr e a g = { t := (a.noWait.xset g.vd.toNat v).emptyRead, drew := decide (1 < g.imm.toNat) } := by
    simp only [gAshHdr, Tile.ashHead_noWait, h]
    exact ⟨_, rfl⟩
  have hx : ∀ o, (a.noWait.xset g.vd.toNat v).reg o = a.noWait.reg o := fun o => by rw [Tile.xset_frame]; rfl
  have ha : (a.noWait.xset g.vd.toNat v).ash = a.ash := by rw [Tile.xset_frame]; rfl
  refine ⟨_, _, hv, ?_⟩
  rw [Tile.emptyRead_of_native]
  · exact emptyMarked_of ((hx _).trans (a.reg_noWait (by decide))) ha
  · rw [Tile.compat, hx]
    exact hn

theorem gAshPop_of_native : EmptyMarked a (gAshPop a) := by
  have hp : gAshPop a = (a.noWait.orReg 0x0300 0x200).bump 0x0314 1 := by
    simp only [gAshPop, Tile.ashHead_noWait, h, a.compat_noWait, hc, Bool.false_eq_true, if_false]
  rw [hp]
  exact emptyMarked_of (a.reg_noWait (by decide)) rfl

end

/-- An empty read is answered with a firebox so marked. -/
theorem answers_emptyRead {c : Instr} {s : State} {t : BitVec 8} {f : GEnv → Tile → GRes} {b : Tile} {d : Bool} (h : GrateReady s t)
    (hc : exec c s = .next (s.grate t f)) (hf : f (s.grateEnv (s.ltile t.toNat)) (s.ltile t.toNat) = { t := b, drew := d })
    (hb : EmptyMarked (s.ltile t.toNat) b) :
    Answers c s (fun s' => let b := s'.ltile t.toNat
      (b.reg 0x0300).getLsbD 9 = true ∧ b.reg 0x0314 = (s.ltile t.toNat).reg 0x0314 + 1 ∧ b.ash = (s.ltile t.toNat).ash) := by
  obtain ⟨s', he, ht⟩ := exec_grate_tile hc h hf
  refine ⟨s', he, ?_⟩
  simp only [ht]
  exact ⟨hb.undr, hb.counted, hb.ash⟩

/-- Settles O26: with a visible head stage each row is its plain effect on the firebox; without one ASHWAIT is a word that waits and
the other rows are empty reads. -/
theorem ashRows : Obligations.AshRows := by
  unfold Obligations.AshRows
  intro t g s hr a
  refine ⟨fun st rest hash hv => ?visible, fun hn hc => ⟨?wait, ?empty⟩⟩
  case visible =>
    have h : (s.ltile t.toNat).ashHead = some st := Tile.ashHead_of_visible hash hv
    refine ⟨?ashwait, ?ashrd, fun hg => ?ashhdr, ?ashpop⟩
    case ashwait =>
      obtain ⟨s', he, ht⟩ := exec_grate_tile (c := .ashwait t g) (f := fun _ a => gAshWait a) rfl hr (gAshWait_of_visible h)
      refine ⟨s', he, ?_⟩
      dsimp only
      rw [ht]
      exact ⟨rfl, rfl, rfl, rfl⟩
    case ashrd =>
      obtain ⟨s', he, ht⟩ := exec_plain_tile (c := .ashrd t g) (f := fun a => gAshRd a g) rfl hr (gAshRd_of_visible h g)
      obtain ⟨hl, hk, -, -⟩ := Tile.writeLanes_result (s.ltile t.toNat).noWait g 32 512
        (fun i => ((nth 0 (ashChunk st.data (g.imm.toNat % 8) (g.imm.getLsbD 3)) i).toNat, 0)) (.inr (.inr rfl))
      refine ⟨s', he, ?_⟩
      dsimp only
      rw [ht]
      refine ⟨lanesWritten_congr hl rfl rfl rfl fun i hi => ?_, rfl, rfl, hk, rfl⟩
      simp only [nth_ashChunk _ _ _ hi]
    case ashhdr =>
      obtain ⟨s', he, ht⟩ := exec_grate_tile (c := .ashhdr t g) (f := fun e a => gAshHdr e a g) rfl hr (gAshHdr_of_visible h _ g hg)
      rw [Tile.xset_frame] at ht
      refine ⟨s', he, ?_⟩
      dsimp only
      rw [ht]
      refine ⟨fun k => ?_, rfl, rfl⟩
      exact Tile.xget_xset ..
    case ashpop =>
      obtain ⟨s', he, ht⟩ := exec_plain_tile (c := .ashpop t g) (f := gAshPop) rfl hr (gAshPop_of_visible h)
      refine ⟨s', he, ?_⟩
      dsimp only
      rw [ht]
      refine ⟨?_, rfl, rfl, rfl⟩
      rw [hash]
      rfl
  case wait =>
    refine ⟨_, rfl, ?_⟩
    simp only [grate_waits (f := fun _ a => gAshWait a) hr (gAshWait_of_none hn)]
    refine ⟨rfl, ?_⟩
    exact Tile.bit_orReg _ 0x0300 (i := 2) (by decide)
  case empty =>
    simp only [List.forall_mem_cons, List.not_mem_nil, false_implies, implies_true, and_true]
    refine ⟨?ashrd, ?ashhdr, ?ashpop⟩
    case ashrd => exact answers_emptyRead (f := fun _ a => { t := gAshRd a g }) hr rfl rfl (gAshRd_of_native hn hc g)
    case ashhdr =>
      obtain ⟨b, d, hb, hm⟩ := gAshHdr_of_native hn hc (s.grateEnv (s.ltile t.toNat)) g
      exact answers_emptyRead (f := fun e a => gAshHdr e a g) hr rfl hb hm
    case ashpop => exact answers_emptyRead (f := fun _ a => { t := gAshPop a }) hr rfl rfl (gAshPop_of_native hn hc)

end Sys2Proof.Machine

/-! The hobs of a firebox (R52 to R67): a hob read back, entries claimed from flues, the side lane and preloads, the start of a pass. -/

namespace Sys2Proof.Machine

/-! ## Rules of the state -/

theorem Tile.hob_setHob (t : Tile) (n : Nat) (v : Hob) (k : Nat) : (t.setHob n v).hob k = if k = n then v else t.hob k := by
  unfold Tile.hob Tile.setHob
  rw [tget_tset]

@[simp] theorem Tile.hob_setHob_same (t : Tile) (n : Nat) (v : Hob) : (t.setHob n v).hob n = v := by
  rw [Tile.hob_setHob, if_pos rfl]

theorem Tile.hob_setHob_ne (t : Tile) {n : Nat} (v : Hob) {k : Nat} (h : k ≠ n) : (t.setHob n v).hob k = t.hob k := by
  rw [Tile.hob_setHob, if_neg h]

@[simp] theorem Tile.reg_setHob (t : Tile) (n : Nat) (v : Hob) (o : Nat) : (t.setHob n v).reg o = t.reg o := rfl
@[simp] theorem Tile.stream_setHob (t : Tile) (n : Nat) (v : Hob) (k : Nat) : (t.setHob n v).stream k = t.stream k := rfl
@[simp] theorem Tile.hob_setReg (t : Tile) (o : Nat) (v : W32) (k : Nat) : (t.setReg o v).hob k = t.hob k := rfl

theorem State.tile_setLtile (s : State) (l : Nat) (b : Tile) (v : Nat) :
    (s.setLtile l b).tile v = if v = s.unitOf l then b else s.tile v := State.tile_setTile ..

theorem State.tile_setLtile_ne (s : State) (l : Nat) (b : Tile) : ∀ v, v ≠ s.unitOf l → (s.setLtile l b).tile v = s.tile v :=
  fun v hv => by rw [State.tile_setLtile, if_neg hv]

theorem State.tile_congr {s t : State} (h : t.tiles = s.tiles) (u : Nat) : t.tile u = s.tile u := by
  rw [State.tile, h, State.tile]

theorem State.ltile_congr {s t : State} (h : t.tiles = s.tiles) (hm : t.tileMap = s.tileMap) (l : Nat) : t.ltile l = s.ltile l := by
  rw [State.ltile, State.tile_congr h, State.unitOf, hm, State.ltile, State.unitOf]

theorem getLsbD_putBit (w : W32) {i : Nat} (hi : i < 32) (b : Bool) (j : Nat) :
    (putBit w i b).getLsbD j = if j = i then b else w.getLsbD j := by
  have hp : (BitVec.ofNat 32 (2 ^ i)).getLsbD j = decide (j = i) := by
    rw [BitVec.getLsbD_ofNat, Nat.testBit_two_pow]
    by_cases h : i = j
    · simp [← h, hi]
    · simp [h, Ne.symm h]
  cases b with
  | true =>
    simp only [putBit, setBit, if_true, BitVec.getLsbD_or, hp]
    by_cases h : j = i
    · rw [if_pos h, decide_eq_true h, Bool.or_true]
    · rw [if_neg h, decide_eq_false h, Bool.or_false]
  | false =>
    simp only [putBit, clrBit, Bool.false_eq_true, if_false, BitVec.getLsbD_and, BitVec.getLsbD_not, hp]
    by_cases h : j = i
    · simp [h]
    · by_cases hj : j < 32
      · simp [h, hj]
      · simp [h, hj, BitVec.getLsbD_of_ge w j (by omega)]

theorem guardPart_of_present {b : Bool} (h : b = true) (f : Fault) (s : State) : guardPart b f s = .next s := by
  rw [guardPart, if_pos h]

theorem hobOk_of_lt {h : BitVec 2} (hh : h.toNat < 3) : hobOk h = true := decide_eq_true hh

/-! ## Claims -/

theorem Tile.claim_frame (t : Tile) (f : BitVec 8) (n : Nat) : (t.claim f n).1 = { t with streams := (t.claim f n).1.streams } := by
  unfold Tile.claim
  simp only
  split
  · rfl
  · rfl

theorem Tile.claim_entries (t : Tile) (f : BitVec 8) (n : Nat) :
    (t.claim f n).2 = ((t.stream f.toNat).entries.drop (t.stream f.toNat).claimed).take n := by
  unfold Tile.claim
  simp only
  split
  · next h => rw [h]; rfl
  · rfl

theorem Tile.stream_claim (t : Tile) (f : BitVec 8) (n k : Nat) :
    (t.claim f n).1.stream k =
      if k = f.toNat then { t.stream f.toNat with claimed := (t.stream f.toNat).claimed + n } else t.stream k := by
  unfold Tile.claim
  simp only
  split
  · next h => by_cases hk : k = f.toNat <;> simp [h, hk]
  · rw [Tile.stream_setStream]

/-! ## The side lane -/

/-- An operand loaded into the shadow registers of a hob, or none: beside them only claims of flues change. -/
structure LaneLoaded (a b : Tile) (hn : Nat) : Prop where
  rest : b = { a with streams := b.streams, hobs := b.hobs }
  hob : ∃ sh l q, b.hob hn = { a.hob hn with shadow := sh, lane := l, preloading := q }
  others : ∀ m, m ≠ hn → b.hob m = a.hob m
  entries : ∀ k, (b.stream k).entries = (a.stream k).entries

theorem LaneLoaded.refl (a : Tile) (hn : Nat) : LaneLoaded a a hn := ⟨rfl, ⟨_, _, _, rfl⟩, fun _ _ => rfl, fun _ => rfl⟩

/-- The claim of the lane's earlier operand given back to its flue. -/
def Tile.unclaim (t : Tile) (hn : Nat) (d : PassDesc) : Tile :=
  match (t.hob hn).lane with
  | some p => if p.2 = 0 then t else
      let st := t.stream d.flueA.toNat
      t.setStream d.flueA.toNat { st with claimed := st.claimed - p.2 }
  | none => t

theorem Tile.unclaim_of_free {t : Tile} {hn : Nat} (h : (t.hob hn).lane = none) (d : PassDesc) : t.unclaim hn d = t := by
  rw [Tile.unclaim, h]

theorem Tile.unclaim_frame (t : Tile) (hn : Nat) (d : PassDesc) : t.unclaim hn d = { t with streams := (t.unclaim hn d).streams } := by
  unfold Tile.unclaim
  split
  · split
    · rfl
    · rfl
  · rfl

theorem Tile.stream_unclaim (t : Tile) (hn : Nat) (d : PassDesc) (k : Nat) :
    ((t.unclaim hn d).stream k).entries = (t.stream k).entries ∧ (k ≠ d.flueA.toNat → (t.unclaim hn d).stream k = t.stream k) := by
  unfold Tile.unclaim
  split
  · split
    · exact ⟨rfl, fun _ => rfl⟩
    · simp only [Tile.stream_setStream]
      by_cases hk : k = d.flueA.toNat
      · subst hk
        simp
      · simp [hk]
  · exact ⟨rfl, fun _ => rfl⟩

/-- The operand that the lane takes: from FLUE_A, or a half of the GSB by columns. -/
def Tile.laneOperand (t : Tile) (hn : Nat) (d : PassDesc) : List (Nat × Nat) :=
  if d.statSrc = 0 then ((t.unclaim hn d).claim d.flueA (passNeedA d)).2
  else gsbColumns d (((t.unclaim hn d).claim d.flueA (passNeedA d)).1.half (d.statSrc.toNat - 1)).data

theorem Tile.loadShadow_eq (t : Tile) (hn : Nat) (d : PassDesc) :
    t.loadShadow hn d = ((t.unclaim hn d).claim d.flueA (passNeedA d)).1.setHob hn
      { t.hob hn with shadow := t.laneOperand hn d, lane := some (d.passSeq.toNat, passNeedA d) } := by
  have hh : ((t.unclaim hn d).claim d.flueA (passNeedA d)).1.hob hn = t.hob hn := by rw [Tile.claim_frame, Tile.unclaim_frame]; rfl
  rw [← hh]
  rfl

theorem Tile.stream_loadShadow (t : Tile) (hn : Nat) (d : PassDesc) {k : Nat} (h : k ≠ d.flueA.toNat) :
    (t.loadShadow hn d).stream k = t.stream k := by
  rw [Tile.loadShadow_eq, Tile.stream_setHob, Tile.stream_claim, if_neg h, (t.stream_unclaim hn d k).2 h]

theorem laneLoaded_loadShadow (t : Tile) (hn : Nat) (d : PassDesc) : LaneLoaded t (t.loadShadow hn d) hn := by
  rw [Tile.loadShadow_eq]
  refine ⟨?_, ⟨_, _, _, Tile.hob_setHob_same ..⟩, fun m hm => ?_, fun k => ?_⟩
  · rw [Tile.claim_frame, Tile.unclaim_frame]; rfl
  · rw [Tile.hob_setHob_ne _ _ hm, Tile.claim_frame, Tile.unclaim_frame]; rfl
  · rw [Tile.stream_setHob, Tile.stream_claim]
    by_cases hk : k = d.flueA.toNat
    · rw [if_pos hk, hk]
      exact (t.stream_unclaim hn d _).1
    · rw [if_neg hk, (t.stream_unclaim hn d k).2 hk]

theorem Tile.lane_loadShadow (t : Tile) (hn : Nat) (d : PassDesc) :
    ((t.loadShadow hn d).hob hn).lane = some (d.passSeq.toNat, passNeedA d) := by
  rw [Tile.loadShadow_eq, Tile.hob_setHob_same]

/-- Into a free lane an operand comes from the front of its flue. -/
theorem Tile.shadow_loadShadow (t : Tile) (hn : Nat) (d : PassDesc) (hl : (t.hob hn).lane = none) (hs : d.statSrc = 0) :
    ((t.loadShadow hn d).hob hn).shadow =
      ((t.stream d.flueA.toNat).entries.drop (t.stream d.flueA.toNat).claimed).take (passNeedA d) := by
  rw [Tile.loadShadow_eq, Tile.hob_setHob_same]
  simp only [Tile.laneOperand, if_pos hs, Tile.claim_entries, Tile.unclaim_of_free hl]

/-! ## Preloads (R62) -/

theorem Tile.preload_of_ready (t : Tile) (hn : Nat) (d : PassDesc) (h : (t.hob hn).ready d = true) : t.preload hn d = t := by
  simp only [Tile.preload, h, Bool.true_or, if_true]

theorem Tile.preload_of_there (t : Tile) (hn : Nat) (d : PassDesc) (hr : (t.hob hn).ready d = false)
    (ha : passNeedA d ≤ (t.stream d.flueA.toNat).avail) (hs : d.statSrc = 0) (hf : (t.hob hn).fly = []) :
    t.preload hn d = (t.loadShadow hn d).setHob hn { (t.loadShadow hn d).hob hn with preloading := true } := by
  have hg : t.notFull d.statSrc = false := by rw [Tile.notFull, hs]; rfl
  simp only [Tile.preload, hr, ha, hg, hf, decide_true, Bool.true_or, Bool.not_true, List.isEmpty_nil, Bool.false_and, Bool.or_self,
    Bool.false_eq_true, if_false]

theorem laneLoaded_preload (t : Tile) (hn : Nat) (d : PassDesc) : LaneLoaded t (t.preload hn d) hn := by
  unfold Tile.preload
  simp only
  split
  · exact LaneLoaded.refl t hn
  · obtain ⟨hrest, ⟨sh, l, q, hh⟩, ho, he⟩ := laneLoaded_loadShadow t hn d
    refine ⟨?_, ⟨sh, l, true, ?_⟩, fun m hm => ?_, he⟩
    · conv_lhs => rw [hrest]
      rfl
    · rw [Tile.hob_setHob_same, hh]
    · rw [Tile.hob_setHob_ne _ _ hm, ho m hm]

/-! ## What is shown while a pass waits -/

theorem Tile.reg_showHold (t : Tile) {hn : Nat} (h : hn < 3) (w : Hold) :
    ((t.showHold hn w).reg (hobReg hn)).getLsbD 7 = w.ash ∧ ((t.showHold hn w).reg 0x0380).getLsbD 0 = w.issue := by
  have ho : hobReg hn ≠ 0x0380 := by unfold hobReg; omega
  constructor
  · rw [Tile.showHold, Tile.reg_setReg, if_neg ho, Tile.reg_setReg, if_pos rfl, getLsbD_putBit _ (by decide) _ 7, if_neg (by decide),
      getLsbD_putBit _ (by decide) _ 7, if_pos rfl]
  · rw [Tile.showHold, Tile.reg_setReg, if_pos rfl, getLsbD_putBit _ (by decide) _ 0, if_pos rfl]

end Sys2Proof.Machine

/-! PASS_START (R54, R58 to R66, R159, R163): the pass that starts, the pass that waits, and the words acted on ahead. -/

namespace Sys2Proof.Machine

/-! ## A pass that takes its streamed operand from a flue and keeps the stationary one -/

/-- The pass in flight. -/
def Tile.streamedPass (t : Tile) (hn : Nat) (d : PassDesc) : FlyPass :=
  { d := d, stat := (t.hob hn).stat
    strm := ((t.stream d.flueB.toNat).entries.drop (t.stream d.flueB.toNat).claimed).take (passOperand d), takenB := passOperand d
    chk := d.chkEn && (t.reg 0x02C0).getLsbD 0, tol := getField (t.reg 0x02C0) 8 5 }

/-- The firebox with it in flight, before its side lane, its capture and its ash stage. -/
def Tile.fly (t : Tile) (hn : Nat) (d : PassDesc) : Tile :=
  (t.claim d.flueB (passOperand d)).1.setHob hn
    { t.hob hn with held := none, fly := (t.hob hn).fly ++ [t.streamedPass hn d], preloading := false, lastMode := some d.split }

/-- The side lane loaded for the pass that it is to carry an operand of, if any. -/
def Tile.carry (t : Tile) (hn : Nat) : Option PassDesc → Tile
  | some p => t.loadShadow hn p
  | none => t

@[simp] theorem Tile.claim_zero (t : Tile) (f : BitVec 8) : t.claim f 0 = (t, []) := rfl

@[simp] theorem Tile.hob_claim (t : Tile) (f : BitVec 8) (n k : Nat) : (t.claim f n).1.hob k = t.hob k := by
  rw [Tile.claim_frame]
  rfl

@[simp] theorem Tile.reg_claim (t : Tile) (f : BitVec 8) (n o : Nat) : (t.claim f n).1.reg o = t.reg o := by
  rw [Tile.claim_frame]
  rfl

theorem Tile.startPass_eq (t : Tile) (hn : Nat) (d : PassDesc) (next : Option PassDesc) (hs : d.strmSrc = 0) (hst : d.statNew = false)
    (hi : d.accIn ≠ 2) :
    ∃ g, t.startPass hn d next = { (t.fly hn d).carry hn next with
      gsb := g
      ash := ((t.fly hn d).carry hn next).ash ++ if d.final then [{ seq := d.passSeq.toNat, hob := hn }] else [] } := by
  have hneed : passNeedB d = passOperand d := if_pos hs
  have hinit : passNeedI d = 0 := if_neg hi
  unfold Tile.startPass
  extract_lets b i t1 h strm stat takenA cfg f h1 t2 t3 t4
  have hb : t1 = (t.claim d.flueB (passOperand d)).1 := by
    simp only [t1, i, b, hneed, hinit, Tile.claim_zero]
  have hh : h = t.hob hn := by
    rw [show h = t1.hob hn from rfl, hb, Tile.hob_claim]
  have hcfg : cfg = t.reg 0x02C0 := by
    rw [show cfg = t1.reg 0x02C0 from rfl, hb, Tile.reg_claim]
  have htaken : takenA = 0 := by
    simp only [takenA, hst, Bool.false_eq_true, if_false]
    split <;> rfl
  have hf : f = t.streamedPass hn d := by
    simp only [f, htaken, hcfg, stat, hst, hh, strm, hs, b, hneed, i, hinit, Tile.claim_entries, Tile.claim_zero, if_true,
      Bool.false_eq_true, if_false]
    rfl
  have ht2 : t2 = t.fly hn d := by
    simp only [t2, h1, hf, hh, hb, stat, hst, Bool.false_eq_true, if_false]
    rfl
  have ht3 : t3 = (t.fly hn d).carry hn next := by
    rw [← ht2]
    cases next <;> rfl
  have ht4 : ∃ g, t4 = { t3 with gsb := g } := by
    simp only [t4]
    split
    · exact ⟨_, rfl⟩
    · exact ⟨_, rfl⟩
  obtain ⟨g, hg⟩ := ht4
  refine ⟨g, ?_⟩
  rw [hg, ht3]
  by_cases hd : d.final = true
  · rw [if_pos hd, if_pos hd]
  · rw [if_neg hd, if_neg hd, List.append_nil]

@[simp] theorem Tile.hob_fly (t : Tile) (hn : Nat) (d : PassDesc) : (t.fly hn d).hob hn =
    { t.hob hn with held := none, fly := (t.hob hn).fly ++ [t.streamedPass hn d], preloading := false, lastMode := some d.split } :=
  Tile.hob_setHob_same ..

theorem Tile.hob_fly_ne (t : Tile) {hn k : Nat} (d : PassDesc) (h : k ≠ hn) : (t.fly hn d).hob k = t.hob k := by
  rw [Tile.fly, Tile.hob_setHob_ne _ _ h, Tile.hob_claim]

theorem Tile.stream_fly (t : Tile) (hn : Nat) (d : PassDesc) (k : Nat) : (t.fly hn d).stream k =
    if k = d.flueB.toNat then { t.stream d.flueB.toNat with claimed := (t.stream d.flueB.toNat).claimed + passOperand d }
    else t.stream k := by
  rw [Tile.fly, Tile.stream_setHob, Tile.stream_claim]

theorem Tile.fly_frame (t : Tile) (hn : Nat) (d : PassDesc) :
    t.fly hn d = { t with streams := (t.fly hn d).streams, hobs := (t.fly hn d).hobs } := by
  rw [Tile.fly, Tile.claim_frame]
  rfl

theorem laneLoaded_carry (t : Tile) (hn : Nat) (next : Option PassDesc) : LaneLoaded t (t.carry hn next) hn := by
  cases next with
  | none => exact LaneLoaded.refl t hn
  | some p => exact laneLoaded_loadShadow t hn p

theorem Tile.stream_carry (t : Tile) (hn : Nat) {next : Option PassDesc} {k : Nat} (h : ∀ p, next = some p → k ≠ p.flueA.toNat) :
    (t.carry hn next).stream k = t.stream k := by
  cases next with
  | none => rfl
  | some p => exact t.stream_loadShadow hn p (h p rfl)

/-! ## PASS_START on one firebox -/

theorem Tile.passStart_of_clear {t : Tile} {hn : Nat} {d : PassDesc} {next : Option PassDesc} (hh : (t.hob hn).held = some d)
    (hc : (t.holdOf (t.hob hn) d next).clear = true) :
    t.passStart hn next =
      let b := (t.showHold hn (t.holdOf (t.hob hn) d next)).startPass hn d next
      { b with stoker := { b.stoker with waitWord := false }.goto (b.stoker.pc + 5) } := by
  simp only [Tile.passStart, hh, hc, Bool.not_true, Bool.false_eq_true, if_false]

theorem Tile.passStart_of_waiting {t : Tile} {hn : Nat} {d : PassDesc} {next : Option PassDesc} (hh : (t.hob hn).held = some d)
    (hc : (t.holdOf (t.hob hn) d next).clear = false) :
    t.passStart hn next = (t.showHold hn (t.holdOf (t.hob hn) d next)).preload hn d := by
  simp only [Tile.passStart, hh, hc, Bool.not_false, if_true]

/-- A pass with nothing in its way is in flight, its side lane loaded, and its word complete. -/
theorem Tile.passStart_eq {t : Tile} {hn : Nat} {d : PassDesc} {next : Option PassDesc} (hh : (t.hob hn).held = some d)
    (hc : (t.holdOf (t.hob hn) d next).clear = true) (hs : d.strmSrc = 0) (hst : d.statNew = false) (hi : d.accIn ≠ 2) :
    ∃ r g, t.passStart hn next = { (({ t with regs := r } : Tile).fly hn d).carry hn next with
      gsb := g, ash := t.ash ++ if d.final then [{ seq := d.passSeq.toNat, hob := hn }] else []
      stoker := ({ t.stoker with waitWord := false } : Stoker).goto (t.stoker.pc + 5) } := by
  obtain ⟨g, hg⟩ := (t.showHold hn (t.holdOf (t.hob hn) d next)).startPass_eq hn d next hs hst hi
  have hl := laneLoaded_carry ((t.showHold hn (t.holdOf (t.hob hn) d next)).fly hn d) hn next
  have hf := (t.showHold hn (t.holdOf (t.hob hn) d next)).fly_frame hn d
  have hash : (((t.showHold hn (t.holdOf (t.hob hn) d next)).fly hn d).carry hn next).ash = t.ash := by
    rw [hl.rest, hf]
    rfl
  have hstk : (((t.showHold hn (t.holdOf (t.hob hn) d next)).fly hn d).carry hn next).stoker = t.stoker := by
    rw [hl.rest, hf]
    rfl
  refine ⟨(t.showHold hn (t.holdOf (t.hob hn) d next)).regs, g, ?_⟩
  rw [Tile.passStart_of_clear hh hc, hg, hash]
  simp only [hstk]
  rfl

/-! ## PASS_START on the module -/

theorem exec_passStart {s : State} {t : BitVec 8} {hob : BitVec 2} (hh : hob.toNat < 3) (hr : s.stokerRuns t.toNat = true)
    (hp : (s.ltile t.toNat).stoker.preempt = false) (hs : ((s.ltile t.toNat).hob hob.toNat).stopped = false) :
    exec (.passStart t hob) s = .next ((s.setLtile t.toNat ((s.ltile t.toNat).passStart hob.toNat (s.laneOf t.toNat hob.toNat))).lookAhead
      t.toNat hob.toNat) := by
  have hc : (s.stokerRuns t.toNat && !(s.ltile t.toNat).stoker.preempt && !((s.ltile t.toNat).hob hob.toNat).stopped) = true := by
    rw [hr, hp, hs]
    rfl
  exact (guardPart_of_present (hobOk_of_lt hh) _ _).trans (congrArg Host.Outcome.next (if_pos hc))

theorem State.lookAhead_of_idle {s : State} {t hn : Nat} (h : ((s.ltile t).hob hn).held = none) : s.lookAhead t hn = s := by
  simp only [State.lookAhead, h]

/-- Whether the elements that the side lane is to carry for p are still to come. -/
def Tile.lacks (t : Tile) (p : PassDesc) : Prop := p.statSrc = 0 ∧ (t.stream p.flueA.toNat).avail < passNeedA p

theorem State.lookAhead_of_fed {s : State} {t hn : Nat} {d : PassDesc} (h : ((s.ltile t).hob hn).held = some d)
    (hn' : ∀ p, s.carried t d = some p → ¬ (s.ltile t).lacks p) : s.lookAhead t hn = s := by
  simp only [State.lookAhead, h]
  split
  · rfl
  · next p hp =>
    have hc : p.statSrc ≠ 0 ∨ passNeedA p ≤ ((s.ltile t).stream p.flueA.toNat).avail := by
      have := hn' p hp
      unfold Tile.lacks at this
      by_cases h0 : p.statSrc = 0
      · exact .inr (not_lt.mp fun hlt => this ⟨h0, hlt⟩)
      · exact .inl h0
    exact if_pos hc

theorem State.lookAhead_of_lacking {s : State} {t hn : Nat} {d p : PassDesc} {x : Stoker × W64} (h : ((s.ltile t).hob hn).held = some d)
    (hp : s.carried t d = some p) (hl : (s.ltile t).lacks p)
    (hx : (reachable ((s.ctx s.sched.ctx).program t) 64 (s.ahead t d).1).find? (fun x =>
      feeds (s.ltile t) p.flueA.toNat x.1 x.2 && !(s.ltile t).stoker.ahead.contains x.1.pc) = some x) :
    s.lookAhead t hn = s.actAhead t x.1 x.2 := by
  have hc : ¬ (p.statSrc ≠ 0 ∨ passNeedA p ≤ ((s.ltile t).stream p.flueA.toNat).avail) := by
    obtain ⟨h0, hlt⟩ := hl
    rintro (hs | hle)
    · exact hs h0
    · omega
  simp only [State.lookAhead, h, hp, if_neg hc, hx]

/-- The words ahead are a matter of the stoker and the program. -/
theorem State.ahead_setLtile (s : State) (t : Nat) (b : Tile) (d : PassDesc) (h : b.stoker = (s.ltile t).stoker) :
    (s.setLtile t b).ahead t d = s.ahead t d := by
  unfold State.ahead
  rw [State.ltile_setLtile, h]
  rfl

theorem State.carried_setLtile (s : State) (t : Nat) (b : Tile) (d : PassDesc) (h : b.stoker = (s.ltile t).stoker)
    (hg : b.gsb = (s.ltile t).gsb) : (s.setLtile t b).carried t d = s.carried t d := by
  have hhalf : ∀ i, b.half i = (s.ltile t).half i := fun i => by rw [Tile.half, hg, Tile.half]
  unfold State.carried
  rw [State.ahead_setLtile s t b d h]
  simp only [State.ltile_setLtile, hhalf]
  rfl

end Sys2Proof.Machine

/-! What PASS_START leaves of a firebox (R54, R58 to R62, R66), where its pass starts and where it waits. -/

namespace Sys2Proof.Machine

/-- A pass that streams from FLUE_B and keeps the stationary operand has started. -/
structure PassStarted (a b : Tile) (hn : Nat) (d : PassDesc) (next : Option PassDesc) : Prop where
  held : (b.hob hn).held = none
  slots : (b.hob hn).slots = (a.hob hn).slots
  flies : ∃ f : FlyPass, (b.hob hn).fly = (a.hob hn).fly ++ [f] ∧ f.d = d ∧
    f.strm = ((a.stream d.flueB.toNat).entries.drop (a.stream d.flueB.toNat).claimed).take (passOperand d) ∧
    f.stat = (a.hob hn).stat ∧ f.replay = false
  others : ∀ m, m ≠ hn → b.hob m = a.hob m
  entries : ∀ k, (b.stream k).entries = (a.stream k).entries
  claimed : (∀ p, next = some p → p.flueA ≠ d.flueB) →
    (b.stream d.flueB.toNat).claimed = (a.stream d.flueB.toNat).claimed + passOperand d
  lane : ∀ p, next = some p → (b.hob hn).lane = some (p.passSeq.toNat, passNeedA p)
  shadow : ∀ p, next = some p → (a.hob hn).lane = none → p.statSrc = 0 → p.flueA ≠ d.flueB →
    (b.hob hn).shadow = ((a.stream p.flueA.toNat).entries.drop (a.stream p.flueA.toNat).claimed).take (passNeedA p)
  ash : b.ash = a.ash ++ if d.final then [{ seq := d.passSeq.toNat, hob := hn }] else []
  stoker : b.stoker = ({ a.stoker with waitWord := false } : Stoker).goto (a.stoker.pc + 5)

theorem toNat_ne_of_ne {n : Nat} {x y : BitVec n} (h : x ≠ y) : x.toNat ≠ y.toNat := fun he => h (BitVec.eq_of_toNat_eq he)

theorem passStarted_passStart {t : Tile} {hn : Nat} {d : PassDesc} {next : Option PassDesc} (hh : (t.hob hn).held = some d)
    (hc : (t.holdOf (t.hob hn) d next).clear = true) (hs : d.strmSrc = 0) (hst : d.statNew = false) (hi : d.accIn ≠ 2) :
    PassStarted t (t.passStart hn next) hn d next := by
  obtain ⟨r, g, hb⟩ := Tile.passStart_eq hh hc hs hst hi
  obtain ⟨a, hhob, hstr, hb⟩ : ∃ a : Tile, (∀ k, a.hob k = t.hob k) ∧ (∀ k, a.stream k = t.stream k) ∧
      t.passStart hn next = { (a.fly hn d).carry hn next with
        gsb := g, ash := t.ash ++ if d.final then [{ seq := d.passSeq.toNat, hob := hn }] else []
        stoker := ({ t.stoker with waitWord := false } : Stoker).goto (t.stoker.pc + 5) } :=
    ⟨{ t with regs := r }, fun _ => rfl, fun _ => rfl, hb⟩
  have hl := laneLoaded_carry (a.fly hn d) hn next
  obtain ⟨sh, l, q, hlane⟩ := hl.hob
  generalize hm : (a.fly hn d).carry hn next = m at hb hl hlane
  have hhobs : ∀ k, (t.passStart hn next).hob k = m.hob k := fun k => by rw [hb]; rfl
  have hstreams : ∀ k, (t.passStart hn next).stream k = m.stream k := fun k => by rw [hb]; rfl
  refine ⟨?_, ?_, ⟨a.streamedPass hn d, ?_, rfl, ?_, ?_, rfl⟩, fun k hk => ?_, fun k => ?_, fun hne => ?_, fun p hp => ?_,
    fun p hp hfree hsrc hne => ?_, by rw [hb], by rw [hb]⟩
  · rw [hhobs, hlane, Tile.hob_fly]
  · rw [hhobs, hlane, Tile.hob_fly, hhob]
  · rw [hhobs, hlane, Tile.hob_fly, hhob]
  · rw [Tile.streamedPass, hstr]
  · rw [Tile.streamedPass, hhob]
  · rw [hhobs, hl.others k hk, Tile.hob_fly_ne _ _ hk, hhob]
  · rw [hstreams, hl.entries, Tile.stream_fly]
    split
    · next hk => rw [hk, hstr]
    · rw [hstr]
  · rw [hstreams, ← hm, Tile.stream_carry _ _ (fun p hp => (toNat_ne_of_ne (hne p hp)).symm), Tile.stream_fly, if_pos rfl, hstr]
  · rw [hhobs, ← hm, hp]
    exact Tile.lane_loadShadow ..
  · rw [hhobs, ← hm, hp]
    refine (Tile.shadow_loadShadow _ hn p ?_ hsrc).trans ?_
    · rw [Tile.hob_fly, hhob, hfree]
    · rw [Tile.stream_fly, if_neg (toNat_ne_of_ne hne), hstr]

/-- A pass that something holds shows what does, and may have its operand preloaded. -/
structure PassWaits (a b : Tile) (hn : Nat) (d : PassDesc) (w : Hold) : Prop where
  rest : b = { a with regs := b.regs, streams := b.streams, hobs := b.hobs }
  hob : ∃ sh l q, b.hob hn = { a.hob hn with shadow := sh, lane := l, preloading := q }
  ready : (a.hob hn).ready d = true → b.hobs = a.hobs ∧ b.streams = a.streams
  loaded : d.statNew = true → d.statSrc = 0 → (a.hob hn).lane = none → (a.hob hn).fly = [] →
    passOperand d ≤ (a.stream d.flueA.toNat).avail → (b.hob hn).preloading = true ∧
    (b.hob hn).shadow = ((a.stream d.flueA.toNat).entries.drop (a.stream d.flueA.toNat).claimed).take (passOperand d)
  shown : (b.reg (hobReg hn)).getLsbD 7 = w.ash ∧ (b.reg 0x0380).getLsbD 0 = w.issue

theorem passWaits_passStart {t : Tile} {hn : Nat} {d : PassDesc} {next : Option PassDesc} (hn3 : hn < 3) (hh : (t.hob hn).held = some d)
    (hc : (t.holdOf (t.hob hn) d next).clear = false) :
    PassWaits t (t.passStart hn next) hn d (t.holdOf (t.hob hn) d next) := by
  rw [Tile.passStart_of_waiting hh hc]
  generalize t.holdOf (t.hob hn) d next = w
  obtain ⟨hrest, hhob, -, -⟩ := laneLoaded_preload (t.showHold hn w) hn d
  have hregs : ((t.showHold hn w).preload hn d).regs = (t.showHold hn w).regs := by rw [hrest]
  refine ⟨?_, hhob, fun hr => ?_, fun hnew hsrc hfree hfly ha => ?_, ?_⟩
  · rw [hregs]
    exact hrest
  · rw [Tile.preload_of_ready (t.showHold hn w) hn d hr]
    exact ⟨rfl, rfl⟩
  · have hneed : passNeedA d = passOperand d := by simp [passNeedA, hnew, hsrc]
    have hr : ((t.showHold hn w).hob hn).ready d = false := by
      simp [show (t.showHold hn w).hob hn = t.hob hn from rfl, Hob.ready, hnew, hfree]
    rw [Tile.preload_of_there (t.showHold hn w) hn d hr (hneed ▸ ha) hsrc hfly, Tile.hob_setHob_same]
    refine ⟨rfl, (Tile.shadow_loadShadow (t.showHold hn w) hn d hfree hsrc).trans ?_⟩
    rw [hneed]
    rfl
  · have hreg : ∀ o, ((t.showHold hn w).preload hn d).reg o = (t.showHold hn w).reg o := fun o => by
      rw [Tile.reg, hregs, Tile.reg]
    rw [hreg, hreg]
    exact t.reg_showHold hn3 w

end Sys2Proof.Machine

/-! PASS_COMMIT and ASH_STAGE_VISIBLE (R56, R65 to R67): the slot or stage of the oldest pass, and the stages shown. -/

namespace Sys2Proof.Machine

/-! ## The output tile -/

theorem length_passOutput (h : Hob) (f : FlyPass) : (passOutput h f).1.length = 4096 := by
  simp only [passOutput, List.length_map, List.length_range]

/-- Outside M_VALID and N_VALID of a whole tile no output has a place (R56). -/
theorem outPlace_of_beyond {d : PassDesc} (hs : d.split = false) {y x : Nat} (hy : y < 64) (hx : x < 64)
    (h : d.mValid.toNat ≤ y ∨ d.nValid.toNat ≤ x) : outPlace d y x = none := by
  have hside : passSide d = 64 := by rw [passSide, hs]; rfl
  simp only [outPlace, hside, Nat.mod_eq_of_lt hy, Nat.mod_eq_of_lt hx, if_pos h]

theorem passOutput_of_beyond (h : Hob) {f : FlyPass} (hs : f.d.split = false) {y x : Nat} (hy : y < 64) (hx : x < 64)
    (hb : f.d.mValid.toNat ≤ y ∨ f.d.nValid.toNat ≤ x) : nth 1 (passOutput h f).1 (64 * y + x) = 0 := by
  have hi : 64 * y + x < (passOutput h f).1.length := by rw [length_passOutput]; omega
  have hdiv : (64 * y + x) / 64 = y := by omega
  have hmod : (64 * y + x) % 64 = x := by omega
  rw [nth_eq_getD, List.getD_eq_getElem _ _ hi]
  simp only [passOutput, List.getElem_map, List.getElem_range, hdiv, hmod, outPlace_of_beyond hs hy hx hb]

/-! ## What a commit releases -/

/-- A firebox comes from another by changes of its flues and its GSB. -/
def FluesOnly (a b : Tile) : Prop := b = { a with streams := b.streams, gsb := b.gsb }

theorem FluesOnly.trans {a b c : Tile} (h : FluesOnly a b) (k : FluesOnly b c) : FluesOnly a c := by
  unfold FluesOnly at *
  rw [k]
  conv_lhs => rw [h]

theorem fluesOnly_ite {a b : Tile} (p : Prop) [Decidable p] (h : FluesOnly a b) : FluesOnly a (if p then b else a) := by
  split
  · exact h
  · exact rfl

theorem FluesOnly.foldl {α : Type} (f : Tile → α → Tile) (h : ∀ t a, FluesOnly t (f t a)) (l : List α) (t : Tile) :
    FluesOnly t (l.foldl f t) := by
  induction l generalizing t with
  | nil => exact rfl
  | cons a r ih => exact (h t a).trans (ih (f t a))

theorem fluesOnly_release (t : Tile) (fmt : BitVec 4) (f : BitVec 8) (n : Nat) : FluesOnly t (t.release fmt f n) := by
  unfold Tile.release
  split
  · exact rfl
  · exact rfl

theorem fluesOnly_tryRelease (t : Tile) (i : Nat) : FluesOnly t (t.tryRelease i) := fluesOnly_ite _ rfl

theorem fluesOnly_markRelease (t : Tile) (d : PassDesc) : FluesOnly t (t.markRelease d) := by
  unfold Tile.markRelease
  split
  · exact rfl
  · refine FluesOnly.foldl _ (fun t i => ?_) _ t
    exact fluesOnly_ite _ rfl

/-- The entries of its flues and the halves of the GSB that a pass gives up. -/
def Tile.giveUp (t : Tile) (f : FlyPass) : Tile :=
  (((((t.release f.d.fmtB f.d.flueB f.takenB).release f.d.fmtA f.d.flueA f.takenA).release 0 f.d.flueInit f.takenI).markRelease
    f.d).tryRelease 0).tryRelease 1

theorem fluesOnly_giveUp (t : Tile) (f : FlyPass) : FluesOnly t (t.giveUp f) :=
  (((((fluesOnly_release ..).trans (fluesOnly_release ..)).trans (fluesOnly_release ..)).trans (fluesOnly_markRelease ..)).trans
    (fluesOnly_tryRelease ..)).trans (fluesOnly_tryRelease ..)

/-! ## The commit -/

/-- What every commit leaves: the pass gone from its hob, its slot or stage, HOB_PASS_SEQ and the counts of passes and skips. -/
def Tile.retire (t : Tile) (hn : Nat) (f : FlyPass) (rest : List FlyPass) (sk : Nat) : Tile :=
  let h := t.hob hn
  let o := (passOutput h f).1
  let slots := if f.d.final || f.dropped then h.slots else tset h.slots f.d.accSlotOut.toNat o
  let t1 := t.setHob hn { h with
    fly := rest, slots := slots, sums := if f.chk then passSums h f o else h.sums, preloading := false }
  let ash := if f.d.final && !f.dropped then commitStage f.d.passSeq.toNat hn o (ashHeader f.d) t.ash else t.ash
  ((({ t1 with ash := ash } : Tile).setReg (hobReg hn + 4) f.d.passSeq).bump (hobReg hn + 0x1C) 1).bump (hobReg hn + 0x18) sk

theorem Tile.passCommit_eq {t : Tile} {hn extra : Nat} {f : FlyPass} {rest : List FlyPass} (h : (t.hob hn).fly = f :: rest) :
    ∃ sk fl, t.passCommit hn extra =
      if f.dropped then t.retire hn f rest sk
      else
        let b := ((t.retire hn f rest sk).raise fl).giveUp f
        { b with stoker := b.stoker.passDone f.d.passSeq.toNat } := by
  unfold Tile.passCommit
  simp only [h]
  refine ⟨if f.chk then (passSkips (t.hob hn) f (passOutput (t.hob hn) f).1).1 + extra else 0, (passOutput (t.hob hn) f).2, ?_⟩
  unfold Tile.retire
  by_cases hf : (f.d.final && !f.dropped) = true
  · simp only [if_pos hf]
    rfl
  · simp only [if_neg hf]
    rfl

theorem Tile.reg_bump_ne (t : Tile) {o p : Nat} (n : Nat) (h : p ≠ o) : (t.bump o n).reg p = t.reg p := by
  rw [Tile.bump, Tile.reg_setReg, if_neg h]

theorem Tile.reg_retire (t : Tile) (hn : Nat) (f : FlyPass) (rest : List FlyPass) (sk : Nat) :
    (t.retire hn f rest sk).reg (hobReg hn + 4) = f.d.passSeq := by
  rw [Tile.retire, Tile.reg_bump_ne _ _ (by omega), Tile.reg_bump_ne _ _ (by omega), Tile.reg_setReg, if_pos rfl]

theorem Tile.hob_retire (t : Tile) (hn : Nat) (f : FlyPass) (rest : List FlyPass) (sk k : Nat) :
    (t.retire hn f rest sk).hob k = if k = hn then { t.hob hn with
      fly := rest
      slots := if f.d.final || f.dropped then (t.hob hn).slots
        else tset (t.hob hn).slots f.d.accSlotOut.toNat (passOutput (t.hob hn) f).1
      sums := if f.chk then passSums (t.hob hn) f (passOutput (t.hob hn) f).1 else (t.hob hn).sums, preloading := false }
    else t.hob k := Tile.hob_setHob ..

/-- The oldest pass of a hob has committed. -/
structure PassCommitted (a b : Tile) (hn : Nat) (f : FlyPass) (rest : List FlyPass) : Prop where
  fly : (b.hob hn).fly = rest
  seq : b.reg (hobReg hn + 4) = f.d.passSeq
  slots : (b.hob hn).slots = if f.d.final || f.dropped then (a.hob hn).slots
    else tset (a.hob hn).slots f.d.accSlotOut.toNat (passOutput (a.hob hn) f).1
  others : ∀ m, m ≠ hn → b.hob m = a.hob m
  ash : (f.d.final && !f.dropped) = false → b.ash = a.ash
  streams : f.dropped = true → b.streams = a.streams

theorem passCommitted_passCommit {t : Tile} {hn extra : Nat} {f : FlyPass} {rest : List FlyPass} (h : (t.hob hn).fly = f :: rest) :
    PassCommitted t (t.passCommit hn extra) hn f rest := by
  obtain ⟨sk, fl, hb⟩ := Tile.passCommit_eq (extra := extra) h
  have hg := fluesOnly_giveUp ((t.retire hn f rest sk).raise fl) f
  have hash : (f.d.final && !f.dropped) = false → (t.retire hn f rest sk).ash = t.ash := fun hf => by
    rw [Tile.retire, hf]
    rfl
  have hreg : ((t.retire hn f rest sk).raise fl).reg (hobReg hn + 4) = f.d.passSeq := by
    rw [Tile.reg_raise, if_neg (by unfold hobReg; omega), Tile.reg_retire]
  obtain ⟨r, hr, hrest⟩ : ∃ r : Tile, (r.hobs = (t.retire hn f rest sk).hobs ∧ r.ash = (t.retire hn f rest sk).ash ∧
      r.reg (hobReg hn + 4) = f.d.passSeq ∧ (f.dropped = true → r.streams = t.streams)) ∧ t.passCommit hn extra = r := by
    refine ⟨_, ?_, hb⟩
    by_cases hd : f.dropped = true
    · rw [if_pos hd]
      exact ⟨rfl, rfl, t.reg_retire hn f rest sk, fun _ => rfl⟩
    · rw [if_neg hd, hg]
      exact ⟨rfl, rfl, hreg, fun h => absurd h hd⟩
  obtain ⟨hhobs, hash', hseq, hstr⟩ := hr
  have hhob : ∀ k, r.hob k = (t.retire hn f rest sk).hob k := fun k => by rw [Tile.hob, hhobs, Tile.hob]
  rw [hrest]
  refine ⟨?_, hseq, ?_, fun m hm => ?_, fun hf => hash'.trans (hash hf), hstr⟩
  · rw [hhob, Tile.hob_retire, if_pos rfl]
  · rw [hhob, Tile.hob_retire, if_pos rfl]
  · rw [hhob, Tile.hob_retire, if_neg hm]

/-! ## The commit on the module -/

theorem State.slots_settleJob (s : State) : s.settleJob.tiles = s.tiles ∧ s.settleJob.tileMap = s.tileMap := by
  unfold State.settleJob
  split
  · by_cases hd : s.sched.draining = true
    · obtain ⟨m, -, hm⟩ := s.standing_finishJob hd
      exact ⟨congrArg Kept.tiles hm, congrArg Kept.tileMap hm⟩
    · have hf : s.finishJob = s := by rw [State.finishJob, Bool.eq_false_iff.mpr hd]; rfl
      rw [hf]
      exact ⟨rfl, rfl⟩
  · exact ⟨rfl, rfl⟩

theorem State.tiles_passCommit {s : State} {t hn : Nat} {f : FlyPass} {rest : List FlyPass} (hw : s.works (s.unitOf t) = true)
    (hf : ((s.ltile t).hob hn).fly = f :: rest) (ha : f.aborted = false) :
    ∃ extra, (s.passCommit t hn).tiles = (s.setLtile t ((s.ltile t).passCommit hn extra)).tiles ∧ (s.passCommit t hn).tileMap = s.tileMap := by
  obtain ⟨extra, m, hc, ht, hm⟩ : ∃ (extra : Nat) (m : State), s.passCommit t hn = (m.count (s.unitOf t) (0x18 + hn) 1).settleJob ∧
      m.tiles = (s.setLtile t ((s.ltile t).passCommit hn extra)).tiles ∧ m.tileMap = s.tileMap := by
    simp only [State.passCommit, hf, hw, ha, Bool.not_true, Bool.or_self, Bool.false_eq_true, if_false]
    refine ⟨(Config.freeWord s.free).toNat % ((s.ltile t).openChecks hn + 1), _, rfl, ?_⟩
    split
    · exact ⟨rfl, rfl⟩
    · exact ⟨rfl, rfl⟩
  obtain ⟨h1, h2⟩ := (m.count (s.unitOf t) (0x18 + hn) 1).slots_settleJob
  have hk := m.standing_count (s.unitOf t) (0x18 + hn) 1
  refine ⟨extra, ?_, ?_⟩
  · rw [hc, h1]
    exact (congrArg Kept.tiles hk).trans ht
  · rw [hc, h2]
    exact (congrArg Kept.tileMap hk).trans hm

/-! ## Stages shown (R66) -/

theorem showStages_getElem? (l : List AshStage) (i : Nat) (a : AshStage) (ha : l[i]? = some a) :
    ∃ b, (showStages l)[i]? = some b ∧
      ((∀ j, j ≤ i → ∃ c, l[j]? = some c ∧ c.committed = true) → b = { a with visible := true }) ∧
      ((∃ j c, j ≤ i ∧ l[j]? = some c ∧ c.committed = false) → b = a) := by
  induction l generalizing i with
  | nil => simp at ha
  | cons st r ih =>
    by_cases hst : st.committed = true
    · rw [showStages, if_pos hst]
      cases i with
      | zero =>
        obtain rfl : st = a := by simpa using ha
        refine ⟨{ st with visible := true }, rfl, fun _ => rfl, ?_⟩
        rintro ⟨j, c, hj, hc, hf⟩
        obtain rfl : j = 0 := by omega
        obtain rfl : st = c := by simpa using hc
        exact absurd hst (by simp [hf])
      | succ i =>
        obtain ⟨b, hb, hall, hany⟩ := ih i (by simpa using ha)
        refine ⟨b, by simpa using hb, fun h => hall fun j hj => by simpa using h (j + 1) (by omega), ?_⟩
        rintro ⟨j, c, hj, hc, hf⟩
        cases j with
        | zero =>
          obtain rfl : st = c := by simpa using hc
          exact absurd hst (by simp [hf])
        | succ j => exact hany ⟨j, c, by omega, by simpa using hc, hf⟩
    · rw [showStages, if_neg hst]
      refine ⟨a, ha, fun h => ?_, fun _ => rfl⟩
      obtain ⟨c, hc, hcc⟩ := h 0 (by omega)
      obtain rfl : st = c := by simpa using hc
      exact absurd hcc hst

end Sys2Proof.Machine

/-! Checks, replays and errors of a hob (R53, R70 to R77): the words of a mismatch, the passes in flight, and the reports. -/

namespace Sys2Proof.Machine

/-! ## Reports and their counts (R333, R334) -/

/-- A report taken by the collector: beside its own words, the count o of its class. -/
structure Reported (s t : State) (o : Nat) : Prop where
  tiles : t.tiles = s.tiles
  tileMap : t.tileMap = s.tileMap
  sched : t.sched = s.sched
  counted : t.bar o = s.bar o + 1

theorem State.bar_collect (s : State) (src : Nat) (info : W32) (forced : Bool) (hc : 1 ≤ src / 4096 % 16 ∧ src / 4096 % 16 ≤ 14) :
    (s.collect src info forced).bar (0x20040 + 4 * (src / 4096 % 16)) = s.bar (0x20040 + 4 * (src / 4096 % 16)) + 1 := by
  unfold State.collect
  extract_lets c s1 f s2 s3 s4
  have h1 : s1.bar (0x20040 + 4 * c) = s.bar (0x20040 + 4 * c) + 1 := by
    simp only [s1, if_pos (show 1 ≤ c ∧ c ≤ 14 from hc), State.bar_bumpBar, if_pos]
    rfl
  split
  · exact h1
  · split
    · rw [State.barField, State.bar_setBar, if_neg (by omega), State.bar_bumpBar, if_neg (by omega), State.bar_orBar, if_neg (by omega), h1]
    · rw [(counted_cause s4 0).words _ (by omega) (by omega), State.bar_setBar, if_neg (by omega), State.bar_setBar, if_neg (by omega),
        State.bar_setBar, if_neg (by omega)]
      exact h1

theorem srcId_class {c : Nat} (u : Nat) (hc : c < 16) : srcId c u / 4096 % 16 = c := by
  unfold srcId
  omega

theorem reported_collect (s : State) {c : Nat} (u : Nat) (info : W32) (hc : 1 ≤ c ∧ c ≤ 14) :
    Reported s (s.collect (srcId c u) info false) (0x20040 + 4 * c) := by
  have hclass := srcId_class (c := c) u (by omega)
  have hs := s.standing_collect (srcId c u) info false
  refine ⟨congrArg Kept.tiles hs, congrArg Kept.tileMap hs, congrArg Kept.sched hs, ?_⟩
  have hb := s.bar_collect (srcId c u) info false (by rw [hclass]; exact hc)
  rwa [hclass] at hb

/-- A corrected error is counted, and nothing else follows. -/
theorem reported_corr (s : State) (u : Nat) (info : W32) : Reported s (s.report (srcId 1 u) info) 0x20044 := by
  have hr : ∀ t : State, t.react (srcId 1 u) = t := fun t => by simp [State.react, srcId_class u (show 1 < 16 by decide)]
  rw [State.report, hr]
  exact reported_collect s u info (by decide)

/-- A firebox fault starts a reaction that stays outstanding. -/
theorem reported_firebox (s : State) (u : Nat) (info : W32) : Reported s (s.report (srcId 0xA u) info) 0x20068 := by
  have hr : ∀ t : State, t.react (srcId 0xA u) = { t with flt := (t.react (srcId 0xA u)).flt } := fun t => by
    unfold State.react
    rw [srcId_class u (show 0xA < 16 by decide), if_neg (by decide), if_pos rfl]
    split
    · rfl
    · rfl
  obtain ⟨h1, h2, h3, h4⟩ := reported_collect s u info (c := 0xA) (by decide)
  rw [State.report, hr]
  exact ⟨h1, h2, h3, h4⟩

/-! ## Passes in flight, by PASS_SEQ -/

theorem map_onSeq (seq : Nat) (g : FlyPass → FlyPass) (hg : ∀ f, (g f).d = f.d) (l : List FlyPass) :
    (onSeq seq g l).map (fun q => q.d) = l.map (fun q => q.d) := by
  induction l with
  | nil => rfl
  | cons f r ih =>
    by_cases h : f.d.passSeq.toNat = seq
    · rw [onSeq, if_pos h, List.map_cons, List.map_cons, hg]
    · rw [onSeq, if_neg h, List.map_cons, List.map_cons, ih]

/-- The pass that is changed is the one that is found. -/
theorem find?_onSeq (seq : Nat) (g : FlyPass → FlyPass) (hg : ∀ f, (g f).d = f.d) {l : List FlyPass} {p : FlyPass}
    (h : l.find? (fun q => q.d.passSeq.toNat == seq) = some p) :
    (onSeq seq g l).find? (fun q => q.d.passSeq.toNat == seq) = some (g p) := by
  induction l with
  | nil => exact absurd h (by simp)
  | cons f r ih =>
    by_cases hf : f.d.passSeq.toNat = seq
    · rw [List.find?_cons_of_pos (by simpa using hf)] at h
      rw [onSeq, if_pos hf, List.find?_cons_of_pos (by simpa [hg] using hf), Option.some.inj h]
    · rw [List.find?_cons_of_neg (by simpa using hf)] at h
      rw [onSeq, if_neg hf, List.find?_cons_of_neg (by simpa using hf), ih h]

theorem passSeq_of_find? {l : List FlyPass} {p : FlyPass} {seq : W32}
    (h : l.find? (fun q => q.d.passSeq.toNat == seq.toNat) = some p) : p.d.passSeq = seq := by
  have hp := List.find?_some h
  exact BitVec.eq_of_toNat_eq (beq_iff_eq.mp hp)

/-! ## CHECK_MISMATCH and REPLAY_MISMATCH (R75, R76) -/

/-- MISMATCH, HOB_MIS_SEQ and HOB_CNT_MIS; the count of replays stays. -/
theorem Tile.reg_recordMismatch (t : Tile) (hn : Nat) (d : PassDesc) (c : CheckFail) :
    (t.recordMismatch hn d c).reg (hobReg hn) = t.reg (hobReg hn) ||| 0x200 ∧
    (t.recordMismatch hn d c).reg (hobReg hn + 8) = d.passSeq ∧
    (t.recordMismatch hn d c).reg (hobReg hn + 0x10) = t.reg (hobReg hn + 0x10) + 1 ∧
    (t.recordMismatch hn d c).reg (hobReg hn + 0x14) = t.reg (hobReg hn + 0x14) := by
  simp [Tile.recordMismatch, Tile.orReg, Tile.bump, Tile.reg_setReg]

/-- The firebox whose pass is run again after its first mismatch. -/
def Tile.replays (t : Tile) (hn : Nat) (seq : Nat) (d : PassDesc) (c : CheckFail) : Tile :=
  (((t.recordMismatch hn d c).orReg (hobReg hn) 0x400).bump (hobReg hn + 0x14) 1).setHob hn
    { t.hob hn with fly := onSeq seq (fun q => { q with replay := true }) (t.hob hn).fly, preloading := true }

@[simp] theorem Tile.hob_replays (t : Tile) (hn seq : Nat) (d : PassDesc) (c : CheckFail) : (t.replays hn seq d c).hob hn =
    { t.hob hn with fly := onSeq seq (fun q => { q with replay := true }) (t.hob hn).fly, preloading := true } :=
  Tile.hob_setHob_same ..

theorem Tile.reg_replays (t : Tile) (hn seq : Nat) (d : PassDesc) (c : CheckFail) :
    (t.replays hn seq d c).reg (hobReg hn) = t.reg (hobReg hn) ||| 0x200 ||| 0x400 ∧
    (t.replays hn seq d c).reg (hobReg hn + 8) = d.passSeq ∧
    (t.replays hn seq d c).reg (hobReg hn + 0x10) = t.reg (hobReg hn + 0x10) + 1 ∧
    (t.replays hn seq d c).reg (hobReg hn + 0x14) = t.reg (hobReg hn + 0x14) + 1 := by
  obtain ⟨h0, h8, h10, h14⟩ := t.reg_recordMismatch hn d c
  simp [Tile.replays, Tile.orReg, Tile.bump, Tile.reg_setReg, h0, h8, h10, h14]

section
variable {s : State} {t hn seq : Nat} {c : CheckFail} {p : FlyPass}
  (hf : ((s.ltile t).hob hn).fly.find? (fun q => q.d.passSeq.toNat == seq) = some p) (ha : p.aborted = false)
  (hc : checkCounts ((s.ltile t).hob hn) c p = true)
include hf ha hc

/-- A first mismatch replays the pass and is reported as corrected. -/
theorem State.checkMismatch_of_first (hr : p.replay = false) :
    (s.checkMismatch t hn seq c).ltile t = (s.ltile t).replays hn seq p.d (checkSeen ((s.ltile t).hob hn) c p) ∧
    (s.checkMismatch t hn seq c).bar 0x20044 = s.bar 0x20044 + 1 := by
  let m := s.setLtile t ((s.ltile t).replays hn seq p.d (checkSeen ((s.ltile t).hob hn) c p))
  obtain ⟨info, he⟩ : ∃ info, s.checkMismatch t hn seq c = (m.count (s.unitOf t) 0x1B 1).report (srcId 1 (s.unitOf t)) info := by
    unfold State.checkMismatch
    simp only [hf, hr, ha, hc, Bool.not_true, Bool.or_self, Bool.false_eq_true, if_false]
    exact ⟨_, rfl⟩
  have hk := counted_count m (s.unitOf t) 0x1B 1
  have hrep := reported_corr (m.count (s.unitOf t) 0x1B 1) (s.unitOf t) info
  rw [he]
  exact ⟨(State.ltile_congr hrep.tiles hrep.tileMap t).trans ((hk.ltile t).trans (State.ltile_setLtile ..)),
    hrep.counted.trans (congrArg (· + 1) (hk.words _ (by decide) (by decide)))⟩

/-- A mismatch of the replay stops the hob and is reported as a fault of the firebox. -/
theorem State.replayMismatch_of_second (hr : p.replay = true) :
    ((s.replayMismatch t hn seq c).ltile t).suspect = true ∧
    ((s.replayMismatch t hn seq c).ltile t).badHobs = (s.ltile t).badHobs ++ [hn] ∧
    (((s.replayMismatch t hn seq c).ltile t).hob hn).stopped = true ∧
    (((s.replayMismatch t hn seq c).ltile t).hob hn).slots = ((s.ltile t).hob hn).slots ∧
    (s.replayMismatch t hn seq c).bar 0x20068 = s.bar 0x20068 + 1 := by
  obtain ⟨fl, b, info, he, hb⟩ : ∃ (fl : Flt) (b : Tile) (info : W32), s.replayMismatch t hn seq c =
        (({ s with flt := fl } : State).setLtile t b).report (srcId 0xA (s.unitOf t)) info ∧
      b.suspect = true ∧ b.badHobs = (s.ltile t).badHobs ++ [hn] ∧ (b.hob hn).stopped = true ∧
      (b.hob hn).slots = ((s.ltile t).hob hn).slots := by
    unfold State.replayMismatch
    simp only [hf, hr, ha, hc, Bool.not_true, Bool.or_self, Bool.false_eq_true, if_false]
    refine ⟨_, _, _, rfl, rfl, rfl, ?_, ?_⟩
    · rw [Tile.hob_setHob_same]
    · rw [Tile.hob_setHob_same]
  obtain ⟨hsus, hbad, hstop, hslots⟩ := hb
  have hrep := reported_firebox (({ s with flt := fl } : State).setLtile t b) (s.unitOf t) info
  have ht := (State.ltile_congr hrep.tiles hrep.tileMap t).trans (State.ltile_setLtile ..)
  rw [he, ht]
  exact ⟨hsus, hbad, hstop, hslots, hrep.counted⟩

end

/-- SUSPECT of a hob as HOB_STATUS shows it. -/
theorem Tile.suspect_hobStatus (b : Tile) (damp : Bool) (hn : Nat) : (b.hobStatus damp hn).getLsbD 12 = b.badHobs.contains hn := by
  unfold Tile.hobStatus
  simp only
  rw [getLsbD_putBit _ (by decide) _ 12, if_neg (by decide), getLsbD_putBit _ (by decide) _ 12, if_neg (by decide),
    getLsbD_putBit _ (by decide) _ 12, if_neg (by decide), getLsbD_putBit _ (by decide) _ 12, if_neg (by decide),
    getLsbD_putBit _ (by decide) _ 12, if_pos rfl]

/-! ## HSTATE_UE (R77) -/

theorem State.raiseFail_isSome (s : State) (h : s.sched.running = true) : s.raiseFail.sched.failStep.isSome = true := by
  rw [State.raiseFail, h]
  exact Option.isSome_or.trans (Bool.or_true _)

theorem State.raiseFail_frame (s : State) :
    s.raiseFail.tiles = s.tiles ∧ s.raiseFail.tileMap = s.tileMap ∧ ∀ o, s.raiseFail.bar o = s.bar o := by
  unfold State.raiseFail
  split
  · exact ⟨rfl, rfl, fun _ => rfl⟩
  · exact ⟨rfl, rfl, fun _ => rfl⟩

/-- An uncorrectable state error stops the hob, is reported as a fault of the firebox, and raises FAIL. -/
structure HobLost (s r : State) (t hn : Nat) : Prop where
  bit : ((r.ltile t).reg (hobReg hn)).getLsbD 11 = true
  stopped : ((r.ltile t).hob hn).stopped = true
  counted : r.bar 0x20068 = s.bar 0x20068 + 1
  fail : s.sched.running = true → r.sched.failStep.isSome = true
  others : ∀ v, v ≠ s.unitOf t → r.tile v = s.tile v

theorem hobLost_hstateUe (s : State) (t hn : Nat) (obj : HobStore) : HobLost s (s.hstateUe t hn obj) t hn := by
  obtain ⟨b, info, he, hbit, hstop⟩ : ∃ (b : Tile) (info : W32),
      s.hstateUe t hn obj = (((s.setLtile t b).draw).report (srcId 0xA (s.unitOf t)) info).raiseFail ∧
      (b.reg (hobReg hn)).getLsbD 11 = true ∧ (b.hob hn).stopped = true := by
    refine ⟨_, _, rfl, Tile.bit_orReg _ _ (by decide), ?_⟩
    rw [Tile.orReg, Tile.hob_setReg, Tile.hob_setHob_same]
  have hrep := reported_firebox ((s.setLtile t b).draw) (s.unitOf t) info
  obtain ⟨htiles, hmap, hbar⟩ := State.raiseFail_frame (((s.setLtile t b).draw).report (srcId 0xA (s.unitOf t)) info)
  have ht := (State.ltile_congr (htiles.trans hrep.tiles) (hmap.trans hrep.tileMap) t).trans (State.ltile_setLtile ..)
  rw [he]
  exact ⟨by rw [ht]; exact hbit, by rw [ht]; exact hstop, (hbar _).trans hrep.counted, fun hrun => State.raiseFail_isSome _ (hrep.sched ▸ hrun),
    fun v hv => (State.tile_congr (htiles.trans hrep.tiles) v).trans (s.tile_setLtile_ne _ _ v hv)⟩

/-! ## PREEMPTION_REQUEST (R72) -/

theorem Tile.hob_withdraw (t : Tile) (n : Nat) :
    (t.withdraw.hob n).held = none ∧ (t.withdraw.hob n).fly = (t.hob n).fly ∧ (t.withdraw.hob n).slots = (t.hob n).slots := by
  have h : t.withdraw.hob n = { t.hob n with held := none, preloading := (t.hob n).preloading && !(t.hob n).fly.isEmpty } :=
    tget_map_snd (fun h : Hob => { h with held := none, preloading := h.preloading && !h.fly.isEmpty }) {} rfl t.hobs n
  rw [h]
  exact ⟨rfl, rfl, rfl⟩

end Sys2Proof.Machine

/-! Passes of a hob as the commands run them (R53 to R77, R159). -/

namespace Sys2Proof.Machine

/-! ## The commands -/

theorem exec_pass {d : PassDesc} (hd : d.hob.toNat < 3) (s : State) (t : BitVec 8) :
    exec (.pass t d) s = .next (s.tileWord t (fun tl =>
      let h := tl.hob d.hob.toNat
      if tl.stoker.preempt || h.stopped then (tl, .wait)
      else (tl.setHob d.hob.toNat { h with held := some (substPass tl.stoker d) }, .wait))) :=
  guardPart_of_present (hobOk_of_lt hd) _ _

/-- PASS holds its descriptor at issue, and its word waits. -/
theorem pass_holds {s : State} {t : BitVec 8} {d : PassDesc} (hi : s.issues t.toNat = true) (hd : d.hob.toNat < 3)
    (hp : (s.ltile t.toNat).stoker.preempt = false) (hs : ((s.ltile t.toNat).hob d.hob.toNat).stopped = false) :
    ∃ r, exec (.pass t d) s = .next r ∧ OnlyTile s r (s.unitOf t.toNat) ∧
      r.ltile t.toNat = { (s.ltile t.toNat).setHob d.hob.toNat
          { (s.ltile t.toNat).hob d.hob.toNat with held := some (substPass (s.ltile t.toNat).stoker d) } with
        stoker := { (s.ltile t.toNat).stoker with waitWord := true } } := by
  refine ⟨_, exec_pass hd s t, word_waits hi ?_⟩
  simp only [hp, hs, Bool.or_self, Bool.false_eq_true, if_false]

theorem exec_passCommit {hob : BitVec 2} (hh : hob.toNat < 3) (s : State) (t : BitVec 8) :
    exec (.passCommit t hob) s = .next (s.passCommit t.toNat hob.toNat) := guardPart_of_present (hobOk_of_lt hh) _ _

theorem exec_checkMismatch {hob : BitVec 2} (hh : hob.toNat < 3) (s : State) (t : BitVec 8) (seq : W32) (c : CheckFail) :
    exec (.checkMismatch t hob seq c) s = .next (s.checkMismatch t.toNat hob.toNat seq.toNat c) :=
  guardPart_of_present (hobOk_of_lt hh) _ _

theorem exec_replayMismatch {hob : BitVec 2} (hh : hob.toNat < 3) (s : State) (t : BitVec 8) (seq : W32) (c : CheckFail) :
    exec (.replayMismatch t hob seq c) s = .next (s.replayMismatch t.toNat hob.toNat seq.toNat c) :=
  guardPart_of_present (hobOk_of_lt hh) _ _

theorem exec_hstateUe {hob : BitVec 2} (hh : hob.toNat < 3) (s : State) (t : BitVec 8) (obj : HobStore) :
    exec (.hstateUe t hob obj) s = .next (s.hstateUe t.toNat hob.toNat obj) := guardPart_of_present (hobOk_of_lt hh) _ _

theorem exec_hobStateCe {hob : BitVec 2} (hh : hob.toNat < 3) (s : State) (t : BitVec 8) (obj : HobStore) :
    ∃ info, exec (.hobStateCe t hob obj) s = .next (s.report (srcId 1 (s.unitOf t.toNat)) info).draw :=
  ⟨_, guardPart_of_present (hobOk_of_lt hh) _ _⟩

theorem exec_ashStageVisible {s : State} {t : BitVec 8} (hw : s.works (s.unitOf t.toNat) = true) :
    exec (.ashStageVisible t) s =
      .next (s.setLtile t.toNat { s.ltile t.toNat with ash := showStages (s.ltile t.toNat).ash }) :=
  congrArg Host.Outcome.next (if_pos hw)

/-- Settles O53: a start, a wait and a commit by what each leaves of the firebox (`PassStarted`, `PassWaits`, `PassCommitted`); a
waiting pass then looks ahead on the module that the wait leaves; checks and errors by their words and their reports (`Reported`).
Taking the streamed operand and the side lane's at once at PASS_START is the model's choice (log 101), as are the word ahead that
the bellows act on (log 135) and the preload of an operand that is there (log 104). -/
theorem passesRunAndAreChecked : Obligations.PassesRunAndAreChecked := by
  unfold Obligations.PassesRunAndAreChecked
  refine ⟨?pass, ?start, ?commit, ?visible, ?preempt, ?checks, ?errors⟩
  case pass =>
    intro s t d hi hd tl h hp hs
    obtain ⟨r, he, ho, ht⟩ := pass_holds hi hd hp hs
    refine ⟨r, he, ho, ?_⟩
    rw [ht]
    exact ⟨Tile.hob_setHob_same .., fun m hm => Tile.hob_setHob_ne _ _ hm, rfl, rfl⟩
  case start =>
    intro s t hob d hh hr tl h st next hp hs hd
    have he := exec_passStart hh hr hp hs
    refine ⟨fun hc h1 h2 h3 => ?clear, fun hc => ?waiting⟩
    case clear =>
      have hb := passStarted_passStart hd hc h1 h2 h3
      rw [State.lookAhead_of_idle (by rw [State.ltile_setLtile]; exact hb.held)] at he
      refine ⟨_, he, ?_⟩
      dsimp only
      rw [State.ltile_setLtile]
      refine ⟨hb.held, hb.slots, hb.flies, hb.entries _, fun _ => hb.claimed, fun p hn => ⟨hb.lane p hn, fun hfree hsrc hne => ?_⟩,
        fun hf => ?_, fun hf => ?_, hb.stoker, hb.others, s.tile_setLtile_ne _ _, rfl⟩
      · rw [hb.shadow p hn hfree hsrc hne]
        split
        · next h0 => rw [h0]; rfl
        · rfl
      · rw [hb.ash, hf]
        rfl
      · rw [hb.ash, hf]
        exact List.append_nil _
    case waiting =>
      have hb := passWaits_passStart hh hd hc
      intro m tm short
      obtain ⟨sh, l, q, hhob⟩ := hb.hob
      have hlt : m.ltile t.toNat = tl.passStart hob.toNat next := State.ltile_setLtile ..
      have hstk : (tl.passStart hob.toNat next).stoker = tl.stoker := by rw [hb.rest]
      have hheld : ((m.ltile t.toNat).hob hob.toNat).held = some d := by rw [hlt, hhob]; exact hd
      have hcar : m.carried t.toNat d = next := by
        rw [State.carried_setLtile s t.toNat _ d hstk (by rw [hb.rest])]
        exact (congrArg (Option.bind · (fun d => s.carried t.toNat d)) hd).symm
      refine ⟨fun p x hn hl hx => ?looks, fun hn => ?stays⟩
      case looks =>
        refine ⟨_, he.trans (congrArg Host.Outcome.next (State.lookAhead_of_lacking hheld (hcar.trans hn) hl ?_)), rfl⟩
        rw [State.ahead_setLtile s t.toNat _ d hstk]
        exact hx
      case stays =>
        refine ⟨m, he.trans (congrArg Host.Outcome.next (State.lookAhead_of_fed hheld fun p h => hn p (hcar.symm.trans h))), ?_⟩
        dsimp only
        rw [hlt]
        exact ⟨hb.ready, fun h1 h2 h3 h4 _ h5 => hb.loaded h1 h2 h3 h4 h5, by rw [hhob]; exact hd, by rw [hhob], by rw [hhob], hstk,
          by rw [hb.rest], hb.shown.1, hb.shown.2, rfl⟩
  case commit =>
    intro s t hob f rest hh hw tl h hf ha
    obtain ⟨extra, htiles, hmap⟩ := State.tiles_passCommit hw hf ha
    have hb := passCommitted_passCommit (extra := extra) hf
    have ht : (s.passCommit t.toNat hob.toNat).ltile t.toNat = tl.passCommit hob.toNat extra :=
      (State.ltile_congr htiles hmap _).trans (State.ltile_setLtile ..)
    refine ⟨_, exec_passCommit hh s t, ?_⟩
    dsimp only
    rw [ht]
    refine ⟨hb.fly, hb.seq, fun hor => ?_, fun hdrop => ⟨hb.ash (by rw [hdrop, Bool.not_true, Bool.and_false]), hb.streams hdrop⟩,
      fun hfin hkept => ⟨hb.ash (by rw [hfin, Bool.false_and]), fun m hm => ?_, ?_, fun hsplit y x hy hx hbey => ?_⟩, hb.others, fun v hv => ?_⟩
    · rw [hb.slots, if_pos (by rw [Bool.or_eq_true]; exact hor)]
    · rw [hb.slots, hfin, hkept]
      exact tget_tset_ne _ _ _ hm
    · rw [hb.slots, hfin, hkept]
      exact (congrArg List.length (tget_tset_same ..)).trans (length_passOutput ..)
    · rw [hb.slots, hfin, hkept]
      exact (congrArg (nth 1 · (64 * y + x)) (tget_tset_same ..)).trans (passOutput_of_beyond _ hsplit hy hx hbey)
    · exact (State.tile_congr htiles v).trans (s.tile_setLtile_ne _ _ v hv)
  case visible =>
    intro s t hw
    refine ⟨_, exec_ashStageVisible hw, fun i hi => ?_, s.tile_setLtile_ne _ _, rfl⟩
    obtain ⟨b, hb, hall, hany⟩ := showStages_getElem? _ i _ (List.getElem?_eq_getElem hi)
    refine ⟨_, b, List.getElem?_eq_getElem hi, ?_, hall, hany⟩
    rw [State.ltile_setLtile]
    exact hb
  case preempt =>
    intro s t
    refine ⟨_, rfl, ?_⟩
    dsimp only
    rw [State.ltile_setLtile]
    exact ⟨rfl, fun n => (s.ltile t.toNat).hob_withdraw n, rfl, rfl⟩
  case checks =>
    intro s t hob seq c p hh tl h o _ hf ha hc
    refine ⟨fun hr => ?first, fun hr => ?second⟩
    case first =>
      obtain ⟨ht, hbar⟩ := State.checkMismatch_of_first hf ha hc hr
      have hd : ∀ q : FlyPass, ({ q with replay := true } : FlyPass).d = q.d := fun _ => rfl
      obtain ⟨h0, h8, h10, h14⟩ := tl.reg_replays hob.toNat seq.toNat p.d (checkSeen h c p)
      refine ⟨_, exec_checkMismatch hh s t seq c, ?_⟩
      dsimp only
      rw [ht, Tile.hob_replays]
      refine ⟨map_onSeq _ _ hd _, find?_onSeq _ _ hd hf, ?_, ?_, h8.trans (passSeq_of_find? hf), h10, h14, rfl, hbar⟩
      · rw [h0]
        simp
      · rw [h0]
        simp
    case second =>
      obtain ⟨hsus, hbad, hstop, hslots, hbar⟩ := State.replayMismatch_of_second hf ha hc hr
      exact ⟨_, exec_replayMismatch hh s t seq c, hsus, fun damp => by rw [Tile.suspect_hobStatus, hbad]; simp, hstop, hslots, hbar⟩
  case errors =>
    intro s t hob obj hh _
    refine ⟨?ue, ?ce⟩
    case ue =>
      obtain ⟨hbit, hstop, hcount, hfail, hothers⟩ := hobLost_hstateUe s t.toNat hob.toNat obj
      exact ⟨_, exec_hstateUe hh s t obj, hbit, hstop, hcount, hfail, hothers⟩
    case ce =>
      obtain ⟨info, he⟩ := exec_hobStateCe hh s t obj
      have hrep := reported_corr s (s.unitOf t.toNat) info
      exact ⟨_, he, hrep.tiles, hrep.counted, hrep.sched⟩

end Sys2Proof.Machine

/-! Grate words (R82, R86, Table 04-2): the fields of a laid-out word read back, and the command that a word spells. -/

namespace Sys2Proof.Machine

/-! ## The fields of a word -/

theorem wordOp_eq_extract (w : W64) : wordOp w = (w.extractLsb' 56 8).toNat := field_eq_extract w 56 8

/-- Each field of a word is the piece of the layout that holds it: the pieces to its right are left out, then those to its left. -/
theorem parseGrate_encodeGrate (op : BitVec 8) (g : GrateWord) : parseGrate (encodeGrate op g) = g := by
  simp only [parseGrate, ofNat_div_eq_extract, ofNat_toNat_eq_extract, testBit_eq_extract]
  simp (disch := decide) only [encodeGrate, BitVec.extractLsb'_append_eq_of_le, BitVec.extractLsb'_append_eq_of_add_le, Nat.reduceSub]
  simp

theorem wordOp_encodeGrate (op : BitVec 8) (g : GrateWord) : wordOp (encodeGrate op g) = op.toNat := by
  rw [wordOp_eq_extract]
  simp (disch := decide) only [encodeGrate, BitVec.extractLsb'_append_eq_of_le, Nat.reduceSub]
  simp

/-! ## The opcodes of Table 04-3 -/

theorem opcodeCommand_isSome {op : Nat} {r : GrateRow} (h : grateRow op = some r) (t : BitVec 8) (g : GrateWord) :
    (opcodeCommand op t g).isSome = true := by
  unfold grateRow at h
  split_ifs at h
  case pos => unfold grateRowMove at h; split at h <;> cases h <;> rfl
  case pos => unfold grateRowArith at h; split at h <;> cases h <;> rfl
  case pos => unfold grateRowPerm at h; split at h <;> cases h <;> rfl
  case neg => unfold grateRowSfu at h; split at h <;> cases h <;> rfl

/-- What spells a grate command: the opcode byte of Table 04-3, the firebox and the fields. -/
def grateSpelling : Instr → Option (Nat × BitVec 8 × GrateWord)
  | .nop t g => some (0x00, t, g) | .setvl t g => some (0x01, t, g) | .xli t g => some (0x02, t, g)
  | .xlih t g => some (0x03, t, g) | .xadd t g => some (0x04, t, g) | .xmv t g => some (0x05, t, g)
  | .flagrd t g => some (0x06, t, g) | .flagclr t g => some (0x07, t, g) | .vmov t g => some (0x08, t, g)
  | .flrd t g => some (0x09, t, g) | .flwr t g => some (0x0A, t, g) | .lds t g => some (0x0B, t, g)
  | .sts t g => some (0x0C, t, g) | .ashwait t g => some (0x0D, t, g) | .ashrd t g => some (0x0E, t, g)
  | .ashhdr t g => some (0x0F, t, g) | .ashpop t g => some (0x10, t, g) | .vadd t g => some (0x20, t, g)
  | .vsub t g => some (0x21, t, g) | .vmul t g => some (0x22, t, g) | .vfma t g => some (0x23, t, g)
  | .vfms t g => some (0x24, t, g) | .vfnma t g => some (0x25, t, g) | .vmin t g => some (0x26, t, g)
  | .vmax t g => some (0x27, t, g) | .vabs t g => some (0x28, t, g) | .vneg t g => some (0x29, t, g)
  | .vclamp t g => some (0x2A, t, g) | .vlerp t g => some (0x2B, t, g) | .viadd t g => some (0x30, t, g)
  | .visub t g => some (0x31, t, g) | .vimul t g => some (0x32, t, g) | .vand t g => some (0x33, t, g)
  | .vor t g => some (0x34, t, g) | .vxor t g => some (0x35, t, g) | .vshl t g => some (0x36, t, g)
  | .vshr t g => some (0x37, t, g) | .vsra t g => some (0x38, t, g) | .vcmpeq t g => some (0x40, t, g)
  | .vcmpne t g => some (0x41, t, g) | .vcmplt t g => some (0x42, t, g) | .vcmple t g => some (0x43, t, g)
  | .vclass t g => some (0x44, t, g) | .vsel t g => some (0x45, t, g) | .mand t g => some (0x46, t, g)
  | .mor t g => some (0x47, t, g) | .mxor t g => some (0x48, t, g) | .mnot t g => some (0x49, t, g)
  | .mpop t g => some (0x4A, t, g) | .mprefix t g => some (0x4B, t, g) | .vperm t g => some (0x50, t, g)
  | .vbcl t g => some (0x51, t, g) | .vrot t g => some (0x52, t, g) | .vslup t g => some (0x53, t, g)
  | .vsldn t g => some (0x54, t, g) | .vzip t g => some (0x55, t, g) | .vunzip t g => some (0x56, t, g)
  | .vcmpr t g => some (0x57, t, g) | .vrsum t g => some (0x60, t, g) | .vrmax t g => some (0x61, t, g)
  | .vrmin t g => some (0x62, t, g) | .vramax t g => some (0x63, t, g) | .vrargmax t g => some (0x64, t, g)
  | .vscanlr t g => some (0x68, t, g) | .vscansum t g => some (0x69, t, g) | .vscanmax t g => some (0x6A, t, g)
  | .vgate t g => some (0x70, t, g) | .vgatea t g => some (0x71, t, g) | .vcvt t g => some (0x78, t, g)
  | .vcvtmx t g => some (0x79, t, g) | .vdcmx t g => some (0x7A, t, g) | .vcvtsb t g => some (0x7B, t, g)
  | .vdcsb t g => some (0x7C, t, g) | .vrngu t g => some (0x7D, t, g) | .vrngb t g => some (0x7E, t, g)
  | .vsfu t g => some (0x80, t, g) | .vsfu2 t g => some (0x81, t, g) | .vdiv t g => some (0x82, t, g)
  | .vsqrt t g => some (0x83, t, g) | .vrsqrt t g => some (0x84, t, g) | .vstat t g => some (0x85, t, g)
  | .vstatm t g => some (0x86, t, g) | .vsmxu t g => some (0x87, t, g) | .vsmxfMerge t g => some (0x88, t, g)
  | .vsmxfProbabilities t g => some (0x88, t, g)
  | _ => none

theorem grateSpelling_of_opcodeCommand {op : Nat} {t : BitVec 8} {g : GrateWord} {c : Instr} (h : opcodeCommand op t g = some c) :
    grateSpelling c = some (op, t, g) := by
  unfold opcodeCommand at h
  split at h <;> cases h
  case h_84 => split <;> rfl
  all_goals rfl

/-! ## The command of a word -/

theorem grateCommand_of_ok {w : W64} (h : grateWordOk w = true) (t : BitVec 8) :
    grateCommand t w = opcodeCommand (wordOp w) t (parseGrate w) := if_pos h

theorem grateCommand_of_not_ok {w : W64} (h : grateWordOk w = false) (t : BitVec 8) : grateCommand t w = none :=
  if_neg (Bool.not_eq_true _ ▸ h)

/-- A word of good form has an opcode of Table 04-3. -/
theorem grateRow_of_ok {w : W64} (h : grateWordOk w = true) : ∃ r, grateRow (wordOp w) = some r := by
  obtain ⟨_, hform⟩ := Bool.and_eq_true_iff.mp h
  unfold grateFormOk at hform
  split at hform
  case h_1 => cases hform
  case h_2 r hr => exact ⟨r, hr⟩

theorem isSome_grateCommand (t : BitVec 8) (w : W64) : (grateCommand t w).isSome = grateWordOk w := by
  cases h : grateWordOk w
  case false => rw [grateCommand_of_not_ok h]; rfl
  case true =>
    obtain ⟨r, hr⟩ := grateRow_of_ok h
    rw [grateCommand_of_ok h, opcodeCommand_isSome hr]

theorem grateSpelling_of_grateCommand {t : BitVec 8} {w : W64} {c : Instr} (h : grateCommand t w = some c) :
    grateSpelling c = some (wordOp w, t, parseGrate w) := by
  have hok : grateWordOk w = true := by rw [← isSome_grateCommand t w, h]; rfl
  exact grateSpelling_of_opcodeCommand (grateCommand_of_ok hok t ▸ h)

/-- Settles O4: a field is the piece of the word that was put there; a word has a command because the opcodes with a row are those
with a command; and a command is spelled in one way (`grateSpelling`). -/
theorem grateWordRoundTrip : Obligations.GrateWordRoundTrip := by
  unfold Obligations.GrateWordRoundTrip
  refine ⟨fun op g => ⟨parseGrate_encodeGrate op g, wordOp_encodeGrate op g⟩, isSome_grateCommand, fun t t' w w' c h h' => ?_⟩
  have hs := (grateSpelling_of_grateCommand h).symm.trans (grateSpelling_of_grateCommand h')
  simp only [Option.some.injEq, Prod.mk.injEq] at hs
  obtain ⟨hop, ht, hg⟩ := hs
  exact ⟨ht, hop, hg.symm⟩

end Sys2Proof.Machine

/-! The reduction tree of R91: level by level, and as the tree of its two halves. -/

namespace Sys2Proof.Machine

/-- Two lanes combined: an absent one passes the other on (R91). -/
def treeJoin {α : Type} (f : α → α → α) : Option α → Option α → Option α
  | none, y => y
  | some x, none => some x
  | some x, some y => some (f x y)

@[simp] theorem treeLevel_nil {α : Type} (f : α → α → α) : treeLevel f [] = [] := rfl

theorem treeLevel_cons_cons {α : Type} (f : α → α → α) (x y : Option α) (r : List (Option α)) :
    treeLevel f (x :: y :: r) = treeJoin f x y :: treeLevel f r := by
  cases x <;> cases y <;> rfl

/-- A level of two lists, the first of an even length, is the levels of both. -/
theorem treeLevel_append {α : Type} (f : α → α → α) (k : Nat) (l r : List (Option α)) (h : l.length = 2 * k) :
    treeLevel f (l ++ r) = treeLevel f l ++ treeLevel f r := by
  induction k generalizing l with
  | zero =>
    obtain rfl := List.eq_nil_of_length_eq_zero h
    rfl
  | succ k ih =>
    match l, h with
    | x :: y :: l, h =>
      have hl : l.length = 2 * k := by simp at h; omega
      simp only [List.cons_append, treeLevel_cons_cons, ih l hl]

theorem length_treeLevel {α : Type} (f : α → α → α) (k : Nat) (l : List (Option α)) (h : l.length = 2 * k) :
    (treeLevel f l).length = k := by
  induction k generalizing l with
  | zero =>
    obtain rfl := List.eq_nil_of_length_eq_zero h
    rfl
  | succ k ih =>
    match l, h with
    | x :: y :: l, h =>
      have hl : l.length = 2 * k := by simp at h; omega
      rw [treeLevel_cons_cons, List.length_cons, ih l hl]

/-- The tree of two halves of 2^k lanes each: the levels of the halves stand side by side up to the last. -/
theorem treeFold_append {α : Type} (f : α → α → α) (k : Nat) (l r : List (Option α)) (hl : l.length = 2 ^ k) (hr : r.length = 2 ^ k) :
    treeFold f (k + 1) (l ++ r) = treeJoin f (treeFold f k l) (treeFold f k r) := by
  induction k generalizing l r with
  | zero =>
    obtain ⟨x, rfl⟩ := List.length_eq_one_iff.mp hl
    obtain ⟨y, rfl⟩ := List.length_eq_one_iff.mp hr
    exact congrArg (fun m => (List.head? m).getD none) (treeLevel_cons_cons f x y [])
  | succ k ih =>
    rw [Nat.pow_succ, Nat.mul_comm] at hl hr
    calc treeFold f (k + 2) (l ++ r)
        = treeFold f (k + 1) (treeLevel f l ++ treeLevel f r) := congrArg (treeFold f (k + 1)) (treeLevel_append f _ l r hl)
      _ = treeJoin f (treeFold f (k + 1) l) (treeFold f (k + 1) r) :=
          ih _ _ (length_treeLevel f _ l hl) (length_treeLevel f _ r hr)

/-- Settles O24, by induction on the levels: a level of a list is the level of its lower half beside that of its upper half. -/
theorem reductionTreeSplits : Obligations.ReductionTreeSplits := by
  unfold Obligations.ReductionTreeSplits
  intro f k l h
  have hl : (l.take (2 ^ k)).length = 2 ^ k := by rw [List.length_take, h, Nat.pow_succ]; omega
  have hr : (l.drop (2 ^ k)).length = 2 ^ k := by rw [List.length_drop, h, Nat.pow_succ]; omega
  have hsplit := treeFold_append f k _ _ hl hr
  rw [List.take_append_drop] at hsplit
  rw [hsplit]
  unfold treeJoin
  cases treeFold f k (l.take (2 ^ k)) <;> cases treeFold f k (l.drop (2 ^ k)) <;> rfl

end Sys2Proof.Machine

/-! The integer, bit, select and interleave rows (R90, Table 04-3): lanes of bits, cut to the lane width, and no flag. -/

namespace Sys2Proof.Machine

/-- A lane result takes its lanes cut to the width. -/
theorem LaneResult.congr {s s' : State} {t : BitVec 8} {g : GrateWord} {w n : Nat} {f v : Nat → Nat} {fl : Nat → W32}
    (hv : ∀ i, i < n → f i % 2 ^ w = v i % 2 ^ w) (h : LaneResult s s' t g w n f fl) : LaneResult s s' t g w n v fl := by
  obtain ⟨honly, hframe, hlanes, hkept, hflags⟩ := h
  exact ⟨honly, hframe, fun i hi => by rw [hlanes i hi, hv i hi], hkept, hflags⟩

/-- A row that always completes and writes lanes without a flag. -/
theorem answers_plainLanes {c : Instr} {s : State} {t : BitVec 8} {f : Tile → Tile} {lanes sfu : Tile → Nat} {g : GrateWord} {w n : Nat}
    {r : Nat → Nat} (hc : exec c s = .next (s.gratePlain t f lanes sfu)) (h : GrateReady s t) (hw : w = 8 ∨ w = 16 ∨ w = 32)
    (hf : f (s.ltile t.toNat) = (s.ltile t.toNat).writeLanes g w n (fun i => (r i, 0))) :
    Answers c s (fun s' => LaneResult s s' t g w n r (fun _ => 0)) :=
  ⟨_, hc, laneResult_plain h hw hf⟩

/-- A row that runs `gBits` holds any lanes that agree with its function modulo the lane width. -/
theorem answers_gBits {c : Instr} {s : State} {t : BitVec 8} {lanes sfu : Tile → Nat} {g : GrateWord} {v : Nat → Nat}
    (f : Nat → Nat → Nat → Nat) (hc : exec c s = .next (s.gratePlain t (fun a => gBits f a g) lanes sfu)) (h : GrateReady s t)
    (hv : let a := s.ltile t.toNat; let w := laneWidth g.fmt; let n := a.vle w
      ∀ i, i < n → f w (nth 0 (a.lanes g.va.toNat w n) i) (nth 0 (a.srcB g w n) i) % 2 ^ w = v i % 2 ^ w) :
    Answers c s (fun s' =>
      LaneResult s s' t g (laneWidth g.fmt) ((s.ltile t.toNat).vle (laneWidth g.fmt)) v (fun _ => 0)) := by
  obtain ⟨s', hs', hres⟩ := answers_plainLanes hc h (laneWidth_cases g.fmt) rfl
  exact ⟨s', hs', hres.congr fun i hi => (Nat.mod_mod ..).trans (hv i hi)⟩

theorem Tile.nth_lanes_lt_two_pow (t : Tile) (r : Nat) (fmt : BitVec 4) (n i : Nat) :
    nth 0 (t.lanes r (laneWidth fmt) n) i < 2 ^ laneWidth fmt :=
  pow_laneBytes (laneWidth_cases fmt) ▸ t.nth_lanes_lt r (laneWidth fmt) n i

theorem Tile.nth_srcB_lt (t : Tile) (g : GrateWord) (fmt : BitVec 4) (n i : Nat) :
    nth 0 (t.srcB g (laneWidth fmt) n) i < 2 ^ laneWidth fmt := by
  unfold Tile.srcB
  split
  · rw [nth_eq_getD, bcast, List.getD_eq_getElem?_getD, List.getElem?_replicate]
    split
    · exact Nat.mod_lt _ (Nat.two_pow_pos _)
    · exact Nat.two_pow_pos _
  · exact t.nth_lanes_lt_two_pow ..

/-- A difference that wraps, over the naturals and over the integers. -/
theorem sub_wrap {w a b : Nat} (hb : b < 2 ^ w) : (a + 2 ^ w - b) % 2 ^ w = (((a : Int) - (b : Int)) % 2 ^ w).toNat % 2 ^ w := by
  have hcast : ((a + 2 ^ w - b : Nat) : Int) = (a : Int) - b + 2 ^ w := by push_cast [Nat.cast_sub (show b ≤ a + 2 ^ w by omega)]; ring
  have hmod : ((a : Int) - b) % 2 ^ w = ((a + 2 ^ w - b : Nat) : Int) % ((2 ^ w : Nat) : Int) := by
    rw [hcast]; push_cast; rw [Int.add_emod_right]
  rw [hmod, ← Int.natCast_emod, Int.toNat_natCast, Nat.mod_mod]

/-- Settles O17: the rows of one or two sources run `gBits` of their bit function, VSEL, VZIP and VUNZIP write lanes of their own;
VISUB adds 2^w before it subtracts. -/
theorem bitLaneRows : Obligations.BitLaneRows := by
  unfold Obligations.BitLaneRows bitRows
  simp only [List.forall_mem_cons, List.not_mem_nil, false_implies, implies_true, and_true]
  refine ⟨?vmov, ?viadd, ?visub, ?vimul, ?vand, ?vor, ?vxor, ?vshl, ?vshr, ?vsra, ?vsel, ?vzip, ?vunzip⟩
  case vmov => exact fun t g s h => answers_gBits (fun _ a _ => a) rfl h fun _ _ => rfl
  case viadd => exact fun t g s h => answers_gBits (fun _ a b => a + b) rfl h fun _ _ => rfl
  case visub => exact fun t g s h => answers_gBits (fun k a b => a + 2 ^ k - b) rfl h fun i _ => sub_wrap (Tile.nth_srcB_lt ..)
  case vimul => exact fun t g s h => answers_gBits (fun _ a b => a * b) rfl h fun _ _ => rfl
  case vand => exact fun t g s h => answers_gBits (fun _ a b => a &&& b) rfl h fun _ _ => rfl
  case vor => exact fun t g s h => answers_gBits (fun _ a b => a ||| b) rfl h fun _ _ => rfl
  case vxor => exact fun t g s h => answers_gBits (fun _ a b => a ^^^ b) rfl h fun _ _ => rfl
  case vshl => exact fun t g s h => answers_gBits (fun _ a _ => a * 2 ^ (g.imm.toNat % 32)) rfl h fun _ _ => rfl
  case vshr => exact fun t g s h => answers_gBits (fun _ a _ => a / 2 ^ (g.imm.toNat % 32)) rfl h fun _ _ => rfl
  case vsra => exact fun t g s h => answers_gBits (fun k a _ => sraLane k a (g.imm.toNat % 32)) rfl h fun _ _ => rfl
  case vsel => exact fun t g s h => answers_plainLanes (f := fun a => gSel a g) rfl h (laneWidth_cases _) rfl
  case vzip => exact fun t g s h => answers_plainLanes (f := fun a => gVzip a g) rfl h (laneWidth_cases _) rfl
  case vunzip => exact fun t g s h => answers_plainLanes (f := fun a => gVunzip a g) rfl h (laneWidth_cases _) rfl

end Sys2Proof.Machine

/-! The scalar, length and flag rows (R82, R83, R93, R108, Table 04-3). -/

namespace Sys2Proof.Machine

/-! ## Plain rows -/

theorem answers_plainTile {c : Instr} {s : State} {t : BitVec 8} {f : Tile → Tile} {lanes sfu : Tile → Nat} (h : GrateReady s t)
    (hc : exec c s = .next (s.gratePlain t f lanes sfu)) : Answers c s (fun s' => TileResult s s' t (f (s.ltile t.toNat))) :=
  ⟨_, hc, gratePlain_completes h⟩

theorem answers_scalar {c : Instr} {s : State} {t : BitVec 8} {f : Tile → Tile} {lanes sfu : Tile → Nat} {n : Nat} {v : W32}
    (h : GrateReady s t) (hc : exec c s = .next (s.gratePlain t f lanes sfu))
    (hf : f (s.ltile t.toNat) = (s.ltile t.toNat).xset n v) : Answers c s (fun s' => ScalarResult s s' t n v) :=
  ⟨_, hc, scalarResult_plain h hf⟩

/-- The upper half of a scalar written, its lower half kept (XLIH). -/
theorem setField_upper (x : W32) (v : BitVec 16) : setField x 16 16 v.toNat = v ++ x.setWidth 16 := by
  have hlow : x.toNat &&& 65535 = x.toNat % 65536 := Nat.and_two_pow_sub_one_eq_mod x.toNat 16
  have hmask : (~~~BitVec.ofNat 32 ((2 ^ 16 - 1) * 2 ^ 16)).toNat = 65535 := by decide
  have hup : v.toNat % 2 ^ 16 * 2 ^ 16 % 2 ^ 32 = v.toNat * 2 ^ 16 := by omega
  apply BitVec.eq_of_toNat_eq
  simp only [setField, BitVec.toNat_or, BitVec.toNat_and, BitVec.toNat_append, BitVec.toNat_setWidth, BitVec.toNat_ofNat]
  rw [hmask, hlow, hup, Nat.shiftLeft_eq, Nat.or_comm]

/-! ## XMV -/

theorem outOfRange_eq_false_iff {n : Nat} {k : Int} : outOfRange n k = false ↔ 0 ≤ k ∧ k < n := by
  simp only [outOfRange, Bool.or_eq_false_iff, decide_eq_false_iff_not, not_lt, not_le]

theorem gXmv_of_lt {a : Tile} {g : GrateWord} (h : g.imm.toNat < a.vle (laneWidth g.fmt)) :
    gXmv a g = { t := a.xset g.vd.toNat (BitVec.ofNat 32 (nth 0 (a.lanes g.va.toNat (laneWidth g.fmt) (a.vle (laneWidth g.fmt))) g.imm.toNat)) } := by
  have hin : (0 : Int) ≤ g.imm.toNat ∧ (g.imm.toNat : Int) < a.vle (laneWidth g.fmt) := ⟨Int.natCast_nonneg _, Int.ofNat_lt.mpr h⟩
  unfold gXmv
  simp only [outOfRange_eq_false_iff.mpr hin, laneAt, if_pos hin, Int.toNat_natCast]
  rfl

theorem xset_past_frame {a b : Tile} {n : Nat} {v : W32} (h : b = { a.xset n v with stoker := (a.xset n v).stoker.past }) :
    b = { a with x := b.x, stoker := a.stoker.past } ∧ ∀ k, b.xget k = if k % 16 ≠ 0 ∧ k % 16 = n % 16 then v else a.xget k := by
  subst h
  refine ⟨?_, fun k => Tile.xget_xset a n v k⟩
  rw [Tile.xset_frame]

/-! ## FLAGCLR -/

/-- The status word that FLAGCLR clears flags of, and its W1C flags (R108). -/
def flagWord (g : GrateWord) : Nat × W32 := if g.imm = 1 then (0x0300, 0x310) else (0x0100, 0x0BF)

theorem gFlagClr_eq (a : Tile) (g : GrateWord) :
    gFlagClr a g = a.setReg (flagWord g).1 (a.reg (flagWord g).1 &&& ~~~(a.xget g.va.toNat &&& (flagWord g).2)) := by
  unfold gFlagClr flagWord
  split <;> rfl

/-- Settles O19: XMV is a scalar row where its lane lies below VLe, and every other row but FLAGCLR is plain or scalar by the
definition of its operation. -/
theorem scalarAndControlRows : Obligations.ScalarAndControlRows := by
  unfold Obligations.ScalarAndControlRows
  intro t g s h a
  refine ⟨?nop, ?setvl, ?xli, ?xlih, ?xadd, ?flagrd, ?mpop, ?xmv, ?flagclr⟩
  case nop => exact answers_plainTile (f := fun a => a) h rfl
  case setvl => exact answers_plainTile (f := fun a => { a with vl := g.imm.toNat % 4096 }) h rfl
  case xli => exact answers_scalar h rfl rfl
  case xlih => exact answers_scalar h rfl (congrArg (a.xset _) (setField_upper _ _))
  case xadd => exact answers_scalar h rfl rfl
  case flagrd => exact answers_scalar h rfl rfl
  case mpop => exact answers_scalar h rfl rfl
  case xmv =>
    intro hi
    obtain ⟨honly, htile⟩ := grate_completes (f := fun _ a => gXmv a g) h (gXmv_of_lt hi)
    exact ⟨_, rfl, honly, xset_past_frame htile⟩
  case flagclr =>
    obtain ⟨s', hs', honly, htile⟩ := answers_plainTile (c := .flagclr t g) (f := fun a => gFlagClr a g) h rfl
    have hreg (o : Nat) : (s'.ltile t.toNat).reg o = (gFlagClr a g).reg o := (congrArg (Tile.reg · o) htile).trans rfl
    have hoff : (flagWord g).1 = if g.imm = 1 then 0x0300 else 0x0100 := by unfold flagWord; split <;> rfl
    have hbits : (flagWord g).2 = if g.imm = 1 then 0x310 else 0x0BF := by unfold flagWord; split <;> rfl
    rw [gFlagClr_eq] at htile
    simp only [gFlagClr_eq, Tile.reg_setReg] at hreg
    refine ⟨s', hs', honly, ?frame, fun o ho => ?others, ?word⟩
    case frame => rw [htile]; rfl
    case others => rw [hreg, if_neg (hoff ▸ ho)]
    case word => rw [← hoff, ← hbits, hreg, if_pos rfl]

end Sys2Proof.Machine

/-! The permutes (R83, R84, R93, R94): lanes moved, +0 and a mark for a lane out of range, and the stop that STRICT makes of it. -/

namespace Sys2Proof.Machine

/-! ## A permute of one firebox -/

/-- Every lane that an active lane below n names lies below n (R93). -/
def namesInRange (k : Nat → Nat → Bool × Int) (a : Tile) (g : GrateWord) (n : Nat) : Prop :=
  ∀ i, i < n → a.active g i = true → 0 ≤ (k n i).2 ∧ (k n i).2 < n

theorem named_eq_true_iff (k : Nat → Nat → Bool × Int) (a : Tile) (g : GrateWord) (n : Nat) :
    (List.range n).any (fun i => a.active g i && outOfRange n (k n i).2) = true ↔ ¬ namesInRange k a g n := by
  simp only [namesInRange, List.any_eq_true, List.mem_range, Bool.and_eq_true, not_forall, exists_prop,
    ← outOfRange_eq_false_iff, Bool.not_eq_false]

/-- The firebox with the named lanes in v[VD]. -/
def permuteLanes (k : GrateWord → Tile → Nat → Nat → Bool × Int) (a : Tile) (g : GrateWord) : Tile :=
  let w := laneWidth g.fmt
  a.writeLanes g w (a.vle w) (fun i => (permuted k g a w (a.vle w) i, 0))

theorem gPermute_eq (k : GrateWord → Tile → Nat → Nat → Bool × Int) (a : Tile) (g : GrateWord) :
    let n := a.vle (laneWidth g.fmt)
    gPermute (k g a) (laneWidth g.fmt) a g =
      laneRange a (permuteLanes k a g) ((List.range n).any (fun i => a.active g i && outOfRange n (k g a n i).2)) := by
  have hlane : ∀ w n i, laneAt (if (k g a n i).1 then a.lanes g.vc.toNat w n else a.lanes g.va.toNat w n) n (k g a n i).2 =
      permuted k g a w n i := by
    intro w n i
    rw [laneAt, ← apply_ite (fun r => a.lanes r w n)]
    rfl
  unfold gPermute permuteLanes
  simp only [hlane]

/-- The source lanes of VPERM's row. -/
def vpermSource (g : GrateWord) (a : Tile) (n i : Nat) : Bool × Int :=
  (false, ((nth 0 (a.lanes g.vb.toNat 16 (min n 1024) ++ a.lanes (g.vb.toNat + 1) 16 (n - 1024)) i : Nat) : Int))

/-- VPERM reads its lane numbers for VLe lanes. -/
theorem gVperm_eq (a : Tile) (g : GrateWord) : gVperm a g = gPermute (vpermSource g a) (laneWidth g.fmt) a g := by
  unfold gVperm gPermute
  rfl

/-- Each permute is `gPermute` of its row. -/
theorem exec_permute {row : (BitVec 8 → GrateWord → Instr) × (GrateWord → Tile → Nat → Nat → Bool × Int)} (hrow : row ∈ permuteRows)
    (t : BitVec 8) (g : GrateWord) (s : State) :
    exec (row.1 t g) s = .next (s.grate t (fun _ a => gPermute (row.2 g a) (laneWidth g.fmt) a g)) := by
  have hperm : exec (.vperm t g) s = .next (s.grate t (fun _ a => gPermute (vpermSource g a) (laneWidth g.fmt) a g)) := by
    simp only [← gVperm_eq]
    rfl
  revert row
  unfold permuteRows
  simp only [List.forall_mem_cons, List.not_mem_nil, false_implies, implies_true, and_true]
  exact ⟨hperm, rfl, rfl, rfl, rfl⟩

/-! ## In range -/

theorem gPermute_of_inRange {k : GrateWord → Tile → Nat → Nat → Bool × Int} {a : Tile} {g : GrateWord}
    (h : namesInRange (k g a) a g (a.vle (laneWidth g.fmt))) :
    gPermute (k g a) (laneWidth g.fmt) a g = { t := permuteLanes k a g } := by
  have hnamed := Bool.eq_false_iff.mpr (mt (named_eq_true_iff (k g a) a g _).mp (not_not.mpr h))
  simp only [gPermute_eq, hnamed, laneRange, Bool.not_false, if_true]

/-! ## Out of range, native mode -/

/-- Lanes written with no flag change no register word. -/
theorem flagsRaised_zero {a b : Tile} {g : GrateWord} {n : Nat} (h : flagsRaised a b g n (fun _ => 0)) :
    (∀ o, b.reg o = a.reg o) ∧ b.nfSeen = a.nfSeen := by
  obtain ⟨hothers, hbits, hnf⟩ := h
  have hnone : ∀ j, ¬ ∃ i, i < n ∧ a.active g i = true ∧ (0 : W32).getLsbD j = true := by
    rintro j ⟨_, _, _, hj⟩
    simp at hj
  refine ⟨fun o => ?_, Bool.eq_iff_iff.mpr (hnf.trans (or_iff_left (hnone 8)))⟩
  by_cases ho : o = 0x0100
  · subst ho
    exact BitVec.eq_of_getLsbD_eq fun j _ => Bool.eq_iff_iff.mpr ((hbits j).trans (or_iff_left (hnone j)))
  · exact hothers o ho

/-- The marks of R93 on a firebox whose lanes are written: VF_LRNG with its first place, and the count. -/
def Tile.markRange (r : Tile) (a : Tile) : Tile :=
  let r1 := if (a.reg 0x0300).getLsbD 8 then r else r.setReg 0x030C (BitVec.ofNat 32 a.stoker.pc)
  (r1.orReg 0x0300 0x100).bump 0x0310 1

theorem Tile.markRange_frame (r a : Tile) : r.markRange a = { r with regs := (r.markRange a).regs } := by
  unfold Tile.markRange
  split <;> rfl

theorem Tile.reg_markRange (r a : Tile) :
    (r.markRange a).reg 0x0300 = r.reg 0x0300 ||| 0x100 ∧ (r.markRange a).reg 0x0310 = r.reg 0x0310 + 1 ∧
    ∀ o, o ≠ 0x0300 → o ≠ 0x0310 → o ≠ 0x030C → (r.markRange a).reg o = r.reg o := by
  have hpc : ∀ o, o ≠ 0x030C → (if (a.reg 0x0300).getLsbD 8 then r else r.setReg 0x030C (BitVec.ofNat 32 a.stoker.pc)).reg o = r.reg o := by
    intro o ho
    split
    · rfl
    · rw [Tile.reg_setReg, if_neg ho]
  unfold Tile.markRange
  simp only [Tile.bump, Tile.orReg, Tile.reg_setReg, if_true, if_false, Nat.reduceEqDiff, hpc 0x0300 (by decide), hpc 0x0310 (by decide)]
  refine ⟨trivial, rfl, fun o h0 h1 hc => ?_⟩
  rw [if_neg h1, if_neg h0, hpc o hc]

theorem gPermute_of_native {k : GrateWord → Tile → Nat → Nat → Bool × Int} {a : Tile} {g : GrateWord}
    (h : ¬ namesInRange (k g a) a g (a.vle (laneWidth g.fmt))) (hs : (a.reg 0x0304).getLsbD 0 = false) :
    gPermute (k g a) (laneWidth g.fmt) a g = { t := (permuteLanes k a g).markRange a } := by
  simp only [gPermute_eq, (named_eq_true_iff (k g a) a g _).mpr h, laneRange, hs, Bool.not_true, Bool.false_eq_true, if_false]
  rfl

/-- A firebox m that differs from p, and p from a, by lanes and status words alone, with its stoker past the word. -/
theorem lanes_past_frame {a p m : Tile} (hp : p = { a with vregs := p.vregs, regs := p.regs }) (hm : m = { p with regs := m.regs }) :
    { m with stoker := m.stoker.past } = { a with vregs := m.vregs, regs := m.regs, stoker := a.stoker.past } := by
  rw [hm, hp]

/-- Settles O20: a permute is `gPermute` of its row, which writes the named lanes and, where one is out of range, marks R93's words. -/
theorem permuteRows_hold : Obligations.PermuteRows := by
  unfold Obligations.PermuteRows
  intro row hrow t g s h a w n inRange
  have hc := exec_permute hrow t g s
  refine ⟨fun hin => ?inside, fun hout hs => ?outside⟩
  case inside => exact answers_lanes hc h (laneWidth_cases _) (gPermute_of_inRange hin)
  case outside =>
    obtain ⟨honly, htile⟩ := grate_completes (f := fun _ a => gPermute (row.2 g a) (laneWidth g.fmt) a g) h (gPermute_of_native hout hs)
    obtain ⟨hlanes, hkept, hflags, hframe⟩ := Tile.writeLanes_result a g w n (fun i => (permuted row.2 g a w n i, 0)) (laneWidth_cases _)
    obtain ⟨hreg, hnf⟩ := flagsRaised_zero hflags
    obtain ⟨hstatus, hcount, hothers⟩ := (permuteLanes row.2 a g).reg_markRange a
    have hp : permuteLanes row.2 a g = { a with vregs := (permuteLanes row.2 a g).vregs, regs := (permuteLanes row.2 a g).regs } := by
      rw [← hnf]; exact hframe
    have hm := (permuteLanes row.2 a g).markRange_frame a
    have hv : ((permuteLanes row.2 a g).markRange a).vregs = (permuteLanes row.2 a g).vregs := by rw [hm]
    refine ⟨_, hc, honly, ?frame, ?lanes, ?kept, ?status, ?count, fun o h0 h1 hpc => ?words⟩
    all_goals rw [htile]
    case frame => exact lanes_past_frame hp hm
    case lanes => exact lanesWritten_congr hlanes rfl rfl hv fun _ _ => rfl
    case kept => exact fun x hx => (congrArg (mread · x) hv).trans (hkept x hx)
    case status => exact hstatus.trans (congrArg (· ||| 0x100) (hreg 0x0300))
    case count => exact hcount.trans (congrArg (· + 1) (hreg 0x0310))
    case words => exact (hothers o h0 h1 hpc).trans (hreg o)

end Sys2Proof.Machine

/-! Grate words that raise a program fault (R90, R94): the firebox keeps its place, and the collector counts the fault. -/

namespace Sys2Proof.Machine

/-! ## Reports of class PROGRAM -/

/-- What a report of a program fault leaves as it is, and its count (R333); FAIL and the outstanding reaction apart. -/
structure ProgramReported (s r : State) : Prop where
  tiles : r.tiles = s.tiles
  tileMap : r.tileMap = s.tileMap
  mem : r.mem = s.mem
  counted : r.bar 0x20058 = s.bar 0x20058 + 1

theorem State.raiseFail_mem (s : State) : s.raiseFail.mem = s.mem := by
  unfold State.raiseFail
  split <;> rfl

theorem programReported_report (s : State) (u : Nat) (info : W32) : ProgramReported s (s.report (srcId 6 u) info) := by
  have hmem : (s.collect (srcId 6 u) info false).mem = s.mem := congrArg Kept.mem (s.standing_collect (srcId 6 u) info false)
  obtain ⟨htiles, hmap, _, hcount⟩ := reported_collect s u info (c := 6) (by decide)
  rw [State.report]
  generalize s.collect (srcId 6 u) info false = m at *
  have hreact : m.react (srcId 6 u) = if m.sched.running then m.raiseFail.addReact (srcId 6 u) else m := by
    unfold State.react
    rw [srcId_class u (by decide), if_pos (.inl rfl)]
  rw [hreact]
  split
  · obtain ⟨hft, hfm, hfb⟩ := m.raiseFail_frame
    exact ⟨hft.trans htiles, hfm.trans hmap, m.raiseFail_mem.trans hmem, (hfb _).trans hcount⟩
  · exact ⟨htiles, hmap, hmem, hcount⟩

/-! ## The word -/

/-- A grate word has faulted: its firebox is b with the word waiting, no other firebox has changed, and the fault is counted. -/
structure GrateFaulted (s r : State) (t : BitVec 8) (b : Tile) : Prop where
  tile : r.ltile t.toNat = { b with stoker := { b.stoker with waitWord := true } }
  others : ∀ v, v ≠ s.unitOf t.toNat → r.tile v = s.tile v
  mem : r.mem = s.mem
  counted : r.bar 0x20058 = s.bar 0x20058 + 1

theorem grate_faults {s : State} {t : BitVec 8} {f : GEnv → Tile → GRes} {b : Tile} (h : GrateReady s t)
    (hf : f (s.grateEnv (s.ltile t.toNat)) (s.ltile t.toNat) = { t := b, fault := true }) : GrateFaulted s (s.grate t f) t b := by
  obtain ⟨hi, hg⟩ := h
  obtain ⟨m, he, hm⟩ : ∃ m, s.grate t f = m.setLtile t.toNat
      { m.ltile t.toNat with stoker := { (m.ltile t.toNat).stoker with waitWord := true } } ∧ ProgramReported (s.setLtile t.toNat b) m := by
    refine ⟨_, ?_, programReported_report (s.setLtile t.toNat b) ((s.setLtile t.toNat b).unitOf t.toNat) (BitVec.ofNat 32 (s.ltile t.toNat).stoker.pc)⟩
    simp only [State.grate, State.word, hg, hi, hf, State.grateEnd, Bool.not_true, Bool.false_eq_true, if_false, if_true, Bool.true_or]
  have hb : m.ltile t.toNat = b := (State.ltile_congr hm.tiles hm.tileMap _).trans (State.ltile_setLtile ..)
  have hunit : m.unitOf t.toNat = s.unitOf t.toNat := by simp only [State.unitOf, hm.tileMap]; rfl
  rw [he, hb]
  refine ⟨State.ltile_setLtile .., fun v hv => ?_, hm.mem, hm.counted⟩
  rw [State.tile_setLtile_ne _ _ _ v (hunit ▸ hv), State.tile_congr hm.tiles, State.tile_setLtile_ne _ _ _ v hv]

/-! ## Lanes out of range under STRICT -/

theorem laneRange_of_strict {a r : Tile} (hs : (a.reg 0x0304).getLsbD 0 = true) :
    laneRange a r true = { t := { a.orReg 0x0300 0x400 with grateStop := true }, fault := true } := by
  simp only [laneRange, hs, Bool.not_true, Bool.false_eq_true, if_false, if_true]

/-- A word whose lane is out of range under STRICT stops the grate and changes nothing else of its firebox. -/
theorem answers_strictStop {c : Instr} {s : State} {t : BitVec 8} {f : Tile → GRes} {r : Tile} (h : GrateReady s t)
    (hc : exec c s = .next (s.grate t (fun _ a => f a))) (hf : f (s.ltile t.toNat) = laneRange (s.ltile t.toNat) r true)
    (hs : ((s.ltile t.toNat).reg 0x0304).getLsbD 0 = true) :
    Answers c s (fun s' =>
      let a := s.ltile t.toNat
      let b := s'.ltile t.toNat
      b = { a with regs := b.regs, grateStop := true, stoker := { a.stoker with waitWord := true } } ∧
      b.reg 0x0300 = a.reg 0x0300 ||| 0x400 ∧ (∀ o, o ≠ 0x0300 → b.reg o = a.reg o) ∧
      (∀ v, v ≠ s.unitOf t.toNat → s'.tile v = s.tile v) ∧ s'.mem = s.mem ∧ s'.bar 0x20058 = s.bar 0x20058 + 1) := by
  obtain ⟨htile, hothers, hmem, hcount⟩ := grate_faults (f := fun _ a => f a) h (hf.trans (laneRange_of_strict hs))
  refine ⟨_, hc, ?frame, ?status, fun o ho => ?words, hothers, hmem, hcount⟩
  all_goals rw [htile]
  case frame => rfl
  case status => exact (Tile.reg_setReg ..).trans (if_pos rfl)
  case words => exact (Tile.reg_setReg ..).trans (if_neg ho)

/-- Settles O21: under STRICT a lane named out of range makes the word a program fault, which writes nothing. -/
theorem strictRangeStops : Obligations.StrictRangeStops := by
  unfold Obligations.StrictRangeStops
  intro t g s h a n stops hs
  refine ⟨fun hn => ?xmv, fun row hrow hnamed => ?permute⟩
  case xmv =>
    have hout : outOfRange n g.imm.toNat = true := by
      rw [← Bool.not_eq_false, outOfRange_eq_false_iff]
      omega
    exact answers_strictStop (f := fun a => gXmv a g) h rfl (congrArg (laneRange a _) hout) hs
  case permute =>
    obtain ⟨i, hi, hact, hout⟩ := hnamed
    have hr : ¬ namesInRange (row.2 g a) a g n := fun hin => hout (hin i hi hact)
    have hf := (gPermute_eq row.2 a g).trans (congrArg (laneRange a _) ((named_eq_true_iff _ a g n).mpr hr))
    exact answers_strictStop (f := fun a => gPermute (row.2 g a) (laneWidth g.fmt) a g) h (exec_permute hrow t g s) hf hs

end Sys2Proof.Machine

/-! Register errors of the grate (R85): what a report latches (R335), and the reaction of a firebox fault. -/

namespace Sys2Proof.Machine

/-! ## What the collector latches -/

/-- The first report of a latchable class latches its source and information. -/
theorem State.latched_collect {s : State} {c : Nat} (u : Nat) (info : W32) (hc : 1 ≤ c ∧ c ≤ 14) (hf : s.faultSet = false)
    (hl : s.latchable c = true) :
    (s.collect (srcId c u) info false).bar 0x20004 = BitVec.ofNat 32 (srcId c u) ∧ (s.collect (srcId c u) info false).bar 0x20008 = info := by
  have hbump : (s.bumpBar (0x20040 + 4 * c) 1).faultSet = false := by
    rw [State.faultSet, State.barBit, State.bar_bumpBar, if_neg (by omega)]
    exact hf
  have hlatch : (s.bumpBar (0x20040 + 4 * c) 1).latchable c = true := hl
  unfold State.collect
  simp only [srcId_class u (show c < 16 by omega), if_pos hc, hbump, hlatch, Bool.not_true, Bool.false_eq_true, if_false]
  constructor
  · rw [(counted_cause _ 0).words _ (by decide) (by decide), State.bar_setBar, if_neg (by decide), State.bar_setBar, if_neg (by decide),
      State.bar_setBar_same]
  · rw [(counted_cause _ 0).words _ (by decide) (by decide), State.bar_setBar, if_neg (by decide), State.bar_setBar_same]

theorem State.flt_collect (s : State) (src : Nat) (info : W32) (forced : Bool) :
    ∃ b, (s.collect src info forced).flt = { s.flt with firstBeat := b } := by
  have hcause : ∀ t : State, (t.cause 0).flt = t.flt := fun t => by rw [(counted_cause t 0).rest]
  unfold State.collect
  extract_lets c s1 f s2 s3 s4
  have h1 : s1.flt = s.flt := by unfold s1; split <;> rfl
  split
  · exact ⟨_, h1⟩
  · split
    · exact ⟨_, h1⟩
    · exact ⟨_, (hcause s4).trans (congrArg (fun f : Flt => { f with firstBeat := s1.clk.beatNow }) h1)⟩

@[simp] theorem State.flt_raiseFail (s : State) : s.raiseFail.flt = s.flt := by
  unfold State.raiseFail
  split <;> rfl

/-! ## Reports of a firebox -/

/-- A correctable error has no reaction. -/
theorem State.report_corr (s : State) (u : Nat) (info : W32) : s.report (srcId 1 u) info = s.collect (srcId 1 u) info false := by
  rw [State.report, State.react, srcId_class u (by decide)]
  rfl

/-- The reaction of a firebox fault is outstanding in a slot in use, and there is none in another (log 89). -/
theorem State.report_firebox (s : State) {u : Nat} (hu : u < 4096) (info : W32) :
    let m := s.collect (srcId 0xA u) info false
    s.report (srcId 0xA u) info = if s.slotInUse u then m.addReact (srcId 0xA u) else m := by
  intro m
  have hunit : srcId 0xA u % 4096 = u := by unfold srcId; omega
  have hmap : m.tileMap = s.tileMap := congrArg Kept.tileMap (s.standing_collect (srcId 0xA u) info false)
  obtain ⟨b, hb⟩ := s.flt_collect (srcId 0xA u) info false
  have huse : m.slotInUse u = s.slotInUse u := by
    simp only [State.slotInUse, State.tileOf, State.unitOf, hmap, show m.flt = { s.flt with firstBeat := b } from hb]
  rw [State.report, State.react, srcId_class u (by decide), hunit, huse]
  rfl

/-! ## The firebox fault of an uncorrectable error -/

/-- The module after an uncorrectable error in slot u that leaves it with firebox b: a firebox fault with the slot's information is
reported, and FAIL is raised (Table 13-3). -/
def State.fireboxFault (s : State) (u : Nat) (b : Tile) : State :=
  ((s.setTile u b).draw.report (srcId 0xA u) (s.tileInfo u)).raiseFail

@[simp] theorem State.sfu_raiseFail (s : State) : s.raiseFail.sfu = s.sfu := by
  unfold State.raiseFail
  split <;> rfl

section
variable (s : State) (u : Nat) (b : Tile)

theorem State.tile_fireboxFault (v : Nat) : (s.fireboxFault u b).tile v = if v = u then b else s.tile v := by
  have hrep := reported_firebox (s.setTile u b).draw u (s.tileInfo u)
  obtain ⟨htiles, _, _⟩ := ((s.setTile u b).draw.report (srcId 0xA u) (s.tileInfo u)).raiseFail_frame
  exact (State.tile_congr (htiles.trans hrep.tiles) v).trans (s.tile_setTile u b v)

theorem State.bar_fireboxFault (o : Nat) :
    (s.fireboxFault u b).bar o = ((s.setTile u b).draw.report (srcId 0xA u) (s.tileInfo u)).bar o := by
  obtain ⟨_, _, hbar⟩ := ((s.setTile u b).draw.report (srcId 0xA u) (s.tileInfo u)).raiseFail_frame
  exact hbar o

theorem State.counted_fireboxFault : (s.fireboxFault u b).bar 0x20068 = s.bar 0x20068 + 1 :=
  (s.bar_fireboxFault u b _).trans (reported_firebox (s.setTile u b).draw u (s.tileInfo u)).counted

theorem State.failStep_fireboxFault (h : s.sched.running = true) : (s.fireboxFault u b).sched.failStep.isSome = true :=
  State.raiseFail_isSome _ ((reported_firebox (s.setTile u b).draw u (s.tileInfo u)).sched ▸ h)

variable {u} (hu : u < 4096)
include hu

theorem State.sfu_fireboxFault : (s.fireboxFault u b).sfu = s.sfu := by
  have hcollect : ((s.setTile u b).draw.collect (srcId 0xA u) (s.tileInfo u) false).sfu = s.sfu :=
    congrArg Kept.sfu (State.standing_collect ..)
  rw [State.fireboxFault, State.sfu_raiseFail, State.report_firebox _ hu]
  split
  · exact hcollect
  · exact hcollect

theorem State.latched_fireboxFault (hf : s.faultSet = false) (hl : s.latchable 0xA = true) :
    (s.fireboxFault u b).bar 0x20004 = BitVec.ofNat 32 (srcId 0xA u) ∧ (s.fireboxFault u b).bar 0x20008 = s.tileInfo u := by
  have hreact : ∀ o, (s.fireboxFault u b).bar o = ((s.setTile u b).draw.collect (srcId 0xA u) (s.tileInfo u) false).bar o := by
    intro o
    rw [State.bar_fireboxFault, State.report_firebox _ hu]
    split <;> rfl
  rw [hreact, hreact]
  exact State.latched_collect (s := (s.setTile u b).draw) u (s.tileInfo u) (by decide) hf hl

theorem State.outstanding_fireboxFault (h : s.slotInUse u = true) : srcId 0xA u ∈ (s.fireboxFault u b).flt.reacts := by
  rw [State.fireboxFault, State.flt_raiseFail, State.report_firebox _ hu, if_pos (show (s.setTile u b).draw.slotInUse u = true from h)]
  exact List.mem_append_right _ (List.mem_singleton.mpr rfl)

end

/-! ## Register errors -/

theorem exec_grateRegisterCe {u : Nat} (hu : u < 272) (s : State) (mask : Bool) (reg : BitVec 5) :
    ∃ info, exec (.grateRegisterCe u mask reg) s = .next (s.report (srcId 1 u) info).draw :=
  ⟨_, guardPart_of_present (decide_eq_true hu) _ _⟩

/-- An uncorrectable register error loses the register's contents, sets GR_UE and stops the grate. -/
theorem exec_grateRegisterUe {u : Nat} (hu : u < 272) (s : State) (mask : Bool) (reg : BitVec 5) :
    ∃ b : Tile, exec (.grateRegisterUe u mask reg) s = .next (s.fireboxFault u b) ∧
      (b.reg 0x0300).getLsbD 11 = true ∧ b.grateStop = true :=
  ⟨_, guardPart_of_present (decide_eq_true hu) _ _, Tile.bit_orReg _ _ (by decide), rfl⟩

/-- Settles O48: both errors are a report of the slot; the uncorrectable one first stops the grate of the slot with GR_UE. -/
theorem grateRegisterErrors : Obligations.GrateRegisterErrors := by
  unfold Obligations.GrateRegisterErrors
  intro s u mask reg hu
  constructor
  · obtain ⟨info, he⟩ := exec_grateRegisterCe hu s mask reg
    have hrep := reported_corr s u info
    refine ⟨_, he, hrep.tiles, hrep.counted, fun hf hl => ?_, hrep.sched⟩
    rw [State.report_corr]
    exact (State.latched_collect u info (by decide) hf hl).1
  · obtain ⟨b, he, hbit, hstop⟩ := exec_grateRegisterUe hu s mask reg
    have hu' : u < 4096 := by omega
    refine ⟨_, he, ?status, ?stops, s.counted_fireboxFault u b, s.latched_fireboxFault b hu', s.outstanding_fireboxFault b hu', fun v hv => ?others⟩
    case status => rw [State.tile_fireboxFault, if_pos rfl]; exact hbit
    case stops => rw [State.tile_fireboxFault, if_pos rfl, Tile.grateRuns, hstop]; rfl
    case others => rw [State.tile_fireboxFault, if_neg hv]

end Sys2Proof.Machine

/-! Scratch and flue rows (R84, R89, R90, R156 to R158, R251): bytes and numbers, the lanes that LDS and FLRD fill, the bytes that STS
stores, and the entries that FLRD takes and FLWR appends. -/

namespace Sys2Proof.Machine

/-! ## Bytes of a number -/

theorem getD_leBytes (n v : Nat) {k : Nat} (h : k < n) : (leBytes n v).getD k 0 = BitVec.ofNat 8 (v / 256 ^ k) := by
  induction n generalizing v k with
  | zero => omega
  | succ n ih =>
    cases k with
    | zero => simp [leBytes]
    | succ k =>
      rw [leBytes, List.getD_cons_succ, ih _ (by omega), Nat.div_div_eq_div_mul, Nat.pow_succ, Nat.mul_comm]

/-- A byte of the number that bytes spell. -/
theorem ofNat_leNat_div (l : List Byte) {k : Nat} (h : k < l.length) : BitVec.ofNat 8 (leNat l / 256 ^ k) = l.getD k 0 := by
  induction l generalizing k with
  | nil => simp at h
  | cons b r ih =>
    cases k with
    | zero =>
      have hb := b.isLt
      apply BitVec.eq_of_toNat_eq
      simp only [leNat, Nat.pow_zero, Nat.div_one, BitVec.toNat_ofNat, List.getD_cons_zero]
      omega
    | succ k =>
      have hb := b.isLt
      have hdiv : (b.toNat + 256 * leNat r) / 256 = leNat r := by omega
      rw [leNat, Nat.pow_succ, Nat.mul_comm (256 ^ k), ← Nat.div_div_eq_div_mul, hdiv, ih (by simpa using h), List.getD_cons_succ]

/-- A lane of a run of bytes, byte by byte. -/
theorem nth_groupLe_mreadN (m : Memory) (a k n : Nat) {i : Nat} (h : i < n) :
    nth 0 (groupLe k n (mreadN m a (n * k))) i = leNat ((List.range k).map (fun j => mread m (a + i * k + j))) := by
  have hle : k * i + k ≤ n * k := calc
    k * i + k = (i + 1) * k := by ring
    _ ≤ n * k := Nat.mul_le_mul_right _ h
  rw [nth_groupLe _ _ _ _ h, mreadN_eq, drop_take_map_range _ _ _ _ hle]
  simp only [Nat.mul_comm k i, Nat.add_assoc]

/-! ## Lanes filled without a flag -/

/-- What writing lanes without a flag does to a firebox. -/
structure LanesFilled (a b : Tile) (g : GrateWord) (w n : Nat) (f : Nat → Nat) : Prop where
  lanes : lanesWritten a b g w n f
  kept : vregsKept a b [g.vd.toNat] (n * (w / 8))
  frame : b = { a with vregs := b.vregs, regs := b.regs }

/-- Lanes written after the wait marks are cleared, as LDS writes them: the marks are no lanes and no masks. -/
theorem lanesFilled_noWait (a : Tile) (g : GrateWord) (fmt : BitVec 4) (n : Nat) (f f' : Nat → Nat) (h : ∀ i, i < n → f i = f' i) :
    LanesFilled a (a.noWait.writeLanes g (laneWidth fmt) n (fun i => (f i, 0))) g (laneWidth fmt) n f' := by
  obtain ⟨hlanes, hkept, hflags, hframe⟩ := a.noWait.writeLanes_result g (laneWidth fmt) n (fun i => (f i, 0)) (laneWidth_cases fmt)
  obtain ⟨_, hnf⟩ := flagsRaised_zero hflags
  refine ⟨lanesWritten_congr hlanes rfl rfl rfl h, hkept, ?_⟩
  conv_lhs => rw [hframe, hnf]
  rfl

/-! ## LDS and STS -/

/-- The byte address of a scratch access (log 112). -/
def scratchAt (a : Tile) (g : GrateWord) : Nat := (a.xget g.va.toNat).toNat + 64 * g.imm.toNat

/-- The bytes of a scratch access. -/
def scratchLen (a : Tile) (g : GrateWord) : Nat := a.vle (laneWidth g.fmt) * (laneWidth g.fmt / 8)

theorem gLds_of_within {a : Tile} {g : GrateWord} (h : scratchAt a g + scratchLen a g ≤ scratchSize) :
    gLds a g = { t := a.noWait.writeLanes g (laneWidth g.fmt) (a.vle (laneWidth g.fmt)) (fun i =>
      (nth 0 (groupLe (laneWidth g.fmt / 8) (a.vle (laneWidth g.fmt)) (mreadN a.scratch (scratchAt a g) (scratchLen a g))) i, 0)) } :=
  if_neg (Nat.not_lt.mpr h)

theorem gLds_of_beyond {a : Tile} {g : GrateWord} (h : scratchSize < scratchAt a g + scratchLen a g) : gLds a g = scratchFault a.noWait :=
  if_pos h

/-- The value that STS gives lane i: the source, or under R84 zero or what memory holds. -/
def stsLane (a : Tile) (g : GrateWord) (i : Nat) : Nat :=
  let w := laneWidth g.fmt
  let n := a.vle w
  if a.active g i then nth 0 (a.srcB g w n) i else if g.mz then 0
    else nth 0 (groupLe (w / 8) n (mreadN a.scratch (scratchAt a g) (n * (w / 8)))) i

theorem stsBytes_eq (a : Tile) (g : GrateWord) :
    stsBytes a g = (scratchAt a g,
      ((List.range (a.vle (laneWidth g.fmt))).map (fun i => leBytes (laneWidth g.fmt / 8) (stsLane a g i))).flatMap id) := by
  rw [List.flatMap_map]
  rfl

theorem length_stsBytes (a : Tile) (g : GrateWord) : (stsBytes a g).2.length = scratchLen a g := by
  rw [stsBytes_eq, flatMap_length_const _ (laneWidth g.fmt / 8) (by simp), List.length_map, List.length_range, scratchLen]

/-- A byte that STS stores. -/
theorem getD_stsBytes (a : Tile) (g : GrateWord) {i k : Nat} (hi : i < a.vle (laneWidth g.fmt)) (hk : k < laneWidth g.fmt / 8) :
    (stsBytes a g).2.getD (i * (laneWidth g.fmt / 8) + k) 0 =
      if a.active g i then BitVec.ofNat 8 (nth 0 (a.srcB g (laneWidth g.fmt) (a.vle (laneWidth g.fmt))) i / 256 ^ k)
      else if g.mz then 0 else mread a.scratch (scratchAt a g + i * (laneWidth g.fmt / 8) + k) := by
  rw [stsBytes_eq, Nat.mul_comm, flatMap_getD 0 _ _ i k (by simp) hk (by simpa using hi), List.getElem_map, List.getElem_range,
    getD_leBytes _ _ hk]
  unfold stsLane
  split
  · rfl
  · split
    · rw [Nat.zero_div]; rfl
    · rw [nth_groupLe_mreadN _ _ _ _ hi, ofNat_leNat_div _ (by simpa using hk), List.getD_eq_getElem _ _ (by simpa using hk), List.getElem_map,
        List.getElem_range, Nat.mul_comm i]

/-- Scratch after STS, at a byte of the access. -/
theorem mread_sts (a : Tile) (g : GrateWord) {i k : Nat} (hi : i < a.vle (laneWidth g.fmt)) (hk : k < laneWidth g.fmt / 8) :
    mread (mwrite a.scratch (scratchAt a g) (stsBytes a g).2) (scratchAt a g + i * (laneWidth g.fmt / 8) + k) =
      if a.active g i then BitVec.ofNat 8 (nth 0 (a.srcB g (laneWidth g.fmt) (a.vle (laneWidth g.fmt))) i / 256 ^ k)
      else if g.mz then 0 else mread a.scratch (scratchAt a g + i * (laneWidth g.fmt / 8) + k) := by
  have hbyte : i * (laneWidth g.fmt / 8) + k < scratchLen a g := calc
    i * (laneWidth g.fmt / 8) + k < (i + 1) * (laneWidth g.fmt / 8) := by rw [Nat.succ_mul]; omega
    _ ≤ scratchLen a g := Nat.mul_le_mul_right _ hi
  rw [mread_mwrite, length_stsBytes, if_pos (by omega), Nat.add_assoc, Nat.add_sub_cancel_left, getD_stsBytes a g hi hk, Nat.add_assoc]

/-- Scratch after STS, outside the access. -/
theorem mread_sts_ne (a : Tile) (g : GrateWord) {x : Nat} (h : ¬ (scratchAt a g ≤ x ∧ x < scratchAt a g + scratchLen a g)) :
    mread (mwrite a.scratch (scratchAt a g) (stsBytes a g).2) x = mread a.scratch x := by
  rw [mread_mwrite, length_stsBytes, if_neg h]

/-- Whether no guarded range meets the bytes of an access (R242). -/
def clearOf (guard : List (Nat × Nat)) (x n : Nat) : Prop := ∀ r ∈ guard, r.2 ≤ x ∨ x + n ≤ r.1

theorem gSts_of_within {e : GEnv} {a : Tile} {g : GrateWord} (h : scratchAt a g + scratchLen a g ≤ scratchSize)
    (hg : clearOf e.guard (scratchAt a g) (scratchLen a g)) :
    gSts e a g = { t := { a.noWait with scratch := mwrite a.scratch (scratchAt a g) (stsBytes a g).2 } } := by
  have hlen : (stsBytes a.noWait g).2.length = scratchLen a g := length_stsBytes a.noWait g
  have hat : (stsBytes a.noWait g).1 = scratchAt a g := rfl
  have hany : e.guard.any (fun r => decide (scratchAt a g < r.2 ∧ r.1 < scratchAt a g + scratchLen a g)) = false := by
    rw [List.any_eq_false]
    intro r hr
    have := hg r hr
    simp only [decide_eq_true_eq]
    omega
  simp only [gSts, hlen, hat, if_neg (Nat.not_lt.mpr h), hany, Bool.false_eq_true, if_false]
  rfl

theorem gSts_of_beyond {e : GEnv} {a : Tile} {g : GrateWord} (h : scratchSize < scratchAt a g + scratchLen a g) :
    gSts e a g = scratchFault a.noWait := by
  have hlen : (stsBytes a.noWait g).2.length = scratchLen a g := length_stsBytes a.noWait g
  have hat : (stsBytes a.noWait g).1 = scratchAt a g := rfl
  simp only [gSts, hlen, hat, if_pos h]

/-- What an access beyond the scratch leaves (R90). -/
theorem answers_scratchFault {c : Instr} {s : State} {t : BitVec 8} {f : GEnv → Tile → GRes} (h : GrateReady s t)
    (hc : exec c s = .next (s.grate t f)) (hf : f (s.grateEnv (s.ltile t.toNat)) (s.ltile t.toNat) = scratchFault (s.ltile t.toNat).noWait) :
    Answers c s (fun s' =>
      let a := s.ltile t.toNat
      let b := s'.ltile t.toNat
      b.scratch = a.scratch ∧ b.vregs = a.vregs ∧ b.grateStop = true ∧ (b.reg 0x0300).getLsbD 5 = true ∧
      s'.bar 0x20058 = s.bar 0x20058 + 1) := by
  obtain ⟨htile, _, _, hcount⟩ := grate_faults h hf
  refine ⟨_, hc, ?_⟩
  dsimp only
  rw [htile]
  exact ⟨rfl, rfl, rfl, Tile.bit_orReg _ _ (by decide), hcount⟩

/-! ## FLRD and FLWR -/

/-- The flue that a word names under R251, as its own word names it. -/
theorem flueWord_flue (a : Tile) (g : GrateWord) :
    (flueWord g a).imm.toNat % 256 = a.stoker.subst (g.imm.toNat % 256) % 256 := by
  simp only [flueWord, BitVec.toNat_ofNat]
  omega

@[simp] theorem Stream.entries_trim (st : Stream) (fmt : BitVec 4) : (st.trim fmt).entries = st.entries := by
  unfold Stream.trim
  split
  · rfl
  · split <;> rfl

/-- The stream of a flue after n entries that no pass holds have left it. -/
def Stream.taken (st : Stream) (fmt : BitVec 4) (n : Nat) : Stream :=
  ({ st with entries := st.entries.take st.claimed ++ st.entries.drop (st.claimed + n) } : Stream).trim fmt

theorem nth_take {α : Type} (d : α) (l : List α) {n i : Nat} (h : i < n) : nth d (l.take n) i = nth d l i := by
  simp only [nth_eq_getD, List.getD_eq_getElem?_getD, List.getElem?_take_of_lt h]

/-- The stream of the flue that a word names. -/
def Tile.flue (a : Tile) (g : GrateWord) : Stream := a.stream (g.imm.toNat % 256)

/-- The entry that FLRD puts in lane i. -/
def flrdEntry (a : Tile) (g : GrateWord) (i : Nat) : Nat × Nat :=
  nth (0, 0) (((a.flue g).entries.drop (a.flue g).claimed).take (a.vle (laneWidth g.fmt))) i

theorem flrdEntry_eq (a : Tile) (g : GrateWord) {i : Nat} (h : i < a.vle (laneWidth g.fmt)) :
    flrdEntry a g i = nth (0, 0) ((a.flue g).entries.drop (a.flue g).claimed) i := nth_take _ _ h

/-- The firebox with the entries that FLRD takes gone from their flue and their codes in v[VD]. -/
def flrdLanes (a : Tile) (g : GrateWord) : Tile :=
  let n := a.vle (laneWidth g.fmt)
  (a.noWait.setStream (g.imm.toNat % 256) ((a.flue g).taken g.fmt n)).writeLanes g (laneWidth g.fmt) n
    (fun i => (laneOfEntry g.fmt (flrdEntry a g i).1, 0))

/-- The number of scale blocks of n lanes. -/
def scaleBlocks (fmt : BitVec 4) (n : Nat) : Nat := (n + scaleBlock fmt - 1) / scaleBlock fmt

/-- The block scales of the entries that FLRD takes. -/
def flrdScales (a : Tile) (g : GrateWord) : List (Option Nat) :=
  (List.range (scaleBlocks g.fmt (a.vle (laneWidth g.fmt)))).map (fun j => some ((flrdEntry a g (scaleBlock g.fmt * j)).2 % 256))

/-- The firebox after an FLRD that finds its entries. -/
def flrdTile (a : Tile) (g : GrateWord) : Tile :=
  if scaleBlock g.fmt = 0 then flrdLanes a g else (flrdLanes a g).putLanes g.vc.toNat 8 (flrdScales a g)

theorem gFlrd_of_avail {a : Tile} {g : GrateWord} (h : a.vle (laneWidth g.fmt) ≤ (a.flue g).avail) :
    gFlrd a g = { t := flrdTile a g } := by
  have havail : ¬ (a.noWait.flue g).avail < a.noWait.vle (laneWidth g.fmt) := Nat.not_lt.mpr h
  refine (if_neg havail).trans ?_
  unfold flrdTile
  split <;> rfl

/-- FLRD leaves all of the firebox but v[VD], v[VC] and its flue. -/
theorem flrdTile_frame (a : Tile) (g : GrateWord) :
    flrdTile a g = { a with
      streams := (flrdTile a g).streams, vregs := (flrdTile a g).vregs, regs := (flrdTile a g).regs, nfSeen := (flrdTile a g).nfSeen } := by
  unfold flrdTile
  split <;> rfl

theorem flrdTile_streams (a : Tile) (g : GrateWord) :
    (flrdTile a g).streams = tset a.streams (g.imm.toNat % 256) ((a.flue g).taken g.fmt (a.vle (laneWidth g.fmt))) := by
  unfold flrdTile
  split <;> rfl

theorem lanesWritten_flrdLanes (a : Tile) (g : GrateWord) :
    lanesWritten a (flrdLanes a g) g (laneWidth g.fmt) (a.vle (laneWidth g.fmt)) (fun i => laneOfEntry g.fmt (flrdEntry a g i).1) :=
  lanesWritten_congr (Tile.writeLanes_result _ _ _ _ _ (laneWidth_cases g.fmt)).1 rfl rfl rfl fun _ _ => rfl

/-- The code that FLWR takes from lane i; an inactive lane with MZ = 0 has no stated value, so a free one stands there (log 13). -/
def flwrCode (e : GEnv) (a : Tile) (g : GrateWord) (i : Nat) : Nat :=
  if a.active g i then nth 0 (a.lanes g.va.toNat (laneWidth g.fmt) (a.vle (laneWidth g.fmt))) i
  else if g.mz then 0
  else leNat ((List.range (laneWidth g.fmt / 8)).map (fun k => Config.freeByte e.free (4 * i + k)))

theorem flwrCode_of_active (e : GEnv) {a : Tile} {g : GrateWord} {i : Nat} (h : a.active g i = true) :
    flwrCode e a g i = nth 0 (a.lanes g.va.toNat (laneWidth g.fmt) (a.vle (laneWidth g.fmt))) i := if_pos h

theorem flwrCode_of_zeroed (e : GEnv) {a : Tile} {g : GrateWord} {i : Nat} (h : a.active g i = false) (hz : g.mz = true) :
    flwrCode e a g i = 0 := by
  rw [flwrCode, h, if_neg Bool.false_ne_true, hz, if_pos rfl]

/-- The entries that FLWR appends. -/
def flwrEntries (e : GEnv) (a : Tile) (g : GrateWord) : List (Nat × Nat) :=
  let scales := if scaleBlock g.fmt = 0 then [] else a.lanes g.vc.toNat 8 (scaleBlocks g.fmt (a.vle (laneWidth g.fmt)))
  (List.range (a.vle (laneWidth g.fmt))).map (fun i =>
    (entryOfLane g.fmt (flwrCode e a g i), if scaleBlock g.fmt = 0 then 0 else nth 0 scales (i / scaleBlock g.fmt)))

theorem length_flwrEntries (e : GEnv) (a : Tile) (g : GrateWord) : (flwrEntries e a g).length = a.vle (laneWidth g.fmt) := by
  rw [flwrEntries, List.length_map, List.length_range]

theorem nth_flwrEntries (e : GEnv) (a : Tile) (g : GrateWord) {i : Nat} (h : i < a.vle (laneWidth g.fmt)) :
    (nth (0, 0) (flwrEntries e a g) i).1 = flwrCode e a g i % 2 ^ elemWidth g.fmt := by
  rw [nth_eq_getD, List.getD_eq_getElem _ _ (by rwa [length_flwrEntries])]
  simp only [flwrEntries, List.getElem_map, List.getElem_range, entryOfLane]

/-- The firebox after an FLWR into a flue with room; a watched flue may also note a NaN or an infinity. -/
def flwrTile (e : GEnv) (a : Tile) (g : GrateWord) : Tile :=
  let es := flwrEntries e a g
  let b := a.noWait.setStream (g.imm.toNat % 256) { a.flue g with entries := (a.flue g).entries ++ es }
  if sdWatch (a.flue g).sd && es.any (fun p => !(decodeElem g.fmt p.1).isFin || (isScaled g.fmt && p.2 == 255)) then b.raise fNF else b

theorem gFlwr_of_room {e : GEnv} {a : Tile} {g : GrateWord} (h : (a.flue g).room g.fmt (a.vle (laneWidth g.fmt)) = true) :
    ∃ d, gFlwr e a g = { t := flwrTile e a g, drew := d } := by
  have hroom : ¬ (!(a.noWait.flue g).room g.fmt (a.noWait.vle (laneWidth g.fmt))) = true := by
    rw [Bool.not_eq_true', Bool.not_eq_false]
    exact h
  exact ⟨_, if_neg hroom⟩

/-- FLWR leaves all of the firebox but its flue and its status words. -/
theorem flwrTile_frame (e : GEnv) (a : Tile) (g : GrateWord) :
    flwrTile e a g = { a with streams := (flwrTile e a g).streams, regs := (flwrTile e a g).regs, nfSeen := (flwrTile e a g).nfSeen } := by
  unfold flwrTile
  extract_lets es b
  split <;> rfl

theorem flwrTile_streams (e : GEnv) (a : Tile) (g : GrateWord) : (flwrTile e a g).streams =
    tset a.streams (g.imm.toNat % 256) { a.flue g with entries := (a.flue g).entries ++ flwrEntries e a g } := by
  unfold flwrTile
  extract_lets es b
  split <;> rfl

/-- Lanes of one register are not touched by lanes put to another. -/
theorem Tile.lanes_putLanes_ne (a : Tile) {r r' w w' n : Nat} (vals : List (Option Nat)) (hr : r ≠ r') (hn : n * (w / 8) ≤ 2048)
    (hm : vals.length * (w' / 8) ≤ 2048) : (a.putLanes r' w' vals).lanes r w n = a.lanes r w n := by
  unfold Tile.lanes
  congr 1
  simp only [mreadN_eq]
  refine List.map_congr_left fun i hi => a.vregs_putLanes r' w' vals _ ?_
  have := List.mem_range.mp hi
  omega

theorem scaleBlocks_mul_lt {fmt : BitVec 4} {n j : Nat} (hb : scaleBlock fmt ≠ 0) (hj : j < scaleBlocks fmt n) : scaleBlock fmt * j < n := by
  have hpos := Nat.pos_of_ne_zero hb
  have := (Nat.le_div_iff_mul_le hpos).mp (Nat.succ_le_of_lt hj)
  rw [Nat.succ_mul, Nat.mul_comm] at this
  omega

theorem scaleBlocks_le (fmt : BitVec 4) (n : Nat) : scaleBlocks fmt n ≤ n := by
  unfold scaleBlocks
  by_cases hb : scaleBlock fmt = 0
  · rw [hb, Nat.div_zero]
    omega
  · exact blocks_le n _ (Nat.pos_of_ne_zero hb)

theorem length_flrdScales (a : Tile) (g : GrateWord) : (flrdScales a g).length = scaleBlocks g.fmt (a.vle (laneWidth g.fmt)) := by
  rw [flrdScales, List.length_map, List.length_range]

/-- The codes stand in v[VD] unless the scales overwrite them. -/
theorem lanesWritten_flrdTile (a : Tile) (g : GrateWord) (h : scaleBlock g.fmt = 0 ∨ g.vd ≠ g.vc) :
    lanesWritten a (flrdTile a g) g (laneWidth g.fmt) (a.vle (laneWidth g.fmt)) (fun i => laneOfEntry g.fmt (flrdEntry a g i).1) := by
  have hcodes := lanesWritten_flrdLanes a g
  unfold flrdTile
  split
  · exact hcodes
  · rename_i hb
    have hne : g.vd.toNat ≠ g.vc.toNat := toNat_ne_of_ne (h.resolve_left hb)
    have hlen := a.vle_bytes_le (w := 8) (v := laneWidth g.fmt) (scaleBlocks_le g.fmt _) (by rcases laneWidth_cases g.fmt with h | h | h <;> omega)
    intro i hi
    rw [Tile.lanes_putLanes_ne _ _ hne (a.vle_bytes_le le_rfl le_rfl) (by rw [length_flrdScales]; exact hlen)]
    exact hcodes i hi

/-- The scale of block j stands in 8-bit lane j of v[VC]. -/
theorem scale_flrdTile (a : Tile) (g : GrateWord) {j : Nat} (hb : scaleBlock g.fmt ≠ 0) (hj : j < scaleBlocks g.fmt (a.vle (laneWidth g.fmt))) :
    nth 0 ((flrdTile a g).lanes g.vc.toNat 8 (scaleBlocks g.fmt (a.vle (laneWidth g.fmt)))) j =
      (flrdEntry a g (scaleBlock g.fmt * j)).2 % 256 := by
  rw [flrdTile, if_neg hb, ← length_flrdScales, Tile.nth_lanes_putLanes _ _ _ _ _ (by rwa [length_flrdScales])]
  simp [flrdScales]

theorem Tile.stream_of_streams {a b : Tile} {n : Nat} {st : Stream} (h : b.streams = tset a.streams n st) (k : Nat) :
    b.stream k = if k = n then st else a.stream k := by
  rw [Tile.stream, h, tget_tset, Tile.stream]

/-- What an FLRD that finds its entries does: codes, scales, the flue, and the rest of the firebox. -/
structure FlrdDone (a b : Tile) (g : GrateWord) (st : Stream) (sn : Nat) : Prop where
  codes : scaleBlock g.fmt = 0 ∨ g.vd ≠ g.vc → lanesWritten a b g (laneWidth g.fmt) (a.vle (laneWidth g.fmt))
    (fun i => laneOfEntry g.fmt (nth (0, 0) (st.entries.drop st.claimed) i).1)
  scales : scaleBlock g.fmt ≠ 0 → ∀ j, j < scaleBlocks g.fmt (a.vle (laneWidth g.fmt)) →
    nth 0 (b.lanes g.vc.toNat 8 (scaleBlocks g.fmt (a.vle (laneWidth g.fmt)))) j =
      (nth (0, 0) (st.entries.drop st.claimed) (scaleBlock g.fmt * j)).2 % 256
  taken : (b.stream sn).entries = st.entries.take st.claimed ++ st.entries.drop (st.claimed + a.vle (laneWidth g.fmt))
  others : ∀ m, m ≠ sn → b.stream m = a.stream m
  kept : b.scratch = a.scratch ∧ b.masks = a.masks ∧ b.x = a.x ∧ b.ash = a.ash

theorem flrdDone_flrdTile (a : Tile) (g : GrateWord) : FlrdDone a (flrdTile a g) g (a.flue g) (g.imm.toNat % 256) := by
  have hstream := Tile.stream_of_streams (flrdTile_streams a g)
  refine ⟨fun hb => ?codes, fun hb j hj => ?scales, ?taken, fun m hm => (hstream m).trans (if_neg hm), ?kept⟩
  case codes =>
    exact lanesWritten_congr (lanesWritten_flrdTile a g hb) rfl rfl rfl fun i hi => by rw [flrdEntry_eq a g hi]
  case scales => rw [scale_flrdTile a g hb hj, flrdEntry_eq a g (scaleBlocks_mul_lt hb hj)]
  case taken => exact (congrArg Stream.entries ((hstream _).trans (if_pos rfl))).trans (Stream.entries_trim ..)
  case kept => rw [flrdTile_frame]; exact ⟨rfl, rfl, rfl, rfl⟩

/-- What an FLWR into a flue with room does: es are the entries appended. -/
structure FlwrDone (a b : Tile) (g : GrateWord) (st : Stream) (sn : Nat) (es : List (Nat × Nat)) : Prop where
  appended : (b.stream sn).entries = st.entries ++ es
  count : es.length = a.vle (laneWidth g.fmt)
  active : ∀ i, i < a.vle (laneWidth g.fmt) → a.active g i = true →
    (nth (0, 0) es i).1 = nth 0 (a.lanes g.va.toNat (laneWidth g.fmt) (a.vle (laneWidth g.fmt))) i % 2 ^ elemWidth g.fmt
  zeroed : ∀ i, i < a.vle (laneWidth g.fmt) → a.active g i = false → g.mz = true → (nth (0, 0) es i).1 = 0
  others : ∀ m, m ≠ sn → b.stream m = a.stream m
  kept : b.scratch = a.scratch ∧ b.vregs = a.vregs ∧ b.masks = a.masks ∧ b.x = a.x

theorem flwrDone_flwrTile (e : GEnv) (a : Tile) (g : GrateWord) :
    FlwrDone a (flwrTile e a g) g (a.flue g) (g.imm.toNat % 256) (flwrEntries e a g) := by
  have hstream := Tile.stream_of_streams (flwrTile_streams e a g)
  refine ⟨congrArg Stream.entries ((hstream _).trans (if_pos rfl)), length_flwrEntries e a g, fun i hi ha => ?active,
    fun i hi ha hz => ?zeroed, fun m hm => (hstream m).trans (if_neg hm), ?kept⟩
  case active => rw [nth_flwrEntries e a g hi, flwrCode_of_active e ha]
  case zeroed => rw [nth_flwrEntries e a g hi, flwrCode_of_zeroed e ha hz, Nat.zero_mod]
  case kept => rw [flwrTile_frame]; exact ⟨rfl, rfl, rfl, rfl⟩

/-- Settles O25: LDS and FLRD fill lanes without a flag, STS stores the bytes of its lanes, an access beyond the scratch is a program
fault, and the flue of FLRD and FLWR is the one that R251 gives their word. -/
theorem scratchAndFlueRows : Obligations.ScratchAndFlueRows := by
  unfold Obligations.ScratchAndFlueRows
  intro t g s h a w n at_ sn sb st
  have hsn : (flueWord g a).imm.toNat % 256 = sn := flueWord_flue a g
  have hflue : a.flue (flueWord g a) = st := congrArg a.stream hsn
  refine ⟨fun hin => ?lds, fun hin hguard => ?sts, fun hout => ?beyond, fun havail => ?flrd, fun hroom => ?flwr⟩
  case lds =>
    obtain ⟨hlanes, hkept, hframe⟩ := lanesFilled_noWait a g g.fmt n _ _ fun i hi => nth_groupLe_mreadN a.scratch at_ (w / 8) n hi
    obtain ⟨s', hs', htile⟩ := exec_grate_tile (c := .lds t g) (f := fun _ a => gLds a g) rfl h (gLds_of_within hin)
    refine ⟨s', hs', ?_⟩
    dsimp only
    rw [htile]
    exact ⟨hlanes, hkept, lanes_past_frame hframe rfl⟩
  case sts =>
    obtain ⟨s', hs', htile⟩ := exec_grate_tile (c := .sts t g) (f := fun e a => gSts e a g) rfl h (gSts_of_within hin hguard)
    refine ⟨s', hs', ?_⟩
    dsimp only
    rw [htile]
    exact ⟨rfl, fun x hx => mread_sts_ne a g hx, fun i k hi hk => mread_sts a g hi hk⟩
  case beyond =>
    simp only [List.forall_mem_cons, List.not_mem_nil, false_implies, implies_true, and_true]
    exact ⟨answers_scratchFault (f := fun _ a => gLds a g) h rfl (gLds_of_beyond hout),
      answers_scratchFault (f := fun e a => gSts e a g) h rfl (gSts_of_beyond hout)⟩
  case flrd =>
    obtain ⟨hcodes, hscales, htaken, hothers, hscratch, hmasks, hx, hash⟩ := hflue ▸ hsn ▸ flrdDone_flrdTile a (flueWord g a)
    have hf : gFlrd a (flueWord g a) = { t := flrdTile a (flueWord g a) } := gFlrd_of_avail (by rw [hflue]; exact havail)
    obtain ⟨s', hs', htile⟩ := exec_grate_tile (c := .flrd t g) (f := fun _ a => gFlrd a (flueWord g a)) rfl h hf
    refine ⟨s', hs', ?_⟩
    dsimp only
    rw [htile]
    exact ⟨hcodes, hscales, htaken, hothers, hscratch, hmasks, hx, hash⟩
  case flwr =>
    obtain ⟨happ, hcount, hact, hzero, hothers, hkept⟩ := hflue ▸ hsn ▸ flwrDone_flwrTile (s.grateEnv a) a (flueWord g a)
    obtain ⟨d, hf⟩ := gFlwr_of_room (e := s.grateEnv a) (a := a) (g := flueWord g a) (by rw [hflue]; exact hroom)
    obtain ⟨s', hs', htile⟩ := exec_grate_tile (c := .flwr t g) (f := fun e a => gFlwr e a (flueWord g a)) rfl h hf
    refine ⟨s', hs', ?_⟩
    dsimp only
    rw [htile]
    exact ⟨⟨_, happ, hcount, hact, hzero⟩, hothers, hkept⟩

end Sys2Proof.Machine

/-! The SFU store (R102, R103, R111 to R122): TABLE_LOAD, the end of its check, store errors, tile-buffer mode. -/

namespace Sys2Proof.Machine

/-! ## Outcomes of a slot -/

@[simp] theorem getSlot_putSlot_same {α : Type} (l : List (Slot × α)) (k : Slot) (v : α) : getSlot (putSlot l k v) k = some v := by
  have hrest : ∀ m : List (Slot × α), getSlot (m.filter (fun p => p.1 != k) ++ [(k, v)]) k = some v := by
    intro m
    induction m with
    | nil => exact if_pos rfl
    | cons p r ih =>
      by_cases hp : p.1 = k
      · rwa [List.filter_cons_of_neg (by simpa using hp)]
      · rw [List.filter_cons_of_pos (by simpa using hp), List.cons_append, getSlot, if_neg hp]
        exact ih
  exact hrest l

theorem State.outcome_okWaiting {s : State} {k : Slot} (h : (getSlot s.ctl.waiting k).isSome = true) (l : List Byte) :
    (s.okWaiting k l).outcome k = some { status := 0, data := l } := by
  rw [State.okWaiting, if_pos h]
  exact getSlot_putSlot_same ..

/-- A refusal of a command that waits, without its permission. -/
theorem State.denyWaiting_noPerm {s : State} {k : Slot} (h : (getSlot s.ctl.waiting k).isSome = true) :
    (s.denyWaiting k stNOPERM).outcome k = some { status := 0x0030 } ∧ (s.denyWaiting k stNOPERM).standing = s.standing := by
  rw [State.denyWaiting, if_pos h]
  exact ⟨getSlot_putSlot_same .., rfl⟩

/-! ## TABLE_LOAD -/

/-- The images of a load are in order, and its bank serves the context's programs (R111, R117, R118). -/
structure LoadInOrder (s : State) (c g step : Nat) (images : List Byte) (l : List LoadImage) : Prop where
  free : s.sfu.swapArmed = false ∧ s.sfu.checkRun = false ∧ (s.ctx c).pendSwap = none
  parsed : parseImages images.length images = some l
  other : g ≠ (s.ctx c).tgen
  running : (s.ctx c).state = 1 → g ≠ s.sfu.actGen.toNat ∧ (s.ctx c).stepCommitted + 1 < step
  stopped : (s.ctx c).state ≠ 1 → step = 0 ∨ (s.ctx c).stepCommitted < step
  atOnce : step = 0 → s.anyRunning = false
  wellMade : ∀ i ∈ l, i.clear = true ∧ headerOk i.image = true ∧ opsOk i.image = true
  spare : s.spareFree = true
  fits : ((s.bankImage c (s.ctx c).tgen).withImages l).hard.length ≤ 8192
  serves : (s.ctx c).bankOk ((s.bankImage c (s.ctx c).tgen).withImages l) = true

theorem State.tableLoad_of_inOrder {s : State} {c g step : Nat} {images : List Byte} {l : List LoadImage}
    (h : LoadInOrder s c g step images l) (k : Slot) :
    s.tableLoad k g c step images =
      ({ s with sfu := { s.sfu with
          checkRun := true, checking := some (k, c, g, step, (s.bankImage c (s.ctx c).tgen).withImages l) } } : State).wait k
        (.tableLoad k (BitVec.ofNat 16 g) (BitVec.ofNat 2 c) (BitVec.ofNat 48 step) images) := by
  obtain ⟨⟨harmed, hcheck, hpend⟩, hparsed, hother, hrun, hstop, honce, hmade, hspare, hfits, hserves⟩ := h
  have hclear : l.any (fun i => !i.clear) = false := by
    rw [List.any_eq_false]
    intro i hi
    obtain ⟨hi, _, _⟩ := hmade i hi
    simp [hi]
  have hform : l.any (fun i => !(headerOk i.image && opsOk i.image)) = false := by
    rw [List.any_eq_false]
    intro i hi
    obtain ⟨_, hhead, hops⟩ := hmade i hi
    simp [hhead, hops]
  have hgen : (g == (s.ctx c).tgen) = false := by simpa using hother
  have hact : ((s.ctx c).state == 1 && g == s.sfu.actGen.toNat) = false := by
    by_cases hr : (s.ctx c).state = 1
    · simpa [hr] using (hrun hr).1
    · simp [hr]
  have hstep : (if (s.ctx c).state == 1 then decide (step ≤ (s.ctx c).stepCommitted + 1)
      else step != 0 && decide (step ≤ (s.ctx c).stepCommitted)) = false := by
    by_cases hr : (s.ctx c).state = 1
    · simpa [hr] using (hrun hr).2
    · simpa [hr, or_iff_not_imp_left] using hstop hr
  have hnow : (step == 0 && s.anyRunning) = false := by
    by_cases h0 : step = 0
    · simp [h0, honce h0]
    · simp [h0]
  have hlong : decide (8192 < ((s.bankImage c (s.ctx c).tgen).withImages l).hard.length) = false := decide_eq_false (Nat.not_lt.mpr hfits)
  unfold State.tableLoad
  simp only [harmed, hcheck, hpend, hparsed, hclear, hform, hspare, hserves, hgen, hact, hstep, hnow, hlong, Option.isSome_none,
    Bool.or_false, Bool.not_true, Bool.false_eq_true, if_false]

/-! ## The end of the check -/

/-- The check has ended. -/
def State.checkEnded (s : State) : State := { s with sfu := { s.sfu with checkRun := false, checking := none } }

/-- The check has ended, and the bank is kept under its generation (R115). -/
def State.bankKept (s : State) (c g : Nat) (b : Bank) : State :=
  { s.checkEnded with
    sfu := { s.checkEnded.sfu with images := s.sfu.images.filter (fun i => !(i.1 == c && i.2.1 == g)) ++ [(c, g, b)] }
    ember := { s.ember with imagesSent := s.ember.imagesSent.filter (fun i => i != (c, g)) } }

/-- A kept bank at its place: swapped, armed, active or pending (R120, R122). -/
def State.bankPlaced (s : State) (c g step : Nat) (b : Bank) : State :=
  let m := s.bankKept c g b
  let cx := s.ctx c
  if (cx.state = 1 ∨ cx.state = 2) ∧ step = cx.stepCommitted + 1 then (m.armSwap b c g step).swapBanks
  else if cx.state = 1 ∨ (cx.state = 2 ∧ cx.stepCommitted + 1 < step) then m.armSwap b c g step
  else if step = 0 ∧ !s.anyRunning then (m.writeActive b g).setCtx c { cx with tgen := g }
  else m.setCtx c { cx with pendSwap := some (g, step) }

section
variable {s : State} {k : Slot} {c g step : Nat} {b : Bank} (hk : s.sfu.checking = some (k, c, g, step, b))
include hk

theorem State.checkComplete_of_fail (hp : b.slots.all (fun p => slotPasses b p.1 p.2) = false) :
    s.checkComplete = s.checkEnded.denyWaiting k stNOPERM := by
  simp only [State.checkComplete, hk, hp, Bool.not_false, if_true]
  rfl

theorem State.checkComplete_of_pass (hp : b.slots.all (fun p => slotPasses b p.1 p.2) = true) :
    s.checkComplete = (s.bankPlaced c g step b).okWaiting k [] := by
  simp only [State.checkComplete, hk, hp, Bool.not_true, Bool.false_eq_true, if_false]
  rfl

end

/-- Banks are moved, and no command, no firebox, no check and no kept image is touched. -/
structure BanksMoved (m t : State) : Prop where
  ctl : t.ctl = m.ctl
  tiles : t.tiles = m.tiles
  checkRun : t.sfu.checkRun = m.sfu.checkRun
  checking : t.sfu.checking = m.sfu.checking
  images : t.sfu.images = m.sfu.images

theorem banksMoved_armSwap (m : State) (b : Bank) (c g step : Nat) : BanksMoved m (m.armSwap b c g step) := by
  unfold State.armSwap
  dsimp only
  split <;> exact ⟨rfl, rfl, rfl, rfl, rfl⟩

theorem banksMoved_armSwap_swapBanks (m : State) (b : Bank) (c g step : Nat) : BanksMoved m (m.armSwap b c g step).swapBanks := by
  obtain ⟨hctl, htiles, hrun, hchecking, himages⟩ := banksMoved_armSwap m b c g step
  exact ⟨hctl, htiles, hrun, hchecking, himages⟩

theorem banksMoved_writeActive_setCtx (m : State) (b : Bank) (c g : Nat) (cx : Ctx) : BanksMoved m ((m.writeActive b g).setCtx c cx) := by
  have hsfu : (m.writeActive b g).sfu = if m.sfu.actBank then { m.sfu with bank1 := b, actGen := BitVec.ofNat 16 g }
      else { m.sfu with bank0 := b, actGen := BitVec.ofNat 16 g } := rfl
  refine ⟨rfl, rfl, ?_, ?_, ?_⟩
  all_goals
    rw [State.setCtx_sfu, hsfu]
    split <;> rfl

theorem banksMoved_bankPlaced (s : State) (c g step : Nat) (b : Bank) : BanksMoved (s.bankKept c g b) (s.bankPlaced c g step b) := by
  unfold State.bankPlaced
  dsimp only
  split
  · exact banksMoved_armSwap_swapBanks ..
  · split
    · exact banksMoved_armSwap ..
    · split
      · exact banksMoved_writeActive_setCtx ..
      · exact ⟨rfl, rfl, rfl, rfl, rfl⟩

/-- The kept bank is the image of its generation. -/
theorem State.bankImage_of_images {s t : State} {c g : Nat} {b : Bank} (h : t.sfu.images = (s.bankKept c g b).sfu.images) :
    t.bankImage c g = if g = 0 then builtinBank else b := by
  have hfind : t.sfu.images.find? (fun i => i.1 == c && i.2.1 == g) = some (c, g, b) := by
    have hnone : (s.sfu.images.filter (fun i => !(i.1 == c && i.2.1 == g))).find? (fun i => i.1 == c && i.2.1 == g) = none := by
      rw [List.find?_eq_none]
      intro i hi
      exact Bool.eq_false_iff.mp ((Bool.not_eq_true' _).mp (List.mem_filter.mp hi).2)
    rw [h]
    exact (List.find?_append ..).trans (by rw [hnone]; simp)
  rw [State.bankImage, hfind]

/-! ## Where a kept bank goes (R119, R120, R122) -/

section
variable (m : State) (b : Bank) (c g step : Nat)

/-- A swap at once: the shadow bank is the active one. -/
theorem State.swapped_armSwap : let t := (m.armSwap b c g step).swapBanks
    t.sfu.actBank = (!m.sfu.actBank) ∧ t.sfu.actGen = BitVec.ofNat 16 g ∧ t.sfu.swapArmed = false ∧ t.sfu.shdValid = false ∧
    t.sfu.active = b ∧ t.sfu.cntSwap = m.sfu.cntSwap + 1 ∧ t.ctx c = { m.ctx c with tgen := g % 65536, pendSwap := none } := by
  unfold State.armSwap
  cases hact : m.sfu.actBank
  all_goals
    refine ⟨?_, rfl, rfl, rfl, ?_, rfl, ?_⟩
    · exact congrArg not hact
    · simp [Sfu.active, State.swapBanks, hact]
    · exact (State.ctx_setCtx ..).trans (if_pos rfl)

/-- A swap armed: the shadow bank holds the bank. -/
theorem State.armed_armSwap : let t := m.armSwap b c g step
    t.sfu.swapArmed = true ∧ t.sfu.shdValid = true ∧ t.sfu.swapCtx = c ∧ t.sfu.swapStep = step ∧
    (if m.sfu.actBank then t.sfu.bank0 = b ∧ t.sfu.bank1 = m.sfu.bank1 else t.sfu.bank1 = b ∧ t.sfu.bank0 = m.sfu.bank0) ∧
    t.ctxs = m.ctxs := by
  unfold State.armSwap
  cases m.sfu.actBank
  all_goals
    exact ⟨rfl, rfl, rfl, rfl, ⟨rfl, rfl⟩, rfl⟩

end

/-- A bank written over the active bank. -/
theorem State.written_writeActive (m : State) (b : Bank) (g : Nat) :
    (m.writeActive b g).sfu.actGen = BitVec.ofNat 16 g ∧
    (if m.sfu.actBank then (m.writeActive b g).sfu.bank1 = b else (m.writeActive b g).sfu.bank0 = b) := by
  unfold State.writeActive
  cases m.sfu.actBank
  all_goals
    exact ⟨rfl, rfl⟩

section
variable {s : State} {c g step : Nat} {b : Bank}

theorem State.bankPlaced_of_now (h : ((s.ctx c).state = 1 ∨ (s.ctx c).state = 2) ∧ step = (s.ctx c).stepCommitted + 1) :
    s.bankPlaced c g step b = ((s.bankKept c g b).armSwap b c g step).swapBanks := if_pos h

variable (hnow : ¬ (((s.ctx c).state = 1 ∨ (s.ctx c).state = 2) ∧ step = (s.ctx c).stepCommitted + 1))
include hnow

theorem State.bankPlaced_of_soon (h : (s.ctx c).state = 1 ∨ (s.ctx c).state = 2 ∧ (s.ctx c).stepCommitted + 1 < step) :
    s.bankPlaced c g step b = (s.bankKept c g b).armSwap b c g step := (if_neg hnow).trans (if_pos h)

variable (hsoon : ¬ ((s.ctx c).state = 1 ∨ (s.ctx c).state = 2 ∧ (s.ctx c).stepCommitted + 1 < step))
include hsoon

theorem State.bankPlaced_of_zero (h : step = 0) (hr : s.anyRunning = false) :
    s.bankPlaced c g step b = ((s.bankKept c g b).writeActive b g).setCtx c { s.ctx c with tgen := g } :=
  (if_neg hnow).trans ((if_neg hsoon).trans (if_pos ⟨h, by rw [hr]; rfl⟩))

theorem State.bankPlaced_of_later (h : step ≠ 0) :
    s.bankPlaced c g step b = (s.bankKept c g b).setCtx c { s.ctx c with pendSwap := some (g, step) } :=
  (if_neg hnow).trans ((if_neg hsoon).trans (if_neg fun hz => h hz.1))

end

/-! ## Store errors (R115) -/

theorem State.sfu_report_corr (s : State) (u : Nat) (info : W32) : (s.report (srcId 1 u) info).sfu = s.sfu := by
  rw [State.report_corr]
  exact congrArg Kept.sfu (s.standing_collect (srcId 1 u) info false)

theorem exec_sfuStoreError {u : Nat} (hu : u < 272) (s : State) (ue : Bool) :
    exec (.sfuStoreError u ue) s = .next (s.storeError u ue) := guardPart_of_present (decide_eq_true hu) _ _

theorem exec_sfuStoreError_ue {u : Nat} (hu : u < 272) (s : State) :
    ∃ b : Tile, exec (.sfuStoreError u true) s = .next (s.fireboxFault u b) ∧
      (b.reg 0x0340).getLsbD 11 = true := by
  refine ⟨(s.tile u).orReg 0x0340 0x800, ?_, Tile.bit_orReg _ _ (by decide)⟩
  rw [exec_sfuStoreError hu, State.storeError, if_pos rfl, State.fireboxFault]

theorem exec_sfuStoreError_ce {u : Nat} (hu : u < 272) (s : State) :
    ∃ info, exec (.sfuStoreError u false) s = .next (s.report (srcId 1 u) info).draw := by
  refine ⟨Config.unitInfo (srcId 1 u) s.free, (exec_sfuStoreError hu s false).trans ?_⟩
  rw [State.storeError, if_neg Bool.false_ne_true, State.reportCorr]

/-! ## Tile-buffer mode (R102, R103) -/

theorem Tile.reg_tbuf (a : Tile) (on : Bool) :
    ((a.tbuf on).reg 0x0304).getLsbD 8 = on ∧ ((a.tbuf on).reg 0x0300).getLsbD 12 = (on || !a.tested) := by
  unfold Tile.tbuf
  simp only [Tile.reg_setReg, Nat.reduceEqDiff, if_true, if_false, getLsbD_putBit _ (show 8 < 32 by decide), getLsbD_putBit _ (show 12 < 32 by decide),
    and_self]

/-- The outcome of a write of TBUF_REQ. -/
theorem tbuf_written (s : State) (u : Nat) (on : Bool) : let t := s.setTile u ((s.tile u).tbuf on)
    ((t.tile u).reg 0x0304).getLsbD 8 = on ∧ ((t.tile u).reg 0x0300).getLsbD 12 = (on || !(s.tile u).tested) ∧
    (t.tile u).vregs = (s.tile u).vregs ∧ (∀ v, v ≠ u → t.tile v = s.tile v) ∧ t = { s with tiles := t.tiles } := by
  have htile : ∀ v, (s.setTile u ((s.tile u).tbuf on)).tile v = if v = u then (s.tile u).tbuf on else s.tile v := State.tile_setTile s u _
  obtain ⟨hreq, hmode⟩ := (s.tile u).reg_tbuf on
  simp only [htile, if_true]
  exact ⟨hreq, hmode, rfl, fun v hv => if_neg hv, rfl⟩

/-- Settles O47: a load in order waits for its check (`State.tableLoad_of_inOrder`); a check that passes keeps the bank and puts it
where the context's state and the step ask for it (`State.bankPlaced`); an uncorrectable store error is a firebox fault. -/
theorem tablesAreCheckedAndSwapped : Obligations.TablesAreCheckedAndSwapped := by
  unfold Obligations.TablesAreCheckedAndSwapped
  refine ⟨?load, ?check, fun s u hu => ⟨?ue, ?ce, ?set, fun hup => ?clear⟩⟩
  case load =>
    intro s k g c step images l cx b harmed hrun hpend hparsed hother hrunning hstopped honce hmade hspare hfits hserves
    have hzero : step.toNat = 0 → s.anyRunning = false := fun h => honce (BitVec.eq_of_toNat_eq h)
    have hst : cx.state ≠ 1 → step.toNat = 0 ∨ cx.stepCommitted < step.toNat := fun h => (hstopped h).imp (congrArg BitVec.toNat) id
    have hload := State.tableLoad_of_inOrder
      ⟨⟨harmed, hrun, hpend⟩, hparsed, hother, hrunning, hst, hzero, hmade, hspare, hfits, hserves⟩ k
    refine ⟨_, congrArg Host.Outcome.next hload, rfl, ?_, rfl, rfl⟩
    simp only [BitVec.ofNat_toNat, BitVec.setWidth_eq]
    exact getSlot_putSlot_same ..
  case check =>
    intro s k c g step b hk hw pass now soon
    refine ⟨fun hfail => ?fails, fun hpass => ?passes⟩
    case fails =>
      obtain ⟨hout, hstanding⟩ := State.denyWaiting_noPerm (s := s.checkEnded) hw
      refine ⟨_, congrArg Host.Outcome.next (State.checkComplete_of_fail hk hfail), hout, congrArg Kept.sfu hstanding,
        congrArg Kept.ctxs hstanding, congrArg Kept.tiles hstanding⟩
    case passes =>
      let p := s.bankPlaced c g step b
      have hmoved := banksMoved_bankPlaced s c g step b
      have hstanding := p.standing_okWaiting k []
      have hsfu : (p.okWaiting k []).sfu = p.sfu := congrArg Kept.sfu hstanding
      have hctxs : (p.okWaiting k []).ctxs = p.ctxs := congrArg Kept.ctxs hstanding
      have hctx : (p.okWaiting k []).ctx c = p.ctx c := congrArg (fun m => (tget {} m c : Ctx)) hctxs
      have hwp : (getSlot p.ctl.waiting k).isSome = true := by rw [hmoved.ctl]; exact hw
      refine ⟨_, congrArg Host.Outcome.next (State.checkComplete_of_pass hk hpass), State.outcome_okWaiting hwp [], ?run, ?checking, ?image, ?tiles,
        fun hnow => ?swapped, fun ⟨hnow, hsoon⟩ => ?armed, fun hnow hsoon hzero hr => ?written, fun hnow hsoon hlater => ?pending⟩
      case run => rw [hsfu]; exact hmoved.checkRun
      case checking => rw [hsfu]; exact hmoved.checking
      case image => exact State.bankImage_of_images (by rw [hsfu]; exact hmoved.images)
      case tiles => exact (congrArg Kept.tiles hstanding).trans hmoved.tiles
      case swapped =>
        rw [hsfu, hctx, show p = _ from State.bankPlaced_of_now hnow]
        exact State.swapped_armSwap (s.bankKept c g b) b c g step
      case armed =>
        rw [hsfu, hctxs, show p = _ from State.bankPlaced_of_soon hnow hsoon]
        exact State.armed_armSwap (s.bankKept c g b) b c g step
      case written =>
        rw [hsfu, hctx, show p = _ from State.bankPlaced_of_zero hnow (fun h => hsoon ⟨hnow, h⟩) hzero hr]
        exact ⟨congrArg Ctx.tgen ((State.ctx_setCtx ..).trans (if_pos rfl)), State.written_writeActive (s.bankKept c g b) b g⟩
      case pending =>
        rw [hsfu, hctx, show p = _ from State.bankPlaced_of_later hnow (fun h => hsoon ⟨hnow, h⟩) hlater]
        exact ⟨(State.ctx_setCtx ..).trans (if_pos rfl), rfl⟩
  case ue =>
    obtain ⟨b, he, hbit⟩ := exec_sfuStoreError_ue hu s
    refine ⟨_, he, ?_, s.counted_fireboxFault u b, s.failStep_fireboxFault u b, fun v hv => ?_, s.sfu_fireboxFault b (by omega)⟩
    · rw [State.tile_fireboxFault, if_pos rfl]; exact hbit
    · rw [State.tile_fireboxFault, if_neg hv]
  case ce =>
    obtain ⟨info, he⟩ := exec_sfuStoreError_ce hu s
    have hrep := reported_corr s u info
    exact ⟨_, he, hrep.counted, hrep.tiles, hrep.sched, s.sfu_report_corr u info⟩
  case set =>
    exact ⟨_, guardPart_of_present (decide_eq_true hu) _ _, tbuf_written s u true⟩
  case clear =>
    exact ⟨_, (guardPart_of_present (decide_eq_true hu) _ _).trans (congrArg Host.Outcome.next (if_pos hup)), tbuf_written s u false⟩

end Sys2Proof.Machine

/-! The stages of kindling in their turn and out of it (R409, R419 to R424, Machine/Power.lean). -/

namespace Sys2Proof.Machine

/-! ## Folds over the parts of the module -/

/-- What one element of a list makes true, and no element undoes, holds after the list. -/
theorem foldl_establishes {σ α : Type} {P : σ → Prop} {g : σ → α → σ} {a : α} (hmade : ∀ s, P (g s a)) (hkept : ∀ s b, P s → P (g s b))
    {l : List α} (ha : a ∈ l) (s : σ) : P (l.foldl g s) := by
  obtain ⟨xs, ys, rfl⟩ := List.append_of_mem ha
  rw [List.foldl_append, List.foldl_cons]
  exact List.foldlRecOn ys g (hmade _) fun t ht b _ => hkept t b ht

/-- What each element of a list keeps is kept by the list. -/
theorem foldl_keeps_of_mem {σ α β : Type} (f : σ → β) (g : σ → α → σ) {l : List α} (h : ∀ s, ∀ a ∈ l, f (g s a) = f s) (s : σ) :
    f (l.foldl g s) = f s :=
  List.foldlRecOn l g (motive := fun t => f t = f s) rfl fun t ht a ha => (h t a ha).trans ht

theorem tget_map_pair {α : Type} (d : α) (f : Nat → α) {l : List Nat} {k : Nat} (hk : k ∈ l) : tget d (l.map (fun x => (x, f x))) k = f k := by
  induction l with
  | nil => exact absurd hk List.not_mem_nil
  | cons a r ih =>
    rw [List.map_cons, tget]
    by_cases h : a = k
    · rw [if_pos h, h]
    · rw [if_neg h, ih ((List.mem_cons.mp hk).resolve_left (Ne.symm h))]

/-- One state comes from another by changes of fireboxes that keep p of each. -/
structure TilesKeep {β : Type} (p : Tile → β) (s t : State) : Prop where
  rest : t = { s with tiles := t.tiles }
  kept : ∀ u, p (t.tile u) = p (s.tile u)

section
variable {β : Type} {p : Tile → β}

theorem TilesKeep.refl (s : State) : TilesKeep p s s := ⟨rfl, fun _ => rfl⟩

theorem TilesKeep.trans {s t r : State} (h : TilesKeep p s t) (k : TilesKeep p t r) : TilesKeep p s r := by
  refine ⟨?_, fun u => (k.kept u).trans (h.kept u)⟩
  rw [k.rest, h.rest]

theorem tilesKeep_setTile {s : State} {u : Nat} {b : Tile} (hb : p b = p (s.tile u)) : TilesKeep p s (s.setTile u b) := by
  refine ⟨rfl, fun v => ?_⟩
  rw [State.tile_setTile]
  by_cases hv : v = u
  · rw [if_pos hv, hv, hb]
  · rw [if_neg hv]

theorem TilesKeep.foldl {α : Type} {g : State → α → State} (h : ∀ s a, TilesKeep p s (g s a)) (l : List α) (s : State) :
    TilesKeep p s (l.foldl g s) :=
  List.foldlRecOn l g (.refl s) fun t ht a _ => ht.trans (h t a)

theorem tilesKeep_foldl_setTile {α : Type} (slot : α → Nat) (f : State → α → Tile) (hf : ∀ s a, p (f s a) = p (s.tile (slot a)))
    (l : List α) (s : State) : TilesKeep p s (l.foldl (fun s a => s.setTile (slot a) (f s a)) s) :=
  .foldl (fun s a => tilesKeep_setTile (hf s a)) l s

theorem TilesKeep.comp {γ : Type} (q : β → γ) {s t : State} (h : TilesKeep p s t) : TilesKeep (fun b => q (p b)) s t :=
  ⟨h.rest, fun u => congrArg q (h.kept u)⟩

end

/-! ## A stage in its turn -/

theorem kindles_iff (s : State) (n : Nat) :
    kindles s n ↔ (s.pwr.stage + 1 = n ∧ !s.pwr.lost ∧ !s.pwr.dark ∧ !s.pwr.stuckStage3) := by
  simp only [kindles, Bool.not_eq_true']

theorem State.kindleStep_of_not {s : State} {n : Nat} (h : ¬ kindles s n) (f : State → State) : s.kindleStep n f = s :=
  if_neg fun hc => h ((kindles_iff s n).mpr hc)

theorem State.kindleStep_of_kindles {s : State} {n : Nat} (h : kindles s n) (f : State → State) : s.kindleStep n f =
    { f s with pwr := { (f s).pwr with stage := if (f s).pwr.stuckStage3 then s.pwr.stage else n } } :=
  if_pos ((kindles_iff s n).mp h)

/-- A stage whose work goes through is the last one completed. -/
theorem State.kindleStep_of_done {s t : State} {n : Nat} {f : State → State} (h : kindles s n) (hf : f s = t)
    (ht : t.pwr.stuckStage3 = s.pwr.stuckStage3) : s.kindleStep n f = { t with pwr := { t.pwr with stage := n } } := by
  have ⟨_, _, _, hstuck⟩ := h
  rw [State.kindleStep_of_kindles h, hf, ht, hstuck]
  rfl

/-- A command that is a stage answers in its turn with the stage's work done. -/
theorem answers_of_done {c : Instr} {s t : State} {n : Nat} {f : State → State} {p : State → Prop} (hc : exec c s = .next (s.kindleStep n f))
    (h : kindles s n) (hf : f s = t) (ht : t.pwr.stuckStage3 = s.pwr.stuckStage3) (hp : p { t with pwr := { t.pwr with stage := n } }) :
    Answers c s p :=
  ⟨_, hc.trans (congrArg Host.Outcome.next (State.kindleStep_of_done h hf ht)), hp⟩

/-- Out of its turn it changes nothing. -/
theorem answers_of_not_kindles {c : Instr} {s : State} {n : Nat} {f : State → State} (hc : exec c s = .next (s.kindleStep n f))
    (h : ¬ kindles s n) : Answers c s (fun t => t = s) :=
  ⟨s, hc.trans (congrArg Host.Outcome.next (State.kindleStep_of_not h f)), rfl⟩

/-- KINDLING_SELF_TEST outside a die restart is stage 6. -/
theorem exec_kindlingSelfTest {s : State} (h : s.pwr.restarting = false ∨ s.pwr.stage ≠ 8) (a b c : List Nat) :
    exec (.kindlingSelfTest a b c) s = .next (s.kindleStep 6 (fun s => s.kindleTest a b c)) := by
  have hc : ¬ (s.pwr.restarting && s.pwr.stage == 8 && !s.pwr.lost) = true := by
    obtain h | h := h
    · simp [h]
    · simp [h]
  exact congrArg Host.Outcome.next (if_neg hc)

/-! ## Stage 3: the mantel -/

theorem getLsbD_setField (w : W32) (lo n v : Nat) {j : Nat} (hj : j < 32) :
    (setField w lo n v).getLsbD j = if lo ≤ j ∧ j < lo + n then v.testBit (j - lo) else w.getLsbD j := by
  simp only [setField, BitVec.getLsbD_or, BitVec.getLsbD_and, BitVec.getLsbD_not, BitVec.getLsbD_ofNat, Nat.testBit_mul_two_pow,
    Nat.testBit_two_pow_sub_one, Nat.testBit_mod_two_pow, hj]
  by_cases hlo : lo ≤ j
  · by_cases hn : j < lo + n
    · simp [hlo, hn, show j - lo < n by omega]
    · simp [hlo, hn, show ¬ j - lo < n by omega]
  · simp [hlo]

theorem testBit_bnat (b : Bool) : (bnat b).testBit 0 = b := by cases b <;> rfl

theorem State.barBit_barField (s : State) (o lo n v : Nat) {j : Nat} (hj : j < 32) :
    (s.barField o lo n v).barBit o j = if lo ≤ j ∧ j < lo + n then v.testBit (j - lo) else s.barBit o j := by
  rw [State.barBit, State.barField, State.bar_setBar_same, getLsbD_setField _ _ _ _ hj, State.barBit]

theorem State.barBit_orBar (s : State) (o : Nat) (v : W32) (j : Nat) : (s.orBar o v).barBit o j = (s.barBit o j || v.getLsbD j) := by
  rw [State.barBit, State.orBar, State.bar_setBar_same, BitVec.getLsbD_or, State.barBit]

/-- ACT_SLOT of the slot that runs, and the other fields below VERSION as they were. -/
theorem State.barBit_runSlot (s : State) (b : Bool) {j : Nat} (hj : j < 16) :
    (s.runSlot b).barBit 0x20020 j = if j = 0 then b else s.barBit 0x20020 j := by
  rw [State.runSlot, State.barBit_barField _ _ _ _ _ (by omega), if_neg (by omega), State.barBit_barField _ _ _ _ _ (by omega)]
  by_cases h : j = 0
  · rw [if_pos (by omega), if_pos h, h, testBit_bnat]
  · rw [if_neg (by omega), if_neg h]

/-- The image of slot x passes its check and the slot is not empty. -/
def State.imageGood (s : State) (okA okB x : Bool) : Bool := (if x then okB else okA) && (s.slotVersion x).isSome

/-- What stage 3 loads once an image runs. -/
def State.loadStored (s : State) : State :=
  (s.loadSettings.skipCounters.barField 0x40028 12 4 (s.loadSettings.setting 0x0030)).showPorts.sendBootLog

/-- The image of the slot that is not the boot slot runs instead. -/
def State.rollBoot (s : State) (b : Bool) : State :=
  let t := ((s.runSlot b).barField 0x20020 1 1 (bnat b)).orBar 0x20020 0x10
  { t with pwr := { t.pwr with mgmtDue := true } }

section
variable {s : State} {okA okB b : Bool}

theorem State.bootMantel_of_good (hb : s.barBit 0x20020 1 = b) (hg : s.imageGood okA okB b = true) :
    s.bootMantel okA okB = (s.runSlot b).loadStored := by
  subst hb
  unfold State.imageGood at hg
  simp only [State.bootMantel, hg, Bool.not_true, Bool.false_and, Bool.false_eq_true, if_false, if_true]
  rfl

theorem State.bootMantel_of_other (hb : s.barBit 0x20020 1 = b) (hg : s.imageGood okA okB b = false) (ho : s.imageGood okA okB (!b) = true) :
    s.bootMantel okA okB = (s.rollBoot (!b)).loadStored := by
  subst hb
  unfold State.imageGood at hg ho
  simp only [State.bootMantel, hg, ho, Bool.not_true, Bool.and_false, Bool.false_eq_true, if_false]
  rfl

theorem State.bootMantel_of_none (hg : ∀ x, s.imageGood okA okB x = false) :
    s.bootMantel okA okB = ({ s with pwr := { s.pwr with stuckStage3 := true } } : State).sendBootLog := by
  unfold State.imageGood at hg
  simp only [State.bootMantel, hg, Bool.not_false, Bool.and_self, if_true]

end

/-- The port items show in the network registers alone. -/
theorem State.showPorts_frame (s : State) : ∃ io, s.showPorts = { s with io := io } := by
  unfold State.showPorts
  refine List.foldlRecOn (motive := fun t : State => ∃ io, t = { s with io := io }) (List.range 2) _ ⟨_, rfl⟩ fun t ht p _ => ?_
  obtain ⟨io, rfl⟩ := ht
  exact ⟨_, rfl⟩

/-- Stored settings in force, every counter space ahead of its stored value, and the damper's setting shown (R366, R375). -/
theorem State.loadStored_eq (s : State) : ∃ v io out v1, s.loadStored = { s.barField 0x40028 12 4 v with
    io := io, out := out
    ctl := { s.ctl with settings := s.ctl.stored, v1En := v1, last := (List.range 17).map (fun x => (x, s.persOf x + 4096)) } } := by
  obtain ⟨io, h⟩ := (s.loadSettings.skipCounters.barField 0x40028 12 4 (s.loadSettings.setting 0x0030)).showPorts_frame
  rw [State.loadStored, h]
  exact ⟨_, _, _, _, rfl⟩

theorem State.loadStored_result (s : State) : s.loadStored.pwr = s.pwr ∧ s.loadStored.ctl.settings = s.ctl.stored ∧
    (∀ x, x < 17 → tget 0 s.loadStored.ctl.last x = s.persOf x + 4096) ∧ s.loadStored.tiles = s.tiles ∧ s.loadStored.mem = s.mem := by
  obtain ⟨v, io, out, v1, h⟩ := s.loadStored_eq
  rw [h]
  exact ⟨rfl, rfl, fun x hx => tget_map_pair 0 (fun x => s.persOf x + 4096) (List.mem_range.mpr hx), rfl, rfl⟩

theorem State.barBit_loadStored (s : State) (j : Nat) : s.loadStored.barBit 0x20020 j = s.barBit 0x20020 j := by
  obtain ⟨v, io, out, v1, h⟩ := s.loadStored_eq
  have hw : s.loadStored.bar 0x20020 = (s.barField 0x40028 12 4 v).bar 0x20020 := by rw [h]; rfl
  rw [State.barBit, hw, State.barField, State.bar_setBar, if_neg (by decide), State.barBit]

theorem State.barBit_rollBoot (s : State) (b : Bool) :
    (s.rollBoot b).barBit 0x20020 0 = b ∧ (s.rollBoot b).barBit 0x20020 1 = b ∧ (s.rollBoot b).barBit 0x20020 4 = true := by
  have h : ∀ j, (s.rollBoot b).barBit 0x20020 j = (((s.runSlot b).barField 0x20020 1 1 (bnat b)).orBar 0x20020 0x10).barBit 0x20020 j :=
    fun _ => rfl
  have hb := testBit_bnat b
  refine ⟨?_, ?_, ?_⟩
  · rw [h, State.barBit_orBar, State.barBit_barField _ _ _ _ _ (by decide), if_neg (by decide), State.barBit_runSlot _ _ (by decide)]
    simp
  · rw [h, State.barBit_orBar, State.barBit_barField _ _ _ _ _ (by decide), if_pos (by decide)]
    simpa using hb
  · rw [h, State.barBit_orBar]
    simp

/-! ## Stage 5: the compute dies -/

/-- The recorded suspects known to the dies that come up. -/
def State.putSuspects (s : State) : State := s.flt.suspects.foldl (fun (s : State) u => s.setTile u { s.tile u with suspect := true }) s

/-- The recorded bad hobs known to them. -/
def State.putBadHobs (s : State) : State :=
  s.flt.badHobs.foldl (fun (s : State) p => s.setTile p.1 { s.tile p.1 with badHobs := (s.tile p.1).badHobs ++ [p.2] }) s

/-- Their damper at EFF_LVL. -/
def State.putLevel (s : State) : State :=
  if s.effLvl = 0 then s
  else (List.range 272).foldl (fun (s : State) u => s.setTile u { s.tile u with damper := s.effLvl }) s

theorem tilesKeep_putLevel (s : State) : TilesKeep (fun b => (b.suspect, b.vregs, b.x)) s s.putLevel := by
  unfold State.putLevel
  split
  · exact .refl s
  · exact tilesKeep_foldl_setTile id (fun s u => { s.tile u with damper := s.effLvl }) (fun _ _ => rfl) _ s

theorem tilesKeep_putSuspects (s : State) : TilesKeep (fun b => (b.vregs, b.x)) s s.putSuspects :=
  tilesKeep_foldl_setTile id (fun s u => { s.tile u with suspect := true }) (fun _ _ => rfl) _ s

theorem tilesKeep_putBadHobs (s : State) : TilesKeep (fun b => (b.suspect, b.vregs, b.x)) s s.putBadHobs :=
  tilesKeep_foldl_setTile Prod.fst (fun s q => { s.tile q.1 with badHobs := (s.tile q.1).badHobs ++ [q.2] }) (fun _ _ => rfl) _ s

theorem State.suspect_putSuspects (s : State) (u : Nat) (hs : (s.tile u).suspect = false) :
    (s.putSuspects.tile u).suspect = true ↔ u ∈ s.flt.suspects := by
  unfold State.putSuspects
  constructor
  · intro h
    by_contra hu
    have hk := foldl_keeps_of_mem (fun t : State => (t.tile u).suspect) (fun (s : State) u => s.setTile u { s.tile u with suspect := true })
      (l := s.flt.suspects) (fun t a ha => by rw [State.tile_setTile, if_neg (ne_of_mem_of_not_mem ha hu).symm]) s
    exact absurd (hk.symm.trans h) (by rw [hs]; exact Bool.false_ne_true)
  · intro hu
    refine foldl_establishes (P := fun t : State => (t.tile u).suspect = true) (fun t => ?_) (fun t a h => ?_) hu s
    · rw [State.tile_setTile, if_pos rfl]
    · rw [State.tile_setTile]
      split
      · rfl
      · exact h

/-- The dies come up with every firebox at reset, before its level, suspicion and bad hobs are put there. -/
theorem State.diesPowerUp_eq (s : State) : ∃ m : State, s.diesPowerUp = m.putLevel.putSuspects.putBadHobs ∧
    m.tiles = [] ∧ m.pwr = { s.pwr with diesUp := true } ∧ m.clk.tileMhz = s.setting 0x0033 ∧ m.mem = s.mem ∧ m.flt = s.flt :=
  ⟨_, rfl, rfl, rfl, rfl, rfl, rfl⟩

theorem State.diesPowerUp_result (s : State) :
    s.diesPowerUp.pwr = { s.pwr with diesUp := true } ∧ s.diesPowerUp.clk.tileMhz = s.setting 0x0033 ∧ s.diesPowerUp.mem = s.mem ∧
    ∀ u, (s.diesPowerUp.tile u).vregs = [] ∧ (s.diesPowerUp.tile u).x = [] ∧
      ((s.diesPowerUp.tile u).suspect = true ↔ u ∈ s.flt.suspects) := by
  obtain ⟨m, he, htiles, hpwr, hclk, hmem, hflt⟩ := s.diesPowerUp_eq
  have hlevel := tilesKeep_putLevel m
  have hhobs := tilesKeep_putBadHobs m.putLevel.putSuspects
  have hplain := ((hlevel.comp Prod.snd).trans (tilesKeep_putSuspects m.putLevel)).trans (hhobs.comp Prod.snd)
  have hfresh : ∀ u, m.tile u = {} := fun u => congrArg (fun l => (tget {} l u : Tile)) htiles
  rw [he]
  refine ⟨(congrArg State.pwr hplain.rest).trans hpwr, (congrArg (fun t : State => t.clk.tileMhz) hplain.rest).trans hclk,
    (congrArg State.mem hplain.rest).trans hmem, fun u => ?_⟩
  have hregs : ((m.putLevel.putSuspects.putBadHobs.tile u).vregs, (m.putLevel.putSuspects.putBadHobs.tile u).x) = ([], []) :=
    (hplain.kept u).trans (by rw [hfresh])
  have hclear : (m.putLevel.tile u).suspect = false := (congrArg Prod.fst (hlevel.kept u)).trans (by rw [hfresh])
  have hsus : (m.putLevel.putSuspects.putBadHobs.tile u).suspect = (m.putLevel.putSuspects.tile u).suspect :=
    congrArg Prod.fst (hhobs.kept u)
  have hlist : m.putLevel.flt.suspects = s.flt.suspects := congrArg Flt.suspects ((congrArg State.flt hlevel.rest).trans hflt)
  refine ⟨congrArg Prod.fst hregs, congrArg Prod.snd hregs, ?_⟩
  rw [hsus, State.suspect_putSuspects _ _ hclear, hlist]

/-! ## Stage 6: built-in test -/

/-- Built-in test failed in a slot. -/
def State.failTest (s : State) (u : Nat) : State := (s.setTile u { s.tile u with testOk := false }).markSuspect u

theorem State.failTest_frame (s : State) (u : Nat) :
    s.failTest u = { s with tiles := (s.failTest u).tiles, flt := (s.failTest u).flt, ctl := (s.failTest u).ctl } ∧
    (∀ v ∈ s.flt.suspects, v ∈ (s.failTest u).flt.suspects) ∧ u ∈ (s.failTest u).flt.suspects ∧
    (s.failTest u).tiles = ((s.setTile u { s.tile u with testOk := false }).setTile u { s.tile u with testOk := false, suspect := true }).tiles := by
  have ht : (s.setTile u { s.tile u with testOk := false }).tile u = { s.tile u with testOk := false } :=
    (State.tile_setTile ..).trans (if_pos rfl)
  unfold State.failTest State.markSuspect
  simp only [ht]
  split
  · next hc => exact ⟨rfl, fun v hv => hv, List.contains_iff_mem.mp hc, rfl⟩
  · exact ⟨rfl, fun v hv => List.mem_append_left _ hv, List.mem_append_right _ (List.mem_singleton.mpr rfl), rfl⟩

/-- A slot that fails is SUSPECT; the others stay. -/
theorem State.tile_failTest (s : State) (u v : Nat) :
    (s.failTest u).tile v = if v = u then { s.tile u with testOk := false, suspect := true } else s.tile v := by
  obtain ⟨-, -, -, htiles⟩ := s.failTest_frame u
  rw [State.tile_congr htiles, State.tile_setTile, State.tile_setTile]
  split <;> rfl

/-- Every firebox after the end of its test. -/
def State.endTests (s : State) : State := (List.range 272).foldl (fun (s : State) u => s.setTile u (s.tile u).endTest) s

theorem State.selfTest_eq (s : State) (failed : List Nat) : s.selfTest failed = (failed.filter unitOk).foldl State.failTest s.endTests := by
  rw [State.selfTest, State.endTests]
  rfl

theorem tilesKeep_endTests (s : State) : TilesKeep (fun b => (b.testOk, b.suspect)) s s.endTests := by
  unfold State.endTests
  exact tilesKeep_foldl_setTile id (fun s u => (s.tile u).endTest) (fun _ _ => rfl) _ s

/-- The end of test leaves tile-buffer mode. -/
theorem Tile.reg_endTest (b : Tile) : (b.endTest.reg 0x0300).getLsbD 12 = false := (Tile.reg_tbuf _ false).2

theorem State.reg_endTests (s : State) {u : Nat} (hu : u < 272) : ((s.endTests.tile u).reg 0x0300).getLsbD 12 = false := by
  refine foldl_establishes (P := fun t : State => ((t.tile u).reg 0x0300).getLsbD 12 = false) (fun t => ?_) (fun t a h => ?_)
    (List.mem_range.mpr hu) s
  · rw [State.tile_setTile, if_pos rfl, Tile.reg_endTest]
  · rw [State.tile_setTile]
    split
    · exact Tile.reg_endTest _
    · exact h

section
variable (s : State) (failed : List Nat)

theorem State.selfTest_frame : (s.selfTest failed).pwr = s.pwr ∧ (s.selfTest failed).mem = s.mem := by
  have hfail : ∀ (t : State) (u : Nat), ((t.failTest u).pwr, (t.failTest u).mem) = (t.pwr, t.mem) := fun t u => by
    rw [(t.failTest_frame u).1]
  obtain ⟨hpwr, hmem⟩ := Prod.mk.inj (foldl_keeps (fun t : State => (t.pwr, t.mem)) State.failTest hfail (failed.filter unitOk) s.endTests)
  have hendPwr := congrArg State.pwr (tilesKeep_endTests s).rest
  have hendMem := congrArg State.mem (tilesKeep_endTests s).rest
  rw [State.selfTest_eq]
  exact ⟨hpwr.trans hendPwr, hmem.trans hendMem⟩

theorem State.reg_selfTest {u : Nat} (hu : u < 272) : (((s.selfTest failed).tile u).reg 0x0300).getLsbD 12 = false := by
  rw [State.selfTest_eq, foldl_keeps (fun t : State => ((t.tile u).reg 0x0300).getLsbD 12) State.failTest (fun t a => ?_), s.reg_endTests hu]
  rw [State.tile_failTest]
  split
  · next h => rw [h]; rfl
  · rfl

/-- A slot that fails its test is marked and recorded. -/
theorem State.selfTest_of_mem {u : Nat} (hu : u < 272) (hf : u ∈ failed) :
    ((s.selfTest failed).tile u).testOk = false ∧ ((s.selfTest failed).tile u).suspect = true ∧ u ∈ (s.selfTest failed).flt.suspects := by
  rw [State.selfTest_eq]
  refine foldl_establishes (P := fun t : State => (t.tile u).testOk = false ∧ (t.tile u).suspect = true ∧ u ∈ t.flt.suspects)
    (fun t => ?_) (fun t a h => ?_) (List.mem_filter.mpr ⟨hf, decide_eq_true hu⟩) _
  · obtain ⟨-, -, hmem, -⟩ := t.failTest_frame u
    rw [State.tile_failTest, if_pos rfl]
    exact ⟨rfl, rfl, hmem⟩
  · obtain ⟨-, hkept, -, -⟩ := t.failTest_frame a
    obtain ⟨hok, hsus, hin⟩ := h
    rw [State.tile_failTest]
    split
    · exact ⟨rfl, rfl, hkept u hin⟩
    · exact ⟨hok, hsus, hkept u hin⟩

/-- A slot that passes keeps its marks. -/
theorem State.selfTest_of_notMem {u : Nat} (hf : u ∉ failed) :
    ((s.selfTest failed).tile u).testOk = (s.tile u).testOk ∧ ((s.selfTest failed).tile u).suspect = (s.tile u).suspect := by
  have hfail := foldl_keeps_of_mem (fun t : State => t.tile u) State.failTest (l := failed.filter unitOk) (fun t a ha => by
    rw [State.tile_failTest, if_neg (ne_of_mem_of_not_mem (List.mem_of_mem_filter ha) hf).symm]) s.endTests
  obtain ⟨hok, hsus⟩ := Prod.mk.inj ((tilesKeep_endTests s).kept u)
  rw [State.selfTest_eq, hfail]
  exact ⟨hok, hsus⟩

end

/-! ## Stage 7: the map of the tiles -/

/-- A MODULE report stops the job, and leaves the rest of the module's working state. -/
theorem State.standing_moduleFault (s : State) (u : Nat) :
    (s.moduleFault u).standing = { s.standing with sched := { s.sched with stopDue := true } } := by
  have hr : ∀ t : State, t.react (srcId 0xE u) = t.modFault := fun t => by simp [State.react, srcId_class u (show 0xE < 16 by decide)]
  have hm : ∀ t : State, t.modFault.standing = { t.standing with sched := { t.sched with stopDue := true } } := fun t =>
    congrArg (fun k : Kept => { k with sched := { t.sched with stopDue := true } }) (t.standing_orBar 0x20000 0x2000 (by decide))
  let m := s.collect (srcId 0xE u) (Config.unitInfo (srcId 0xE u) s.free) false
  have hc : m.standing = s.standing := s.standing_collect ..
  have hsched : m.sched = s.sched := congrArg Kept.sched hc
  calc (s.moduleFault u).standing = (m.react (srcId 0xE u)).standing := rfl
    _ = { m.standing with sched := { m.sched with stopDue := true } } := by rw [hr, hm]
    _ = { s.standing with sched := { s.sched with stopDue := true } } := by rw [hc, hsched]

/-- The last spare's advisory event leaves the module's working state. -/
theorem State.standing_noteSpares (s : State) (die : Nat) : (s.noteSpares die).standing = s.standing := by
  unfold State.noteSpares
  split
  · exact (congrArg State.standing (s.report_corr ..)).trans (s.standing_collect ..)
  · rfl

/-- What mapping the tiles may change: the map, and the stop of the job that a report asks for. -/
def MapOnly (s t : State) : Prop := t.standing = { s.standing with tileMap := t.tileMap, sched := t.sched }

theorem MapOnly.refl (s : State) : MapOnly s s := rfl

theorem MapOnly.trans {s t r : State} (h : MapOnly s t) (k : MapOnly t r) : MapOnly s r := by
  unfold MapOnly at h k ⊢
  rw [k, h]

theorem MapOnly.of_standing {s t : State} {m : Table Nat} {c : Sched} (h : t.standing = { s.standing with tileMap := m, sched := c }) :
    MapOnly s t := by
  have hm : t.tileMap = m := congrArg Kept.tileMap h
  have hc : t.sched = c := congrArg Kept.sched h
  unfold MapOnly
  rw [hm, hc, h]

/-- The slot that a logical tile has by its number (R19). -/
def homeSlot (x : Nat) : Nat := 68 * (x / 64) + x % 64

theorem State.unitOf_of_tileMap {s : State} {m : Table Nat} (h : s.tileMap = m) (x : Nat) : s.unitOf x = tget (homeSlot x) m x :=
  congrArg (fun m => tget (homeSlot x) m x) h

theorem State.mapTile_of_sound {s : State} {x : Nat} (hs : (s.tile (homeSlot x)).suspect = false) (hok : (s.tile (homeSlot x)).testOk = true) :
    s.mapTile x = s := by
  unfold homeSlot at hs hok
  simp only [State.mapTile, hs, hok, Bool.not_false, Bool.and_self, if_true]

/-- Mapping a tile leaves where every other stands. -/
theorem State.mapTile_frame (s : State) (a : Nat) : MapOnly s (s.mapTile a) ∧ ∀ x, x ≠ a → (s.mapTile a).unitOf x = s.unitOf x := by
  unfold State.mapTile
  dsimp only
  split
  · exact ⟨.refl s, fun _ _ => rfl⟩
  · split
    · next v _ =>
      let m : State := { s with tileMap := tset s.tileMap a v }
      have hn : (m.noteSpares (a / 64)).standing = m.standing := m.standing_noteSpares (a / 64)
      have hmap : (m.noteSpares (a / 64)).tileMap = tset s.tileMap a v := congrArg Kept.tileMap hn
      exact ⟨.of_standing hn, fun x hx => (State.unitOf_of_tileMap hmap x).trans (tget_tset_ne _ _ _ hx)⟩
    · have hm := s.standing_moduleFault (0x110 + a / 64)
      have hmap : (s.moduleFault (0x110 + a / 64)).tileMap = s.tileMap := congrArg Kept.tileMap hm
      exact ⟨.of_standing hm, fun x _ => State.unitOf_of_tileMap hmap x⟩

theorem mapOnly_mapTiles (s : State) : MapOnly s s.mapTiles := by
  unfold State.mapTiles
  exact List.foldlRecOn (motive := MapOnly s) (List.range 256) _ rfl fun t ht a _ => ht.trans (t.mapTile_frame a).1

/-- A sound slot holds its own tile. -/
theorem State.unitOf_mapTiles {s : State} {x : Nat} (hs : (s.tile (homeSlot x)).suspect = false) (hok : (s.tile (homeSlot x)).testOk = true) :
    s.mapTiles.unitOf x = homeSlot x := by
  have h : s.mapTiles.unitOf x = homeSlot x ∧ s.mapTiles.tiles = s.tiles := by
    unfold State.mapTiles
    refine List.foldlRecOn (motive := fun t : State => t.unitOf x = homeSlot x ∧ t.tiles = s.tiles) (List.range 256)
      _ ⟨rfl, rfl⟩ fun t ht a _ => ?_
    obtain ⟨hmap, htiles⟩ := ht
    obtain ⟨hframe, hothers⟩ := t.mapTile_frame a
    refine ⟨?_, (congrArg Kept.tiles hframe).trans htiles⟩
    by_cases ha : x = a
    · subst ha
      rw [State.mapTile_of_sound, hmap]
      · rw [State.tile_congr htiles, hs]
      · rw [State.tile_congr htiles, hok]
    · rw [hothers x ha, hmap]
  exact h.1

/-- With no cartridge in the bay there is no header to read. -/
theorem State.readHeader_of_none {s : State} (h : s.ember.cart = none) : s.readHeader = s := by
  unfold State.readHeader
  rw [h]

/-! ## Stage 8: ready -/

theorem State.appendRecord_frame (s : State) (r : CartRecord) :
    s.appendRecord r = { s with ember := { s.ember with cart := (s.appendRecord r).ember.cart } } := by
  unfold State.appendRecord
  split
  · rfl
  · rfl

/-- A truncate record is written to the cartridge, and GEN_CART shows its generation. -/
theorem State.truncateCart_frame {s : State} (h : s.ember.cart.isSome = true) (c gen : Nat) : s.truncateCart c gen =
    ({ s with ember := { s.ember with cart := (s.truncateCart c gen).ember.cart } } : State).setIo 0x3010 (BitVec.ofNat 32 gen) := by
  unfold State.truncateCart
  split
  · next hn => rw [hn] at h; cases h
  · dsimp only
    rw [State.appendRecord_frame]
    rfl

theorem State.io_collect (s : State) (src : Nat) (info : W32) (forced : Bool) : (s.collect src info forced).io = s.io := by
  have hcause : ∀ t : State, (t.cause 0).io = t.io := fun t => by rw [(counted_cause t 0).rest]
  unfold State.collect
  extract_lets c s1 f s2 s3 s4
  have h1 : s1.io = s.io := by unfold s1; split <;> rfl
  split
  · exact h1
  · split
    · exact h1
    · exact (hcause s4).trans h1

/-- The report of a cartridge's state has no reaction. -/
theorem State.report_cart (s : State) (u : Nat) (info : W32) : s.report (srcId 3 u) info = s.collect (srcId 3 u) info false := by
  rw [State.report, State.react, srcId_class u (by decide)]
  rfl

/-- CART_STATE set and reported, with the working state as it was. -/
theorem State.setCartState_result (s : State) (st : Nat) : (s.setCartState st).io = s.io ∧
    (s.setCartState st).standing = { s.standing with ember := { s.ember with cartState := st } } := by
  unfold State.setCartState
  split
  · next h => rw [← h]; exact ⟨rfl, rfl⟩
  · rw [State.report_cart, State.io_collect, State.standing_collect, State.standing_cause, (counted_cause _ 2).rest]
    exact ⟨rfl, rfl⟩

/-- A FOREIGN cartridge adopted: truncated above the generation, and the module's own from now on. -/
structure Adopted (s t : State) (gen : Nat) : Prop where
  pwr : t.pwr = s.pwr
  clk : t.clk = s.clk
  mem : t.mem = s.mem
  adoptDue : t.ember.adoptDue = s.ember.adoptDue
  state : t.ember.cartState = 1
  shown : t.ior 0x3010 = BitVec.ofNat 32 gen

theorem adopted_adoptCart {s : State} (h : s.ember.cart.isSome = true) (c gen : Nat) (base : Bool) : Adopted s (s.adoptCart c gen base) gen := by
  have hframe := State.truncateCart_frame h c gen
  obtain ⟨m, he, hpwr, hclk, hmem, hdue, hshown⟩ : ∃ m : State, s.adoptCart c gen base = m.setCartState 1 ∧ m.pwr = s.pwr ∧ m.clk = s.clk ∧
      m.mem = s.mem ∧ m.ember.adoptDue = s.ember.adoptDue ∧ m.ior 0x3010 = BitVec.ofNat 32 gen := by
    refine ⟨_, rfl, ?_⟩
    rw [hframe]
    exact ⟨rfl, rfl, rfl, rfl, (State.ior_setIo ..).trans (if_pos rfl)⟩
  obtain ⟨hio, hstanding⟩ := m.setCartState_result 1
  have hember : (m.setCartState 1).ember = { m.ember with cartState := 1 } := congrArg Kept.ember hstanding
  have hword : (m.setCartState 1).ior 0x3010 = m.ior 0x3010 := congrArg (fun l => tget (ioReset 0x3010) l 0x3010) hio
  rw [he]
  exact ⟨(congrArg Kept.pwr hstanding).trans hpwr, (congrArg Kept.clk hstanding).trans hclk, (congrArg Kept.mem hstanding).trans hmem,
    (congrArg Ember.adoptDue hember).trans hdue, congrArg Ember.cartState hember, hword.trans hshown⟩

theorem State.lateTruncate_of_none {s : State} (h : s.ember.adoptDue = none) : s.lateTruncate = s := by
  unfold State.lateTruncate
  rw [h]

/-- The module that has come to stage 8 with a choice of a command before it. -/
def State.atReady (s : State) : State := { s with ember := { s.ember with adoptDue := none }, pwr := { s.pwr with stage := 8 } }

theorem State.lateTruncate_of_foreign {s : State} {c g : Nat} {base : Bool} (h : s.ember.adoptDue = some (c, g, base))
    (hf : s.foreignCart = true) : s.lateTruncate = s.atReady.adoptCart c g base := by
  have hforeign : s.atReady.foreignCart = true := hf
  have husable : s.atReady.cartUsable = false := by
    simp only [State.foreignCart, Bool.and_eq_true, beq_iff_eq] at hforeign
    simp [State.cartUsable, hforeign.2]
  have hstage : ¬ s.atReady.pwr.stage < 8 := Nat.lt_irrefl 8
  unfold State.lateTruncate
  rw [h]
  show s.atReady.truncateFor c g base true = s.atReady.adoptCart c g base
  simp only [State.truncateFor, hstage, husable, hforeign, Bool.false_eq_true, Bool.and_self, if_false, if_true]

/-- With no report due and PWR_CAP_N high, stage 8 has the late truncate record alone to write. -/
theorem State.ready_of_quiet {s : State} (hm : s.lateTruncate.pwr.mgmtDue = false) (hp : s.lateTruncate.clk.pwrLow = false) :
    s.ready = s.lateTruncate := by
  simp only [State.ready, hm, hp, Bool.false_eq_true, if_false]

/-! ## The obligation -/

section
variable {s : State}

/-! ACT_SLOT, BOOT_SLOT and ROLLBACK are bits 0, 1 and 4 of FW_STATUS (Table 13-11). -/

theorem mantel_of_good {okA okB b : Bool} (h : kindles s 3) (hb : s.barBit 0x20020 1 = b) (hg : s.imageGood okA okB b = true) :
    Answers (.kindlingMantel okA okB) s (fun t =>
      t.pwr = { s.pwr with stage := 3 } ∧ t.barBit 0x20020 0 = b ∧ t.barBit 0x20020 1 = b ∧ t.ctl.settings = s.ctl.stored ∧
      (∀ x, x < 17 → tget 0 t.ctl.last x = s.persOf x + 4096) ∧ t.tiles = s.tiles ∧ t.mem = s.mem) := by
  have hboot := State.bootMantel_of_good hb hg
  obtain ⟨hpwr, hrest⟩ := (s.runSlot b).loadStored_result
  have hbit : ∀ j, j < 16 → (s.runSlot b).loadStored.barBit 0x20020 j = if j = 0 then b else s.barBit 0x20020 j := fun j hj =>
    (State.barBit_loadStored _ j).trans (s.barBit_runSlot b hj)
  exact answers_of_done rfl h hboot (congrArg Pwr.stuckStage3 hpwr)
    ⟨congrArg (fun p : Pwr => { p with stage := 3 }) hpwr, hbit 0 (by decide), (hbit 1 (by decide)).trans hb, hrest⟩

theorem mantel_of_other {okA okB b : Bool} (h : kindles s 3) (hb : s.barBit 0x20020 1 = b) (hg : s.imageGood okA okB b = false)
    (ho : s.imageGood okA okB (!b) = true) : Answers (.kindlingMantel okA okB) s (fun t =>
      t.pwr = { s.pwr with stage := 3, mgmtDue := true } ∧ t.barBit 0x20020 0 = !b ∧ t.barBit 0x20020 1 = !b ∧
      t.barBit 0x20020 4 = true ∧ t.ctl.settings = s.ctl.stored ∧
      (∀ x, x < 17 → tget 0 t.ctl.last x = s.persOf x + 4096) ∧ t.tiles = s.tiles ∧ t.mem = s.mem) := by
  have hboot := State.bootMantel_of_other hb hg ho
  obtain ⟨hpwr, hrest⟩ := (s.rollBoot (!b)).loadStored_result
  obtain ⟨hact, hslot, hroll⟩ := s.barBit_rollBoot (!b)
  have hbit := fun j => (s.rollBoot (!b)).barBit_loadStored j
  exact answers_of_done rfl h hboot (by rw [hpwr]; rfl)
    ⟨congrArg (fun p : Pwr => { p with stage := 3 }) hpwr, (hbit 0).trans hact, (hbit 1).trans hslot, (hbit 4).trans hroll, hrest⟩

theorem mantel_of_none {okA okB : Bool} (h : kindles s 3) (hg : ∀ x, s.imageGood okA okB x = false) :
    Answers (.kindlingMantel okA okB) s (fun t => t.pwr = { s.pwr with stuckStage3 := true } ∧ t = { s with pwr := t.pwr, out := t.out }) := by
  have hboot := State.bootMantel_of_none hg
  refine ⟨_, congrArg Host.Outcome.next (State.kindleStep_of_kindles h _), ?_⟩
  rw [hboot]
  exact ⟨rfl, rfl⟩

theorem powerUp_answers (h : kindles s 5) : Answers .kindlingPowerUp s (fun t => t.pwr = { s.pwr with diesUp := true, stage := 5 } ∧
    t.clk.tileMhz = s.setting 0x0033 ∧ (∀ u, (t.tile u).vregs = [] ∧ (t.tile u).x = [] ∧ ((t.tile u).suspect = true ↔ u ∈ s.flt.suspects)) ∧
    t.mem = s.mem) := by
  obtain ⟨hpwr, hmhz, hmem, htiles⟩ := s.diesPowerUp_result
  exact answers_of_done rfl h rfl (by rw [hpwr]) ⟨congrArg (fun p : Pwr => { p with stage := 5 }) hpwr, hmhz, htiles, hmem⟩

theorem selfTest_answers (h : kindles s 6) (failed : List Nat) : Answers (.kindlingSelfTest failed [] []) s (fun t =>
    t.pwr = { s.pwr with stage := 6 } ∧
    (∀ u, u < 272 → ((t.tile u).reg 0x0300).getLsbD 12 = false ∧
      (u ∈ failed → (t.tile u).testOk = false ∧ (t.tile u).suspect = true ∧ u ∈ t.flt.suspects) ∧
      (u ∉ failed → (t.tile u).testOk = (s.tile u).testOk ∧ (t.tile u).suspect = (s.tile u).suspect)) ∧ t.mem = s.mem) := by
  obtain ⟨hpwr, hmem⟩ := s.selfTest_frame failed
  have ⟨hturn, _⟩ := h
  have hstage : s.pwr.stage ≠ 8 := by omega
  exact answers_of_done (exec_kindlingSelfTest (.inr hstage) failed [] []) h rfl (congrArg Pwr.stuckStage3 hpwr)
    ⟨congrArg (fun p : Pwr => { p with stage := 6 }) hpwr,
      fun u hu => ⟨s.reg_selfTest failed hu, s.selfTest_of_mem failed hu, s.selfTest_of_notMem failed⟩, hmem⟩

/-- HOLDUP_SEAL is a bit of a register of the I/O die. -/
theorem State.showHoldup_frame (s : State) : ∃ io, s.showHoldup = { s with io := io } := ⟨_, rfl⟩

theorem load_answers (h : kindles s 7) (hcart : s.ember.cart = none) : Answers .kindlingLoad s (fun t => t.pwr = { s.pwr with stage := 7 } ∧
    t.sfu = { images := s.sfu.images, bank0 := builtinBank } ∧
    (∀ x, x < 256 → (s.tile (homeSlot x)).suspect = false → (s.tile (homeSlot x)).testOk = true → t.unitOf x = homeSlot x) ∧
    t.tiles = s.tiles ∧ t.mem = { s.mem with pmBase := pmBases.1, pmShd := pmBases.2 }) := by
  let m := s.placeMaps.loadStore
  obtain ⟨t, ht, hmap, hhome⟩ : ∃ t, m.mapTiles = t ∧ MapOnly m t ∧
      ∀ x, (m.tile (homeSlot x)).suspect = false → (m.tile (homeSlot x)).testOk = true → t.unitOf x = homeSlot x :=
    ⟨_, rfl, mapOnly_mapTiles m, fun _ => State.unitOf_mapTiles⟩
  have hpwr : t.pwr = s.pwr := congrArg Kept.pwr hmap
  have hember : t.ember = s.ember := congrArg Kept.ember hmap
  obtain ⟨io, hio⟩ := t.showHoldup_frame
  have hwork : m.mapTiles.readHeader.showHoldup = { t with io := io } := by
    rw [ht, State.readHeader_of_none (by rw [hember, hcart]), hio]
  exact answers_of_done rfl h hwork (congrArg Pwr.stuckStage3 hpwr)
    ⟨congrArg (fun p : Pwr => { p with stage := 7 }) hpwr, congrArg Kept.sfu hmap, fun x _ => hhome x, congrArg Kept.tiles hmap,
    congrArg Kept.mem hmap⟩

theorem ready_of_none (h : kindles s 8) (hm : s.pwr.mgmtDue = false) (hp : s.clk.pwrLow = false) (hnone : s.ember.adoptDue = none) :
    Answers .kindlingReady s (fun t => t = { s with pwr := { s.pwr with stage := 8 } }) := by
  have hlate := State.lateTruncate_of_none hnone
  have hready : s.ready = s := (State.ready_of_quiet (by rw [hlate, hm]) (by rw [hlate, hp])).trans hlate
  exact answers_of_done rfl h hready rfl rfl

theorem ready_of_foreign (h : kindles s 8) (hm : s.pwr.mgmtDue = false) (hp : s.clk.pwrLow = false) {d : Nat × Nat × Bool}
    (hd : s.ember.adoptDue = some d) (hf : s.foreignCart = true) : Answers .kindlingReady s (fun t => t.pwr.stage = 8 ∧
      t.ember.adoptDue = none ∧ t.ember.cartState = 1 ∧ t.ior 0x3010 = BitVec.ofNat 32 d.2.1 ∧ t.mem = s.mem) := by
  have hcart : s.atReady.ember.cart.isSome = true := by
    simp only [State.foreignCart, Bool.and_eq_true] at hf
    exact hf.1.1
  have hlate := State.lateTruncate_of_foreign (c := d.1) (g := d.2.1) (base := d.2.2) hd hf
  obtain ⟨hpwr, hclk, hmem, hdue, hstate, hshown⟩ := hlate ▸ adopted_adoptCart hcart d.1 d.2.1 d.2.2
  have hready : s.ready = s.lateTruncate := State.ready_of_quiet ((congrArg Pwr.mgmtDue hpwr).trans hm) ((congrArg Clk.pwrLow hclk).trans hp)
  exact answers_of_done rfl h hready (by rw [hpwr]; rfl) ⟨rfl, hdue, hstate, hshown, hmem⟩

end

/-- Settles O60: in its turn a stage answers with its work done (`answers_of_done`), which stage 3 cannot do without a good image
(`mantel_of_none`); out of turn it changes nothing (`answers_of_not_kindles`). -/
theorem kindlingStages : Obligations.KindlingStages := by
  unfold Obligations.KindlingStages
  refine ⟨fun s ga h => ?sample, fun s h => ?crystal, ?mantel, fun s h => ?pcie, fun s h => powerUp_answers h,
    fun s failed h => selfTest_answers h failed, fun s h hcart => load_answers h hcart, fun s h hm hp => ?ready, fun s => ?outOfTurn⟩
  case sample => exact answers_of_done rfl h rfl rfl rfl
  case crystal =>
    exact answers_of_done rfl h rfl rfl ⟨rfl, (State.barBit_orBar _ 0x40020 0x800 11).trans (Bool.or_true _), rfl, rfl⟩
  case mantel =>
    intro s okA okB b h good
    exact ⟨fun hb hg => mantel_of_good h hb hg, fun hb hg ho => mantel_of_other h hb hg ho,
      fun hA hB => mantel_of_none h (Bool.forall_bool.mpr ⟨hA, hB⟩)⟩
  case pcie => exact answers_of_done rfl h rfl rfl rfl
  case ready => exact ⟨fun hnone => ready_of_none h hm hp hnone, fun d hd hf => ready_of_foreign h hm hp hd hf⟩
  case outOfTurn =>
    exact ⟨fun h _ => answers_of_not_kindles rfl h, fun h => answers_of_not_kindles rfl h, fun h _ _ => answers_of_not_kindles rfl h,
      fun h => answers_of_not_kindles rfl h, fun h => answers_of_not_kindles rfl h,
      fun h hr a b c => answers_of_not_kindles (exec_kindlingSelfTest (.inl hr) a b c) h,
      fun h => answers_of_not_kindles rfl h, fun h => answers_of_not_kindles rfl h⟩

end Sys2Proof.Machine

/-! The stream commands (R133, R156, R161 to R164, R169, R170): arms, re-arms and disarms as words of the stoker and as commands of
the host. -/

namespace Sys2Proof.Machine

/-! ## Rules of the state -/

theorem tset_tset {α : Type} (m : Table α) (k : Nat) (v w : α) : tset (tset m k v) k w = tset m k w := by
  induction m with
  | nil => simp [tset]
  | cons p r ih =>
    obtain ⟨j, u⟩ := p
    by_cases h : j = k
    · simp [tset, h]
    · by_cases hk : k < j
      · simp [tset, h, hk]
      · simp [tset, h, hk, ih]

@[simp] theorem Tile.setStream_setStream (t : Tile) (n : Nat) (v w : Stream) : (t.setStream n v).setStream n w = t.setStream n w :=
  congrArg (fun m => { t with streams := m }) (tset_tset ..)

@[simp] theorem Tile.stream_setStream_same (t : Tile) (n : Nat) (v : Stream) : (t.setStream n v).stream n = v := by
  rw [Tile.stream_setStream, if_pos rfl]

theorem Tile.stream_setStream_ne (t : Tile) (n : Nat) (v : Stream) : ∀ m, m ≠ n → (t.setStream n v).stream m = t.stream m :=
  fun m hm => by rw [Tile.stream_setStream, if_neg hm]

@[simp] theorem Tile.stoker_setStream (t : Tile) (n : Nat) (v : Stream) : (t.setStream n v).stoker = t.stoker := rfl

@[simp] theorem Tile.markArm_setStream (t : Tile) (n : Nat) (v : Stream) :
    (t.setStream n v).markArm n = t.setStream n { v with armedIn := t.stoker.place } := by
  rw [Tile.markArm, Tile.setStream_setStream, Tile.stream_setStream_same, Tile.stoker_setStream]

/-! ## Ends of words -/

theorem onlyTile_setLtile (s : State) (l : Nat) (b : Tile) : OnlyTile s (s.setLtile l b) (s.unitOf l) :=
  ⟨rfl, s.tile_setLtile_ne l b, fun _ _ _ => rfl⟩

section
variable {s : State} {t : BitVec 8} {f : State → State × WordEnd} (hi : s.issues t.toNat = true)
include hi

theorem word_completes {b : Tile} (hf : f s = (s.setLtile t.toNat b, .next 1)) : TileResult s (s.word t f) t b :=
  word_next hi hf (Counted.refl _)

/-- A word that waits and has changed nothing. -/
theorem word_holds (hf : f s = (s, .wait)) : OnlyTile s (s.word t f) (s.unitOf t.toNat) ∧
    (s.word t f).ltile t.toNat = { s.ltile t.toNat with stoker := { (s.ltile t.toNat).stoker with waitWord := true } } := by
  have hw : s.word t f = s.setLtile t.toNat
      { s.ltile t.toNat with stoker := { (s.ltile t.toNat).stoker with waitWord := true } } := by
    simp only [State.word, hi, hf, Bool.not_true, Bool.false_eq_true, if_false]
  rw [hw]
  exact ⟨onlyTile_setLtile .., State.ltile_setLtile ..⟩

/-- The bellows have acted on the word ahead: it is complete (R163). -/
theorem streamWord_of_ahead (h : (s.ltile t.toNat).stoker.pc ∈ (s.ltile t.toNat).stoker.ahead) :
    let tl := s.ltile t.toNat
    TileResult s (s.streamWord t f) t { tl with stoker := { tl.stoker with ahead := tl.stoker.ahead.erase tl.stoker.pc } } :=
  word_completes hi (if_pos (List.contains_iff_mem.mpr h))

end

/-! A stream word not acted on ahead does its own work. -/

section
variable {s : State} {t : BitVec 8} {f : State → State × WordEnd}

theorem word_congr {g : State → State × WordEnd} (h : f s = g s) : s.word t f = s.word t g := by
  unfold State.word
  rw [h]

variable (hi : s.issues t.toNat = true) (ha : (s.ltile t.toNat).stoker.pc ∉ (s.ltile t.toNat).stoker.ahead)
include hi ha

omit hi in
theorem streamWord_of_not_ahead (f : State → State × WordEnd) : s.streamWord t f = s.word t f :=
  word_congr (if_neg (List.contains_iff_mem.not.mpr ha))

theorem streamWord_completes {b : Tile} (hf : f s = (s.setLtile t.toNat b, .next 1)) : TileResult s (s.streamWord t f) t b := by
  rw [streamWord_of_not_ahead ha]
  exact word_completes hi hf

theorem streamWord_waits {b : Tile} (hf : f s = (s.setLtile t.toNat b, .wait)) :
    OnlyTile s (s.streamWord t f) (s.unitOf t.toNat) ∧
    (s.streamWord t f).ltile t.toNat = { b with stoker := { b.stoker with waitWord := true } } := by
  rw [streamWord_of_not_ahead ha]
  exact word_waits hi hf

theorem streamWord_holds (hf : f s = (s, .wait)) :
    OnlyTile s (s.streamWord t f) (s.unitOf t.toNat) ∧ (s.streamWord t f).ltile t.toNat =
      { s.ltile t.toNat with stoker := { (s.ltile t.toNat).stoker with waitWord := true } } := by
  rw [streamWord_of_not_ahead ha]
  exact word_holds hi hf

end

/-! ## Arms (R156, R161) -/

theorem Stream.discarded_units (st : Stream) : st.discarded.units = if st.state = 4 then 0 else st.units := by
  unfold Stream.discarded
  split <;> rfl

theorem Stream.discarded_entries (st : Stream) : st.discarded.entries = if st.state = 4 then [] else st.entries := by
  unfold Stream.discarded
  split <;> rfl

theorem Stream.discarded_kept (st : Stream) : st.discarded.sticky = st.sticky ∧ st.discarded.cntPass = st.cntPass := by
  unfold Stream.discarded
  split
  · exact ⟨rfl, rfl⟩
  · exact ⟨rfl, rfl⟩

theorem startedBy_armed (st : Stream) (cx : Ctx) (c sd p : Nat) : startedBy st { st.discarded.armed cx c sd with armedIn := p } cx c sd :=
  ⟨rfl, rfl, rfl, rfl, rfl, rfl, rfl, rfl, rfl, rfl, rfl, st.discarded_kept.1, st.discarded_kept.2, Nat.le_max_right .., st.discarded_entries⟩

section
variable {tl : Tile} {n sd : Nat} (cx : Ctx) (c : Nat)

theorem Tile.armStream_of_units (h : armNeeds (tl.stream n) sd ≤ armUnits tl n) :
    tl.armStream n cx c sd = tl.setStream n ((tl.stream n).discarded.armed cx c sd) := by
  rw [armNeeds, ← Stream.discarded_units] at h
  exact if_pos h

theorem Tile.armStream_of_short (h : armUnits tl n < armNeeds (tl.stream n) sd) :
    tl.armStream n cx c sd = tl.setStream n { (tl.stream n).discarded with state := 5, pendArm := some sd, ctx := c } := by
  rw [armNeeds, ← Stream.discarded_units] at h
  exact if_neg (Nat.not_le.mpr h)

end

section
variable {s : State} {t sdi n d : Nat} {k : Nat} (hk : (s.ltile t).stoker.subst n = k) (hd : (s.ctx s.sched.ctx).sdt[sdi]? = some d)
  (hok : streamOk (s.ctx s.sched.ctx) d = true) (harm : ((s.ltile t).stream k).armable = true)
include hk hd hok harm

theorem State.armWord_of_units (h : armNeeds ((s.ltile t).stream k) d ≤ armUnits (s.ltile t) k) :
    s.armWord t sdi n = (s.setLtile t ((s.ltile t).setStream k
      { ((s.ltile t).stream k).discarded.armed (s.ctx s.sched.ctx) s.sched.ctx d with armedIn := (s.ltile t).stoker.place }), .next 1) := by
  unfold State.armWord
  simp only [hk, hd, hok, harm, Tile.armStream_of_units _ _ h, Tile.markArm_setStream, Tile.stream_setStream_same, Bool.not_true,
    Bool.false_eq_true, if_false]
  rfl

theorem State.armWord_of_short (h : armUnits (s.ltile t) k < armNeeds ((s.ltile t).stream k) d) :
    s.armWord t sdi n = (s.setLtile t ((s.ltile t).setStream k { ((s.ltile t).stream k).discarded with
      state := 5, pendArm := some d, ctx := s.sched.ctx, armedIn := (s.ltile t).stoker.place }), .wait) := by
  unfold State.armWord
  simp only [hk, hd, hok, harm, Tile.armStream_of_short _ _ h, Tile.markArm_setStream, Tile.stream_setStream_same, Bool.not_true,
    Bool.false_eq_true, if_false, if_true]

end

theorem State.armWaitEnd_of_units {s : State} {t n d : Nat} (hp : ((s.ltile t).stream n).pendArm = some d)
    (h : armNeeds ((s.ltile t).stream n) d ≤ armUnits (s.ltile t) n) :
    s.armWaitEnd t n = (s.setLtile t ((s.ltile t).setStream n
      { ((s.ltile t).stream n).discarded.armed (s.ctx ((s.ltile t).stream n).ctx) ((s.ltile t).stream n).ctx d with
        armedIn := (s.ltile t).stoker.place }), .next 1) := by
  unfold State.armWaitEnd
  simp only [hp, Tile.armStream_of_units _ _ h, Tile.markArm_setStream, Tile.stream_setStream_same]
  rfl

/-! ## Re-arms (R169, R170) -/

theorem Stream.offer_of_running {st : Stream} (h : st.state = 1) (b sc : Nat) : st.offer b sc = { st with slot := some (b, sc) } := by
  rw [Stream.offer, if_neg (by omega)]

theorem Stream.offer_of_parked {st : Stream} (h : st.state = 2) (b sc : Nat) :
    st.offer b sc = { st with
      base := b, scaleBase := st.newScale sc, slot := none, pos := 0, cursorPos := 0, buf := [], state := 1 } :=
  if_pos h

theorem Tile.stream_refuseRearm (t : Tile) (n : Nat) :
    (t.refuseRearm n).stream n = { t.stream n with sticky := setBit (t.stream n).sticky 11 } := Tile.stream_setStream_same ..

theorem Tile.reg_refuseRearm (t : Tile) (n : Nat) : (t.refuseRearm n).reg 0x0390 = t.reg 0x0390 + 1 := by
  rw [Tile.refuseRearm, Tile.bump, Tile.reg_setReg, if_pos rfl]
  rfl

theorem getLsbD_setBit_same (w : W32) {i : Nat} (hi : i < 32) : (setBit w i).getLsbD i = true :=
  (getLsbD_putBit w hi true i).trans (if_pos rfl)

section
variable {s : State} {t ra n : Nat} {w : Bool} {e : Nat × Nat} {k : Nat} (hk : (s.ltile t).stoker.subst n = k)
  (he : (tget [] (s.ctx s.sched.ctx).rearm t)[ra]? = some e)
include hk he

theorem State.rearmWord_of_refused
    (h : ((s.ltile t).stream k).takesRearm = false ∨ (((s.ltile t).stream k).slot.isSome = true ∧ w = false)) :
    s.rearmWord t ra w n = (s.setLtile t ((s.ltile t).refuseRearm k), .next 1) := by
  unfold State.rearmWord
  simp only [hk, he]
  by_cases ht : ((s.ltile t).stream k).takesRearm = true
  · obtain ⟨hs, hw⟩ := h.resolve_left (by simp [ht])
    simp only [ht, hs, hw, Bool.not_true, Bool.false_eq_true, if_false, if_true]
  · simp only [ht, Bool.not_false, if_true]

variable (ht : ((s.ltile t).stream k).takesRearm = true)
include ht

theorem State.rearmWord_of_full (hs : ((s.ltile t).stream k).slot.isSome = true) (hw : w = true) : s.rearmWord t ra w n = (s, .wait) := by
  unfold State.rearmWord
  simp only [hk, he, ht, hs, hw, Bool.not_true, Bool.false_eq_true, if_false, if_true]

theorem State.rearmWord_of_offer (hs : ((s.ltile t).stream k).slot = none)
    (hr : rearmOk (s.ctx ((s.ltile t).stream k).ctx) ((s.ltile t).stream k).sd e.1 (((s.ltile t).stream k).newScale e.2) = true) :
    s.rearmWord t ra w n = (s.setLtile t ((s.ltile t).setStream k
      { ((s.ltile t).stream k).offer e.1 e.2 with armedIn := (s.ltile t).stoker.place }), .next 1) := by
  unfold State.rearmWord
  simp only [hk, he, ht, hs, hr, Tile.offerTo, Tile.markArm_setStream, Option.isSome_none, Bool.not_true, Bool.false_eq_true, if_false]

end

/-! ## DISARM -/

/-- Returned units are all that a trimmed flue changes (R156). -/
theorem Stream.trim_frame (st : Stream) (fmt : BitVec 4) : st.trim fmt = { st with units := (st.trim fmt).units } := by
  unfold Stream.trim
  split
  · rfl
  · split
    · rfl
    · rfl

/-- A stream that is disarmed in a pass, and one that is not. -/
theorem Tile.disarm_of_running {tl : Tile} {n : Nat} (h : (tl.stream n).state = 1) (fmt : BitVec 4) :
    tl.disarm fmt n = tl.setStream n { tl.stream n with slot := none, disarm := true } :=
  congrArg (tl.setStream n) (if_pos h)

theorem Tile.disarm_of_idle {tl : Tile} {n : Nat} (h : (tl.stream n).state ≠ 1) (fmt : BitVec 4) :
    tl.disarm fmt n = tl.setStream n
      (({ tl.stream n with slot := none, state := 0, stall := false, pendArm := none } : Stream).trim fmt) :=
  congrArg (tl.setStream n) (if_neg h)

/-- What DISARM makes of stream n of a firebox: a stream in a pass ends with it, any other is IDLE at once. -/
structure Disarmed (a b : Tile) (n : Nat) : Prop where
  slot : (b.stream n).slot = none
  entries : (b.stream n).entries = (a.stream n).entries
  running : (a.stream n).state = 1 → b.stream n = { a.stream n with slot := none, disarm := true }
  idle : (a.stream n).state ≠ 1 → (b.stream n).state = 0
  others : ∀ m, m ≠ n → b.stream m = a.stream m
  stoker : b.stoker = a.stoker

theorem disarmed_disarm (tl : Tile) (fmt : BitVec 4) (n : Nat) : Disarmed tl (tl.disarm fmt n) n := by
  by_cases h : (tl.stream n).state = 1
  · rw [Tile.disarm_of_running h]
    constructor
    case others => exact tl.stream_setStream_ne n _
    case stoker => rfl
    all_goals rw [Tile.stream_setStream_same]
    case running => exact fun _ => rfl
    case idle => exact fun hn => absurd h hn
  · rw [Tile.disarm_of_idle h, Stream.trim_frame]
    constructor
    case others => exact tl.stream_setStream_ne n _
    case stoker => rfl
    all_goals rw [Tile.stream_setStream_same]
    case running => exact fun hr => absurd hr h
    case idle => exact fun _ => rfl

/-! ## Replies -/

/-- An outcome that no reply counter counts is all that an answer leaves. -/
theorem State.answer_uncounted (s : State) (k : Slot) {r : Reply} (h : r.status ∉ [stAUTH, stSTALE, stSUPERSEDED]) :
    (s.answer k r).outcome k = some r ∧ s.answer k r = { s with ctl := (s.answer k r).ctl } := by
  obtain ⟨hauth, hstale, hsuper⟩ : r.status ≠ stAUTH ∧ r.status ≠ stSTALE ∧ r.status ≠ stSUPERSEDED := by simpa using h
  unfold State.answer State.countReply
  rw [if_neg hauth, if_neg hstale, if_neg hsuper]
  exact ⟨getSlot_putSlot_same .., rfl⟩

theorem State.okData_result (s : State) (k : Slot) (l : List Byte) :
    (s.okData k l).outcome k = some { status := 0, data := l } ∧ s.okData k l = { s with ctl := (s.okData k l).ctl } :=
  s.answer_uncounted k (r := { status := 0, data := l }) (show (0 : Nat) ∉ _ by decide)

/-! ## Host commands (R133, R161, R164) -/

theorem validateDesc_cases (l : List Byte) : validateDesc l = stNOPERM ∨ validateDesc l = stRANGE ∨ validateDesc l = stALIAS ∨ validateDesc l = 0 := by
  unfold validateDesc
  dsimp only
  split
  · exact .inl rfl
  · split
    · exact .inl rfl
    · split
      · exact .inr (.inl rfl)
      · split
        · exact .inr (.inr (.inl rfl))
        · exact .inr (.inr (.inr rfl))

section
variable {s : State} {c : Nat} {l : List Byte} (hj : (s.ctx c).jobLoaded = true) (hn : (s.ctx c).descs.length < 16384) (k : Slot)
include hj hn

theorem State.descCreate_of_valid (h : validateDesc l = 0) : s.descCreate k c l =
    (s.setCtx c { s.ctx c with descs := (s.ctx c).descs ++ [parseDesc l] }).okData k (leBytes 2 (s.ctx c).descs.length) := by
  unfold State.descCreate
  simp only [hj, Nat.not_le.mpr hn, h, Bool.not_true, Bool.false_eq_true, if_false, ne_eq, not_true_eq_false]

theorem State.descCreate_of_invalid (h : validateDesc l ≠ 0) : s.descCreate k c l = s.deny k (validateDesc l) := by
  unfold State.descCreate
  simp only [hj, Nat.not_le.mpr hn, h, Bool.not_true, Bool.false_eq_true, if_false, if_true, ne_eq, not_false_eq_true]

end

/-- A load and a ring stream write no allocation that STREAM_ARM guards (R242). -/
theorem hostArm_unguarded {sd : Nat} (h : sdKind sd ∈ [0, 3]) : sdKind sd ≠ 1 ∧ sdKind sd ≠ 2 := by
  simp only [List.mem_cons, List.not_mem_nil, or_false] at h
  omega

section
variable {s : State} {c n t sd : Nat} (hj : s.hostJob c = true) (hok : streamOk (s.ctx c) sd = true) (hk : sdKind sd ∈ [0, 3]) (k : Slot)
include hj hok hk

theorem State.hostArm_of_not_works (h : s.works (s.unitOf t) = false) : s.hostArm k c n t sd = s.deny k stBUSY := by
  obtain ⟨h1, h2⟩ := hostArm_unguarded hk
  unfold State.hostArm
  simp only [hj, hok, if_neg h1, if_neg h2, h, Bool.not_true, Bool.not_false, Bool.or_false, Bool.or_true, Bool.false_eq_true, if_false,
    if_true]

theorem State.hostArm_of_units (hw : s.works (s.unitOf t) = true) (harm : ((s.ltile t).stream n).armable = true)
    (h5 : ((s.ltile t).stream n).state ≠ 5) (h : armNeeds ((s.ltile t).stream n) sd ≤ armUnits (s.ltile t) n) :
    s.hostArm k c n t sd =
      (s.setLtile t ((s.ltile t).setStream n (((s.ltile t).stream n).discarded.armed (s.ctx c) c sd))).ok k := by
  obtain ⟨h1, h2⟩ := hostArm_unguarded hk
  have hrun : (((s.ltile t).stream n).discarded.armed (s.ctx c) c sd).state ≠ 5 := by
    rw [show (((s.ltile t).stream n).discarded.armed (s.ctx c) c sd).state = 1 from rfl]
    decide
  unfold State.hostArm
  simp only [hj, hok, if_neg h1, if_neg h2, hw, harm, h5, Tile.armStream_of_units _ _ h, Tile.stream_setStream_same, if_neg hrun,
    Bool.not_true, Bool.or_false, Bool.false_eq_true, if_false, decide_false]

end

section
variable {s : State} {c n t : Nat} (hj : s.hostJob c = true) (ht : ((s.ltile t).stream n).takesRearm = true)
  (hw : s.works (s.unitOf t) = true) (k : Slot) (b sb : Nat)
include hj ht hw

theorem State.hostRearm_of_full (h : ((s.ltile t).stream n).slot.isSome = true) : s.hostRearm k c n t b sb = s.deny k stREARM := by
  unfold State.hostRearm
  simp only [hj, ht, hw, h, Bool.not_true, Bool.or_false, Bool.false_eq_true, if_false, if_true]

theorem State.hostRearm_of_offer (h : ((s.ltile t).stream n).slot = none)
    (hr : rearmOk (s.ctx c) ((s.ltile t).stream n).sd b (((s.ltile t).stream n).newScale sb) = true) :
    s.hostRearm k c n t b sb = (s.setLtile t ((s.ltile t).setStream n (((s.ltile t).stream n).offer b sb))).ok k := by
  unfold State.hostRearm
  simp only [hj, ht, hw, h, hr, Tile.offerTo, Option.isSome_none, Bool.not_true, Bool.or_false, Bool.false_eq_true, if_false]

end

/-! ## The obligation -/

/-- Settles O49: a stream word completes or waits on its firebox as one of the cases of ARM (`armWord_of_units`, `armWord_of_short`) and of
REARM (`rearmWord_of_offer`, `rearmWord_of_refused`, `rearmWord_of_full`) has it; the host's commands make the same changes and reply. -/
theorem streamsAreArmedAndReArmed : Obligations.StreamsAreArmedAndReArmed := by
  unfold Obligations.StreamsAreArmedAndReArmed
  refine ⟨fun s t sd n d hi => ⟨fun ha => ⟨_, rfl, streamWord_of_ahead hi ha⟩, fun ha hd hok harm => ?arm⟩, fun s t n d hi h5 hp hu => ?waitEnd,
    fun s t ra w n e hi ha he => ⟨fun ht hs hr => ?offer, fun h => ?refused, fun ht hs hw => ?full⟩, fun s t n hi => ?disarm,
    fun s k c l hj hn => ⟨fun hv => ?valid, fun hv => ?invalid⟩, fun s k c n t sd hj hok hk => ⟨fun hw => ?busy, fun hw harm h5 hu => ?armed⟩,
    fun s k c n t b sb hj ht hw => ⟨fun hs => ?rearmBusy, fun hs h1 hr => ?rearmed⟩⟩
  case arm =>
    refine ⟨fun hu => ⟨_, rfl, _, startedBy_armed .., rfl, streamWord_completes hi ha (State.armWord_of_units rfl hd hok harm hu)⟩,
      fun hu => ⟨_, rfl, ?_⟩⟩
    obtain ⟨honly, htile⟩ := streamWord_waits (f := fun s => s.armWord t.toNat sd.toNat n.toNat) hi ha
      (State.armWord_of_short rfl hd hok harm hu)
    have hstream := fun m => congrArg (fun b : Tile => b.stream m) htile
    have hst := (hstream _).trans (Tile.stream_setStream_same ..)
    exact ⟨honly, hst, fun h4 => ⟨(congrArg Stream.entries hst).trans ((Stream.discarded_entries _).trans (if_pos h4)),
      (congrArg Stream.units hst).trans ((Stream.discarded_units _).trans (if_pos h4))⟩, congrArg Tile.stoker htile,
      fun m hm => (hstream m).trans (Tile.stream_setStream_ne _ _ _ m hm)⟩
  case waitEnd =>
    exact ⟨_, congrArg ok (if_pos h5), _, startedBy_armed .., rfl, word_completes hi (State.armWaitEnd_of_units hp hu)⟩
  case offer =>
    have hdone := streamWord_completes (f := fun s => s.rearmWord t.toNat ra.toNat w n.toNat) hi ha (State.rearmWord_of_offer rfl he ht hs hr)
    refine ⟨fun h1 => ⟨_, rfl, ?_⟩, fun h2 => ⟨_, rfl, ?_⟩⟩
    · rwa [Stream.offer_of_running h1] at hdone
    · rwa [Stream.offer_of_parked h2] at hdone
  case refused =>
    obtain ⟨honly, htile⟩ := streamWord_completes (f := fun s => s.rearmWord t.toNat ra.toNat w n.toNat) hi ha
      (State.rearmWord_of_refused rfl he h)
    have hst := (congrArg (fun b : Tile => b.stream _) htile).trans
      ((s.ltile t.toNat).stream_refuseRearm ((s.ltile t.toNat).stoker.subst n.toNat))
    have hreg := (congrArg (fun b : Tile => b.reg 0x0390) htile).trans (Tile.reg_refuseRearm _ _)
    exact ⟨_, rfl, honly, (congrArg (fun st : Stream => st.sticky.getLsbD 11) hst).trans (getLsbD_setBit_same _ (by decide)),
      (congrArg Stream.slot hst :), (congrArg Stream.state hst :), hreg, congrArg Tile.stoker htile⟩
  case full =>
    exact ⟨_, rfl, streamWord_holds hi ha (State.rearmWord_of_full rfl he ht hs hw)⟩
  case disarm =>
    obtain ⟨honly, htile⟩ := word_completes hi (f := fun s => (s.setLtile t.toNat
      ((s.ltile t.toNat).disarm (s.flueFmt (s.ltile t.toNat) n.toNat) n.toNat), .next 1)) rfl
    obtain ⟨hslot, hentries, hrun, hidle, hothers, hstoker⟩ :=
      disarmed_disarm (s.ltile t.toNat) (s.flueFmt (s.ltile t.toNat) n.toNat) n.toNat
    refine ⟨_, rfl, honly, ?_⟩
    rw [htile]
    exact ⟨congrArg Stoker.past hstoker, hslot, hentries, hrun, hidle, hothers⟩
  case valid =>
    obtain ⟨hout, hframe⟩ := State.okData_result (s.setCtx c.toNat { s.ctx c.toNat with
      descs := (s.ctx c.toNat).descs ++ [parseDesc l] }) k (leBytes 2 (s.ctx c.toNat).descs.length)
    refine ⟨_, congrArg ok (State.descCreate_of_valid hj hn k hv), hout, ?_, ?_⟩
    · rw [hframe]
      exact (s.ctx_setCtx ..).trans (if_pos rfl)
    · rw [hframe]
      rfl
  case invalid =>
    have hstatus : validateDesc l ∉ [stAUTH, stSTALE, stSUPERSEDED] := by
      rcases validateDesc_cases l with h | h | h | h
      all_goals rw [h]; decide
    obtain ⟨hout, hframe⟩ := s.answer_uncounted k (r := { status := validateDesc l }) hstatus
    exact ⟨_, congrArg ok (State.descCreate_of_invalid hj hn k hv), hout, (congrArg State.ctxs hframe :), (congrArg State.tiles hframe :),
      (congrArg State.mem hframe :)⟩
  case busy =>
    exact ⟨_, congrArg ok (State.hostArm_of_not_works hj hok hk k hw), s.answer_uncounted k (by decide)⟩
  case armed =>
    have harmed := State.hostArm_of_units hj hok hk k hw harm h5 hu
    obtain ⟨hout, hframe⟩ := State.okData_result (s.setLtile t.toNat ((s.ltile t.toNat).setStream n.toNat
      (((s.ltile t.toNat).stream n.toNat).discarded.armed (s.ctx c.toNat) c.toNat sd.toNat))) k []
    refine ⟨_, congrArg ok harmed, hout, ⟨_, startedBy_armed _ _ _ _ 0, ?_⟩, ?_, hframe⟩
    · rw [State.ok, hframe]
      exact s.ltile_setLtile ..
    · rw [State.ok, hframe]
      exact s.tile_setLtile_ne _ _
  case rearmBusy =>
    exact ⟨_, congrArg ok (State.hostRearm_of_full hj ht hw k b.toNat sb.toNat hs), s.answer_uncounted k (by decide)⟩
  case rearmed =>
    have hoffer := State.hostRearm_of_offer hj ht hw k b.toNat sb.toNat hs hr
    rw [Stream.offer_of_running h1] at hoffer
    obtain ⟨hout, hframe⟩ := State.okData_result (s.setLtile t.toNat ((s.ltile t.toNat).setStream n.toNat
      { (s.ltile t.toNat).stream n.toNat with slot := some (b.toNat, sb.toNat) })) k []
    exact ⟨_, congrArg ok hoffer, hout, s.ltile_setLtile .., hframe⟩

end Sys2Proof.Machine

/-! Translations (R193 to R199): what an access to a page changes on its way through a translation cache, and the line that a miss fills. -/

namespace Sys2Proof.Machine

/-! ## What a translation leaves as it is -/

/-- What a translation by x changes: the cache of x and its counts, the lines of the page map, the count of page map faults, and what the
report of a failed group sets. -/
structure Translates (x : Xlat) (s t : State) : Prop where
  ctxs : t.ctxs = s.ctxs
  tileMap : t.tileMap = s.tileMap
  ember : t.ember = s.ember
  io : t.io = s.io
  tierMem : ∀ k, t.tierMem k = s.tierMem k
  others : ∀ v, x ≠ some v → t.tile v = s.tile v
  own : ∀ v, t.tile v = { s.tile v with xc := (t.tile v).xc, regs := (t.tile v).regs }
  word : ∀ v o, o ∉ [0x0800, 0x0804, 0x0808] → (t.tile v).reg o = (s.tile v).reg o

theorem State.tierMem_congr {s t : State} (h1 : t.mem.tier1 = s.mem.tier1) (h2 : t.mem.tier2 = s.mem.tier2) (he : t.ember = s.ember) (k : Nat) :
    t.tierMem k = s.tierMem k := by
  simp only [State.tierMem, h1, h2, he]

theorem Translates.of_tiles {x : Xlat} {s t : State} (hc : t.ctxs = s.ctxs) (hm : t.tileMap = s.tileMap) (he : t.ember = s.ember)
    (hi : t.io = s.io) (hk : ∀ k, t.tierMem k = s.tierMem k) (ht : t.tiles = s.tiles) : Translates x s t where
  ctxs := hc
  tileMap := hm
  ember := he
  io := hi
  tierMem := hk
  others v _ := State.tile_congr ht v
  own v := by rw [State.tile_congr ht v]
  word v o _ := by rw [State.tile_congr ht v]

theorem Translates.refl (x : Xlat) (s : State) : Translates x s s := .of_tiles rfl rfl rfl rfl (fun _ => rfl) rfl

theorem Translates.trans {x : Xlat} {s t r : State} (h : Translates x s t) (k : Translates x t r) : Translates x s r where
  ctxs := k.ctxs.trans h.ctxs
  tileMap := k.tileMap.trans h.tileMap
  ember := k.ember.trans h.ember
  io := k.io.trans h.io
  tierMem m := (k.tierMem m).trans (h.tierMem m)
  others v hv := (k.others v hv).trans (h.others v hv)
  own v := by rw [k.own v, h.own v]
  word v o ho := (k.word v o ho).trans (h.word v o ho)

theorem Translates.of_counted {x : Xlat} {s t : State} (h : Counted s t) : Translates x s t := by
  have hs := h.standing
  have hmem : t.mem = s.mem := congrArg Kept.mem hs
  have he : t.ember = s.ember := congrArg Kept.ember hs
  exact .of_tiles (congrArg Kept.ctxs hs) (congrArg Kept.tileMap hs) he (by rw [h.rest])
    (State.tierMem_congr (congrArg Mem.tier1 hmem) (congrArg Mem.tier2 hmem) he) (congrArg Kept.tiles hs)

/-- A firebox whose translation cache or counts change. -/
theorem translates_setTile {s : State} {u : Nat} {b : Tile} (hb : b = { s.tile u with xc := b.xc, regs := b.regs })
    (hw : ∀ o, o ∉ [0x0800, 0x0804, 0x0808] → b.reg o = (s.tile u).reg o) : Translates (some u) s (s.setTile u b) where
  ctxs := rfl
  tileMap := rfl
  ember := rfl
  io := rfl
  tierMem _ := rfl
  others v hv := by rw [State.tile_setTile, if_neg fun h => hv (congrArg some h.symm)]
  own v := by
    rw [State.tile_setTile]
    split
    case isTrue h => rw [h, ← hb]
    case isFalse => rfl
  word v o ho := by
    rw [State.tile_setTile]
    split
    case isTrue h => rw [h, hw o ho]
    case isFalse => rfl

theorem translates_setReg (s : State) (u : Nat) {o : Nat} (ho : o ∈ [0x0800, 0x0804, 0x0808]) (v : W32) :
    Translates (some u) s (s.setTile u ((s.tile u).setReg o v)) := by
  refine translates_setTile rfl fun p hp => ?_
  have hne : p ≠ o := fun h => hp (h ▸ ho)
  exact (Tile.reg_setReg ..).trans (if_neg hne)

theorem translates_setXc (s : State) (x : Xlat) (v : XCache) : Translates x s (s.setXc x v) := by
  cases x with
  | none => exact .of_tiles rfl rfl rfl rfl (fun _ => rfl) rfl
  | some u => exact translates_setTile rfl fun _ _ => rfl

theorem translates_xcCount (s : State) (x : Xlat) {o : Nat} (ho : o ∈ [0x0800, 0x0804, 0x0808]) : Translates x s (s.xcCount x o) := by
  cases x with
  | none => exact .refl _ s
  | some u => exact translates_setReg s u ho _

theorem translates_rewriteGroup (x : Xlat) (s : State) (c g : Nat) : Translates x s (s.rewriteGroup c g) := by
  unfold State.rewriteGroup
  split
  · exact .of_tiles rfl rfl rfl rfl (fun _ => rfl) rfl
  · exact .refl x s

/-- The module after a fill is charged to a cache: the group's line put first, the miss counted, SHADOW_USED. -/
def State.xcTake (s : State) (x : Xlat) (c g : Nat) : State :=
  let s1 := (s.setXc x ((s.xcOf x).putFirst (xcSize x)
    { ctx := c, g := g, entries := (s.groupLine c g).1, cp := List.replicate 8 false })).xcCount x 0x0808
  if (s.groupLine c g).2 then (match x with
    | some u => s1.setTile u ((s1.tile u).orReg 0x0800 2)
    | none => s1) else s1

theorem State.xcFill_eq (s : State) (x : Xlat) (c g : Nat) : s.xcFill x c g =
    ((match x with | some u => ((s.xcTake x c g).rewriteGroup c g).count u 0x34 1 | none => (s.xcTake x c g).rewriteGroup c g),
      { ctx := c, g := g, entries := (s.groupLine c g).1, cp := List.replicate 8 false }) := by
  cases x <;> rfl

theorem translates_xcTake (s : State) (x : Xlat) (c g : Nat) : Translates x s (s.xcTake x c g) := by
  unfold State.xcTake
  extract_lets s1
  have h1 : Translates x s s1 := (translates_setXc s x _).trans (translates_xcCount _ x (by decide))
  split
  · cases x with
    | none => exact h1
    | some u => exact h1.trans (translates_setReg s1 u (by decide) _)
  · exact h1

theorem translates_xcFill (s : State) (x : Xlat) (c g : Nat) : Translates x s (s.xcFill x c g).1 := by
  rw [State.xcFill_eq]
  have h := (translates_xcTake s x c g).trans (translates_rewriteGroup x _ c g)
  cases x with
  | none => exact h
  | some u => exact h.trans (.of_counted (counted_count ..))

theorem translates_xcMark (s : State) (x : Xlat) (c p : Nat) : Translates x s (s.xcMark x c p) := by
  unfold State.xcMark
  split
  · exact translates_setXc s x _
  · exact .refl x s

/-! ## Reports of failed groups -/

theorem State.ctxs_collect (s : State) (src : Nat) (info : W32) (forced : Bool) : (s.collect src info forced).ctxs = s.ctxs :=
  congrArg Kept.ctxs (s.standing_collect src info forced)

/-- A MODULE fault asks for a stop; the state of the memory stays. -/
theorem translates_moduleFault (x : Xlat) (s : State) (u : Nat) : Translates x s (s.moduleFault u) := by
  have hs := s.standing_collect (srcId 0xE u) (Config.unitInfo (srcId 0xE u) s.free) false
  have hmem : (s.collect (srcId 0xE u) (Config.unitInfo (srcId 0xE u) s.free) false).mem = s.mem := congrArg Kept.mem hs
  have he : (s.collect (srcId 0xE u) (Config.unitInfo (srcId 0xE u) s.free) false).ember = s.ember := congrArg Kept.ember hs
  have hio := s.io_collect (srcId 0xE u) (Config.unitInfo (srcId 0xE u) s.free) false
  rw [State.moduleFault, State.report, State.react, srcId_class u (by decide)]
  exact .of_tiles (congrArg Kept.ctxs hs) (congrArg Kept.tileMap hs) he hio
    (State.tierMem_congr (congrArg Mem.tier1 hmem) (congrArg Mem.tier2 hmem) he) (congrArg Kept.tiles hs)

/-! ## One access -/

theorem translates_access (s : State) (x : Xlat) (c p : Nat) (w : Bool) : Translates x s (s.access x c p w).1 := by
  unfold State.access
  extract_lets g host hit stale r s1 e f _
  have h1 : Translates x s s1 := by
    change Translates x s r.1
    unfold r
    clear_value stale hit
    cases hit with
    | none => exact translates_xcFill s x c g
    | some grp =>
      dsimp only
      split
      · exact (translates_xcCount s x (by decide)).trans (translates_xcFill _ x c g)
      · exact (translates_setXc s x _).trans (translates_xcCount _ x (by decide))
  have hmark : Translates x s (s1.xcMark x c p) := h1.trans (translates_xcMark ..)
  split
  · exact (translates_xcCount s x (by decide)).trans (translates_moduleFault ..)
  · split
    · split
      · exact h1.trans (.of_tiles rfl rfl rfl rfl (fun _ => rfl) rfl)
      · exact h1
    · split
      · exact h1
      · split
        · split
          · split
            · exact hmark
            · exact h1
          · exact hmark
        · exact h1

end Sys2Proof.Machine

/-! Jobs (R133, R187, R261, R263, R296, R314, R369): the work of JOB_LOAD keeps the job contexts but its own, and what JOB_START and JOB_STOP
make of their context. -/

namespace Sys2Proof.Machine

/-! ## The memory service keeps the contexts -/

theorem State.ctxs_report (s : State) (src : Nat) (info : W32) : (s.report src info).ctxs = s.ctxs := by
  have hf : ∀ m : State, m.raiseFail.ctxs = m.ctxs := fun m => by unfold State.raiseFail; split <;> rfl
  rw [State.report, ← s.ctxs_collect src info false]
  generalize s.collect src info false = m
  unfold State.react
  dsimp only
  split
  · split
    · exact hf m
    · rfl
  · split
    · split <;> rfl
    · split
      · rfl
      · split <;> rfl

theorem State.ctxs_access (s : State) (x : Xlat) (c p : Nat) (w : Bool) : (s.access x c p w).1.ctxs = s.ctxs := (translates_access s x c p w).ctxs

theorem State.ctxs_xcMark (s : State) (x : Xlat) (c p : Nat) : (s.xcMark x c p).ctxs = s.ctxs := (translates_xcMark s x c p).ctxs

theorem State.ctxs_moduleFault (s : State) (u : Nat) : (s.moduleFault u).ctxs = s.ctxs := s.ctxs_report ..

theorem State.ctxs_hostError (s : State) (off : Nat) : (s.hostError off).ctxs = s.ctxs := s.ctxs_report ..

theorem State.ctxs_setTierMem (s : State) (tier : Nat) (m : Memory) : (s.setTierMem tier m).ctxs = s.ctxs := by
  unfold State.setTierMem
  split
  · rfl
  · split
    · rfl
    · split <;> rfl

theorem State.ctxs_writeTier (s : State) (tier f off : Nat) (l : List Byte) : (s.writeTier tier f off l).ctxs = s.ctxs := by
  unfold State.writeTier
  dsimp only
  split
  · exact s.ctxs_setTierMem ..
  · exact s.ctxs_setTierMem ..

theorem State.ctxs_takeFrame (s : State) (tier f : Nat) : (s.takeFrame tier f).ctxs = s.ctxs := by
  unfold State.takeFrame
  dsimp only
  split
  · exact s.ctxs_setTierMem ..
  · exact s.ctxs_setTierMem ..

theorem State.ctxs_rebuildPage {s t : State} {c p : Nat} (h : s.rebuildPage c p = some t) : t.ctxs = s.ctxs := by
  unfold State.rebuildPage at h
  dsimp only at h
  split at h
  · exact absurd h (by simp)
  · rw [← Option.some.inj h]
    exact (State.ctxs_writeTier ..).trans (s.ctxs_takeFrame ..)

theorem State.ctxs_count (s : State) (b e n : Nat) : (s.count b e n).ctxs = s.ctxs := congrArg Kept.ctxs (s.standing_count b e n)

theorem State.ctxs_cow (s : State) (c p : Nat) (first : Bool) : (s.cow c p first).1.ctxs = s.ctxs := by
  unfold State.cow
  split
  · rfl
  · dsimp only
    split
    · rfl
    · split
      · split <;> rfl
      · exact (State.ctxs_count ..).trans (State.ctxs_count ..)

theorem State.ctxs_markWritten (s : State) (c p : Nat) : (s.markWritten c p).ctxs = s.ctxs := by
  unfold State.markWritten
  split
  · split <;> rfl
  · rfl

theorem State.ctxs_hostStore (s : State) (h : HostAccess) (tier f : Nat) : (s.hostStore h tier f).ctxs = s.ctxs := by
  unfold State.hostStore
  split
  · rfl
  · split
    · exact s.ctxs_hostError _
    · dsimp only
      split
      · exact (State.ctxs_markWritten ..).trans (s.ctxs_writeTier ..)
      · exact s.ctxs_writeTier ..

theorem State.ctxs_hostWrite (s : State) (h : HostAccess) : (s.hostWrite h).ctxs = s.ctxs := by
  have hr := s.ctxs_access none h.ctx (h.dva / pageBytes) true
  unfold State.hostWrite
  dsimp only
  split
  · exact (State.ctxs_hostStore ..).trans hr
  · exact (State.ctxs_hostError ..).trans hr
  · exact hr
  · exact hr
  · have hq := (State.ctxs_cow (s.access none h.ctx (h.dva / pageBytes) true).1 h.ctx (h.dva / pageBytes) (!h.counted)).trans hr
    split
    · exact ((State.ctxs_hostStore ..).trans (State.ctxs_xcMark ..)).trans hq
    · exact hq

theorem State.ctxs_hostRead (s : State) (h : HostAccess) : (s.hostRead h).ctxs = s.ctxs := by
  unfold State.hostRead
  extract_lets r bad take
  have hr : r.1.ctxs = s.ctxs := s.ctxs_access ..
  have hbad : ∀ v : State, (bad v).ctxs = v.ctxs := fun v => v.ctxs_hostError _
  have htake : ∀ (v : State) (tier f : Nat), (take v tier f).ctxs = v.ctxs := by
    intro v tier f
    unfold take
    split
    · rfl
    · split
      · exact hbad v
      · rfl
  split
  · exact (htake ..).trans hr
  · split
    · split
      case _ hb => exact (htake ..).trans ((State.ctxs_rebuildPage hb).trans hr)
      · exact (hbad _).trans hr
    · exact (hbad _).trans hr
  · exact hr

theorem State.ctxs_retryHost (s : State) : s.retryHost.ctxs = s.ctxs := by
  have hone : ∀ (v : State) (h : HostAccess), (v.hostAccess h).ctxs = v.ctxs := by
    intro v h
    unfold State.hostAccess
    split
    · exact v.ctxs_hostWrite h
    · exact v.ctxs_hostRead h
  have hok : ∀ (v : State) (k : Slot), (v.okWaiting k []).ctxs = v.ctxs := fun v k => congrArg Kept.ctxs (v.standing_okWaiting k [])
  unfold State.retryHost
  exact (foldl_keeps State.ctxs _ hok _ _).trans (foldl_keeps State.ctxs _ hone _ _)

/-! ## Page moves -/

theorem State.ctxs_listFrame (s : State) (tier f r : Nat) : (s.listFrame tier f r).ctxs = s.ctxs := by
  unfold State.listFrame
  split <;> rfl

theorem State.ctxs_freeUp (s : State) (tier f : Nat) : (s.freeUp tier f).ctxs = s.ctxs := by
  unfold State.freeUp
  split <;> rfl

theorem State.ctxs_editPages (s : State) (l : List (Nat × Nat)) (f : W64 → W64) : (s.editPages l f).ctxs = s.ctxs := by
  unfold State.editPages
  refine foldl_keeps State.ctxs _ (fun v q => ?_) l s
  unfold State.inval State.dropGroups
  rfl

theorem State.ctxs_startMove (s : State) (c p r : Nat) : (s.startMove c p r).ctxs = s.ctxs := by
  unfold State.startMove
  extract_lets e tier
  split
  · rfl
  · split
    · split <;> rfl
    · split
      · exact (State.ctxs_moduleFault ..).trans (s.ctxs_report ..)
      · exact (State.ctxs_editPages ..).trans (s.ctxs_takeFrame ..)

theorem State.ctxs_retireNext (n : Nat) (s : State) : (s.retireNext n).ctxs = s.ctxs := by
  induction n generalizing s with
  | zero => rfl
  | succ n ih =>
    unfold State.retireNext
    split
    · rfl
    · extract_lets _ s1 s2
      have h2 : s2.ctxs = s.ctxs := by
        unfold s2
        split
        · exact s1.ctxs_startMove ..
        · exact s1.ctxs_listFrame ..
      split
      · exact h2
      · exact (ih s2).trans h2

theorem State.ctxs_nextRetire (s : State) : s.nextRetire.ctxs = s.ctxs := by
  unfold State.nextRetire
  split
  · rfl
  · exact s.ctxs_retireNext _

theorem State.ctxs_endMove (s : State) (c : Nat) (m : Move) : (s.endMove c m).ctxs = s.ctxs := by
  unfold State.endMove
  extract_lets tier _ s1
  refine (State.ctxs_listFrame ..).trans ?_
  split
  · exact s1.ctxs_freeUp ..
  · rfl

/-! ## The end of an image -/

theorem State.ctxs_unmapPage (s : State) (c p : Nat) : (s.unmapPage c p).ctxs = s.ctxs := by
  unfold State.unmapPage
  dsimp only
  split
  · rfl
  · change (ite _ s (s.freeUp _ _)).ctxs = s.ctxs
    split
    · rfl
    · exact s.ctxs_freeUp ..

theorem State.ctxs_endImage (s : State) (c : Nat) : (s.endImage c).ctxs = s.ctxs := by
  unfold State.endImage
  extract_lets s0 s1 s2 _ s3
  have h0 : s0.ctxs = s.ctxs := by
    unfold s0
    split
    · split
      · exact s.ctxs_endMove ..
      · rfl
    · rfl
  have h1 : s1.ctxs = s0.ctxs :=
    foldl_keeps State.ctxs _ (fun v a => foldl_keeps State.ctxs _ (fun w p => w.ctxs_unmapPage c p) _ _) _ _
  have h3 : s3.ctxs = s.ctxs := h1.trans h0
  split
  · exact ((State.ctxs_retryHost _).trans (State.ctxs_nextRetire _)).trans h3
  · exact h3

/-! ## What the ember engine forgets -/

theorem State.ctxs_clearPlane (s : State) (c plane : Nat) : (s.clearPlane c plane).ctxs = s.ctxs := by
  unfold State.clearPlane
  dsimp only
  split <;> rfl

theorem State.ctxs_freePlanes (s : State) (c : Nat) : (s.freePlanes c).ctxs = s.ctxs := by
  unfold State.freePlanes
  split
  · rfl
  · extract_lets pinned s1
    refine foldl_keeps State.ctxs _ (fun v i => ?_) _ _
    extract_lets h
    split
    · exact v.ctxs_clearPlane ..
    · rfl

theorem State.ctxs_endDrain (s : State) : s.endDrain.ctxs = s.ctxs := by
  have heject : ∀ v : State, v.beginEject.ctxs = v.ctxs := by
    intro v
    unfold State.beginEject
    exact congrArg Kept.ctxs (State.setCartState_result _ 5).2
  unfold State.endDrain
  extract_lets _ _ s1 s2
  have h2 : s2.ctxs = s.ctxs := by
    unfold s2
    split
    · exact (State.ctxs_retryHost _).trans (State.ctxs_freePlanes ..)
    · rfl
  split
  · exact (heject s2).trans h2
  · exact h2

theorem State.ctxs_forgetGens (s : State) (c : Nat) : (s.forgetGens c).ctxs = s.ctxs := by
  unfold State.forgetGens
  extract_lets s1 e s2
  have h1 : s1.ctxs = s.ctxs := foldl_keeps State.ctxs _ (fun v i => v.ctxs_clearPlane c i) _ _
  split
  · split
    · exact s2.ctxs_endDrain.trans h1
    · exact h1
  · exact h1

/-! ## The room of an image -/

theorem State.ctxs_mapPage {s t : State} {c p : Nat} {a : AllocRec} (h : s.mapPage c a p = some t) : t.ctxs = s.ctxs := by
  unfold State.mapPage at h
  dsimp only at h
  split at h
  · split at h
    · rw [← Option.some.inj h]
      exact State.ctxs_setTierMem ..
    · exact absurd h (by simp)
  · split at h
    · rw [← Option.some.inj h]
      exact s.ctxs_takeFrame ..
    · exact absurd h (by simp)

theorem State.ctxs_mapAlloc {s t : State} {c : Nat} {a : AllocRec} (h : s.mapAlloc c a = some t) : t.ctxs = s.ctxs := by
  unfold State.mapAlloc at h
  split at h
  · rw [← Option.some.inj h]
  · have hfold : ∀ o : Option State, (a.pages.foldl (fun o p => match o with | some (v : State) => v.mapPage c a p | none => none) o) = some t →
        ∃ v, o = some v ∧ t.ctxs = v.ctxs := by
      induction a.pages with
      | nil => exact fun o ho => ⟨t, ho, rfl⟩
      | cons p r ih =>
        intro o ho
        obtain ⟨w, hw, ht⟩ := ih _ ho
        cases o with
        | none => exact absurd hw (by simp)
        | some v => exact ⟨v, rfl, ht.trans (State.ctxs_mapPage hw)⟩
    obtain ⟨v, hv, ht⟩ := hfold _ h
    rw [ht, ← Option.some.inj hv]

theorem State.ctxs_mapAllocs {c : Nat} (l : List AllocRec) {s t : State} {i : Nat} (h : s.mapAllocs c l i = .inl t) : t.ctxs = s.ctxs := by
  induction l generalizing s i with
  | nil => rw [← Sum.inl.inj h]
  | cons a r ih =>
    unfold State.mapAllocs at h
    split at h
    case _ h1 => exact (ih h).trans (State.ctxs_mapAlloc h1)
    · exact absurd h (by simp)

theorem State.ctxs_reclaimCart (s : State) (n : Nat) : (s.reclaimCart n).ctxs = s.ctxs := by
  unfold State.reclaimCart
  split
  · rfl
  · dsimp only
    split <;> rfl

theorem State.ctxs_keepFewer (n k : Nat) (s : State) : (s.keepFewer n k).ctxs = s.ctxs := by
  induction k generalizing s with
  | zero => rfl
  | succ k ih =>
    unfold State.keepFewer
    dsimp only
    split
    · exact s.ctxs_reclaimCart _
    · exact (ih _).trans (s.ctxs_reclaimCart _)

theorem State.ctxs_makeRoom (s : State) (keep n : Nat) : (s.makeRoom keep n).ctxs = s.ctxs := by
  unfold State.makeRoom
  dsimp only
  split
  · rfl
  · split
    · exact s.ctxs_reclaimCart _
    · exact (State.ctxs_keepFewer ..).trans (s.ctxs_reclaimCart _)

theorem State.ctxs_forwardLog (s : State) : s.forwardLog.ctxs = s.ctxs := by
  unfold State.forwardLog
  split
  · split <;> rfl
  · rfl

/-- An image that finds room has become its context, and no other context has changed. -/
theorem State.ctxs_placeImage {s t : State} {c : Nat} {l : List Byte} (h : s.placeImage c l = .inl t) :
    t.ctxs = tset s.ctxs c { imageCtx l with imageHash := sha256 l, state := (s.ctx c).state } := by
  unfold State.placeImage at h
  extract_lets _ cx s1 at h
  have h1 : s1.ctxs = tset s.ctxs c cx := congrArg (fun m => tset m c cx) ((State.ctxs_forgetGens ..).trans (s.ctxs_endImage c))
  split at h
  · exact absurd h (by simp)
  · split at h
    · exact absurd h (by simp)
    · next s2 h2 =>
      split at h
      · rw [← Sum.inl.inj h, State.ctxs_forwardLog, State.ctxs_makeRoom]
        exact (State.ctxs_mapAllocs _ h2).trans h1
      · exact absurd h (by simp)

/-! ## JOB_STATE -/

theorem State.ctx_congr {s t : State} (h : t.ctxs = s.ctxs) (c : Nat) : t.ctx c = s.ctx c := by
  rw [State.ctx, h, State.ctx]

/-- JOB_STATE of a context set, with all that stays as it was. -/
structure JobStateSet (s t : State) (c st : Nat) : Prop where
  ctx : ∀ d, t.ctx d = if d = c then { s.ctx c with state := st } else s.ctx d
  sched : t.sched = s.sched
  tiles : t.tiles = s.tiles
  tileMap : t.tileMap = s.tileMap
  mem : t.mem = s.mem
  waiting : t.ctl.waiting = s.ctl.waiting
  results : t.ctl.results = s.ctl.results

theorem jobStateSet_setJobState (s : State) (c st : Nat) : JobStateSet s (s.setJobState c st) c st := by
  unfold State.setJobState
  split
  case isTrue h =>
    refine ⟨fun d => ?_, rfl, rfl, rfl, rfl, rfl, rfl⟩
    split
    case isTrue hd => rw [hd, ← h]
    case isFalse => rfl
  case isFalse h =>
    have hcause := counted_cause (s.setCtx c { s.ctx c with state := st }) 3
    have hs := hcause.standing
    have hctx : ∀ d, ((s.setCtx c { s.ctx c with state := st }).cause 3).ctx d = if d = c then { s.ctx c with state := st } else s.ctx d :=
      fun d => (State.ctx_of_kept (State.kept_of_standing hs) d).trans (s.ctx_setCtx c _ d)
    have hset : JobStateSet s ((s.setCtx c { s.ctx c with state := st }).cause 3) c st :=
      ⟨hctx, congrArg Kept.sched hs, congrArg Kept.tiles hs, congrArg Kept.tileMap hs, congrArg Kept.mem hs, by rw [hcause.rest]; rfl,
        by rw [hcause.rest]; rfl⟩
    dsimp only
    split
    · exact ⟨hset.ctx, hset.sched, hset.tiles, hset.tileMap, hset.mem, hset.waiting, hset.results⟩
    · exact hset

/-! ## JOB_LOAD and SCHED_LOAD -/

theorem State.jobLoad_of_room {s s1 : State} {c : Nat} {l : List Byte} (k : Slot) (h1 : (s.ctx c).state ≠ 1) (h2 : (s.ctx c).state ≠ 2)
    (hf : s.factory = false) (hok : firstBad (s.jobChecks l) = none) (hp : s.placeImage c l = .inl s1) :
    s.jobLoad k c l = (s1.setJobState c 0).ok k := by
  unfold State.jobLoad
  simp only [h1, h2, hf, hok, hp, or_self, Bool.false_eq_true, if_false]

theorem State.schedLoad_of_same {s : State} {c : Nat} {l : List Byte} (k : Slot) (h1 : (s.ctx c).state ≠ 1) (h2 : (s.ctx c).state ≠ 2)
    (hj : (s.ctx c).jobLoaded = true) (hsame : firstBad (sameJob (s.ctx c).image l) = none)
    (hok : firstBad (s.schedChecks ((s.ctx c).withSchedule l) l) = none) :
    s.schedLoad k c l = (s.setCtx c ((s.ctx c).withSchedule l)).ok k := by
  unfold State.schedLoad
  simp only [h1, h2, hj, hsame, hok, or_self, Bool.not_true, Bool.false_eq_true, if_false, Option.isSome_none]

/-! ## JOB_START -/

/-- A firebox whose STRICT and COMPAT are as given (Table 04-7). -/
def Tile.HasModes (b : Tile) (strict compat : Bool) : Prop := (b.reg 0x0304).getLsbD 0 = strict ∧ (b.reg 0x0304).getLsbD 1 = compat

theorem Tile.hasModes_setReg (b : Tile) (strict compat : Bool) :
    (b.setReg 0x0304 (putBit (putBit (b.reg 0x0304) 0 strict) 1 compat)).HasModes strict compat := by
  unfold Tile.HasModes
  rw [Tile.reg_setReg, if_pos rfl, getLsbD_putBit _ (by decide), getLsbD_putBit _ (by decide), getLsbD_putBit _ (by decide)]
  exact ⟨rfl, rfl⟩

/-! Each tile in turn: said of any list of tiles, since the list of 256 is not to be evaluated. -/

theorem hasModes_foldl (strict compat : Bool) {x : Nat} {l : List Nat} (hx : x ∈ l) (s : State) :
    ((l.foldl (fun (v : State) y => v.setLtile y ((v.ltile y).setReg 0x0304
      (putBit (putBit ((v.ltile y).reg 0x0304) 0 strict) 1 compat))) s).ltile x).HasModes strict compat := by
  refine foldl_establishes (P := fun v : State => (v.ltile x).HasModes strict compat) (fun v => ?_) (fun v y h => ?_) hx s
  · rw [State.ltile_setLtile]
    exact Tile.hasModes_setReg ..
  · rw [State.ltile, State.unitOf_setLtile, State.tile_setLtile]
    split
    · exact Tile.hasModes_setReg ..
    · exact h

/-- STRICT and COMPAT of a context put into every tile. -/
def State.setModes (s : State) (cx : Ctx) : State :=
  s.eachTile (fun _ t => t.setReg 0x0304 (putBit (putBit (t.reg 0x0304) 0 cx.strict) 1 cx.compat))

theorem State.hasModes_setModes (s : State) (cx : Ctx) {x : Nat} (hx : x < 256) :
    ((s.setModes cx).ltile x).HasModes cx.strict cx.compat := by
  unfold State.setModes State.eachTile
  exact hasModes_foldl cx.strict cx.compat (List.mem_range.mpr hx) s

theorem State.setModes_keeps {β : Type} (p : State → β) (hp : ∀ s l b, p (s.setLtile l b) = p s) (s : State) (cx : Ctx) :
    p (s.setModes cx) = p s := by
  unfold State.setModes State.eachTile
  exact foldl_keeps p _ (fun v y => hp v y _) _ s

theorem State.resyncStart_of_not_restored {s : State} {c : Nat} (h : (s.ctx c).restored = false) : s.resyncStart c = s := by
  unfold State.resyncStart
  rw [h]
  rfl

/-- With no swap pending, the banks made ready for a start are the store's matter alone. -/
theorem State.prepareBanks_frame {s : State} {c : Nat} (h : (s.ctx c).pendSwap = none) :
    (s.prepareBanks c).ctxs = s.ctxs ∧ (s.prepareBanks c).mem = s.mem := by
  unfold State.prepareBanks
  simp only [h]
  split <;> exact ⟨rfl, rfl⟩

/-- Everything that a job start asks for is in place (R111, R122, R263, R296, R314). -/
structure StartInPlace (s : State) (c b0 : Nat) : Prop where
  idle : s.anyRunning = false
  loaded : (s.ctx c).jobLoaded = true ∧ (s.ctx c).schedLoaded = true
  ahead : s.clk.beatNow + 16 ≤ b0
  bank : (s.ctx c).bankOk (s.bankImage c (s.ctx c).tgen) = true
  noSwap : (s.ctx c).pendSwap = none
  kept : (s.ctx c).restored = false
  named : s.devid.isSome = true
  powered : s.pwr.diesUp = true
  parent : s.flagParent.isSome = true ∨ s.clusterSize ≤ 1 ∨ (s.settingOpt 0x0150).isSome = true
  partner : s.ember.partner.isSome = true ∨ s.wouldMirror c = false

/-- The schedule of a start: the context, its first beat, no stop. -/
def State.setStart (s : State) (c b0 : Nat) : State :=
  { s with sched := { s.sched with ctx := c, b0 := some (c, b0), running := false, desync := false, sStop := none, stopSlot := none } }

theorem State.setStart_frame (s : State) (c b0 : Nat) : (s.setStart c b0).ctxs = s.ctxs ∧ (s.setStart c b0).mem = s.mem := ⟨rfl, rfl⟩

theorem State.ltile_setStart (s : State) (c b0 x : Nat) : (s.setStart c b0).ltile x = s.ltile x := rfl

/-- The module as a start has set it up, before the context is RUNNING. -/
def State.startReady (s : State) (c b0 : Nat) : State := ((s.prepareBanks c).setModes (s.ctx c)).setStart c b0

theorem State.setStart_sched (s : State) (c b0 : Nat) : (s.setStart c b0).sched.b0 = some (c, b0) ∧ (s.setStart c b0).sched.ctx = c ∧
    (s.setStart c b0).sched.running = false := ⟨rfl, rfl, rfl⟩

theorem State.startReady_sched (s : State) (c b0 : Nat) : (s.startReady c b0).sched.b0 = some (c, b0) ∧ (s.startReady c b0).sched.ctx = c ∧
    (s.startReady c b0).sched.running = false := State.setStart_sched ..

theorem State.startReady_frame {s : State} {c b0 : Nat} (h : (s.ctx c).pendSwap = none) :
    (s.startReady c b0).ctxs = s.ctxs ∧ (s.startReady c b0).mem = s.mem := by
  obtain ⟨hctxs, hmem⟩ := State.prepareBanks_frame h
  obtain ⟨hctxs', hmem'⟩ := ((s.prepareBanks c).setModes (s.ctx c)).setStart_frame c b0
  unfold State.startReady
  exact ⟨hctxs'.trans ((State.setModes_keeps State.ctxs (fun _ _ _ => rfl) ..).trans hctxs),
    hmem'.trans ((State.setModes_keeps State.mem (fun _ _ _ => rfl) ..).trans hmem)⟩

theorem StartInPlace.jobStart {s : State} {c b0 : Nat} (h : StartInPlace s c b0) (k : Slot) :
    s.jobStart k c b0 = ((s.startReady c b0).setJobState c 1).ok k := by
  obtain ⟨hidle, ⟨hjob, hsched⟩, hahead, hbank, hswap, hkept, hnamed, hpower, hparent, hpartner⟩ := h
  have hlate : decide (b0 < s.clk.beatNow + 16) = false := decide_eq_false (Nat.not_lt.mpr hahead)
  have hdev : s.devid.isNone = false := by rw [← Option.not_isSome, hnamed]; rfl
  have hflag : (s.flagParent.isNone && decide (1 < s.clusterSize) && !(s.settingOpt 0x0150).isSome) = false := by
    rcases hparent with hp | hp | hp
    · rw [← Option.not_isSome, hp]; rfl
    · rw [decide_eq_false (Nat.not_lt.mpr hp), Bool.and_false, Bool.false_and]
    · rw [hp, Bool.not_true, Bool.and_false]
  have hmirror : (s.ember.partner.isNone && s.wouldMirror c) = false := by
    rcases hpartner with hp | hp
    · rw [← Option.not_isSome, hp]; rfl
    · rw [hp, Bool.and_false]
  have hstart : s.jobStart k c b0 = (((s.startReady c b0).setJobState c 1).resyncStart c).ok k := by
    unfold State.startReady State.setStart State.setModes State.jobStart
    simp only [hidle, hjob, hsched, hlate, hbank, hswap, hdev, hflag, hpower, hmirror, Bool.not_true, Bool.or_false, Bool.false_eq_true,
      if_false]
  rw [hstart, State.resyncStart_of_not_restored]
  have hctx : (s.startReady c b0).ctx c = s.ctx c := State.ctx_congr (State.startReady_frame hswap).1 c
  rw [(jobStateSet_setJobState _ c 1).ctx c, if_pos rfl, hctx]
  exact hkept

/-! ## JOB_STOP -/

theorem State.jobStop_of_running {s : State} {c n : Nat} (k : Slot) (h : (s.ctx c).state = 1) (hn : n = 0 ∨ (s.ctx c).stepCommitted < n) :
    s.jobStop k c n = (({ s with sched := { s.sched with sStop := some n, stopSlot := some k } } : State).wait k
      (.jobStop k (BitVec.ofNat 2 c) (BitVec.ofNat 48 n))).setJobState c 2 := by
  have hlate : ¬ (n ≠ 0 ∧ n ≤ (s.ctx c).stepCommitted) := by omega
  unfold State.jobStop
  simp only [h, hlate, if_neg (show (1 : Nat) ≠ 2 by decide), not_true_eq_false, ne_eq, or_self, if_false]

/-! ## The obligation -/

/-- Settles O42: an image that finds room becomes its context (`ctxs_placeImage`), a start in place sets the schedule and the tiles' modes
and makes the context RUNNING (`StartInPlace.jobStart`), and a stop waits (`jobStop_of_running`). -/
theorem jobsLoadStartAndStop : Obligations.JobsLoadStartAndStop := by
  unfold Obligations.JobsLoadStartAndStop
  refine ⟨fun s k c l h1 h2 => ⟨fun hf hok hp => ?load, fun hj hsame hok => ?sched⟩,
    fun s k c b0 hidle hjob hsched hahead hbank hswap hkept hnamed hpower hparent hpartner => ?start, fun s k c n hrun hn => ?stop⟩
  case load =>
    obtain ⟨s1, hp⟩ := hp
    obtain ⟨hout, hframe⟩ := (s1.setJobState c.toNat 0).okData_result k []
    have hplaced := fun d => congrArg (fun m => (tget {} m d : Ctx)) (State.ctxs_placeImage hp)
    have hctx : ∀ d, ((s1.setJobState c.toNat 0).ok k).ctx d = if d = c.toNat then { s1.ctx c.toNat with state := 0 } else s1.ctx d := by
      intro d
      rw [State.ok, hframe]
      exact (jobStateSet_setJobState s1 c.toNat 0).ctx d
    refine ⟨_, congrArg ok (State.jobLoad_of_room k h1 h2 hf hok hp), hout, ?_, fun d hd => ?_⟩
    · rw [hctx, if_pos rfl, show s1.ctx c.toNat = _ from (hplaced c.toNat).trans (tget_tset_same ..)]
    · rw [hctx, if_neg hd]
      exact (hplaced d).trans (tget_tset_ne _ _ _ hd)
  case sched =>
    obtain ⟨hout, hframe⟩ := (s.setCtx c.toNat ((s.ctx c.toNat).withSchedule l)).okData_result k []
    have hctx : ∀ d, ((s.setCtx c.toNat ((s.ctx c.toNat).withSchedule l)).ok k).ctx d =
        if d = c.toNat then (s.ctx c.toNat).withSchedule l else s.ctx d := by
      intro d
      rw [State.ok, hframe]
      exact s.ctx_setCtx ..
    exact ⟨_, congrArg ok (State.schedLoad_of_same k h1 h2 hj hsame hok), hout, (hctx _).trans (if_pos rfl),
      fun d hd => (hctx d).trans (if_neg hd), hframe⟩
  case start =>
    have hplace : StartInPlace s c.toNat b0.toNat :=
      ⟨hidle, ⟨hjob, hsched⟩, hahead, hbank, hswap, hkept, hnamed, hpower, hparent, hpartner⟩
    obtain ⟨hctxs, hmem⟩ := State.startReady_frame (b0 := b0.toNat) hswap
    obtain ⟨hb0, hctx, hrun⟩ := s.startReady_sched c.toNat b0.toNat
    have hset := jobStateSet_setJobState (s.startReady c.toNat b0.toNat) c.toNat 1
    obtain ⟨hout, hframe⟩ := ((s.startReady c.toNat b0.toNat).setJobState c.toNat 1).okData_result k []
    refine ⟨_, congrArg ok (hplace.jobStart k), hout, ?_⟩
    rw [State.ok, hframe]
    generalize (s.startReady c.toNat b0.toNat).setJobState c.toNat 1 = v at hset ⊢
    refine ⟨?state, ?b0, ?ctx, ?running, fun x => ?modes, fun d hd => ?others, ?mem⟩
    case state => exact congrArg Ctx.state ((hset.ctx c.toNat).trans (if_pos rfl))
    case b0 => exact (congrArg Sched.b0 hset.sched).trans hb0
    case ctx => exact (congrArg Sched.ctx hset.sched).trans hctx
    case running => exact (congrArg Sched.running hset.sched).trans hrun
    case modes =>
      have htile := State.ltile_congr hset.tiles hset.tileMap x.toNat
      rw [State.startReady, State.ltile_setStart] at htile
      exact (congrArg (fun b : Tile => b.HasModes _ _) htile).mpr ((s.prepareBanks c.toNat).hasModes_setModes (s.ctx c.toNat) x.isLt)
    case others => exact ((hset.ctx d).trans (if_neg hd)).trans (State.ctx_congr hctxs d)
    case mem => exact hset.mem.trans hmem
  case stop =>
    have hset := jobStateSet_setJobState (({ s with sched := { s.sched with sStop := some n.toNat, stopSlot := some k } } : State).wait k
      (.jobStop k (BitVec.ofNat 2 c.toNat) (BitVec.ofNat 48 n.toNat))) c.toNat 2
    refine ⟨_, congrArg ok (State.jobStop_of_running k hrun (hn.imp_left fun h => congrArg BitVec.toNat h)), (hset.ctx _).trans (if_pos rfl), hset.sched, ?_, hset.results, hset.tiles, hset.mem⟩
    rw [hset.waiting, State.wait, getSlot_putSlot_same, BitVec.ofNat_toNat, BitVec.ofNat_toNat, BitVec.setWidth_eq, BitVec.setWidth_eq]

end Sys2Proof.Machine

/-! Transfers of streams and their faults (R153, R158, R177 to R181, R193 to R197, R242, R305): one element moved by a plain stream, what an
access that stops leaves of the module, and the faults, aborts and reports that follow. -/

namespace Sys2Proof.Machine

/-! ## The stream at a place -/

theorem State.setTile_setTile (s : State) (u : Nat) (b d : Tile) : (s.setTile u b).setTile u d = s.setTile u d :=
  congrArg (fun m => { s with tiles := m }) (tset_tset ..)

@[simp] theorem State.tile_setTile_same (s : State) (u : Nat) (b : Tile) : (s.setTile u b).tile u = b :=
  (s.tile_setTile ..).trans (if_pos rfl)

@[simp] theorem State.tile_setStreamAt (s : State) (a : At) (v : Stream) : (s.setStreamAt a v).tile a.u = (s.tile a.u).setStream a.s v :=
  s.tile_setTile_same ..

@[simp] theorem State.streamAt_setStreamAt (s : State) (a : At) (v : Stream) : (s.setStreamAt a v).streamAt a = v := by
  rw [State.streamAt, State.tile_setStreamAt, Tile.stream_setStream_same]

@[simp] theorem State.setStreamAt_setStreamAt (s : State) (a : At) (v w : Stream) : (s.setStreamAt a v).setStreamAt a w = s.setStreamAt a w := by
  rw [State.setStreamAt, State.tile_setStreamAt, Tile.setStream_setStream]
  exact s.setTile_setTile ..

/-- A firebox's other streams, the other fireboxes and the memory stay. -/
structure OnlyStream (s t : State) (a : At) : Prop where
  streams : ∀ m, m ≠ a.s → (t.tile a.u).stream m = (s.tile a.u).stream m
  others : ∀ v, v ≠ a.u → t.tile v = s.tile v
  mem : t.mem = s.mem
  tileMap : t.tileMap = s.tileMap

theorem OnlyStream.trans {s t r : State} {a : At} (h : OnlyStream s t a) (k : OnlyStream t r a) : OnlyStream s r a where
  streams m hm := (k.streams m hm).trans (h.streams m hm)
  others v hv := (k.others v hv).trans (h.others v hv)
  mem := k.mem.trans h.mem
  tileMap := k.tileMap.trans h.tileMap

theorem onlyStream_setTile (s : State) (a : At) {b : Tile} (hb : ∀ m, m ≠ a.s → b.stream m = (s.tile a.u).stream m) :
    OnlyStream s (s.setTile a.u b) a where
  streams m hm := by rw [State.tile_setTile_same, hb m hm]
  others v hv := (s.tile_setTile ..).trans (if_neg hv)
  mem := rfl
  tileMap := rfl

theorem onlyStream_setStreamAt (s : State) (a : At) (v : Stream) : OnlyStream s (s.setStreamAt a v) a :=
  onlyStream_setTile s a (Tile.stream_setStream_ne _ _ _)

theorem OnlyStream.ltile {s t : State} {a : At} (h : OnlyStream s t a) (n : Nat) : t.ltile n = t.tile (s.unitOf n) := by
  rw [State.ltile, State.unitOf, h.tileMap, State.unitOf]

/-- A stream that nothing holds: what STREAM_TRANSFER notes of a move is gone. -/
theorem State.noteMov_none (s : State) (a : At) : OnlyStream s (s.noteMov a .none) a ∧
    (s.noteMov a .none).streamAt a = { s.streamAt a with mov := none } ∧ ((s.noteMov a .none).tile a.u).scratch = (s.tile a.u).scratch := by
  unfold State.noteMov
  dsimp only
  split
  case isTrue =>
    exact ⟨onlyStream_setStreamAt .., s.streamAt_setStreamAt .., by rw [State.tile_setStreamAt]; rfl⟩
  case isFalse h =>
    have hmov : (s.streamAt a).mov = none := by simpa using h
    exact ⟨⟨fun _ _ => rfl, fun _ _ => rfl, rfl, rfl⟩, by rw [← hmov], rfl⟩

/-! ## Plain streams -/

section
variable {s : State} {st : Stream} {kind sp : Nat} (h : plainRun s st kind sp)
include h

theorem plainRun.notIndexed : sdIndexed st.sd = false := by
  obtain ⟨_, _, hidx, _⟩ := h
  rw [sdIndexed, hidx]
  rfl

theorem plainRun.idxOnDest : idxOnDest st.sd = false := by
  rw [Machine.idxOnDest, h.notIndexed, Bool.false_and]

/-- A stream without conversion has the format of DESC_A in its flue. -/
theorem plainRun.flueFmt (c : Nat) : sdFlueFmt (s.ctx c) st.sd = (st.descA (s.ctx c)).fmt := by
  obtain ⟨_, _, _, hconv, _⟩ := h
  simp [sdFlueFmt, hconv, sdMemFmt, Stream.descA]

end

/-- A format whose elements stand alone has no scales, and whole bytes. -/
theorem granule_one : ∀ fmt : BitVec 4, granule fmt = 1 → scaleBlock fmt = 0 ∧ 1 ≤ granuleBytes fmt := by decide

/-- An element of a linear array whose format has granules of one. -/
theorem Desc.place_of_single {d : Desc} (hg : granule d.fmt = 1) (hl : d.layout = 0) (t : List Nat) :
    (d.place t).single = true ∧ (d.place t).scale = none ∧ 1 ≤ (d.place t).unitBytes := by
  obtain ⟨hscale, hbytes⟩ := granule_one d.fmt hg
  simp [Desc.place, hl, hg, hscale, hbytes, Place.single]

theorem State.reachAs_of_space (s : State) (u c a n : Nat) {sp : Nat} (h : sp ≠ 0) (w k : Bool) : s.reachAs u c sp a n w k = (s, none) :=
  if_pos h

/-- Single elements are reached by the access to their own bytes. -/
theorem State.reachElemAs_of_single (s : State) (u c : Nat) {d : Desc} (hg : granule d.fmt = 1) (hl : d.layout = 0) (t : List Nat) (w k : Bool) :
    s.reachElemAs u c d t w k = s.reachAs u c d.space (d.place t).unit (d.place t).unitBytes w k := by
  obtain ⟨hsingle, hscale, _⟩ := Desc.place_of_single hg hl t
  simp only [State.reachElemAs, hsingle, hscale, Bool.or_true, Bool.true_or, if_true]
  split
  · contradiction
  · rfl

/-- DESC_A of the stream at a place under its present bases. -/
def State.descAt (s : State) (a : At) : Desc := (s.streamAt a).descA (s.ctx (s.streamAt a).ctx)

/-- The tuple at the cursor of the stream at a place. -/
def State.tupleAt (s : State) (a : At) : List Nat := streamTuple (s.ctx (s.streamAt a).ctx) (s.streamAt a).sd (s.streamAt a).pos

/-- The access to a plain stream's element. -/
theorem plainRun.reachElemAs {s : State} {a : At} {kind sp : Nat} (h : plainRun s (s.streamAt a) kind sp) (m : State) (c : Nat) (w k : Bool) :
    m.reachElemAs a.u c (s.descAt a) (s.tupleAt a) w k =
      m.reachAs a.u c sp ((s.descAt a).place (s.tupleAt a)).unit ((s.descAt a).place (s.tupleAt a)).unitBytes w k := by
  obtain ⟨_, _, _, _, _, _, hspace, hgran, hlay, _⟩ := h
  rw [m.reachElemAs_of_single a.u c (d := s.descAt a) hgran hlay, State.descAt, hspace]

theorem State.reachIndex_of_plain (s : State) (a : At) (c : Nat) {st : Stream} (t : List Nat) (h : sdIndexed st.sd = false) :
    s.reachIndex a c st t = (s, .none) := by
  simp [State.reachIndex, h]

/-- The source element of a load without index is the one of the tuple, once its access may proceed. -/
theorem State.sourceElem_of_plain (s : State) (a : At) (c : Nat) {st : Stream} (t : List Nat) (hidx : sdIndexed st.sd = false) {r : State}
    (hr : s.reachElem a.u c (st.descA (s.ctx c)) t false = (r, none)) :
    s.sourceElem a c st t = (r, .inr (r.readElem a.u c (st.descA (s.ctx c)) t)) := by
  simp [State.sourceElem, State.reachIndex, hidx, hr]

theorem State.sourceElem_of_stop (s : State) (a : At) (c : Nat) {st : Stream} (t : List Nat) (hidx : sdIndexed st.sd = false) {r : State}
    {p : Access × Nat} (hr : s.reachElem a.u c (st.descA (s.ctx c)) t false = (r, some p)) :
    s.sourceElem a c st t = (r, .inl (.access p.1 p.2)) := by
  simp [State.sourceElem, State.reachIndex, hidx, hr]

theorem State.countIndex_of_plain {s : State} {a : At} (c : Nat) (t : List Nat) (h : sdIndexed (s.streamAt a).sd = false) :
    s.countIndex a c t = s := by
  simp [State.countIndex, h]

/-! ## One element of a load (R177) -/

/-- A stream that has taken an element into empty bellows. -/
def Stream.took (st : Stream) (e : Nat × Nat) : Stream := { st with pos := st.pos + 1, buf := [(st.pos, e)] }

/-- A load that has delivered an element. -/
def Stream.delivered (st : Stream) (e : Nat × Nat) : Stream :=
  { st with pos := st.pos + 1, cursorPos := st.pos + 1, entries := st.entries ++ [e], buf := [] }

section
variable {s : State} {a : At} {sp : Nat} (h : plainRun s (s.streamAt a) 0 sp)

include h in
/-- An element of the flue's own format is delivered as it is, with no flag. -/
theorem State.flushLoad_of_plain (e : Nat × Nat) (c : Nat) :
    let s1 := s.setStreamAt a ((s.streamAt a).delivered e)
    (s.setStreamAt a ((s.streamAt a).took e)).flushLoad a c = (s1.setTile a.u ((s1.tile a.u).raise 0), .none) := by
  obtain ⟨_, _, _, hconv, _⟩ := h
  have hfmt : ∀ cx, sdFlueFmt cx (s.streamAt a).sd = sdMemFmt cx (s.streamAt a).sd := fun cx => by simp [sdFlueFmt, hconv]
  unfold State.flushLoad
  simp [Stream.took, Stream.delivered, hfmt, convElem]

variable (hs : (s.streamAt a).stall = false) (hr : (s.streamAt a).room (s.descAt a).fmt 1 = true)
include h hs hr

/-- A load whose cursor stands before the end and whose flue has room takes its source element, or stops with it. -/
theorem State.transferOne_of_room :
    (∀ r stop, s.sourceElem a (s.streamAt a).ctx (s.streamAt a) (s.tupleAt a) = (r, .inl stop) →
      s.transferOne a (s.streamAt a).ctx = (r, stop)) ∧
    ∀ e, s.sourceElem a (s.streamAt a).ctx (s.streamAt a) (s.tupleAt a) = (s, .inr e) → s.transferOne a (s.streamAt a).ctx =
      (s.setStreamAt a ((s.streamAt a).took e)).flushLoad a (s.streamAt a).ctx := by
  have hfmt : sdFlueFmt (s.ctx (s.streamAt a).ctx) (s.streamAt a).sd = (s.descAt a).fmt := h.flueFmt _
  have hidx := h.notIndexed
  obtain ⟨hrun, hkind, _, _, _, hbuf, _, _, _, hpos⟩ := h
  have hroom : (!(s.streamAt a).room (sdFlueFmt (s.ctx (s.streamAt a).ctx) (s.streamAt a).sd) ((s.streamAt a).buf.length + 1)) = false := by
    rw [hfmt, hbuf, Bool.not_eq_false']
    exact hr
  unfold State.transferOne State.tupleAt Stream.took
  dsimp only
  rw [if_neg (by simp [hrun, hs]), if_neg (Nat.not_le.mpr hpos), if_pos hkind, hroom]
  exact ⟨fun r stop hq => by rw [hq]; rfl, fun e hq => by rw [hq]; simp only [State.countIndex_of_plain _ _ hidx, hbuf]; rfl⟩

theorem State.transferOne_of_load (hreach : s.reachElem a.u (s.streamAt a).ctx (s.descAt a) (s.tupleAt a) false = (s, none)) :
    let s1 := s.setStreamAt a ((s.streamAt a).delivered (s.readElem a.u (s.streamAt a).ctx (s.descAt a) (s.tupleAt a)))
    s.transferOne a (s.streamAt a).ctx = (s1.setTile a.u ((s1.tile a.u).raise 0), .none) :=
  ((State.transferOne_of_room h hs hr).2 _ (s.sourceElem_of_plain a (s.streamAt a).ctx (s.tupleAt a) h.notIndexed hreach)).trans
    (State.flushLoad_of_plain h _ _)

theorem State.transferOne_of_stop {r : State} {p : Access × Nat}
    (hreach : s.reachElem a.u (s.streamAt a).ctx (s.descAt a) (s.tupleAt a) false = (r, some p)) :
    s.transferOne a (s.streamAt a).ctx = (r, .access p.1 p.2) :=
  (State.transferOne_of_room h hs hr).1 _ _ (s.sourceElem_of_stop a (s.streamAt a).ctx (s.tupleAt a) h.notIndexed hreach)

end

/-! ## One element of a store (R153, R177) -/

section
variable (s : State) (a : At) (c : Nat) {v : Stream} (hk : sdKind v.sd = 1) (hx : idxOnDest v.sd = false)
include hk hx

theorem State.reachAll_of_store (p : Nat) (e : Nat × Nat) : s.reachAll a c v [(p, e)] =
    s.reachElemAs a.u c (v.descA (s.ctx c)) (streamTuple (s.ctx c) v.sd p) true (looksAt v (v.descA (s.ctx c))) := by
  simp [State.reachAll, State.destTuple, destDesc, hk, hx]

theorem State.putAs_of_store (p : Nat) (e : Nat × Nat) :
    s.putAs a c v .each [(p, e)] = s.putElem a c v (v.descA (s.ctx c)) (streamTuple (s.ctx c) v.sd p) e.1 e.2 := by
  simp [State.putAs, State.putEach, State.aimed, State.destTuple, destDesc, hk, hx]

end

/-- An element of the array's own format, not watched and not added, is written as it is, with no flag. -/
theorem State.putElem_of_store (s : State) (a : At) (c : Nat) {v : Stream} {d : Desc} (hf : transitFmt (s.ctx c) v.sd = d.fmt)
    (hw : sdWatch v.sd = false) (ho : d.ovl = 0) (t : List Nat) (code scale : Nat) :
    let s1 := s.streamPut a c d.space (d.place t).unit (leBytes (d.place t).unitBytes code)
    s.putElem a c v d t code scale = s1.setTile a.u ((s1.tile a.u).raise 0) := by
  have hconv : s.converted c v d t code scale = (code, 0) := by simp [State.converted, convElem, hf]
  simp [State.putElem, State.writeElem, hconv, ho, hw]

/-- A stream whose store took the front entry. -/
def Stream.storing (st : Stream) (e : Nat × Nat) (rest : List (Nat × Nat)) : Stream :=
  ({ st with entries := st.entries.take st.claimed ++ rest } : Stream).took e

/-- The stream's elements are written: its bellows are empty and its cursor stands where it took the last one. -/
def State.closeStore (s : State) (a : At) (fmt : BitVec 4) : State :=
  s.setStreamAt a (({ s.streamAt a with buf := [], cursorPos := (s.streamAt a).pos } : Stream).trim fmt)

section
variable {s : State} {a : At} {sp : Nat} (h : plainRun s (s.streamAt a) 1 sp) {e : Nat × Nat} {rest : List (Nat × Nat)}
include h

theorem plainRun.groupOf : groupOf (s.ctx (s.streamAt a).ctx) ((s.streamAt a).storing e rest) = .each := by
  have hidx : Machine.idxOnDest ((s.streamAt a).storing e rest).sd = false := h.idxOnDest
  obtain ⟨_, hkind, _, _, _, _, _, hgran, hlay, _⟩ := h
  have hdest : destDesc (s.ctx (s.streamAt a).ctx) ((s.streamAt a).storing e rest) = s.descAt a := if_pos hkind
  have hlinear : (((s.ctx (s.streamAt a).ctx).desc (sdDescA ((s.streamAt a).storing e rest).sd)).layout == 0) = true := beq_iff_eq.mpr hlay
  unfold Machine.groupOf
  simp only [hidx, hdest, hlinear]
  rw [if_neg Bool.false_ne_true, if_pos ⟨hgran, hlay⟩]
  simp

/-- The store's access, and its write where that may proceed. -/
theorem State.flushStream_of_store {s1 : State} (h1 : s1 = s.setStreamAt a ((s.streamAt a).storing e rest)) :
    (∀ r, s1.reachElemAs a.u (s.streamAt a).ctx (s.descAt a) (s.tupleAt a) true (looksAt (s.streamAt a) (s.descAt a)) = (r, none) →
      s1.flushStream a (s.streamAt a).ctx = ((r.putElem a (s.streamAt a).ctx ((s.streamAt a).storing e rest)
        ((s.streamAt a).descA (r.ctx (s.streamAt a).ctx))
        (streamTuple (r.ctx (s.streamAt a).ctx) (s.streamAt a).sd (s.streamAt a).pos) e.1 e.2).closeStore a (s.descAt a).fmt, .none)) ∧
    ∀ r p, s1.reachElemAs a.u (s.streamAt a).ctx (s.descAt a) (s.tupleAt a) true (looksAt (s.streamAt a) (s.descAt a)) = (r, some p) →
      s1.flushStream a (s.streamAt a).ctx = (r, .access p.1 p.2) := by
  have hgroup := h.groupOf (e := e) (rest := rest)
  have hfmt := h.flueFmt (s.streamAt a).ctx
  have hidx := h.idxOnDest
  obtain ⟨_, hkind, _⟩ := h
  have hv : s1.streamAt a = (s.streamAt a).storing e rest := by rw [h1, State.streamAt_setStreamAt]
  have hctx : s1.ctx (s.streamAt a).ctx = s.ctx (s.streamAt a).ctx := by rw [h1]; rfl
  have hreach : s1.reachAll a (s.streamAt a).ctx ((s.streamAt a).storing e rest) [((s.streamAt a).pos, e)] =
      s1.reachElemAs a.u (s.streamAt a).ctx (s.descAt a) (s.tupleAt a) true (looksAt (s.streamAt a) (s.descAt a)) := by
    rw [s1.reachAll_of_store a (s.streamAt a).ctx (v := (s.streamAt a).storing e rest) hkind hidx, hctx]
    rfl
  unfold State.flushStream
  simp only [hv, hctx, hgroup, show ((s.streamAt a).storing e rest).buf = [((s.streamAt a).pos, e)] from rfl, hreach]
  refine ⟨fun r hr => ?_, fun r p hr => by rw [hr]⟩
  have hput := r.putAs_of_store a (s.streamAt a).ctx (v := (s.streamAt a).storing e rest) hkind hidx (s.streamAt a).pos e
  rw [hr]
  dsimp only
  rw [hput]
  exact congrArg (fun f => (State.closeStore _ a f, Stop.none)) hfmt

variable (hs : (s.streamAt a).stall = false) (he : (s.streamAt a).entries.drop (s.streamAt a).claimed = e :: rest)
include hs he

theorem State.transferOne_of_store :
    (∀ r, (s.setStreamAt a ((s.streamAt a).storing e rest)).flushStream a (s.streamAt a).ctx = (r, .none) →
      s.transferOne a (s.streamAt a).ctx = (r, .none)) ∧
    ∀ r p x, (s.setStreamAt a ((s.streamAt a).storing e rest)).flushStream a (s.streamAt a).ctx = (r, .access p x) →
      s.transferOne a (s.streamAt a).ctx = (r.notTaken s a, .access p x) := by
  have hidx := h.notIndexed
  obtain ⟨hrun, hkind, _, _, _, hbuf, _, _, _, hpos⟩ := h
  unfold State.transferOne Stream.storing Stream.took
  dsimp only
  rw [if_neg (by simp [hrun, hs]), if_neg (Nat.not_le.mpr hpos), if_neg (by rw [hkind]; decide), if_pos hkind, he]
  simp only [State.reachIndex_of_plain _ _ _ _ hidx, State.countIndex_of_plain _ _ hidx, hbuf, List.nil_append]
  exact ⟨fun r hq => by rw [hq], fun r p x hq => by rw [hq]⟩

end

theorem State.transfer_one {s r : State} {a : At} {c : Nat} (h : s.transferOne a c = (r, .none)) : s.transfer a c 1 = (r, .none) := by
  simp [State.transfer, h]

/-! ## Transfers of scratch arrays -/

/-- A write to scratch that no guard meets. -/
theorem State.streamPut_of_scratch (s : State) (a : At) (c x : Nat) (bs : List Byte)
    (h : (s.streamAt a).armedIn ≠ 0 ∨ meetsGuard (s.guards (s.tile a.u)) x bs.length = false) :
    s.streamPut a c 1 x bs = s.setTile a.u { s.tile a.u with scratch := mwrite (s.tile a.u).scratch x bs } := by
  have hg : ((1 : Nat) = 1 && (s.streamAt a).armedIn == 0 && meetsGuard (s.guards (s.tile a.u)) x bs.length) = false := by
    rcases h with h | h
    · simp [h]
    · simp [h]
  rw [State.streamPut, hg]
  rfl

/-- The two together: the element's bytes in scratch. -/
theorem State.putElem_of_scratch (s : State) (a : At) (c : Nat) {v : Stream} {d : Desc} (hf : transitFmt (s.ctx c) v.sd = d.fmt)
    (hw : sdWatch v.sd = false) (ho : d.ovl = 0) (hsp : d.space = 1) {t : List Nat} (hg : (s.streamAt a).armedIn ≠ 0 ∨
      meetsGuard (s.guards (s.tile a.u)) (d.place t).unit (d.place t).unitBytes = false) (code scale : Nat) :
    s.putElem a c v d t code scale = s.setTile a.u (({ s.tile a.u with
      scratch := mwrite (s.tile a.u).scratch (d.place t).unit (leBytes (d.place t).unitBytes code) } : Tile).raise 0) := by
  have hput := s.putElem_of_store a c hf hw ho t code scale
  rw [hsp, State.streamPut_of_scratch _ _ _ _ _ (by rwa [leBytes_length])] at hput
  rw [hput, State.tile_setTile_same, State.setTile_setTile]

theorem State.closeStore_result (s : State) (a : At) (fmt : BitVec 4) : OnlyStream s (s.closeStore a fmt) a ∧
    (s.closeStore a fmt).streamAt a = { s.streamAt a with
      buf := [], cursorPos := (s.streamAt a).pos, units := ((s.closeStore a fmt).streamAt a).units } ∧
    ((s.closeStore a fmt).tile a.u).scratch = (s.tile a.u).scratch := by
  refine ⟨onlyStream_setStreamAt .., ?_, ?_⟩
  · rw [State.closeStore, State.streamAt_setStreamAt]
    exact Stream.trim_frame ..
  · rw [State.closeStore, State.tile_setStreamAt]
    rfl

/-- A scratch array's element goes from its place into the flue. -/
theorem State.transferOne_of_scratchLoad {s : State} {a : At} (h : plainRun s (s.streamAt a) 0 1) (hs : (s.streamAt a).stall = false)
    (hr : (s.streamAt a).room (s.descAt a).fmt 1 = true) : ∃ r, s.transferOne a (s.streamAt a).ctx = (r, .none) ∧ OnlyStream s r a ∧
      r.streamAt a = (s.streamAt a).delivered (s.readElem a.u (s.streamAt a).ctx (s.descAt a) (s.tupleAt a)) ∧
      (r.tile a.u).scratch = (s.tile a.u).scratch := by
  have hreach : s.reachElem a.u (s.streamAt a).ctx (s.descAt a) (s.tupleAt a) false = (s, none) :=
    (h.reachElemAs s _ _ _).trans (s.reachAs_of_space _ _ _ _ (by decide) _ _)
  have hone := State.transferOne_of_load h hs hr hreach
  refine ⟨_, hone, (onlyStream_setStreamAt ..).trans (onlyStream_setTile _ _ fun _ _ => rfl), ?_, ?_⟩
  · rw [State.streamAt, State.tile_setTile_same]
    exact s.streamAt_setStreamAt ..
  · rw [State.tile_setTile_same, State.tile_setStreamAt]
    rfl

/-- The bytes of a store's front entry go to the element's place in scratch. -/
theorem State.transferOne_of_scratchStore {s : State} {a : At} {e : Nat × Nat} {rest : List (Nat × Nat)} (h : plainRun s (s.streamAt a) 1 1)
    (hs : (s.streamAt a).stall = false) (ho : (s.descAt a).ovl = 0) (he : (s.streamAt a).entries.drop (s.streamAt a).claimed = e :: rest)
    (hg : (s.streamAt a).armedIn ≠ 0 ∨
      meetsGuard (s.guards (s.tile a.u)) ((s.descAt a).place (s.tupleAt a)).unit ((s.descAt a).place (s.tupleAt a)).unitBytes = false) :
    ∃ r, s.transferOne a (s.streamAt a).ctx = (r, .none) ∧ OnlyStream s r a ∧
      (r.streamAt a).pos = (s.streamAt a).pos + 1 ∧ (r.streamAt a).cursorPos = (s.streamAt a).pos + 1 ∧
      (r.streamAt a).entries = (s.streamAt a).entries.take (s.streamAt a).claimed ++ rest ∧
      (r.tile a.u).scratch = mwrite (s.tile a.u).scratch ((s.descAt a).place (s.tupleAt a)).unit
        (leBytes ((s.descAt a).place (s.tupleAt a)).unitBytes e.1) := by
  have hflush := (State.flushStream_of_store h (e := e) (rest := rest) rfl).1 (s.setStreamAt a ((s.streamAt a).storing e rest)) ?reach
  case reach => exact (h.reachElemAs _ _ _ _).trans (State.reachAs_of_space _ _ _ _ _ (by decide) _ _)
  have hfmt : transitFmt (s.ctx (s.streamAt a).ctx) ((s.streamAt a).storing e rest).sd = (s.descAt a).fmt := by
    have hflue := h.flueFmt (s.streamAt a).ctx
    obtain ⟨_, hkind, _⟩ := h
    exact (if_pos hkind).trans hflue
  have hput := (s.setStreamAt a ((s.streamAt a).storing e rest)).putElem_of_scratch a (s.streamAt a).ctx
    (v := (s.streamAt a).storing e rest) (d := s.descAt a) hfmt (by obtain ⟨_, _, _, _, hw, _⟩ := h; exact hw) ho
    (by obtain ⟨_, _, _, _, _, _, hspace, _⟩ := h; exact hspace) (t := s.tupleAt a) (by
      rw [State.streamAt_setStreamAt, State.tile_setStreamAt]
      exact hg) e.1 e.2
  have hone := ((State.transferOne_of_store h hs he).1 _ hflush).trans
    (congrArg (fun m : State => (m.closeStore a (s.descAt a).fmt, Stop.none)) hput)
  generalize hm : (s.setStreamAt a ((s.streamAt a).storing e rest)).setTile a.u _ = m at hone
  obtain ⟨honly, hst, hscratch⟩ := m.closeStore_result a (s.descAt a).fmt
  have hfirst : OnlyStream s m a := by
    rw [← hm]
    exact (onlyStream_setStreamAt ..).trans (onlyStream_setTile _ _ fun _ _ => rfl)
  have hstream : m.streamAt a = (s.streamAt a).storing e rest := by
    rw [← hm, State.streamAt, State.tile_setTile_same]
    exact s.streamAt_setStreamAt ..
  rw [hstream] at hst
  refine ⟨_, hone, hfirst.trans honly, ?_, ?_, ?_, ?_⟩
  · rw [hst]; rfl
  · rw [hst]; rfl
  · rw [hst]; rfl
  · rw [hscratch, ← hm, State.tile_setTile_same, State.tile_setStreamAt]
    rfl

/-! ## A line filled into a cache (R194, R199) -/

theorem XCache.find_putFirst (x : XCache) {n : Nat} (hn : 0 < n) (g : XGroup) : (x.putFirst n g).find g.ctx g.g = some g := by
  obtain ⟨k, rfl⟩ := Nat.exists_eq_add_of_lt hn
  simp [XCache.find, XCache.putFirst]

/-- A group's line as a fill reads it. -/
def State.freshLine (s : State) (c g : Nat) : XGroup := { ctx := c, g := g, entries := (s.groupLine c g).1, cp := List.replicate 8 false }

/-- A firebox's cache and counts after a fill. -/
theorem State.xcTake_eq (s : State) (u c g : Nat) :
    let b := ({ s.tile u with xc := (s.tile u).xc.putFirst 128 (s.freshLine c g) } : Tile).bump 0x0808 1
    s.xcTake (some u) c g = s.setTile u (if (s.groupLine c g).2 then b.orReg 0x0800 2 else b) := by
  intro b
  have hfirst : ((s.setXc (some u) ((s.xcOf (some u)).putFirst (xcSize (some u)) (s.freshLine c g))).xcCount (some u) 0x0808) = s.setTile u b := by
    simp only [State.setXc, State.xcCount, State.tile_setTile_same, State.setTile_setTile]
    rfl
  unfold State.xcTake
  unfold State.freshLine at hfirst
  simp only [hfirst]
  split
  · rw [State.tile_setTile_same, State.setTile_setTile]
  · rfl

theorem State.tiles_rewriteGroup (s : State) (c g : Nat) : (s.rewriteGroup c g).tiles = s.tiles := by
  unfold State.rewriteGroup
  split
  · rfl
  · rfl

/-- A rewrite looks at the memory alone. -/
theorem State.mem_rewriteGroup {s t : State} (h : t.mem = s.mem) (c g : Nat) : (t.rewriteGroup c g).mem = (s.rewriteGroup c g).mem := by
  have hbad : t.pmBad c g = s.pmBad c g := by
    funext b
    simp only [State.pmBad, State.lineBad, State.pmFrame, h]
  unfold State.rewriteGroup
  rw [hbad]
  split
  · simp only [State.pmFrame, h]
  · exact h

/-- The primary line is rewritten only where it is uncorrectable and its copy is not. -/
theorem State.rewriteGroup_of_good {s : State} {c g : Nat} (h : s.pmBad c g false = false) : s.rewriteGroup c g = s := by
  simp [State.rewriteGroup, h]

/-- Entries put one by one: each key of the list holds its own. -/
theorem tget_foldl_tset {α β : Type} (d : α) (k : β → Nat) (v : β → α) (l : List β) (hk : Function.Injective k) (m : Table α) {i : β}
    (hi : i ∈ l) :
    tget d (l.foldl (fun m i => tset m (k i) (v i)) m) (k i) = v i := by
  induction l using List.reverseRecOn with
  | nil => exact absurd hi List.not_mem_nil
  | append_singleton l j ih =>
    rw [List.foldl_append]
    by_cases hj : i = j
    · rw [hj]
      exact tget_tset_same ..
    · refine (tget_tset_ne _ _ _ fun h => hj (hk h)).trans (ih ?_)
      simpa [hj] using hi

theorem State.pentry_rewriteGroup {s : State} {c g : Nat} (h : s.pmBad c g false = true) (h' : s.pmBad c g true = false) {i : Nat} (hi : i < 8) :
    (s.rewriteGroup c g).pentry c (8 * g + i) = tget 0 s.mem.pmapCopy (pageKey c (8 * g + i)) := by
  have hkey : Function.Injective fun i => pageKey c (8 * g + i) := fun i j hij => by
    simp only [pageKey] at hij
    omega
  unfold State.rewriteGroup
  simp only [h, h', Bool.not_false, Bool.and_true, if_true]
  exact tget_foldl_tset (0 : W64) (fun i => pageKey c (8 * g + i)) _ _ hkey _ (List.mem_range.mpr hi)

/-- The module after a fill of a firebox's cache, up to the count of its event. -/
theorem counted_xcFill (s : State) (u c g : Nat) : Counted ((s.xcTake (some u) c g).rewriteGroup c g) (s.xcFill (some u) c g).1 := by
  rw [State.xcFill_eq]
  exact counted_count ..

section
variable (s : State) (u c g : Nat)

/-- The fill of a firebox's cache puts the group's line first and counts the miss. -/
theorem State.xcFill_tile :
    ((s.xcFill (some u) c g).1.tile u).xc.find c g = some (s.freshLine c g) ∧
    ((s.xcFill (some u) c g).1.tile u).reg 0x0808 = (s.tile u).reg 0x0808 + 1 ∧
    ((s.groupLine c g).2 = true → (((s.xcFill (some u) c g).1.tile u).reg 0x0800).getLsbD 1 = true) := by
  have hfind := XCache.find_putFirst (s.tile u).xc (n := 128) (by decide) (s.freshLine c g)
  rw [(counted_xcFill s u c g).tile u, State.tile_congr (State.tiles_rewriteGroup ..) u, s.xcTake_eq, State.tile_setTile_same]
  split
  case isTrue h =>
    refine ⟨hfind, ?_, fun _ => ?_⟩
    · simp [Tile.bump, Tile.orReg, Tile.reg_setReg]
      rfl
    · simp [Tile.bump, Tile.orReg, Tile.reg_setReg]
  case isFalse h =>
    refine ⟨hfind, ?_, fun h' => absurd h' h⟩
    simp [Tile.bump, Tile.reg_setReg]
    rfl

theorem State.xcFill_mem : (s.xcFill (some u) c g).1.mem = (s.rewriteGroup c g).mem := by
  have hc : (s.xcFill (some u) c g).1.mem = ((s.xcTake (some u) c g).rewriteGroup c g).mem :=
    congrArg Kept.mem (counted_xcFill s u c g).standing
  rw [hc]
  exact State.mem_rewriteGroup (by rw [s.xcTake_eq]; rfl) c g

theorem State.pmFaults_xcFill : (s.xcFill (some u) c g).1.mem.pmFaults = s.mem.pmFaults := by
  rw [State.xcFill_mem]
  unfold State.rewriteGroup
  split
  · rfl
  · rfl

/-- The fill of the host cache. -/
theorem State.xcFill_host :
    (s.xcFill none c g).1.mem.hostCache.find c g = some (s.freshLine c g) ∧
    (s.xcFill none c g).1.tiles = s.tiles ∧
    (s.pmBad c g false = false → (s.xcFill none c g).1 = { s with mem := { s.mem with hostCache := (s.xcFill none c g).1.mem.hostCache } }) := by
  have hfind := XCache.find_putFirst s.mem.hostCache (n := 32) (by decide) (s.freshLine c g)
  have htake : s.xcTake none c g = { s with mem := { s.mem with hostCache := s.mem.hostCache.putFirst 32 (s.freshLine c g) } } := ite_self _
  have hfill : (s.xcFill none c g).1 = (s.xcTake none c g).rewriteGroup c g := by rw [State.xcFill_eq]
  have hcache : ∀ m : State, (m.rewriteGroup c g).mem.hostCache = m.mem.hostCache := fun m => by
    unfold State.rewriteGroup
    split
    · rfl
    · rfl
  refine ⟨?_, ?_, fun h => ?_⟩
  · rw [hfill, hcache, htake]
    exact hfind
  · rw [hfill, State.tiles_rewriteGroup, htake]
  · rw [hfill, State.rewriteGroup_of_good (s := s.xcTake none c g) (by rw [htake]; exact h), htake]

end

/-! ## What stops the next element (R179, R193) -/

/-- One page of a span that is reached. -/
def State.reachPage (u c a n : Nat) (w k : Bool) (acc : State × Option (Access × Nat)) (p : Nat) : State × Option (Access × Nat) :=
  match acc.2 with
  | some _ => acc
  | none =>
    let r := acc.1.access (some u) c p w
    match r.2 with
    | .go tier f =>
      let lo := max a (p * pageBytes)
      let hi := min (a + n) ((p + 1) * pageBytes)
      if r.1.spanHeld tier f (lo % pageBytes) (hi - lo) then (r.1, some (.wait, lo))
      else if k && r.1.spanBad tier f (lo % pageBytes) (hi - lo) then (r.1, some (.fault 4, lo)) else (r.1, none)
    | x => (r.1, some (x, max a (p * pageBytes)))

theorem State.reachAs_eq (s : State) (u c a n : Nat) (w k : Bool) : s.reachAs u c 0 a n w k =
    (List.range ((a + n + pageBytes - 1) / pageBytes - a / pageBytes)).foldl
      (fun acc i => State.reachPage u c a n w k acc (a / pageBytes + i)) (s, none) := by
  unfold State.reachAs
  rw [if_neg (by decide)]
  rfl

theorem translates_reachPage (u c a n : Nat) (w k : Bool) (acc : State × Option (Access × Nat)) (p : Nat) :
    Translates (some u) acc.1 (State.reachPage u c a n w k acc p).1 := by
  have hone := translates_access acc.1 (some u) c p w
  unfold State.reachPage
  split
  · exact .refl _ _
  · generalize acc.1.access (some u) c p w = q at hone ⊢
    dsimp only
    split
    · split
      · exact hone
      · split
        · exact hone
        · exact hone
    · exact hone

/-- The access to a span of bytes translates its pages and changes no more. -/
theorem translates_reachAs (s : State) (u c a n : Nat) (w k : Bool) : Translates (some u) s (s.reachAs u c 0 a n w k).1 := by
  rw [State.reachAs_eq]
  exact List.foldlRecOn (motive := fun b : State × Option (Access × Nat) => Translates (some u) s b.1) _ _ (.refl _ s)
    fun b hb i _ => hb.trans (translates_reachPage ..)

/-- A span of bytes whose first page faults stops there. -/
theorem State.reachAs_of_fault {s r : State} {u c a n k : Nat} {w : Bool} (hn : 1 ≤ n)
    (h : s.access (some u) c (a / 65536) w = (r, .fault k)) (look : Bool) : s.reachAs u c 0 a n w look = (r, some (.fault k, a)) := by
  obtain ⟨m, hm⟩ : ∃ m, (a + n + pageBytes - 1) / pageBytes - a / pageBytes = m + 1 :=
    ⟨_, (Nat.succ_pred_eq_of_pos (by unfold pageBytes; omega)).symm⟩
  have hmax : max a (a / pageBytes * pageBytes) = a := max_eq_left (Nat.div_mul_le_self ..)
  have hfirst : State.reachPage u c a n w look (s, none) (a / pageBytes) = (r, some (.fault k, a)) := by
    simp only [State.reachPage, show s.access (some u) c (a / pageBytes) w = _ from h, hmax]
  rw [State.reachAs_eq, hm, List.range_succ_eq_map, List.foldl_cons, Nat.add_zero, hfirst]
  exact List.foldl_fixed' (fun _ => rfl) _

section
variable {s t : State} (h : t.ember = s.ember)
include h

theorem State.tier3Up_congr (c : Nat) : t.tier3Up c = s.tier3Up c := by
  rw [State.tier3Up, h, State.tier3Up]

theorem State.tierFrames_congr (k : Nat) : t.tierFrames k = s.tierFrames k := by
  rw [State.tierFrames, h, State.tierFrames]

theorem State.entryBad_congr (c : Nat) (e : W64) : t.entryBad c e = s.entryBad c e := by
  simp only [State.entryBad, State.tierFrames_congr h, State.tier3Up_congr h]

theorem State.entryFault_congr (c : Nat) (e : W64) (host w : Bool) : t.entryFault c e host w = s.entryFault c e host w := by
  simp only [State.entryFault, State.entryBad_congr h, State.tier3Up_congr h]

end

/-- An access that misses the cache and whose entry faults: firmware counts a bad entry (R193). -/
theorem State.access_of_fault {s : State} {u c p : Nat} {w : Bool} (hfind : (s.tile u).xc.find c (p / 8) = none)
    (hok : s.groupFails c (p / 8) = false)
    (hcode : s.entryFault c (nth 0 (s.groupLine c (p / 8)).1 (p % 8)) false w ≠ 0) :
    ∃ r, s.access (some u) c p w = (r, .fault (s.entryFault c (nth 0 (s.groupLine c (p / 8)).1 (p % 8)) false w)) ∧
      r.mem.pmFaults = s.mem.pmFaults + if s.entryBad c (nth 0 (s.groupLine c (p / 8)).1 (p % 8)) then 1 else 0 := by
  have hember := (translates_xcFill s (some u) c (p / 8)).ember
  have hline : (s.xcFill (some u) c (p / 8)).2 = s.freshLine c (p / 8) := by rw [State.xcFill_eq]; rfl
  unfold State.access
  simp only [State.xcOf, hfind, hok, Bool.and_false, Bool.false_eq_true, if_false, hline, State.freshLine, State.entryFault_congr hember,
    State.entryBad_congr hember, Option.isNone_some, if_pos hcode]
  refine ⟨_, rfl, ?_⟩
  split
  · exact congrArg (· + 1) (s.pmFaults_xcFill u c (p / 8))
  · exact s.pmFaults_xcFill u c (p / 8)

/-! ## The next element of a plain stream -/

/-- The module with the stream at a place let go, as the search for what stops it begins. -/
def State.released (s : State) (a : At) : State := s.setStreamAt a { s.streamAt a with stall := false }

section
variable {s : State} {a : At} {kind sp : Nat}

theorem State.descAt_released (s : State) (a : At) : (s.released a).descAt a = s.descAt a := by
  rw [State.descAt, State.released, State.streamAt_setStreamAt]
  rfl

theorem State.tupleAt_released (s : State) (a : At) : (s.released a).tupleAt a = s.tupleAt a := by
  rw [State.tupleAt, State.released, State.streamAt_setStreamAt]
  rfl

theorem plainRun.released (h : plainRun s (s.streamAt a) kind sp) : plainRun (s.released a) ((s.released a).streamAt a) kind sp := by
  rw [State.released, State.streamAt_setStreamAt]
  exact h

theorem State.nextStop_eq (s : State) (a : At) (c : Nat) : s.nextStop a c = (s.released a).transferOne a c := rfl

theorem State.streamAt_released (s : State) (a : At) : (s.released a).streamAt a = { s.streamAt a with stall := false } :=
  s.streamAt_setStreamAt ..

/-- A load in external memory that misses its cache stops at a page that is not present or protected. -/
theorem State.nextStop_of_fault (h : plainRun s (s.streamAt a) 0 0) (hr : (s.streamAt a).room (s.descAt a).fmt 1 = true) {x : Nat} {e : W64}
    (hx : x = ((s.descAt a).place (s.tupleAt a)).unit) (hfind : (s.tile a.u).xc.find (s.streamAt a).ctx (x / 65536 / 8) = none)
    (hok : s.groupFails (s.streamAt a).ctx (x / 65536 / 8) = false)
    (he : e = nth 0 (s.groupLine (s.streamAt a).ctx (x / 65536 / 8)).1 (x / 65536 % 8))
    (hcode : s.entryFault (s.streamAt a).ctx e false false ≠ 0) :
    ∃ r, s.nextStop a (s.streamAt a).ctx = (r, .access (.fault (s.entryFault (s.streamAt a).ctx e false false)) x) ∧
      Translates (some a.u) (s.released a) r ∧ r.mem.pmFaults = s.mem.pmFaults + if s.entryBad (s.streamAt a).ctx e then 1 else 0 := by
  subst he hx
  have hplain := h.released
  have hctx : ((s.released a).streamAt a).ctx = (s.streamAt a).ctx := by rw [State.streamAt_released]
  have hfind' : ((s.released a).tile a.u).xc.find (s.streamAt a).ctx (((s.descAt a).place (s.tupleAt a)).unit / 65536 / 8) = none := by
    rw [State.released, State.tile_setStreamAt]
    exact hfind
  have hbytes : 1 ≤ ((s.descAt a).place (s.tupleAt a)).unitBytes := by
    obtain ⟨_, _, _, _, _, _, _, hgran, hlay, _⟩ := h
    exact (Desc.place_of_single (d := s.descAt a) hgran hlay _).2.2
  obtain ⟨r, haccess, hfaults⟩ := State.access_of_fault (s := s.released a) (w := false) hfind' hok hcode
  have hreach := State.reachAs_of_fault hbytes haccess true
  have hmoves := translates_reachAs (s.released a) a.u (s.streamAt a).ctx ((s.descAt a).place (s.tupleAt a)).unit
    ((s.descAt a).place (s.tupleAt a)).unitBytes false true
  rw [hreach] at hmoves
  have hstop := State.transferOne_of_stop hplain (by rw [State.streamAt_released]) (by rwa [State.streamAt_released, State.descAt_released])
    (by rwa [State.reachElem, hplain.reachElemAs, hctx, State.descAt_released, State.tupleAt_released])
  rw [hctx] at hstop
  exact ⟨r, hstop, hmoves, hfaults⟩

end

/-! ## A write that an access stops -/

/-- The element goes back: what its translation changed stays. -/
theorem translates_notTaken {s r : State} {a : At} {v : Stream} (h : Translates (some a.u) (s.setStreamAt a v) r)
    (hfix : (s.tile a.u).setStream a.s (s.streamAt a) = s.tile a.u) : Translates (some a.u) s (r.notTaken s a) := by
  have hreg : (r.tile a.u).reg 0x038C = (s.tile a.u).reg 0x038C := by
    rw [h.word a.u 0x038C (by decide), State.tile_setStreamAt]
    rfl
  have hback : r.notTaken s a = r.setTile a.u ((r.tile a.u).setStream a.s (s.streamAt a)) := by
    rw [State.notTaken, if_pos hreg]
  have hown : (r.tile a.u).setStream a.s (s.streamAt a) = { s.tile a.u with xc := (r.tile a.u).xc, regs := (r.tile a.u).regs } := by
    have hr := h.own a.u
    rw [State.tile_setStreamAt] at hr
    calc (r.tile a.u).setStream a.s (s.streamAt a)
        = { ((s.tile a.u).setStream a.s v).setStream a.s (s.streamAt a) with xc := (r.tile a.u).xc, regs := (r.tile a.u).regs } :=
          congrArg (fun b : Tile => b.setStream a.s (s.streamAt a)) hr
      _ = { s.tile a.u with xc := (r.tile a.u).xc, regs := (r.tile a.u).regs } := by rw [Tile.setStream_setStream, hfix]
  have hother : ∀ x, x ≠ a.u → (r.notTaken s a).tile x = s.tile x := fun x hx => by
    rw [hback, State.tile_setTile, if_neg hx, h.others x fun he => hx (Option.some.inj he).symm, State.setStreamAt, State.tile_setTile, if_neg hx]
  have hhere : (r.notTaken s a).tile a.u = { s.tile a.u with xc := (r.tile a.u).xc, regs := (r.tile a.u).regs } := by
    rw [hback, State.tile_setTile_same, hown]
  constructor
  case ctxs => exact h.ctxs
  case tileMap => exact h.tileMap
  case ember => exact h.ember
  case io => exact h.io
  case tierMem => exact h.tierMem
  case others => exact fun x hx => hother x fun he => hx (congrArg some he.symm)
  case own =>
    intro x
    by_cases hx : x = a.u
    · rw [hx, hhere]
    · rw [hother x hx]
  case word =>
    intro x o ho
    by_cases hx : x = a.u
    · rw [hx, hhere]
      refine (h.word a.u o ho).trans ?_
      rw [State.tile_setStreamAt]
      rfl
    · rw [hother x hx]

theorem State.setStream_released (s : State) (a : At) :
    ((s.released a).tile a.u).setStream a.s ((s.released a).streamAt a) = (s.released a).tile a.u := by
  rw [State.streamAt_released, State.released, State.tile_setStreamAt, Tile.setStream_setStream]

/-- A store without entries waits. -/
theorem State.transferOne_of_empty {s : State} {a : At} {sp : Nat} (h : plainRun s (s.streamAt a) 1 sp) (hs : (s.streamAt a).stall = false)
    (he : (s.streamAt a).entries.drop (s.streamAt a).claimed = []) : s.transferOne a (s.streamAt a).ctx = (s, .wait) := by
  obtain ⟨hrun, hkind, _, _, _, _, _, _, _, hpos⟩ := h
  unfold State.transferOne
  dsimp only
  rw [if_neg (by simp [hrun, hs]), if_neg (Nat.not_le.mpr hpos), if_neg (by rw [hkind]; decide), if_pos hkind, he]

/-- A store in external memory that an access stops has translated its page. -/
theorem translates_nextStop {s : State} {a : At} (h : plainRun s (s.streamAt a) 1 0) {p : Access} {x : Nat}
    (hstop : (s.nextStop a (s.streamAt a).ctx).2 = .access p x) : Translates (some a.u) (s.released a) (s.nextStop a (s.streamAt a).ctx).1 := by
  have hplain := h.released
  have hctx : ((s.released a).streamAt a).ctx = (s.streamAt a).ctx := by rw [State.streamAt_released]
  have hgo : ((s.released a).streamAt a).stall = false := by rw [State.streamAt_released]
  rw [State.nextStop_eq, ← hctx] at hstop ⊢
  have hfix := s.setStream_released a
  generalize s.released a = m at hplain hgo hstop hfix ⊢
  cases he : (m.streamAt a).entries.drop (m.streamAt a).claimed with
  | nil =>
    rw [State.transferOne_of_empty hplain hgo he] at hstop
    exact Stop.noConfusion hstop
  | cons e rest =>
    obtain ⟨hnone, hsome⟩ := State.transferOne_of_store hplain hgo he
    obtain ⟨hfnone, hfsome⟩ := State.flushStream_of_store hplain (e := e) (rest := rest) rfl
    have hmoves := translates_reachAs (m.setStreamAt a ((m.streamAt a).storing e rest)) a.u (m.streamAt a).ctx
      ((m.descAt a).place (m.tupleAt a)).unit ((m.descAt a).place (m.tupleAt a)).unitBytes true (looksAt (m.streamAt a) (m.descAt a))
    rw [← hplain.reachElemAs] at hmoves
    rcases hq : (m.setStreamAt a ((m.streamAt a).storing e rest)).reachElemAs a.u (m.streamAt a).ctx (m.descAt a) (m.tupleAt a) true
      (looksAt (m.streamAt a) (m.descAt a)) with ⟨r, q⟩
    rw [hq] at hmoves
    cases q with
    | none =>
      rw [hnone _ (hfnone r hq)] at hstop
      exact Stop.noConfusion hstop
    | some p =>
      rw [hsome _ _ _ (hfsome r p hq)]
      exact translates_notTaken hmoves hfix

/-! ## Streams held at a fault (R179) -/

theorem Translates.stream {x : Xlat} {s t : State} (h : Translates x s t) (v n : Nat) : (t.tile v).stream n = (s.tile v).stream n := by
  rw [h.own v]
  rfl

theorem State.stream_released_ne (s : State) (a : At) {m : Nat} (hm : m ≠ a.s) : ((s.released a).tile a.u).stream m = (s.tile a.u).stream m := by
  rw [State.released, State.tile_setStreamAt, Tile.stream_setStream_ne _ _ _ m hm]

theorem State.reg_released (s : State) (a : At) (o : Nat) : ((s.released a).tile a.u).reg o = (s.tile a.u).reg o := by
  rw [State.released, State.tile_setStreamAt]
  rfl

theorem State.tile_released_ne (s : State) (a : At) {v : Nat} (hv : v ≠ a.u) : (s.released a).tile v = s.tile v :=
  (s.tile_setTile ..).trans (if_neg hv)

/-- A stream held at a fault of a code at address x, which the word o of its firebox counts; the rest of the fireboxes and the contents of
the tiers stay. -/
structure HeldAt (s r : State) (a : At) (code x o : Nat) : Prop where
  stream : r.streamAt a = { s.streamAt a with stall := true, fault := BitVec.ofNat 32 (code * 2 ^ 28), faultDva := x }
  counted : (r.tile a.u).reg o = (s.tile a.u).reg o + 1
  streams : ∀ m, m ≠ a.s → (r.tile a.u).stream m = (s.tile a.u).stream m
  others : ∀ v, v ≠ a.u → r.tile v = s.tile v
  tierMem : ∀ k, r.tierMem k = s.tierMem k

/-- A fault counted and recorded: the count may come before the record or after it. -/
theorem State.stallAt_bump (s : State) (a : At) (code x o : Nat) :
    (s.stallAt a code x).setTile a.u (((s.stallAt a code x).tile a.u).bump o 1) = (s.setTile a.u ((s.tile a.u).bump o 1)).stallAt a code x := by
  simp only [State.stallAt, State.setStreamAt, State.streamAt, State.tile_setTile_same, State.setTile_setTile]
  rfl

theorem heldAt_stallAt {s m : State} {a : At} (h : Translates (some a.u) (s.released a) m) (code x : Nat) {o : Nat}
    (ho : o ∉ [0x0800, 0x0804, 0x0808]) : HeldAt s ((m.setTile a.u ((m.tile a.u).bump o 1)).stallAt a code x) a code x o := by
  have hst : (m.setTile a.u ((m.tile a.u).bump o 1)).streamAt a = { s.streamAt a with stall := false } := by
    rw [State.streamAt, State.tile_setTile_same]
    exact (h.stream a.u a.s).trans (s.streamAt_released a)
  have hreg : (m.tile a.u).reg o = (s.tile a.u).reg o := (h.word a.u o ho).trans (s.reg_released a o)
  constructor
  case stream =>
    rw [State.stallAt, State.streamAt_setStreamAt, hst]
  case counted =>
    rw [State.stallAt, State.tile_setStreamAt, State.tile_setTile_same, ← hreg]
    exact (Tile.reg_setReg ..).trans (if_pos rfl)
  case streams =>
    intro n hn
    rw [State.stallAt, State.tile_setStreamAt, Tile.stream_setStream_ne _ _ _ n hn, State.tile_setTile_same]
    exact (h.stream a.u n).trans (s.stream_released_ne a hn)
  case others =>
    intro v hv
    rw [State.stallAt, State.setStreamAt, State.tile_setTile, if_neg hv, State.tile_setTile, if_neg hv,
      h.others v fun he => hv (Option.some.inj he).symm, s.tile_released_ne a hv]
  case tierMem => exact h.tierMem

/-- A load held at a page that is not present or protected (R179, R193). -/
theorem State.pageFault_held {s : State} {a : At} (h : plainRun s (s.streamAt a) 0 0) (hr : (s.streamAt a).room (s.descAt a).fmt 1 = true)
    {x : Nat} {e : W64} {code : Nat} (hx : x = ((s.descAt a).place (s.tupleAt a)).unit)
    (hfind : (s.tile a.u).xc.find (s.streamAt a).ctx (x / 65536 / 8) = none) (hok : s.groupFails (s.streamAt a).ctx (x / 65536 / 8) = false)
    (he : e = nth 0 (s.groupLine (s.streamAt a).ctx (x / 65536 / 8)).1 (x / 65536 % 8))
    (hcode : s.entryFault (s.streamAt a).ctx e false false = code) (h0 : code ≠ 0) :
    let r := s.pageFault a (s.streamAt a).ctx code
    r.streamAt a = { s.streamAt a with stall := true, fault := BitVec.ofNat 32 (code * 2 ^ 28), faultDva := x } ∧
    (r.tile a.u).reg 0x0388 = (s.tile a.u).reg 0x0388 + 1 ∧ (∀ m, m ≠ a.s → (r.tile a.u).stream m = (s.tile a.u).stream m) ∧
    (∀ v, v ≠ a.u → r.tile v = s.tile v) ∧ (∀ k, r.tierMem k = s.tierMem k) ∧
    r.mem.pmFaults = s.mem.pmFaults + if s.entryBad (s.streamAt a).ctx e then 1 else 0 := by
  obtain ⟨r, hstop, hmoves, hfaults⟩ := State.nextStop_of_fault h hr hx hfind hok he (hcode ▸ h0)
  have hfault : s.pageFault a (s.streamAt a).ctx code = (r.setTile a.u ((r.tile a.u).bump 0x0388 1)).stallAt a code x := by
    unfold State.pageFault
    rw [hstop, hcode]
    dsimp only
    rw [if_pos rfl, State.stallAt_bump]
  obtain ⟨hst, hcount, hstreams, hothers, hmem⟩ := heldAt_stallAt hmoves code x (o := 0x0388) (by decide)
  rw [hfault]
  exact ⟨hst, hcount, hstreams, hothers, hmem, hfaults⟩

/-! ## Copy-on-write of a stream's page (R197, R302, R305) -/

/-- The module when a stream's write has met a page that needs a copy. -/
def State.atCow (s : State) (a : At) (x : Nat) : State :=
  let m := (s.nextStop a (s.streamAt a).ctx).1
  ((m.setTile a.u ((m.tile a.u).bump 0x0384 1)).stallAt a 1 x).count a.u 0x35 1

section
variable {s : State} {a : At} {x : Nat} (h : plainRun s (s.streamAt a) 1 0) (hstop : (s.nextStop a (s.streamAt a).ctx).2 = .access .cow x)
include h hstop

theorem heldAt_atCow : HeldAt s (s.atCow a x) a 1 x 0x0384 ∧ (s.atCow a x).ember = s.ember ∧ (s.atCow a x).io = s.io := by
  have hmoves := translates_nextStop h hstop
  obtain ⟨hst, hcount, hstreams, hothers, hmem⟩ := heldAt_stallAt hmoves 1 x (o := 0x0384) (by decide)
  have hc := counted_count ((((s.nextStop a (s.streamAt a).ctx).1).setTile a.u
    ((((s.nextStop a (s.streamAt a).ctx).1).tile a.u).bump 0x0384 1)).stallAt a 1 x) a.u 0x35 1
  have ht := Translates.of_counted (x := some a.u) hc
  refine ⟨⟨(ht.stream a.u a.s).trans hst, ?_, fun m hm => (ht.stream a.u m).trans (hstreams m hm), fun v hv => (hc.tile v).trans (hothers v hv),
    fun k => (ht.tierMem k).trans (hmem k)⟩, ht.ember.trans hmoves.ember, ht.io.trans hmoves.io⟩
  exact (congrArg (fun b : Tile => b.reg 0x0384) (hc.tile a.u)).trans hcount

end

section
variable {s : State} {c p g : Nat} (hg : s.curGen c = some g) (hcopy : s.hasCopy g (pageKey c p) = false)
include hg hcopy

/-- The page's value goes to the snapshot area where that has room. -/
theorem State.cow_of_room (hroom : s.ember.copies.length < s.areaFrames) (first : Bool) : s.cow c p first =
    (({ s with ember := { s.ember with copies := s.ember.copies ++ [(g % 4, pageKey c p, s.pageBody c p)]
                                       wset := s.ember.wset ++ [(g % 4, pageKey c p)] } } : State).countEmber 0x140 1, .done) := by
  unfold State.cow
  simp only [hg, hcopy, Nat.not_le.mpr hroom, Bool.false_eq_true, if_false]

/-- A full snapshot area counts a hold that begins. -/
theorem State.cow_of_full (hfull : s.areaFrames ≤ s.ember.copies.length) (first : Bool) : s.cow c p first =
    (if first then (s.orIo 0x3000 0x20000).bumpIo 0x3024 1 else s.orIo 0x3000 0x20000, .full) := by
  unfold State.cow
  simp only [hg, hcopy, hfull, Bool.false_eq_true, if_false, if_true]

end

section
variable {s q : State} {a : At} {x : Nat} (hstop : (s.nextStop a (s.streamAt a).ctx).2 = .access .cow x)
include hstop

/-- A copy that is made marks the cached entry and lets the write go on. -/
theorem State.cowFault_of_done
    (hq : (s.atCow a x).cow (s.streamAt a).ctx (x / pageBytes) (!((s.atCow a x).streamAt a).full) = (q, .done)) :
    let m := q.xcMark (some a.u) (s.streamAt a).ctx (x / pageBytes)
    s.cowFault a (s.streamAt a).ctx = m.setStreamAt a { m.streamAt a with stall := false, full := false } := by
  unfold State.atCow at hq
  unfold State.cowFault
  simp only [hstop, hq]

/-- A copy that finds the snapshot area full holds the stream. -/
theorem State.cowFault_of_full
    (hq : (s.atCow a x).cow (s.streamAt a).ctx (x / pageBytes) (!((s.atCow a x).streamAt a).full) = (q, .full)) :
    s.cowFault a (s.streamAt a).ctx = q.setStreamAt a { q.streamAt a with full := true } := by
  unfold State.atCow at hq
  unfold State.cowFault
  simp only [hstop, hq]

end

theorem State.pageBody_congr {s t : State} (hm : t.mem = s.mem) (he : t.ember.cart = s.ember.cart) (c p : Nat) :
    t.pageBody c p = s.pageBody c p := by
  have htier : ∀ k, t.tierMem k = s.tierMem k := fun k => by simp only [State.tierMem, hm, he]
  have hentry : t.pentry c p = s.pentry c p := by rw [State.pentry, hm, State.pentry]
  unfold State.pageBody
  rw [hentry]
  dsimp only
  rw [htier]

theorem State.mem_xcMark (s : State) (u c p : Nat) : (s.xcMark (some u) c p).mem = s.mem := by
  unfold State.xcMark
  split
  · rfl
  · rfl

theorem counted_countEmber (s : State) (e n : Nat) : Counted s (s.countEmber e n) := (counted_count ..).trans (counted_count ..)

/-- A hold for a full snapshot area, counted where it begins. -/
theorem State.cowHold (s : State) (first : Bool) :
    let q := if first then (s.orIo 0x3000 0x20000).bumpIo 0x3024 1 else s.orIo 0x3000 0x20000
    q = { s with io := q.io } ∧ q.ior 0x3024 = s.ior 0x3024 + if first then 1 else 0 := by
  cases first with
  | false => exact ⟨rfl, ((s.ior_setIo ..).trans (if_neg (by decide))).trans (BitVec.add_zero _).symm⟩
  | true =>
    refine ⟨rfl, ((s.orIo 0x3000 0x20000).ior_setIo ..).trans ((if_pos rfl).trans ?_)⟩
    exact congrArg (· + 1) ((s.ior_setIo ..).trans (if_neg (by decide)))

section
variable {s : State} {a : At} {x g : Nat} (h : plainRun s (s.streamAt a) 1 0) (hstop : (s.nextStop a (s.streamAt a).ctx).2 = .access .cow x)
  (hg : s.curGen (s.streamAt a).ctx = some g) (hcopy : s.hasCopy g (pageKey (s.streamAt a).ctx (x / 65536)) = false)
include h hstop hg hcopy

/-- With room in the snapshot area the page is copied and the stream goes on. -/
theorem State.cowFault_copies (hroom : s.ember.copies.length < s.areaFrames) :
    let r := s.cowFault a (s.streamAt a).ctx
    r.ember.copies = s.ember.copies ++ [(g % 4, pageKey (s.streamAt a).ctx (x / 65536), r.pageBody (s.streamAt a).ctx (x / 65536))] ∧
    (r.streamAt a).stall = false ∧ (r.streamAt a).pos = (s.streamAt a).pos ∧
    (r.tile a.u).reg 0x0384 = (s.tile a.u).reg 0x0384 + 1 ∧ (∀ v, v ≠ a.u → r.tile v = s.tile v) ∧ ∀ k, r.tierMem k = s.tierMem k := by
  obtain ⟨⟨hst, hcount, hstreams, hothers, htier⟩, hember, hio⟩ := heldAt_atCow h hstop
  have hq := State.cow_of_room (s := s.atCow a x) (c := (s.streamAt a).ctx) (p := x / pageBytes) (g := g)
    (by rw [State.curGen, hember]; exact hg) (by rw [State.hasCopy, hember]; exact hcopy)
    (by rw [State.areaFrames, hember]; exact hroom) (!((s.atCow a x).streamAt a).full)
  rw [State.cowFault_of_done hstop hq]
  clear hq
  generalize s.atCow a x = m at hst hcount hothers htier hember ⊢
  generalize hk : ({ m with ember := { m.ember with copies := _, wset := _ } } : State) = k
  have hmoves : Translates (some a.u) k ((k.countEmber 0x140 1).xcMark (some a.u) (s.streamAt a).ctx (x / pageBytes)) :=
    (Translates.of_counted (counted_countEmber ..)).trans (translates_xcMark ..)
  have hmem : ((k.countEmber 0x140 1).xcMark (some a.u) (s.streamAt a).ctx (x / pageBytes)).mem = k.mem :=
    (State.mem_xcMark ..).trans (congrArg Kept.mem (counted_countEmber k 0x140 1).standing)
  generalize (k.countEmber 0x140 1).xcMark (some a.u) (s.streamAt a).ctx (x / pageBytes) = r at hmoves hmem ⊢
  subst hk
  have hstream : r.streamAt a = m.streamAt a := hmoves.stream a.u a.s
  refine ⟨?copies, ?stall, ?pos, ?count, ?others, fun k => (hmoves.tierMem k).trans (htier k)⟩
  case copies =>
    have hbody : (r.setStreamAt a { r.streamAt a with stall := false, full := false }).pageBody (s.streamAt a).ctx (x / 65536) =
        m.pageBody (s.streamAt a).ctx (x / 65536) := State.pageBody_congr hmem (congrArg Ember.cart hmoves.ember) _ _
    rw [hbody, ← hember]
    exact congrArg Ember.copies hmoves.ember
  case stall => rw [State.streamAt_setStreamAt]
  case pos => rw [State.streamAt_setStreamAt, hstream, hst]
  case count =>
    rw [State.tile_setStreamAt, ← hcount]
    exact hmoves.word a.u 0x0384 (by decide)
  case others =>
    intro v hv
    rw [State.setStreamAt, State.tile_setTile, if_neg hv, hmoves.others v fun he => hv (Option.some.inj he).symm]
    exact hothers v hv

/-- With the snapshot area full the stream is held, and a hold that begins is counted. -/
theorem State.cowFault_full (hfull : s.areaFrames ≤ s.ember.copies.length) :
    let r := s.cowFault a (s.streamAt a).ctx
    (r.streamAt a).stall = true ∧ (r.streamAt a).full = true ∧ (r.streamAt a).faultDva = x ∧ (r.streamAt a).pos = (s.streamAt a).pos ∧
    r.ior 0x3024 = s.ior 0x3024 + (if (s.streamAt a).full then 0 else 1) ∧ r.ember.copies = s.ember.copies ∧
    ∀ k, r.tierMem k = s.tierMem k := by
  obtain ⟨⟨hst, hcount, hstreams, hothers, htier⟩, hember, hio⟩ := heldAt_atCow h hstop
  have hq := State.cow_of_full (s := s.atCow a x) (c := (s.streamAt a).ctx) (p := x / pageBytes) (g := g)
    (by rw [State.curGen, hember]; exact hg) (by rw [State.hasCopy, hember]; exact hcopy)
    (by rw [State.areaFrames, hember]; exact hfull) (!((s.atCow a x).streamAt a).full)
  rw [State.cowFault_of_full hstop hq]
  clear hq
  have hior : (s.atCow a x).ior 0x3024 = s.ior 0x3024 := by rw [State.ior, hio, State.ior]
  obtain ⟨hframe, hcounted⟩ := (s.atCow a x).cowHold (!((s.atCow a x).streamAt a).full)
  generalize (if (!((s.atCow a x).streamAt a).full) then _ else _ : State) = q at hframe hcounted ⊢
  have hstream : q.streamAt a = (s.atCow a x).streamAt a := by rw [hframe]; rfl
  refine ⟨?stall, ?full, ?dva, ?pos, ?count, ?copies, fun k => ?tierMem⟩
  case stall => rw [State.streamAt_setStreamAt, hstream, hst]
  case full => rw [State.streamAt_setStreamAt]
  case dva => rw [State.streamAt_setStreamAt, hstream, hst]
  case pos => rw [State.streamAt_setStreamAt, hstream, hst]
  case count =>
    refine hcounted.trans ?_
    rw [hior, hst]
    cases (s.streamAt a).full
    · rfl
    · rfl
  case copies =>
    have hcopies : q.ember.copies = (s.atCow a x).ember.copies := by rw [hframe]
    rw [← hember]
    exact hcopies
  case tierMem =>
    have hmem : q.tierMem k = (s.atCow a x).tierMem k := by rw [hframe]; rfl
    rw [← htier k]
    exact hmem

end

/-! ## Faults served and streams aborted (R180, R181, R187) -/

theorem State.faultServed_of_held {s : State} {a : At} (hs : (s.streamAt a).stall = true) (hf : getField (s.streamAt a).fault 28 4 ≠ 2) :
    s.faultServed a = s.released a := by
  unfold State.faultServed
  simp only [hs, hf, Bool.not_true, Bool.false_eq_true, if_false]
  rfl

/-- A page that firmware maps at its first touch lets the stream go on. -/
theorem State.faultServed_of_mapped {s m : State} {a : At} {al : AllocRec} (hs : (s.streamAt a).stall = true)
    (hf : getField (s.streamAt a).fault 28 4 = 2) (hv : eV (s.pentry (s.streamAt a).ctx ((s.streamAt a).faultDva / 65536)) = false)
    (hal : s.allocOfPage (s.streamAt a).ctx ((s.streamAt a).faultDva / 65536) = some al) (ht : al.touch = true)
    (hm : s.mapPage (s.streamAt a).ctx al ((s.streamAt a).faultDva / 65536) = some m) : s.faultServed a = m.released a := by
  have hserve : s.serveAbsent (s.streamAt a).ctx ((s.streamAt a).faultDva / pageBytes) = some m := by
    unfold State.serveAbsent
    simp only [pageBytes, hv, hal, ht, hm, Bool.not_false, if_true]
  unfold State.faultServed
  simp only [hs, hf, hserve, Bool.not_true, Bool.false_eq_true, if_false, if_true]
  rfl

theorem bnat_le_one (b : Bool) : bnat b ≤ 1 := by
  cases b
  · decide
  · decide

theorem eV_mkEntry (r w hr hw prot : Bool) (tier frame : Nat) : eV (mkEntry r w hr hw prot tier frame) = true := by
  have h1 := bnat_le_one r
  have h2 := bnat_le_one w
  have h3 := bnat_le_one hr
  have h4 := bnat_le_one hw
  have h5 := bnat_le_one prot
  rw [eV, mkEntry, BitVec.getLsbD_ofNat, Nat.testBit_eq_decide_div_mod_eq]
  simp only [Nat.reducePow]
  generalize hn : 9223372036854775808 + _ + _ + _ + _ + _ + _ + _ = n
  have hone : n / 9223372036854775808 = 1 := by omega
  rw [hone]
  rfl

theorem State.tiles_setTierMem (s : State) (tier : Nat) (m : Memory) : (s.setTierMem tier m).tiles = s.tiles := by
  unfold State.setTierMem
  split
  · rfl
  · split
    · rfl
    · split
      · rfl
      · rfl

theorem State.tiles_takeFrame (s : State) (tier f : Nat) : (s.takeFrame tier f).tiles = s.tiles := by
  unfold State.takeFrame
  dsimp only
  split
  · exact s.tiles_setTierMem ..
  · exact s.tiles_setTierMem ..

/-- A page that is mapped is present; the fireboxes stay. -/
theorem State.mapPage_present {s m : State} {c p : Nat} {al : AllocRec} (h : s.mapPage c al p = some m) :
    eV (m.pentry c p) = true ∧ m.tiles = s.tiles := by
  have hentry : ∀ (q : State) (t f : Nat), eV ((q.setPentry c p (allocEntry al t f)).pentry c p) = true := fun q t f => by
    have hget : (q.setPentry c p (allocEntry al t f)).pentry c p = allocEntry al t f := tget_tset_same ..
    rw [hget]
    exact eV_mkEntry ..
  unfold State.mapPage at h
  dsimp only at h
  split at h
  · split at h
    · rw [← Option.some.inj h]
      exact ⟨hentry .., State.tiles_setTierMem ..⟩
    · exact absurd h (by simp)
  · split at h
    · rw [← Option.some.inj h]
      exact ⟨hentry .., s.tiles_takeFrame ..⟩
    · exact absurd h (by simp)

/-- What a report of a stream's abort leaves as it is, its count (R333), and FAIL in a running step. -/
structure StreamReported (s r : State) : Prop where
  tiles : r.tiles = s.tiles
  mem : r.mem = s.mem
  counted : r.bar 0x2005C = s.bar 0x2005C + 1
  fails : s.sched.running = true → r.sched.failStep.isSome = true

theorem streamReported_report (s : State) (u : Nat) (info : W32) : StreamReported s (s.report (srcId 7 u) info) := by
  have hmem : (s.collect (srcId 7 u) info false).mem = s.mem := congrArg Kept.mem (s.standing_collect (srcId 7 u) info false)
  obtain ⟨htiles, _, hsched, hcount⟩ := reported_collect s u info (c := 7) (by decide)
  rw [State.report]
  generalize s.collect (srcId 7 u) info false = m at *
  have hreact : m.react (srcId 7 u) = if m.sched.running then m.raiseFail.addReact (srcId 7 u) else m := by
    unfold State.react
    rw [srcId_class u (by decide), if_pos (.inr rfl)]
  rw [hreact]
  split
  case isTrue hrun =>
    obtain ⟨hft, _, hfb⟩ := m.raiseFail_frame
    exact ⟨hft.trans htiles, m.raiseFail_mem.trans hmem, (hfb _).trans hcount, fun _ => m.raiseFail_isSome hrun⟩
  case isFalse hrun =>
    exact ⟨htiles, hmem, hcount, fun h => absurd ((congrArg Sched.running hsched).trans h) hrun⟩

/-- COMMIT_FAIL is set in words of its own. -/
theorem State.blockFail_frame (s : State) : s.blockFail.tiles = s.tiles ∧ s.blockFail.mem = s.mem ∧ s.blockFail.bar 0x2005C = s.bar 0x2005C ∧
    s.blockFail.sched.running = s.sched.running := by
  unfold State.blockFail
  split
  · exact ⟨rfl, rfl, rfl, rfl⟩
  · exact ⟨rfl, rfl, (State.bar_orBar ..).trans (if_neg (by decide)), rfl⟩

/-- An abort freezes the stream with its code, and is reported (R181). -/
theorem State.abortStream_result (s : State) (a : At) (code addr : Nat) :
    let r := s.abortStream a code addr
    r.streamAt a = { s.streamAt a with
      state := 4, stall := false, fault := BitVec.ofNat 32 (code * 2 ^ 28 + 2 ^ 27), faultDva := addr } ∧
    r.bar 0x2005C = s.bar 0x2005C + 1 ∧ (s.sched.running = true → r.sched.failStep.isSome = true) ∧
    (∀ v, v ≠ a.u → r.tile v = s.tile v) ∧ r.mem = s.mem := by
  unfold State.abortStream
  extract_lets st s1 s2
  have hblock : s2.tiles = s1.tiles ∧ s2.mem = s1.mem ∧ s2.bar 0x2005C = s1.bar 0x2005C ∧ s2.sched.running = s1.sched.running := by
    unfold s2
    split
    · exact s1.blockFail_frame
    · exact ⟨rfl, rfl, rfl, rfl⟩
  obtain ⟨hbt, hbm, hbb, hbr⟩ := hblock
  obtain ⟨htiles, hmem, hcount, hfails⟩ := streamReported_report s2 a.u (BitVec.ofNat 32 (a.s * 2 ^ 27 + code * 2 ^ 23 + a.t))
  have htile := State.tile_congr (htiles.trans hbt)
  refine ⟨?_, hcount.trans (congrArg (· + 1) hbb), fun h => hfails (hbr.trans h), fun v hv => ?_, hmem.trans hbm⟩
  · exact (congrArg (fun b : Tile => b.stream a.s) (htile a.u)).trans (s.streamAt_setStreamAt ..)
  · exact (htile v).trans ((s.tile_setTile ..).trans (if_neg hv))

theorem State.abortWith_of_held {s : State} {a : At} {code : Nat} (hs : (s.streamAt a).stall = true) (hc : code = 2 ∨ code = 3)
    (hf : getField (s.streamAt a).fault 28 4 = code) : s.abortWith a code = s.abortStream a code (s.streamAt a).faultDva := by
  have h4 : code ≠ 4 := by omega
  unfold State.abortWith
  simp only [h4, hc, hs, hf, if_false, if_true, beq_self_eq_true, Bool.and_self]

/-! ## Writes that are refused (R242) -/

/-- Ranges are guarded in a running step alone. -/
theorem State.running_of_guards {s : State} {t : Tile} (h : s.guards t ≠ []) : s.sched.running = true := by
  by_contra hrun
  exact h (by simp [State.guards, hrun])

/-! ## The obligation -/

theorem Stream.delivered_of_empty {st : Stream} (h : st.buf = []) (e : Nat × Nat) :
    st.delivered e = { st with pos := st.pos + 1, cursorPos := st.pos + 1, entries := st.entries ++ [e] } := by
  rw [Stream.delivered, ← h]

/-- A transfer of one element that nothing stops. -/
theorem exec_streamTransfer_one {s r : State} {t : BitVec 8} {n : BitVec 5} (hrun : s.bellowsRun t.toNat = true)
    (h : s.transferOne (s.at t.toNat n.toNat) (s.streamAt (s.at t.toNat n.toNat)).ctx = (r, .none)) :
    exec (.streamTransfer t n 1) s = ok (r.noteMov (s.at t.toNat n.toNat) .none) :=
  congrArg ok ((if_pos hrun).trans (by rw [State.transfer_one h]))

/-- A translation miss of a firebox that works, and of the host, fills the cache. -/
theorem exec_translationMiss_tile {s : State} {cache : Nat} {c : BitVec 2} {page : Nat} (hc : cache < 272) (hw : s.works cache = true)
    (hfind : (s.tile cache).xc.find c.toNat (page % 2 ^ 26 / 8) = none) :
    exec (.translationMiss cache c page) s = .next (s.xcFill (some cache) c.toNat (page % 2 ^ 26 / 8)).1 := by
  refine (guardPart_of_present (decide_eq_true (show cache ≤ 272 by omega)) _ _).trans (congrArg ok ?_)
  rw [if_pos hc, if_neg]
  simp only [State.xcOf, hfind, hw, Option.isSome_none, Bool.not_true, Bool.and_false, Bool.or_false, Bool.false_eq_true, not_false_eq_true]

theorem exec_translationMiss_host {s : State} {cache : Nat} {c : BitVec 2} {page : Nat} (hc : cache = 272)
    (hfind : s.mem.hostCache.find c.toNat (page % 2 ^ 26 / 8) = none) :
    exec (.translationMiss cache c page) s = .next (s.xcFill none c.toNat (page % 2 ^ 26 / 8)).1 := by
  refine (guardPart_of_present (decide_eq_true (show cache ≤ 272 by omega)) _ _).trans (congrArg ok ?_)
  rw [if_neg (show ¬ cache < 272 by omega), if_neg]
  simp only [State.xcOf, hfind, hc, Option.isSome_none, Nat.lt_irrefl, decide_false, Bool.false_and, Bool.or_false, Bool.false_eq_true,
    not_false_eq_true]

/-- Settles O51: one element of a plain stream (`transferOne_of_scratchLoad`, `transferOne_of_scratchStore`), the fill of a cache (`xcFill_tile`,
`xcFill_host`), the faults that hold a stream (`pageFault_held`, `cowFault_copies`, `cowFault_full`), and what ends them. -/
theorem transfersAndTheirFaults : Obligations.TransfersAndTheirFaults := by
  unfold Obligations.TransfersAndTheirFaults
  refine ⟨fun s t n hrun => fun hs => ⟨fun h hr => ?load, fun e rest h ho he hg => ?store⟩,
    fun s cache c page => ⟨fun hc hw hfind => ?missTile, fun hc hfind => ?missHost⟩,
    fun s t n hrun => fun h hr hfind hok => ⟨fun hcode => ?absent, fun hcode => ?refusedPage⟩,
    fun s t n x g hrun => fun h hstop hg hcopy => ⟨fun hroom => ?copied, fun hfull => ?full⟩,
    fun s t n => ⟨fun hs hf => ?served, fun al hs hf hv hal htouch hmap => ?mapped, fun code hu hw h1 hs hc hf => ?aborted⟩,
    fun s t hg => ?refused⟩
  case load =>
    obtain ⟨r, hone, honly, hst, hscratch⟩ := State.transferOne_of_scratchLoad (a := s.at t.toNat n.toNat) h hs hr
    obtain ⟨hlast, hmov, hkeep⟩ := r.noteMov_none (s.at t.toNat n.toNat)
    have hall := honly.trans hlast
    have hbuf : (s.streamAt (s.at t.toNat n.toNat)).buf = [] := by
      obtain ⟨_, _, _, _, _, hbuf, _⟩ := h
      exact hbuf
    rw [hst, Stream.delivered_of_empty hbuf] at hmov
    refine ⟨_, exec_streamTransfer_one hrun hone, ?_⟩
    beta_reduce
    rw [hall.ltile]
    exact ⟨hmov, hall.streams, hkeep.trans hscratch, hall.others, hall.mem⟩
  case store =>
    obtain ⟨r, hone, honly, hpos, hcur, hent, hscratch⟩ := State.transferOne_of_scratchStore (a := s.at t.toNat n.toNat) h hs ho he hg
    obtain ⟨hlast, hmov, hkeep⟩ := r.noteMov_none (s.at t.toNat n.toNat)
    have hall := honly.trans hlast
    refine ⟨_, exec_streamTransfer_one hrun hone, ?_⟩
    beta_reduce
    rw [hall.ltile]
    refine ⟨(congrArg Stream.pos hmov).trans hpos, (congrArg Stream.cursorPos hmov).trans hcur, (congrArg Stream.entries hmov).trans hent,
      fun x => ?_, hall.streams, hall.others, hall.mem⟩
    have hbyte := (congrArg (fun m => mread m x) (hkeep.trans hscratch)).trans (mread_mwrite _ _ _ x)
    rw [leBytes_length] at hbyte
    exact hbyte
  case missTile =>
    obtain ⟨hline, hcount, hshadow⟩ := s.xcFill_tile cache c.toNat (page % 2 ^ 26 / 8)
    have hmoves := translates_xcFill s (some cache) c.toNat (page % 2 ^ 26 / 8)
    have hmem := s.xcFill_mem cache c.toNat (page % 2 ^ 26 / 8)
    refine ⟨_, exec_translationMiss_tile hc hw hfind, hline, hcount, hshadow,
      fun v hv => hmoves.others v fun he => hv (Option.some.inj he).symm, fun hgood => ?_, fun hbad hcopy i hi => ?_⟩
    · rw [hmem, State.rewriteGroup_of_good hgood]
    · rw [State.pentry, hmem]
      exact State.pentry_rewriteGroup hbad hcopy hi
  case missHost =>
    exact ⟨_, exec_translationMiss_host hc hfind, s.xcFill_host c.toNat (page % 2 ^ 26 / 8)⟩
  case absent =>
    exact ⟨_, congrArg ok (if_pos hrun), State.pageFault_held (a := s.at t.toNat n.toNat) h hr rfl hfind hok rfl hcode (by decide)⟩
  case refusedPage =>
    exact ⟨_, congrArg ok (if_pos hrun), State.pageFault_held (a := s.at t.toNat n.toNat) h hr rfl hfind hok rfl hcode (by decide)⟩
  case copied =>
    exact ⟨_, congrArg ok (if_pos hrun), State.cowFault_copies (a := s.at t.toNat n.toNat) h hstop hg hcopy hroom⟩
  case full =>
    exact ⟨_, congrArg ok (if_pos hrun), State.cowFault_full (a := s.at t.toNat n.toNat) h hstop hg hcopy hfull⟩
  case served =>
    refine ⟨_, congrArg ok (State.faultServed_of_held (a := s.at t.toNat n.toNat) hs hf), ?_, fun v hv => s.tile_released_ne _ hv, rfl⟩
    exact s.streamAt_released _
  case mapped =>
    obtain ⟨m, hm⟩ := Option.isSome_iff_exists.mp hmap
    obtain ⟨hpresent, htiles⟩ := State.mapPage_present hm
    refine ⟨_, congrArg ok (State.faultServed_of_mapped (a := s.at t.toNat n.toNat) hs hf hv hal htouch hm), ?_, hpresent⟩
    refine (m.streamAt_released (s.at t.toNat n.toNat)).trans ?_
    rw [State.streamAt, State.tile_congr htiles]
    rfl
  case aborted =>
    refine ⟨_, congrArg ok ((if_pos ?_).trans (State.abortWith_of_held (a := s.at t.toNat n.toNat) hs hc hf)), ?_⟩
    · exact Bool.and_eq_true_iff.mpr ⟨decide_eq_true h1, hw⟩
    · exact State.abortStream_result ..
  case refused =>
    have hrun := State.running_of_guards hg
    refine ⟨_, congrArg ok (if_neg (by simpa using hg)), s.raiseFail_isSome hrun, ?_⟩
    rw [State.raiseFail, hrun]
    rfl

end Sys2Proof.Machine

/-! Words that steer the stoker (R154, R155, R163, R244 to R251): how a word ends, and where LOOP, JOIN, SWAIT, RECOMP, CLASS, STEP and the
fences leave the stoker. -/

namespace Sys2Proof.Machine

/-! ## Where the stoker goes on -/

/-- The stoker after a word that ends so. -/
def Stoker.ended (k : Stoker) : WordEnd → Stoker
  | .wait => { k with waitWord := true }
  | .next n => ({ k with waitWord := false } : Stoker).goto (k.pc + n)
  | .jump pc => { k with waitWord := false, pc := pc }

/-- Going on changes the place, the loops, the replay and the blocks that it ends. -/
theorem Stoker.goto_frame (k : Stoker) (pc : Nat) : k.goto pc = { k with
    pc := (k.goto pc).pc, loops := (k.goto pc).loops, recomp := (k.goto pc).recomp, gatedEnd := (k.goto pc).gatedEnd
    proEnd := (k.goto pc).proEnd } := by
  unfold Stoker.goto
  extract_lets k1 k2 k3
  have h2 : k2 = { k with pc := k2.pc, loops := k2.loops, recomp := k2.recomp } := by
    unfold k2
    split
    · split
      · rfl
      · rfl
    · rfl
  have h3 : k3 = { k with pc := k3.pc, loops := k3.loops, recomp := k3.recomp, gatedEnd := k3.gatedEnd } := by
    unfold k3
    split
    · rw [h2]
    · rw [h2]
  split
  · rw [h3]
  · rw [h3]

/-- No loop and no replay ends at the word: the stoker stands there. -/
theorem Stoker.goto_of_stay {k : Stoker} {pc : Nat} (hl : closeLoops pc k.loops = (pc, k.loops))
    (hr : ∀ r, k.recomp = some r → r.2.1 ≠ pc) : (k.goto pc).pc = pc ∧ (k.goto pc).loops = k.loops := by
  have harrive : k.arrive pc = { k with pc := pc } := by rw [Stoker.arrive, hl]
  unfold Stoker.goto
  extract_lets k1 k2 k3
  have h2 : k2 = { k with pc := pc } := by
    unfold k2 k1
    rw [harrive]
    split
    case h_1 r h => exact if_neg fun he => hr r h he.symm
    case h_2 => rfl
  have h3 : k3.pc = pc ∧ k3.loops = k.loops := by
    unfold k3
    split
    · exact ⟨(congrArg Stoker.pc h2 :), (congrArg Stoker.loops h2 :)⟩
    · exact ⟨(congrArg Stoker.pc h2 :), (congrArg Stoker.loops h2 :)⟩
  split
  · exact h3
  · exact h3

/-! ## Words -/

/-- What a word that steers the stoker leaves: the other fireboxes, and the vector registers, the scratch and the hobs of its own. -/
def SteersOnly (s r : State) (t : BitVec 8) : Prop :=
  (∀ v, v ≠ s.unitOf t.toNat → r.tile v = s.tile v) ∧ (r.ltile t.toNat).vregs = (s.ltile t.toNat).vregs ∧
  (r.ltile t.toNat).scratch = (s.ltile t.toNat).scratch ∧ (r.ltile t.toNat).hobs = (s.ltile t.toNat).hobs

/-- A firebox with the vector registers, the scratch and the hobs of another. -/
def Tile.SameStores (b a : Tile) : Prop := b.vregs = a.vregs ∧ b.scratch = a.scratch ∧ b.hobs = a.hobs

theorem State.setLtile_setLtile (s : State) (l : Nat) (b d : Tile) : (s.setLtile l b).setLtile l d = s.setLtile l d := s.setTile_setTile ..

section
variable {s : State} {t : BitVec 8} {e : WordEnd} {b : Tile} (hi : s.issues t.toNat = true)
include hi

theorem word_ends {f : State → State × WordEnd} {m : State} (hf : f s = (m, e)) :
    s.word t f = m.setLtile t.toNat { m.ltile t.toNat with stoker := (m.ltile t.toNat).stoker.ended e } := by
  unfold State.word
  rw [hi, hf]
  cases e
  case wait => rfl
  case next n => rfl
  case jump pc => rfl

/-- A word whose effect on the fireboxes is one on its own, beside lanes, scratch and hobs. -/
theorem word_steers {f : State → State × WordEnd} {m : State} (hf : f s = (m, e)) (ht : m.tiles = (s.setLtile t.toNat b).tiles)
    (hm : m.tileMap = s.tileMap) (hb : b.SameStores (s.ltile t.toNat)) :
    SteersOnly s (s.word t f) t ∧ (s.word t f).ltile t.toNat = { b with stoker := b.stoker.ended e } := by
  obtain ⟨hvregs, hscratch, hhobs⟩ := hb
  have htile : m.ltile t.toNat = b := (State.ltile_congr ht hm _).trans (s.ltile_setLtile ..)
  have hunit : m.unitOf t.toNat = s.unitOf t.toNat := State.unitOf_of_tileMap hm _
  rw [word_ends hi hf, htile, SteersOnly, State.ltile_setLtile]
  refine ⟨⟨fun v hv => ?_, hvregs, hscratch, hhobs⟩, rfl⟩
  exact (m.tile_setLtile_ne _ _ v (hunit ▸ hv)).trans ((State.tile_congr ht v).trans (s.tile_setLtile_ne _ _ v hv))

theorem tileWord_steers {f : Tile → Tile × WordEnd} (hf : f (s.ltile t.toNat) = (b, e)) (hb : b.SameStores (s.ltile t.toNat)) :
    SteersOnly s (s.tileWord t f) t ∧ (s.tileWord t f).ltile t.toNat = { b with stoker := b.stoker.ended e } :=
  word_steers hi (m := s.setLtile t.toNat b) (by rw [hf]) rfl rfl hb

/-- The same for a word whose effect is one on the stoker alone. -/
theorem tileWord_stoker {f : Tile → Tile × WordEnd} {k : Stoker} (hf : f (s.ltile t.toNat) = ({ s.ltile t.toNat with stoker := k }, e)) :
    SteersOnly s (s.tileWord t f) t ∧ ((s.tileWord t f).ltile t.toNat).stoker = k.ended e := by
  obtain ⟨hkeeps, htile⟩ := tileWord_steers hi hf ⟨rfl, rfl, rfl⟩
  exact ⟨hkeeps, congrArg Tile.stoker htile⟩

end

/-! ## LOOP and SWAIT (R155, R163) -/

/-- A loop of LEN words opened at the word after it stands open there. -/
theorem Stoker.loops_goto_open {k : Stoker} {len : Nat} (hl : len ≠ 0) (count : Nat) (hr : ∀ r, k.recomp = some r → r.2.1 ≠ k.pc + 1) :
    (({ k with loops := ⟨k.pc + 1, len, count⟩ :: k.loops } : Stoker).ended (.next 1)).loops = ⟨k.pc + 1, len, count⟩ :: k.loops :=
  (Stoker.goto_of_stay (k := { k with loops := ⟨k.pc + 1, len, count⟩ :: k.loops, waitWord := false })
    (if_neg (show ¬ k.pc + 1 = k.pc + 1 + len by omega)) hr).2

theorem Tile.swait_of_rest {t : Tile} {mask : W32}
    (h : ∀ n, n < 32 → mask.getLsbD n = true → (t.stream n).state = 0 ∨ (t.stream n).state = 2 ∨ (t.stream n).state = 3) :
    t.swait mask = (t.setReg 0x0380 (clrBit (t.reg 0x0380) 1), .next 1) := by
  refine if_neg fun hany => ?_
  obtain ⟨n, hn, hopen⟩ := List.any_eq_true.mp hany
  obtain ⟨hmask, hbusy⟩ := Bool.and_eq_true_iff.mp hopen
  have hrest := h n (List.mem_range.mp hn) hmask
  simp only [Bool.not_eq_true', Bool.or_eq_false_iff, beq_eq_false_iff_ne] at hbusy
  omega

theorem Tile.swait_of_running {t : Tile} {mask : W32} {n : Nat} (hn : n < 32) (hm : mask.getLsbD n = true) (h : (t.stream n).state = 1) :
    t.swait mask = (t.setReg 0x0380 (setBit (t.reg 0x0380) 1), .wait) :=
  if_pos (List.any_eq_true.mpr ⟨n, List.mem_range.mpr hn, by simp [hm, h]⟩)

/-! ## Fences (R249) -/

/-- Outside loops and replays a fence word marks the first unmet fence of its own. -/
theorem Tile.passFence_of_marks {t : Tile} (h : marksFence t.stoker = true) (op : Nat) (beat : Int) (w : List (Nat × Nat × Nat)) :
    t.passFence op beat w = { t with stoker := { t.stoker with fences := markFirst op beat t.openPasses w t.stoker.fences } } := by
  obtain ⟨hreplay, hloops⟩ := Bool.and_eq_true_iff.mp h
  have hout : ¬ t.stoker.loops.any (fun f => decide (1 < f.left ∧ f.start ≤ t.stoker.pc ∧ t.stoker.pc < f.start + f.len)) = true := by
    intro hany
    obtain ⟨f, hf, hin⟩ := List.any_eq_true.mp hany
    have hlast := of_decide_eq_true (List.all_eq_true.mp hloops f hf)
    have hinside := of_decide_eq_true hin
    omega
  unfold Tile.passFence
  rw [if_neg hout]
  dsimp only
  rw [if_pos hreplay]

theorem State.passFence_of_marks {s : State} {t : Nat} (h : marksFence (s.ltile t).stoker = true) (op : Nat) (beat : Int) :
    s.passFence t op beat = s.setLtile t { s.ltile t with stoker := { (s.ltile t).stoker with
      fences := markFirst op beat (s.ltile t).openPasses (s.openWrites (s.ltile t)) (s.ltile t).stoker.fences } } := by
  rw [State.passFence, Tile.passFence_of_marks h]

/-- A fence word that is passed. -/
theorem fenceWord_result {s : State} {t : BitVec 8} (hi : s.issues t.toNat = true) (h : marksFence (s.ltile t.toNat).stoker = true) (op : Nat)
    (beat : Int) :
    let r := s.word t (fun s => (s.passFence t.toNat op beat, .next 1))
    SteersOnly s r t ∧ (r.ltile t.toNat).stoker.fences =
      markFirst op beat (s.ltile t.toNat).openPasses (s.openWrites (s.ltile t.toNat)) (s.ltile t.toNat).stoker.fences := by
  have hf := congrArg (fun m => (m, WordEnd.next 1)) (State.passFence_of_marks h op beat)
  obtain ⟨hkeeps, htile⟩ := word_steers (f := fun s => (s.passFence t.toNat op beat, .next 1)) hi hf rfl rfl ⟨rfl, rfl, rfl⟩
  refine ⟨hkeeps, ?_⟩
  exact (congrArg (fun b : Tile => b.stoker.fences) htile).trans (congrArg Stoker.fences (Stoker.goto_frame ..))

/-- What STEP does where the stoker of tile t issues it (R244). -/
def State.stepIssued (s : State) (t : Nat) (beat : Int) : State × WordEnd :=
  let s1 := s.passFence t 0xD4 beat
  let t1 := s1.ltile t
  (s1.setLtile t { t1 with stoker := { t1.stoker with stepDone := true } }, .jump t1.stoker.bodyStart)

theorem exec_stepWord (s : State) (t : BitVec 8) (beat : BitVec 16) :
    exec (.stepWord t beat) s = .next (s.word t (fun s => s.stepIssued t.toNat beat.toInt)) := rfl

/-- STEP that marks its fence ends the step. -/
theorem State.stepIssued_of_marks {s : State} {t : Nat} (h : marksFence (s.ltile t).stoker = true) (beat : Int) :
    s.stepIssued t beat = (s.setLtile t { s.ltile t with stoker := { (s.ltile t).stoker with
      fences := markFirst 0xD4 beat (s.ltile t).openPasses (s.openWrites (s.ltile t)) (s.ltile t).stoker.fences
      stepDone := true } }, .jump (s.ltile t).stoker.bodyStart) := by
  unfold State.stepIssued
  dsimp only
  rw [State.passFence_of_marks h, State.ltile_setLtile, State.setLtile_setLtile]

/-! ## RECOMP and CLASS (R246, R251) -/

theorem State.recompWord_of_range {s : State} {t id : Nat} {r l : Nat × Nat}
    (hr : forwardRange ((s.ctx s.sched.ctx).program t) id = some r) (hl : layerStreams (s.ctx s.sched.ctx).layers id = some l) :
    s.recompWord t id = (s.setLtile t { s.ltile t with stoker := { (s.ltile t).stoker with
      recomp := some ((s.ltile t).stoker.pc + 1, r.2, l.1, l.2) } }, .jump r.1) := by
  unfold State.recompWord
  simp only [hr, hl]

/-- A firebox after CLASS has taken the front element of flue n. -/
def State.classTaken (s : State) (t n : Nat) (rest : List (Nat × Nat)) : Tile :=
  let tl := s.ltile t
  let st := tl.stream n
  tl.setStream n (({ st with entries := st.entries.take st.claimed ++ rest } : Stream).trim (sdFlueFmt (s.ctx st.ctx) st.sd))

theorem State.classStep_of_entry {s : State} {t n : Nat} {e : Nat × Nat} {rest : List (Nat × Nat)}
    (h : ((s.ltile t).stream n).entries.drop ((s.ltile t).stream n).claimed = e :: rest) :
    s.classStep t n = (s.setLtile t (s.classTaken t n rest)).classAt t e.1 := by
  unfold State.classStep
  simp only [h]
  rfl

/-- The fences of the class block of tile t that begins at word e. -/
def State.classFences (s : State) (t e : Nat) : List FenceMark :=
  (classBlock (opWords 0 0 ((s.ctx s.sched.ctx).program t)) e).filterMap (fun p => fenceOf p.2)

/-- A class of the table goes to its entry with the fences of its block. -/
theorem State.classAt_of_class {s : State} {t v : Nat} (b : Tile) (hv : v < 16) (hn : v < (s.ctx s.sched.ctx).nclass) :
    let e := classEntry (nth 0 (s.ctx s.sched.ctx).classes v)
    (s.setLtile t b).classAt t v =
      (s.setLtile t { b with stoker := { b.stoker with fences := s.classFences t e ++ b.stoker.fences } }, .jump e) := by
  refine (if_neg (show ¬ (16 ≤ v ∨ (s.ctx s.sched.ctx).nclass ≤ v) by omega)).trans ?_
  rw [State.ltile_setLtile, State.setLtile_setLtile]
  rfl

/-- A firebox whose stoker starts no further word of the step. -/
def Tile.halt (b : Tile) : Tile := { b with stoker := { b.stoker with halted := true } }

/-- A class beyond 15 halts the tile with FAIL. -/
theorem State.classAt_of_bad (s : State) (t : Nat) {v : Nat} (b : Tile) (hv : 16 ≤ v) :
    (s.setLtile t b).classAt t v = ((s.setLtile t b.halt).raiseFail, .wait) := by
  refine (if_pos (.inl hv)).trans ?_
  rw [State.ltile_setLtile, State.setLtile_setLtile]
  rfl

/-! ## The obligation -/

/-- Settles O27: each word leaves its firebox with another stoker (`word_steers`), which goes on as `Stoker.ended` says. -/
theorem stokerAndScheduleWords : Obligations.StokerAndScheduleWords := by
  unfold Obligations.StokerAndScheduleWords
  intro t s hi
  refine ⟨fun count len hcount hlen hr => ?loop, fun beat => ?at_, fun phase id => ?layer, fun len => ?pro, fun addr hl hr => ?join,
    fun h barrier beat => ⟨_, rfl, fenceWord_result hi h _ _⟩, fun h beat => ⟨_, rfl, fenceWord_result hi h _ _⟩, fun h beat => ?step,
    fun mask => ⟨fun h => ?rest, fun h => ?running⟩, fun id r l hr hl => ?recomp, fun n e es he => ⟨fun hv hn => ?entry, fun hv => ?halt⟩⟩
  case loop =>
    have hcount' : count.toNat ≠ 0 := fun h => hcount (BitVec.eq_of_toNat_eq h)
    have hlen' : len.toNat ≠ 0 := fun h => hlen (BitVec.eq_of_toNat_eq h)
    obtain ⟨hkeeps, hk⟩ := tileWord_stoker (f := fun tl => tl.loopWord count.toNat len.toNat) hi (if_neg (by omega))
    exact ⟨_, rfl, hkeeps, (congrArg Stoker.loops hk).trans (Stoker.loops_goto_open hlen' count.toNat hr)⟩
  case at_ =>
    obtain ⟨hkeeps, hk⟩ := tileWord_stoker (f := fun tl => ({ tl with stoker := { tl.stoker with atBeat := some beat.toInt } }, .next 1)) hi rfl
    exact ⟨_, rfl, hkeeps, (congrArg Stoker.atBeat (hk.trans (Stoker.goto_frame ..)) :)⟩
  case layer =>
    obtain ⟨hkeeps, hk⟩ := tileWord_stoker (f := fun tl =>
      ({ tl with stoker := { tl.stoker with phase := phase.toNat, layer := id.toNat } }, .next 1)) hi rfl
    have hgoto := hk.trans (Stoker.goto_frame ..)
    exact ⟨_, rfl, hkeeps, (congrArg Stoker.phase hgoto :), (congrArg Stoker.layer hgoto :)⟩
  case pro =>
    obtain ⟨hkeeps, hk⟩ := tileWord_stoker (f := fun tl => ({ tl with stoker := { tl.stoker with
      proEnd := some (tl.stoker.pc + 1 + len.toNat), bodyStart := tl.stoker.pc + 1 + len.toNat } }, .next 1)) hi rfl
    exact ⟨_, rfl, hkeeps, (congrArg Stoker.bodyStart (hk.trans (Stoker.goto_frame ..)) :)⟩
  case join =>
    obtain ⟨hkeeps, hk⟩ := tileWord_stoker (f := fun tl =>
      ({ tl with stoker := tl.stoker.goto addr.toNat }, .jump (tl.stoker.goto addr.toNat).pc)) hi rfl
    have hclose : closeLoops addr.toNat (s.ltile t.toNat).stoker.loops = (addr.toNat, (s.ltile t.toNat).stoker.loops) := by rw [hl]; rfl
    have hstay := (Stoker.goto_of_stay hclose fun r h => absurd (hr.symm.trans h) nofun).1
    exact ⟨_, rfl, hkeeps, (congrArg Stoker.pc hk).trans hstay⟩
  case step =>
    obtain ⟨hkeeps, htile⟩ := word_steers (f := fun s => s.stepIssued t.toNat beat.toInt) hi (State.stepIssued_of_marks h beat.toInt) rfl rfl
      ⟨rfl, rfl, rfl⟩
    have hk := congrArg Tile.stoker htile
    exact ⟨_, exec_stepWord .., hkeeps, (congrArg Stoker.fences hk :), (congrArg Stoker.stepDone hk :), (congrArg Stoker.pc hk :)⟩
  case rest =>
    obtain ⟨hkeeps, htile⟩ := tileWord_steers (f := fun tl => tl.swait mask) hi (Tile.swait_of_rest h) ⟨rfl, rfl, rfl⟩
    exact ⟨_, rfl, hkeeps, (congrArg Tile.stoker htile :)⟩
  case running =>
    obtain ⟨n, hn, hm, hrun⟩ := h
    obtain ⟨hkeeps, htile⟩ := tileWord_steers (f := fun tl => tl.swait mask) hi (Tile.swait_of_running hn hm hrun) ⟨rfl, rfl, rfl⟩
    exact ⟨_, rfl, hkeeps, (congrArg Tile.stoker htile :)⟩
  case recomp =>
    obtain ⟨hkeeps, htile⟩ := word_steers (f := fun s => s.recompWord t.toNat id.toNat) hi
      (State.recompWord_of_range hr hl) rfl rfl ⟨rfl, rfl, rfl⟩
    have hk := congrArg Tile.stoker htile
    exact ⟨_, rfl, hkeeps, (congrArg Stoker.pc hk :), (congrArg Stoker.recomp hk :)⟩
  case entry =>
    have hclass := State.classAt_of_class (t := t.toNat) (s.classTaken t.toNat n.toNat es) hv hn
    obtain ⟨hkeeps, htile⟩ := word_steers (f := fun s => s.classStep t.toNat n.toNat) hi
      ((State.classStep_of_entry he).trans hclass) rfl rfl ⟨rfl, rfl, rfl⟩
    exact ⟨_, rfl, hkeeps, (congrArg (fun b : Tile => b.stoker.pc) htile :)⟩
  case halt =>
    have hclass := (State.classStep_of_entry he).trans (s.classAt_of_bad t.toNat (s.classTaken t.toNat n.toNat es) hv)
    obtain ⟨htiles, hmap, _⟩ := (s.setLtile t.toNat (s.classTaken t.toNat n.toNat es).halt).raiseFail_frame
    obtain ⟨hkeeps, htile⟩ := word_steers (f := fun s => s.classStep t.toNat n.toNat) hi hclass htiles hmap ⟨rfl, rfl, rfl⟩
    refine ⟨_, rfl, hkeeps, (congrArg (fun b : Tile => b.stoker.halted) htile :), fun hrun => ?_⟩
    rw [word_ends (f := fun s => s.classStep t.toNat n.toNat) hi hclass]
    exact State.raiseFail_isSome _ hrun

end Sys2Proof.Machine

/-! Ends of stream passes and the weight ring (R162, R172 to R176): a pass that ends once, a slice copied into the buffer pair of a ring
stream, and the entries that linked streams receive. -/

namespace Sys2Proof.Machine

/-! ## Ends of passes (R162) -/

theorem Stream.passOver_iff (st : Stream) (cx : Ctx) : st.passOver cx = true ↔
    st.state = 1 ∧ st.stall = false ∧ sdKind st.sd ≠ 3 ∧ walkCount cx st.sd ≤ st.pos ∧ st.buf = [] := by
  simp [Stream.passOver, and_assoc]

/-- A pass that is not persistent and was not disarmed ends as DONE, and is counted. -/
theorem Stream.endPass_of_once {st : Stream} (hp : sdPersist st.sd = false) (hd : st.disarm = false) (fmt : BitVec 4) :
    st.endPass fmt = { st with cntPass := st.cntPass + 1, state := 3, units := (st.endPass fmt).units } := by
  have hend : st.endPass fmt = ({ st with cntPass := st.cntPass + 1, state := 3 } : Stream).trim fmt := by
    simp [Stream.endPass, hp, hd]
  rw [hend]
  exact Stream.trim_frame ..

/-- The streams linked to stream n are at the end of their passes, with empty slots. -/
def Tile.LinksEnded (tl : Tile) (n : Nat) : Prop :=
  ∀ k ∈ tl.linked n, ((tl.stream k).state = 2 ∨ (tl.stream k).state = 3) ∧ (tl.stream k).slot = none

section
variable {s : State} {t n : Nat} (ha : (s.ltile t).ring.active = true) (hn : (s.ltile t).ring.s = n)
  (h1 : ((s.ltile t).stream n).state = 1) (hl : (s.ltile t).LinksEnded n)
include ha hn h1 hl

/-- Nothing holds the step's end but the slices. -/
theorem Tile.ringEnds : ¬ (!(s.ltile t).ring.active || (s.ltile t).ring.s != n || ((s.ltile t).stream n).state != 1 ||
    !((s.ltile t).linked n).all (fun k =>
      (((s.ltile t).stream k).state == 2 || ((s.ltile t).stream k).state == 3) && ((s.ltile t).stream k).slot.isNone)) = true := by
  have hall : ((s.ltile t).linked n).all (fun k =>
      (((s.ltile t).stream k).state == 2 || ((s.ltile t).stream k).state == 3) && ((s.ltile t).stream k).slot.isNone) = true := by
    refine List.all_eq_true.mpr fun k hk => ?_
    obtain ⟨hstate, hslot⟩ := hl k hk
    simp [hstate, hslot]
  simp only [ha, hn, h1, hall, Bool.not_true, bne_self_eq_false, Bool.or_self, Bool.false_eq_true, not_false_eq_true]

/-- Step 255 ends the stream pass. -/
theorem State.ringStepEnd_of_last (h : (s.ltile t).ring.step = 255) : s.ringStepEnd t n = s.setLtile t
    { (s.ltile t).setStream n (({ (s.ltile t).stream n with cursorPos := 256 } : Stream).endPass (s.flueFmt (s.ltile t) n)) with ring := {} } :=
  (if_neg (Tile.ringEnds ha hn h1 hl)).trans (if_pos h)

end

/-- Settles O50: a pass that is over ends as `Stream.endPass_of_once` says, and STREAM_PASS_END changes nothing before. -/
theorem streamPassEndDone : Obligations.StreamPassEndDone := by
  unfold Obligations.StreamPassEndDone
  refine ⟨fun s t n => fun hw h1 hs hk hp hd => ?pass, fun s t n => fun hw ha hn h h1 hp hd hl => ?ring⟩
  case pass =>
    have hover := ((s.ltile t.toNat).stream n.toNat).passOver_iff (s.ctx ((s.ltile t.toNat).stream n.toNat).ctx)
    by_cases hend : walkCount (s.ctx ((s.ltile t.toNat).stream n.toNat).ctx) ((s.ltile t.toNat).stream n.toNat).sd ≤
        ((s.ltile t.toNat).stream n.toNat).pos ∧ ((s.ltile t.toNat).stream n.toNat).buf = []
    case pos =>
      refine ⟨_, congrArg ok (if_pos (Bool.and_eq_true_iff.mpr ⟨hw, hover.mpr ⟨h1, hs, hk, hend⟩⟩)), fun _ => ?_, fun hnot => ?_⟩
      · rw [State.ltile_setLtile, Tile.stream_setStream_same, Stream.endPass_of_once hp hd]
        exact ⟨rfl, rfl, rfl, rfl, rfl, rfl, Tile.stream_setStream_ne _ _ _, s.tile_setLtile_ne _ _, rfl⟩
      · obtain ⟨hpos, hbuf⟩ := hend
        exact absurd hbuf (hnot.resolve_left (Nat.not_lt.mpr hpos))
    case neg =>
      refine ⟨_, congrArg ok (if_neg fun h => ?_), fun h => absurd h hend, fun _ => rfl⟩
      obtain ⟨_, _, _, hover⟩ := hover.mp (Bool.and_eq_true_iff.mp h).2
      exact hend hover
  case ring =>
    refine ⟨_, congrArg ok ((if_pos hw).trans (State.ringStepEnd_of_last ha hn h1 hl h)), ?_⟩
    beta_reduce
    rw [Stream.endPass_of_once (st := { (s.ltile t.toNat).stream n.toNat with cursorPos := 256 }) hp hd, State.ltile_setLtile]
    have hst := fun v => (s.ltile t.toNat).stream_setStream_same n.toNat v
    exact ⟨congrArg Stream.state (hst _), congrArg Stream.cursorPos (hst _), congrArg Stream.cntPass (hst _), rfl,
      Tile.stream_setStream_ne _ _ _, rfl⟩

end Sys2Proof.Machine

/-! The weight ring (R172 to R176): a slice on its way into the buffer pair of a ring stream, the entries that linked streams receive, and
RING, RING_SLICE_RECEIVE and RING_STEP_END. -/

namespace Sys2Proof.Machine

/-! ## The reach of a slice (R193) -/

/-- An access by slot u: its translations, and in the schedule no more than FAIL or a stop that is asked for. -/
structure Reaches (u : Nat) (s r : State) : Prop where
  moves : Translates (some u) s r
  pacing : r.pacing = s.pacing

theorem Reaches.refl (u : Nat) (s : State) : Reaches u s s := ⟨.refl _ s, rfl⟩

theorem Reaches.trans {u : Nat} {s t r : State} (h : Reaches u s t) (k : Reaches u t r) : Reaches u s r :=
  ⟨h.moves.trans k.moves, k.pacing.trans h.pacing⟩

theorem reaches_reachPage (u c a n : Nat) (w k : Bool) (acc : State × Option (Access × Nat)) (p : Nat) :
    Reaches u acc.1 (State.reachPage u c a n w k acc p).1 := by
  have hone : Reaches u acc.1 (acc.1.access (some u) c p w).1 := ⟨translates_access .., State.pacing_access ..⟩
  unfold State.reachPage
  split
  · exact .refl ..
  · generalize acc.1.access (some u) c p w = q at hone ⊢
    dsimp only
    split
    · split
      · exact hone
      · split
        · exact hone
        · exact hone
    · exact hone

theorem reaches_reachAs (s : State) (u c sp a n : Nat) (w k : Bool) : Reaches u s (s.reachAs u c sp a n w k).1 := by
  by_cases hsp : sp = 0
  · subst hsp
    rw [State.reachAs_eq]
    exact List.foldlRecOn (motive := fun b : State × Option (Access × Nat) => Reaches u s b.1) _ _ (.refl u s)
      fun b hb i _ => hb.trans (reaches_reachPage ..)
  · rw [State.reachAs_of_space _ _ _ _ _ hsp]
    exact .refl u s

theorem reaches_reachElemAs (s : State) (u c : Nat) (d : Desc) (t : List Nat) (w k : Bool) :
    Reaches u s (s.reachElemAs u c d t w k).1 := by
  unfold State.reachElemAs
  extract_lets p r
  have hr : Reaches u s r.1 := by
    unfold r
    split
    · exact reaches_reachAs ..
    · exact reaches_reachAs ..
  split
  · split
    · exact hr.trans (reaches_reachAs ..)
    · exact hr.trans (reaches_reachAs ..)
  · exact hr

theorem reaches_sliceReach (s : State) (u c : Nat) (d : Desc) (i : Nat) : Reaches u s (s.sliceReach u c d i).1 := by
  unfold State.sliceReach
  split
  · extract_lets r
    have hr : Reaches u s r.1 := reaches_reachAs ..
    split
    · exact hr
    · exact hr.trans (reaches_reachAs ..)
  · refine List.foldlRecOn (motive := fun b : State × Option (Access × Nat) => Reaches u s b.1) _ _ (.refl u s) fun b hb i _ => ?_
    split
    · exact hb
    · exact hb.trans (reaches_reachElemAs ..)

/-- The guarded ranges are those of the schedule, the contexts and the place of the stoker. -/
theorem State.guards_congr {s r : State} (hp : r.pacing = s.pacing) (hc : r.ctxs = s.ctxs) {a b : Tile} (hk : b.stoker = a.stoker) :
    r.guards b = s.guards a := by
  have hrun : r.sched.running = s.sched.running := congrArg (fun p => p.sched.running) hp
  have hctx : r.sched.ctx = s.sched.ctx := congrArg (fun p => p.sched.ctx) hp
  unfold State.guards Tile.mayPersist
  rw [hrun, hctx, hk, State.ctx_congr hc]

/-! ## Writes into scratch -/

/-- What a slice on its way into the scratch of slot u changes: the translations of u, its scratch and its flags. -/
structure FillsScratch (u : Nat) (s r : State) : Prop where
  ctxs : r.ctxs = s.ctxs
  tileMap : r.tileMap = s.tileMap
  others : ∀ v, v ≠ u → r.tile v = s.tile v
  own : r.tile u = { s.tile u with
    scratch := (r.tile u).scratch, regs := (r.tile u).regs, xc := (r.tile u).xc, nfSeen := (r.tile u).nfSeen }

section
variable {u : Nat} {s t r : State}

theorem FillsScratch.refl (u : Nat) (s : State) : FillsScratch u s s := ⟨rfl, rfl, fun _ _ => rfl, rfl⟩

theorem FillsScratch.trans (h : FillsScratch u s t) (k : FillsScratch u t r) : FillsScratch u s r where
  ctxs := k.ctxs.trans h.ctxs
  tileMap := k.tileMap.trans h.tileMap
  others v hv := (k.others v hv).trans (h.others v hv)
  own := by rw [k.own, h.own]

theorem FillsScratch.stream (h : FillsScratch u s r) (n : Nat) : (r.tile u).stream n = (s.tile u).stream n := by
  rw [h.own]
  rfl

theorem FillsScratch.ltile (h : FillsScratch u s r) (l : Nat) : r.ltile l = r.tile (s.unitOf l) := by
  rw [State.ltile, State.unitOf_of_tileMap h.tileMap]
  rfl

theorem FillsScratch.stream_ltile {l : Nat} (h : FillsScratch (s.unitOf l) s r) (n : Nat) : (r.ltile l).stream n = (s.ltile l).stream n := by
  rw [h.ltile]
  exact h.stream n

theorem FillsScratch.stoker_ltile {l : Nat} (h : FillsScratch (s.unitOf l) s r) : (r.ltile l).stoker = (s.ltile l).stoker := by
  rw [h.ltile, h.own]
  rfl

theorem Translates.fillsScratch (h : Translates (some u) s r) : FillsScratch u s r where
  ctxs := h.ctxs
  tileMap := h.tileMap
  others v hv := h.others v fun he => hv (Option.some.inj he).symm
  own := by rw [h.own u]

theorem fillsScratch_setTile (s : State) (u : Nat) {b : Tile}
    (hb : b = { s.tile u with scratch := b.scratch, regs := b.regs, xc := b.xc, nfSeen := b.nfSeen }) : FillsScratch u s (s.setTile u b) where
  ctxs := rfl
  tileMap := rfl
  others v hv := (s.tile_setTile ..).trans (if_neg hv)
  own := by
    rw [State.tile_setTile_same]
    exact hb

theorem fillsScratch_raise (s : State) (u : Nat) (v : W32) : FillsScratch u s (s.setTile u ((s.tile u).raise v)) :=
  fillsScratch_setTile s u rfl

theorem fillsScratch_foldl {α : Type} {f : State → α → State} (h : ∀ s x, FillsScratch u s (f s x)) (l : List α) (s : State) :
    FillsScratch u s (l.foldl f s) :=
  List.foldlRecOn (motive := FillsScratch u s) l f (.refl u s) fun _ hb x _ => hb.trans (h _ x)

end

theorem fillsScratch_raiseFail (u : Nat) (s : State) : FillsScratch u s s.raiseFail := by
  unfold State.raiseFail
  split
  · exact .refl u s
  · exact ⟨rfl, rfl, fun _ _ => rfl, rfl⟩

/-- A write that is refused raises FAIL (R242). -/
theorem fillsScratch_streamPut (s : State) (a : At) (c x : Nat) (bs : List Byte) : FillsScratch a.u s (s.streamPut a c 1 x bs) := by
  unfold State.streamPut
  split
  · exact fillsScratch_raiseFail a.u s
  · rw [if_neg (by decide)]
    exact fillsScratch_setTile s a.u rfl

section
variable {d : Desc} (hsp : d.space = 1) (s : State) (a : At) (c : Nat) (st : Stream) (t : List Nat)
include hsp

theorem fillsScratch_putElem (code scale : Nat) : FillsScratch a.u s (s.putElem a c st d t code scale) := by
  rw [State.putElem, State.writeElem, hsp]
  exact (fillsScratch_streamPut ..).trans (fillsScratch_raise ..)

theorem fillsScratch_putUnit (es : List (List Nat × Nat × Nat)) : FillsScratch a.u s (s.putUnit a c st d t es) := by
  unfold State.putUnit
  simp only [hsp]
  split
  · exact (fillsScratch_streamPut ..).trans (fillsScratch_raise ..)
  · exact ((fillsScratch_streamPut ..).trans (fillsScratch_foldl (fun _ _ => fillsScratch_streamPut ..) _ _)).trans (fillsScratch_raise ..)

end

/-! ## A slice in the buffer pair (R173) -/

/-- DESC_B of the stream at a place: of a ring stream its buffer pair. -/
def State.pairAt (s : State) (a : At) : Desc := (s.ctx (s.streamAt a).ctx).desc (sdDescB (s.streamAt a).sd)

theorem fillsScratch_copySlice {s : State} {a : At} (hsp : (s.pairAt a).space = 1) (u c : Nat) (d : Desc) (i b : Nat) :
    FillsScratch a.u s (s.copySlice a u c d i b) := by
  unfold State.copySlice
  extract_lets st db s1 ext es
  split
  · split
    · exact fillsScratch_streamPut ..
    · exact (fillsScratch_streamPut ..).trans (fillsScratch_streamPut ..)
  · split
    · exact fillsScratch_foldl (fun s e => fillsScratch_putElem hsp ..) _ _
    · refine fillsScratch_foldl (fun s un => ?_) _ _
      split
      · exact fillsScratch_putUnit hsp ..
      · exact .refl ..

theorem mreadN_mwrite (m : Memory) (x : Nat) {bs : List Byte} {n : Nat} (h : bs.length = n) : mreadN (mwrite m x bs) x n = bs := by
  subst h
  rw [mreadN_eq]
  refine List.ext_getElem (by simp) fun i _ hi => ?_
  rw [List.getElem_map, List.getElem_range, mread_mwrite, if_pos ⟨by omega, by omega⟩, Nat.add_sub_cancel_left, List.getD_eq_getElem _ _ hi]

theorem State.length_spaceRead (s : State) (u c sp a n : Nat) : (s.spaceRead u c sp a n).length = n := by
  unfold State.spaceRead
  split
  · simp [State.dvaRead]
  · split
    · simp [mreadN]
    · simp [mreadN]

/-- A slice that lies as a run of bytes without scales, copied where no guard holds, stands in the buffer. -/
theorem State.mreadN_copySlice {s : State} {a : At} {d : Desc} (u c i b : Nat) (hd : d.packedSlice = true)
    (hb : (s.pairAt a).packedSlice = true) (ho : (s.pairAt a).ovl = 0) (hf : scaleBlock d.fmt = 0)
    (hg : (s.streamAt a).armedIn ≠ 0 ∨ s.guards (s.tile a.u) = []) :
    mreadN ((s.copySlice a u c d i b).tile a.u).scratch (outerAddr (s.pairAt a) b) (sliceBytes d) =
      s.spaceRead u c d.space (outerAddr d i) (sliceBytes d) := by
  have hcopy : s.copySlice a u c d i b = s.streamPut a (s.streamAt a).ctx 1 (outerAddr (s.pairAt a) b)
      (s.spaceRead u c d.space (outerAddr d i) (sliceBytes d)) :=
    (if_pos (by rw [hd, show ((s.ctx (s.streamAt a).ctx).desc (sdDescB (s.streamAt a).sd)) = s.pairAt a from rfl, hb, ho]; rfl)).trans (if_pos hf)
  rw [hcopy, State.streamPut_of_scratch _ _ _ _ _ (hg.imp_right fun h => by rw [h]; rfl), State.tile_setTile_same]
  exact mreadN_mwrite _ _ (s.length_spaceRead ..)

/-! ## Linked streams (R175) -/

theorem Tile.mem_linked {tl : Tile} {n j : Nat} : j ∈ tl.linked n ↔
    j < 32 ∧ sdRingLink (tl.stream j).sd = true ∧ sdRingS (tl.stream j).sd = n ∧ (tl.stream j).state ≠ 0 := by
  simp [Tile.linked, and_assoc]

theorem Tile.not_mem_linked {tl : Tile} {n : Nat} (h : sdRingLink (tl.stream n).sd = false) : n ∉ tl.linked n := fun hn => by
  obtain ⟨_, hlink, _⟩ := Tile.mem_linked.mp hn
  exact Bool.false_ne_true (h.symm.trans hlink)

/-- What entries offered to streams js of tile t change: those streams, and the words that count refusals. -/
structure LinksOnly (t : Nat) (js : List Nat) (s r : State) : Prop where
  rest : r = { s with tiles := r.tiles }
  others : ∀ v, v ≠ s.unitOf t → r.tile v = s.tile v
  own : r.ltile t = { s.ltile t with streams := (r.ltile t).streams, regs := (r.ltile t).regs }
  streams : ∀ m, m ∉ js → (r.ltile t).stream m = (s.ltile t).stream m

theorem LinksOnly.refl (t : Nat) (js : List Nat) (s : State) : LinksOnly t js s s := ⟨rfl, fun _ _ => rfl, rfl, fun _ _ => rfl⟩

theorem LinksOnly.unitOf {t : Nat} {js : List Nat} {s r : State} (h : LinksOnly t js s r) (l : Nat) : r.unitOf l = s.unitOf l := by
  rw [h.rest]
  rfl

theorem LinksOnly.cons {t i : Nat} {js : List Nat} {s m r : State} (h : LinksOnly t [i] s m) (k : LinksOnly t js m r) :
    LinksOnly t (i :: js) s r where
  rest := by
    rw [k.rest]
    conv_lhs => rw [h.rest]
  others v hv := (k.others v (h.unitOf t ▸ hv)).trans (h.others v hv)
  own := by rw [k.own, h.own]
  streams n hn := by
    obtain ⟨hi, hjs⟩ := not_or.mp (List.mem_cons.not.mp hn)
    exact (k.streams n hjs).trans (h.streams n (by simpa using hi))

theorem linksOnly_setLtile {s : State} {t n : Nat} {b : Tile} (hb : b = { s.ltile t with streams := b.streams, regs := b.regs })
    (hs : ∀ m, m ≠ n → b.stream m = (s.ltile t).stream m) : LinksOnly t [n] s (s.setLtile t b) where
  rest := rfl
  others := s.tile_setLtile_ne t b
  own := by
    rw [State.ltile_setLtile]
    exact hb
  streams m hm := by
    rw [State.ltile_setLtile]
    exact hs m (by simpa using hm)

theorem linksOnly_linkOne (s : State) (t slice buf n : Nat) : LinksOnly t [n] s (s.linkOne t slice buf n) := by
  unfold State.linkOne
  dsimp only
  split
  · exact .refl ..
  · split
    · exact linksOnly_setLtile rfl (Tile.stream_setStream_ne _ _ _)
    · split
      · exact .refl ..
      · exact linksOnly_setLtile rfl (Tile.stream_setStream_ne _ _ _)

/-- Streams of a list offered their entries. -/
def State.linkEach (s : State) (t slice buf : Nat) (l : List Nat) : State := l.foldl (fun s k => s.linkOne t slice buf k) s

theorem State.linkAll_eq (s : State) (t n slice buf : Nat) : s.linkAll t n slice buf = s.linkEach t slice buf ((s.ltile t).linked n) := rfl

theorem linksOnly_linkEach (t slice buf : Nat) (l : List Nat) (s : State) : LinksOnly t l s (s.linkEach t slice buf l) := by
  induction l generalizing s with
  | nil => exact .refl ..
  | cons i l ih => exact (linksOnly_linkOne ..).cons (ih _)

theorem linksOnly_linkAll (s : State) (t n slice buf : Nat) : LinksOnly t ((s.ltile t).linked n) s (s.linkAll t n slice buf) :=
  linksOnly_linkEach ..

/-- Stream j of tile t takes the entry e for a slice and a buffer. -/
def State.LinkTakes (s : State) (t slice buf j : Nat) (e : Nat × Nat) : Prop :=
  let st := (s.ltile t).stream j
  st.takesRearm = true ∧ (tget [] (s.ctx st.ctx).rearm t)[sdRaBase st.sd + 2 * slice + buf]? = some e ∧
  rearmOk (s.ctx st.ctx) st.sd e.1 (st.newScale e.2) = true

section
variable {s m : State} {t slice buf j : Nat} {e : Nat × Nat}

theorem State.LinkTakes.congr (h : s.LinkTakes t slice buf j e) (hc : m.ctxs = s.ctxs) (hs : (m.ltile t).stream j = (s.ltile t).stream j) :
    m.LinkTakes t slice buf j e := by
  unfold State.LinkTakes
  rw [hs]
  simp only [State.ctx_congr hc]
  exact h

theorem State.stream_linkOne (h : s.LinkTakes t slice buf j e) :
    ((s.linkOne t slice buf j).ltile t).stream j = ((s.ltile t).stream j).offer e.1 e.2 := by
  obtain ⟨htake, hentry, hrange⟩ := h
  unfold State.linkOne
  simp only [htake, hentry, hrange, Bool.not_true, Bool.false_eq_true, if_false]
  rw [State.ltile_setLtile]
  exact Tile.stream_setStream_same ..

/-- Each stream of a list without doubles receives its entry once. -/
theorem State.stream_linkEach {l : List Nat} (hl : l.Nodup) (hj : j ∈ l) (h : s.LinkTakes t slice buf j e) :
    ((s.linkEach t slice buf l).ltile t).stream j = ((s.ltile t).stream j).offer e.1 e.2 := by
  induction l generalizing s with
  | nil => exact absurd hj List.not_mem_nil
  | cons i l ih =>
    obtain ⟨hi, hl⟩ := List.nodup_cons.mp hl
    have hone := linksOnly_linkOne s t slice buf i
    by_cases hji : j = i
    case pos =>
      subst hji
      exact ((linksOnly_linkEach t slice buf l _).streams j hi).trans (State.stream_linkOne h)
    case neg =>
      have hstream := hone.streams j (by simpa using hji)
      refine (ih hl ((List.mem_cons.mp hj).resolve_left hji) (h.congr (by rw [hone.rest]) hstream)).trans ?_
      rw [hstream]

end

/-- Linked streams receive their entries where none but the ring stream itself has changed. -/
theorem linkedHold_linkAll {s m : State} {t : BitVec 8} {k : Nat} (i b : Nat) (hc : m.ctxs = s.ctxs)
    (hs : ∀ j, j ≠ k → (m.ltile t.toNat).stream j = (s.ltile t.toNat).stream j) : linkedHold s (m.linkAll t.toNat k i b) t k i b := by
  intro j hj hjk st e htake _ hentry hrange
  have hmem : j ∈ (m.ltile t.toNat).linked k := by
    rw [Tile.mem_linked, hs j hjk]
    exact Tile.mem_linked.mp hj
  have htakes : s.LinkTakes t.toNat i b j e := ⟨htake, hentry, hrange⟩
  refine (State.stream_linkEach (List.nodup_range.filter _) hmem (htakes.congr hc (hs j hjk))).trans ?_
  rw [hs j hjk]

/-- A slice comes into the scratch of a tile, which becomes b, and the streams linked to stream k receive their entries. -/
structure RingLinked (s m : State) (t : BitVec 8) (k i buf : Nat) (b : Tile) : Prop where
  own : m.ltile t.toNat = { b with streams := (m.ltile t.toNat).streams, regs := (m.ltile t.toNat).regs }
  stream : (m.ltile t.toNat).stream k = b.stream k
  links : linkedHold s m t k i buf
  others : ∀ v, v ≠ s.unitOf t.toNat → m.tile v = s.tile v
  unitOf : m.unitOf t.toNat = s.unitOf t.toNat

theorem ringLinked_linkAll {s l : State} {t : BitVec 8} {k : Nat} {b : Tile} (hl : FillsScratch (s.unitOf t.toNat) s l) (i buf : Nat)
    (hk : sdRingLink (b.stream k).sd = false) (hs : ∀ j, j ≠ k → b.stream j = (s.ltile t.toNat).stream j) :
    RingLinked s ((l.setLtile t.toNat b).linkAll t.toNat k i buf) t k i buf b := by
  have hlinks := linksOnly_linkAll (l.setLtile t.toNat b) t.toNat k i buf
  have hunit : l.unitOf t.toNat = s.unitOf t.toNat := State.unitOf_of_tileMap hl.tileMap _
  rw [State.ltile_setLtile] at hlinks
  constructor
  case own => exact hlinks.own.trans (by rw [State.ltile_setLtile])
  case stream => exact (hlinks.streams k (Tile.not_mem_linked hk)).trans (by rw [State.ltile_setLtile])
  case links =>
    refine linkedHold_linkAll i buf hl.ctxs fun j hj => ?_
    rw [State.ltile_setLtile]
    exact hs j hj
  case others =>
    intro v hv
    have hv' : v ≠ l.unitOf t.toNat := hunit ▸ hv
    exact ((hlinks.others v hv').trans (l.tile_setLtile_ne _ _ v hv')).trans (hl.others v hv)
  case unitOf => exact (hlinks.unitOf _).trans hunit

section
variable {s m : State} {t : BitVec 8} {k i buf : Nat} {b : Tile} (h : RingLinked s m t k i buf b)
include h

theorem RingLinked.ring : (m.ltile t.toNat).ring = b.ring := by rw [h.own]

theorem RingLinked.scratch : (m.ltile t.toNat).scratch = b.scratch := by rw [h.own]

theorem RingLinked.stoker : (m.ltile t.toNat).stoker = b.stoker := by rw [h.own]

/-- The stoker of the tile goes on. -/
theorem RingLinked.steer (q : Stoker) :
    RingLinked s (m.setLtile t.toNat { m.ltile t.toNat with stoker := q }) t k i buf { b with stoker := q } where
  own := by
    rw [State.ltile_setLtile, h.own]
  stream := by
    rw [State.ltile_setLtile]
    exact h.stream
  links := by
    intro j hj hjk st e ht hn he hr
    rw [State.ltile_setLtile]
    exact h.links j hj hjk e ht hn he hr
  others v hv := (m.tile_setLtile_ne _ _ v (h.unitOf ▸ hv)).trans (h.others v hv)
  unitOf := h.unitOf

end

/-! ## RING -/

theorem FillsScratch.streamAt {s r : State} {a : At} (h : FillsScratch a.u s r) : r.streamAt a = s.streamAt a := h.stream a.s

theorem FillsScratch.pairAt {s r : State} {a : At} (h : FillsScratch a.u s r) : r.pairAt a = s.pairAt a := by
  rw [State.pairAt, h.streamAt, State.ctx_congr h.ctxs, State.pairAt]

/-- The reach of slice i of DESC_A of the ring stream at a place. -/
def State.sliceReached (s : State) (a : At) (i : Nat) : State × Option (Access × Nat) :=
  s.sliceReach a.u (s.streamAt a).ctx (s.descAt a) i

/-- That slice in half b of the buffer pair. -/
def State.sliceLoaded (s : State) (a : At) (i b : Nat) : State :=
  (s.sliceReached a i).1.copySlice a a.u (s.streamAt a).ctx (s.descAt a) i b

section
variable {s : State} {a : At} {i : Nat}

theorem State.fetchSlice_of_reached (hs : (s.streamAt a).stall = false) (hr : (s.sliceReached a i).2 = none) (b : Nat) :
    s.fetchSlice a i b = ((s.sliceLoaded a i b).setWant a.u none, true) := by
  refine if_neg ?_
  rw [hs, show s.sliceReach a.u (s.streamAt a).ctx ((s.streamAt a).descA (s.ctx (s.streamAt a).ctx)) i = s.sliceReached a i from rfl, hr]
  decide

theorem fillsScratch_sliceReached (s : State) (a : At) (i : Nat) : FillsScratch a.u s (s.sliceReached a i).1 :=
  (reaches_sliceReach ..).moves.fillsScratch

variable (hsp : (s.pairAt a).space = 1)
include hsp

theorem fillsScratch_sliceLoaded (i b : Nat) : FillsScratch a.u s (s.sliceLoaded a i b) := by
  have hreach := fillsScratch_sliceReached s a i
  exact hreach.trans (fillsScratch_copySlice (hreach.pairAt ▸ hsp) ..)

omit hsp in
theorem State.mreadN_sliceLoaded (b : Nat) (hd : (s.descAt a).packedSlice = true) (hb : (s.pairAt a).packedSlice = true)
    (ho : (s.pairAt a).ovl = 0) (hf : scaleBlock (s.descAt a).fmt = 0) (hg : (s.streamAt a).armedIn ≠ 0 ∨ s.guards (s.tile a.u) = []) :
    mreadN ((s.sliceLoaded a i b).tile a.u).scratch (outerAddr (s.pairAt a) b) (sliceBytes (s.descAt a)) =
      (s.sliceReached a i).1.spaceRead a.u (s.streamAt a).ctx (s.descAt a).space (outerAddr (s.descAt a) i) (sliceBytes (s.descAt a)) := by
  have hreach : Reaches a.u s (s.sliceReached a i).1 := reaches_sliceReach ..
  have hfill := fillsScratch_sliceReached s a i
  have hguards : (s.sliceReached a i).1.guards ((s.sliceReached a i).1.tile a.u) = s.guards (s.tile a.u) :=
    State.guards_congr hreach.pacing hfill.ctxs (congrArg Tile.stoker hfill.own :)
  have hcopy := State.mreadN_copySlice (s := (s.sliceReached a i).1) (a := a) a.u (s.streamAt a).ctx i b hd (hfill.pairAt ▸ hb) (hfill.pairAt ▸ ho) hf
    (by rw [hfill.streamAt, hguards]; exact hg)
  rwa [hfill.pairAt] at hcopy

end

/-- The firebox of a ring stream that starts a rotation with a slice in buffer 0. -/
def Tile.ringStarted (tl : Tile) (n slice : Nat) : Tile :=
  { tl.setStream n { tl.stream n with pos := 0, cursorPos := 0 } with ring := { active := true, s := n, step := 0, inUse := 0, slice := slice } }

theorem State.ringStarted_setWant {s : State} {t u : Nat} (h : s.unitOf t = u) (n i : Nat) (w : Option (Nat × Nat)) :
    (s.setWant u w).setLtile t (((s.setWant u w).ltile t).ringStarted n i) = s.setLtile t ((s.ltile t).ringStarted n i) := by
  subst h
  have hwant : s.setWant (s.unitOf t) w = s.setLtile t { s.ltile t with ring := { (s.ltile t).ring with want := w } } := rfl
  rw [hwant, State.ltile_setLtile, State.setLtile_setLtile]
  rfl

/-- RING on a running ring stream whose linked slots are empty and whose first slice is reached. -/
theorem State.ringWord_of_ready {s : State} {t n : Nat} (ha : (s.ltile t).ring.active = false) (h1 : ((s.ltile t).stream n).state = 1)
    (hk : sdKind ((s.ltile t).stream n).sd = 3) (hl : ∀ j ∈ (s.ltile t).linked n, ((s.ltile t).stream j).slot = none)
    (hs : ((s.ltile t).stream n).stall = false) (hr : (s.sliceReached (s.at t n) t).2 = none) (hsp : (s.pairAt (s.at t n)).space = 1) :
    let l := s.sliceLoaded (s.at t n) t 0
    s.ringWord t n = ((l.setLtile t ((l.ltile t).ringStarted n t)).linkAll t n t 0, .next 1) := by
  intro l
  have hslots : ((s.ltile t).linked n).any (fun j => ((s.ltile t).stream j).slot.isSome) = false := by
    refine List.any_eq_false.mpr fun j hj => ?_
    rw [hl j hj]
    decide
  have hunit : l.unitOf t = s.unitOf t := State.unitOf_of_tileMap (fillsScratch_sliceLoaded hsp t 0).tileMap t
  unfold State.ringWord
  dsimp only
  rw [if_neg (by rw [ha, h1, hk, hslots]; decide), State.fetchSlice_of_reached (a := s.at t n) hs hr]
  dsimp only
  rw [if_neg (by decide)]
  exact congrArg (fun m : State => (m.linkAll t n t 0, WordEnd.next 1)) (State.ringStarted_setWant hunit n t none)

theorem Tile.stream_ringStarted (tl : Tile) (n i : Nat) : (tl.ringStarted n i).stream n = { tl.stream n with pos := 0, cursorPos := 0 } :=
  tl.stream_setStream_same n _

/-- A rotation that starts: linked streams receive the entry of the slice in buffer 0. -/
theorem ringLinked_start {s l : State} {t : BitVec 8} {n : Nat} (hl : FillsScratch (s.unitOf t.toNat) s l)
    (hlink : sdRingLink ((s.ltile t.toNat).stream n).sd = false) (i : Nat) :
    RingLinked s ((l.setLtile t.toNat ((l.ltile t.toNat).ringStarted n i)).linkAll t.toNat n i 0) t n i 0 ((l.ltile t.toNat).ringStarted n i) := by
  have hst := hl.stream_ltile
  refine ringLinked_linkAll hl i 0 ?_ fun j hj => (Tile.stream_setStream_ne (l.ltile t.toNat) n _ j hj).trans (hst j)
  rw [Tile.stream_ringStarted, hst]
  exact hlink

/-! ## RING_SLICE_RECEIVE -/

/-- DESC_B of the ring stream that a station runs. -/
def State.stationPair (s : State) (v : Nat) : Desc :=
  (s.ctx ((s.tile v).stream (s.tile v).ring.s).ctx).desc (sdDescB ((s.tile v).stream (s.tile v).ring.s).sd)

/-- The slice in use at station v copied to the other half of the buffer pair of the ring stream at a place. -/
def State.sliceCopied (s : State) (a : At) (v : Nat) : State :=
  s.copySlice a v ((s.tile v).stream (s.tile v).ring.s).ctx (s.stationPair v) (s.tile v).ring.inUse (1 - (s.tile a.u).ring.inUse)

/-- The bytes in use at one station stand in the receive buffer of the next. -/
theorem State.mreadN_sliceCopied {s : State} {a : At} {v : Nat} (hd : (s.stationPair v).packedSlice = true) (hsp : (s.stationPair v).space = 1)
    (hb : (s.pairAt a).packedSlice = true) (ho : (s.pairAt a).ovl = 0) (hf : scaleBlock (s.stationPair v).fmt = 0)
    (hg : (s.streamAt a).armedIn ≠ 0 ∨ s.guards (s.tile a.u) = []) :
    mreadN ((s.sliceCopied a v).tile a.u).scratch (outerAddr (s.pairAt a) (1 - (s.tile a.u).ring.inUse)) (sliceBytes (s.stationPair v)) =
      mreadN (s.tile v).scratch (outerAddr (s.stationPair v) (s.tile v).ring.inUse) (sliceBytes (s.stationPair v)) := by
  refine (State.mreadN_copySlice v _ _ _ hd hb ho hf hg).trans ?_
  rw [hsp]
  rfl

/-- The module after station v has sent its slice: the receive buffer is full. -/
def State.sliceMoved (s : State) (a : At) (v : Nat) : State :=
  let b := (s.sliceCopied a v).tile a.u
  (s.sliceCopied a v).setTile a.u { b with ring := { b.ring with recv := some (s.tile v).ring.slice } }

/-- Stations u and v at the same step of their rings: v has not sent its slice, and the running ring stream n of u has not received it. -/
structure RingMeets (s : State) (u n v : Nat) : Prop where
  upstream : s.upstream u = some v
  works : s.works v = true
  active : (s.tile u).ring.active = true
  stream : (s.tile u).ring.s = n
  running : ((s.tile u).stream n).state = 1
  empty : (s.tile u).ring.recv = none
  step : (s.tile u).ring.step < 255
  upActive : (s.tile v).ring.active = true
  upRunning : ((s.tile v).stream (s.tile v).ring.s).state = 1
  unsent : (s.tile v).ring.sent = false
  together : (s.tile v).ring.step = (s.tile u).ring.step

theorem State.ringReceive_of_meets {s : State} {t n v : Nat} (h : RingMeets s (s.unitOf t) n v) :
    let m := s.sliceMoved (s.at t n) v
    s.ringReceive t n false = ((m.setTile v { m.tile v with ring := { (m.tile v).ring with sent := true } }).emit
      (.ringSlice t (s.tile v).ring.slice)).count (s.unitOf t) 0x36 1 := by
  obtain ⟨hup, hw, hact, hs, h1, hrecv, hstep, hupact, hup1, hsent, htog⟩ := h
  have hidle : ¬ (!s.works v || !(s.tile (s.unitOf t)).ring.active || (s.tile (s.unitOf t)).ring.s != n ||
      ((s.tile (s.unitOf t)).stream n).state != 1 || (s.tile (s.unitOf t)).ring.recv.isSome || decide (255 ≤ (s.tile (s.unitOf t)).ring.step) ||
      !(s.tile v).ring.active || ((s.tile v).stream (s.tile v).ring.s).state != 1 || (s.tile v).ring.sent ||
      (s.tile v).ring.step != (s.tile (s.unitOf t)).ring.step) = true := by
    simp [hw, hact, hs, h1, hrecv, Nat.not_le.mpr hstep, hupact, hup1, hsent, htog]
  unfold State.ringReceive
  simp only [show s.upstream (s.at t n).u = some v from hup]
  exact if_neg hidle

/-- A slice that is received fills one buffer, and changes no other firebox. -/
theorem State.sliceMoved_result {s : State} {a : At} (hsp : (s.pairAt a).space = 1) (v : Nat) :
    let m := s.sliceMoved a v
    (m.tile a.u).ring = { (s.tile a.u).ring with recv := some (s.tile v).ring.slice } ∧ (m.tile a.u).streams = (s.tile a.u).streams ∧
    (m.tile a.u).scratch = ((s.sliceCopied a v).tile a.u).scratch ∧ ∀ w, w ≠ a.u → m.tile w = s.tile w := by
  have hcopy : FillsScratch a.u s (s.sliceCopied a v) := fillsScratch_copySlice hsp ..
  have hring : ((s.sliceCopied a v).tile a.u).ring = (s.tile a.u).ring := (congrArg Tile.ring hcopy.own :)
  have hstreams : ((s.sliceCopied a v).tile a.u).streams = (s.tile a.u).streams := (congrArg Tile.streams hcopy.own :)
  have hothers : ∀ w, w ≠ a.u → (s.sliceMoved a v).tile w = s.tile w := fun w hw =>
    ((State.tile_setTile ..).trans (if_neg hw)).trans (hcopy.others w hw)
  have htile : (s.sliceMoved a v).tile a.u = { (s.sliceCopied a v).tile a.u with
      ring := { ((s.sliceCopied a v).tile a.u).ring with recv := some (s.tile v).ring.slice } } := State.tile_setTile_same ..
  dsimp only
  rw [htile, hring]
  exact ⟨rfl, hstreams, rfl, hothers⟩

/-! ## RING_STEP_END -/

/-- The firebox after a step of the ring: the buffers swapped. -/
def Tile.ringSwapped (tl : Tile) (n sl : Nat) : Tile :=
  { tl.setStream n { tl.stream n with pos := tl.ring.step + 1, cursorPos := tl.ring.step + 1 } with
    ring := { tl.ring with step := tl.ring.step + 1, inUse := 1 - tl.ring.inUse, slice := sl, recv := none, sent := false } }

theorem Tile.stream_ringSwapped (tl : Tile) (n sl : Nat) :
    (tl.ringSwapped n sl).stream n = { tl.stream n with pos := tl.ring.step + 1, cursorPos := tl.ring.step + 1 } :=
  tl.stream_setStream_same n _

theorem State.ringStepEnd_of_swap {s : State} {t n sl : Nat} (ha : (s.ltile t).ring.active = true) (hn : (s.ltile t).ring.s = n)
    (h1 : ((s.ltile t).stream n).state = 1) (hl : (s.ltile t).LinksEnded n) (h : (s.ltile t).ring.step ≠ 255) (hr : (s.ltile t).ring.recv = some sl)
    (hs : (s.ltile t).ring.sent = true) :
    s.ringStepEnd t n = (s.setLtile t ((s.ltile t).ringSwapped n sl)).linkAll t n sl (1 - (s.ltile t).ring.inUse) := by
  refine ((if_neg (Tile.ringEnds ha hn h1 hl)).trans (if_neg h)).trans ?_
  rw [hr]
  dsimp only
  rw [if_neg (by rw [hs]; decide)]
  rfl


/-! ## The obligation -/

/-- Settles O52: RING loads its slice (`State.mreadN_sliceLoaded`), a slice passes from station to station (`State.sliceMoved_result`), and at the
start and at each swap the linked streams receive their entries (`ringLinked_linkAll`). -/
theorem theWeightRing : Obligations.TheWeightRing := by
  unfold Obligations.TheWeightRing
  refine ⟨fun s t n hi => fun hah ha h1 hs hk hsp hlink hl _ hr => ?start,
    fun s t n v hw => fun hup hv hwv hsp h1 hup1 ha hn hrecv hstep hupa hsent htog => ?receive,
    fun s t n sl hw => fun ha hn h hrecv hsent h1 hl hlink => ?swap⟩
  case start =>
    have hfill := fillsScratch_sliceLoaded (a := s.at t.toNat n.toNat) hsp t.toNat 0
    have hword := State.ringWord_of_ready ha h1 hk hl hs hr hsp
    have hbytes := State.mreadN_sliceLoaded (s := s) (a := s.at t.toNat n.toNat) (i := t.toNat) 0
    have hlinked := ringLinked_start hfill hlink t.toNat
    dsimp only at hword
    generalize s.sliceLoaded (s.at t.toNat n.toNat) t.toNat 0 = l at hfill hword hbytes hlinked
    generalize (l.setLtile t.toNat ((l.ltile t.toNat).ringStarted n.toNat t.toNat)).linkAll t.toNat n.toNat t.toNat 0 = m at hword hlinked
    have hend := (streamWord_of_not_ahead hah _).trans (word_ends (f := fun s => s.ringWord t.toNat n.toNat) hi hword)
    have hsteer := hlinked.steer ((m.ltile t.toNat).stoker.ended (.next 1))
    refine ⟨_, congrArg ok hend, hsteer.ring, ?stream, fun hd hb ho hf hg => ?bytes, ?stoker, hsteer.links, hsteer.others⟩
    case stream =>
      have hstarted := (l.ltile t.toNat).stream_ringStarted n.toNat t.toNat
      rw [hfill.stream_ltile] at hstarted
      exact hsteer.stream.trans hstarted
    case bytes =>
      rw [hsteer.scratch]
      exact (congrArg (fun b : Tile => mreadN b.scratch _ _) (hfill.ltile t.toNat)).trans (hbytes hd hb ho hf hg)
    case stoker =>
      rw [hsteer.stoker, hlinked.stoker]
      exact congrArg Stoker.past hfill.stoker_ltile
  case receive =>
    have hmeets : RingMeets s (s.unitOf t.toNat) n.toNat v := ⟨hup, hwv, ha, hn, h1, hrecv, hstep, hupa, hup1, hsent, htog⟩
    obtain ⟨hring, hstreams, hscratch, hothers⟩ := State.sliceMoved_result (a := s.at t.toNat n.toNat) hsp v
    refine ⟨_, congrArg ok ((if_pos hw).trans (State.ringReceive_of_meets hmeets)), ?_⟩
    beta_reduce
    have htile : ∀ b e w, ((((s.sliceMoved (s.at t.toNat n.toNat) v).setTile v b).emit e).count (s.unitOf t.toNat) 0x36 1).tile w =
        if w = v then b else (s.sliceMoved (s.at t.toNat n.toNat) v).tile w := fun b e w =>
      ((counted_count ..).tile w).trans (State.tile_setTile ..)
    simp only [htile, if_neg hv.symm]
    rw [hothers v hv]
    refine ⟨hring, rfl, fun hd hb ho hf husp hg => ?_, rfl, hstreams, fun w hw hwv => ?_⟩
    · exact (congrArg (fun m => mreadN m _ _) hscratch).trans (State.mreadN_sliceCopied (a := s.at t.toNat n.toNat) hd husp hb ho hf hg)
    · rw [if_neg hwv]
      exact hothers w hw
  case swap =>
    have hlinked := ringLinked_linkAll (b := (s.ltile t.toNat).ringSwapped n.toNat sl) (.refl (s.unitOf t.toNat) s) sl (1 - (s.ltile t.toNat).ring.inUse)
      (k := n.toNat) (by rw [Tile.stream_ringSwapped]; exact hlink) (Tile.stream_setStream_ne _ _ _)
    obtain ⟨hown, hstream, hlinks, hothers, _⟩ := hlinked
    exact ⟨_, congrArg ok ((if_pos hw).trans (State.ringStepEnd_of_swap ha hn h1 hl h hrecv hsent)), (congrArg Tile.ring hown :),
      hstream.trans (Tile.stream_ringSwapped ..), hlinks, (congrArg Tile.scratch hown :), hothers⟩

end Sys2Proof.Machine

/-! Retraining windows (R204 to R206): a window opened and closed, and the failures in a row that take a channel out of service. -/

namespace Sys2Proof.Machine

/-! ## Host accesses tried again -/

/-- With no host access held there is nothing to try again, and no SET_WRITE that waits for one. -/
theorem State.retryHost_of_none {s : State} (h : s.mem.heldHost = []) : s.retryHost = s := by
  have hm : { s.mem with heldHost := [] } = s.mem := by rw [← h]
  simp only [State.retryHost, h, List.foldl_nil, List.flatMap_nil, List.eraseDups_nil, List.filter_nil, hm]

theorem channelOk_of {tier : Tier} {c : BitVec 8} (h : tier = .t2 → c.toNat < 16) : channelOk tier c = true := by
  cases tier with
  | t1 => rfl
  | t2 => exact decide_eq_true (h rfl)

/-! ## MODULE reports -/

/-- A MODULE report sets MOD_FLT. -/
theorem State.modFlt_moduleFault (s : State) (u : Nat) : (s.moduleFault u).modFlt = true := by
  have hr : ∀ t : State, t.react (srcId 0xE u) = t.modFault := fun t => by simp [State.react, srcId_class u (show 0xE < 16 by decide)]
  have hm : ∀ t : State, t.modFault.modFlt = true := fun t => by
    have hb : t.modFault.bar 0x20000 = t.bar 0x20000 ||| 0x2000 := (t.bar_orBar 0x20000 0x2000 0x20000).trans (if_pos rfl)
    rw [State.modFlt, State.barBit, hb, BitVec.getLsbD_or]
    simp
  calc (s.moduleFault u).modFlt = (((s.collect (srcId 0xE u) (Config.unitInfo (srcId 0xE u) s.free) false)).react (srcId 0xE u)).modFlt := rfl
    _ = true := by rw [hr, hm]

theorem State.mem_moduleFault (s : State) (u : Nat) : (s.moduleFault u).mem = s.mem := congrArg Kept.mem (s.standing_moduleFault u)

/-! ## Windows -/

theorem tget_tdel {α : Type} (d : α) (m : Table α) (k : Nat) : tget d (tdel m k) k = d := by
  rw [tdel, tget_filter d m (fun c => c != k)]
  simp

/-- What a closed window leaves: the window alone is gone. -/
theorem State.closeWindow_frame (s : State) (t c : Nat) :
    s.closeWindow t c = { s with mem := { s.mem with window1 := (s.closeWindow t c).mem.window1, window2 := (s.closeWindow t c).mem.window2 } } := by
  unfold State.closeWindow
  split
  · rfl
  · split <;> rfl

/-- The end of a window: closed, and the run of failures over. -/
def State.windowEnded (s : State) (t c : Nat) : State :=
  let s1 := s.closeWindow t c
  { s1 with mem := { s1.mem with failRuns := tdel s1.mem.failRuns (channelKey t c) } }

theorem exec_retrainWindowEnd {s : State} {tier : Tier} {c : BitVec 8} (hc : tier = .t2 → c.toNat < 16) (hh : s.mem.heldHost = []) :
    exec (.retrainWindowEnd tier c) s = .next (s.windowEnded (tierNum tier) c.toNat) := by
  have hheld : (s.windowEnded (tierNum tier) c.toNat).mem.heldHost = [] := by
    unfold State.windowEnded
    rw [s.closeWindow_frame]
    exact hh
  exact (guardPart_of_present (channelOk_of hc) _ _).trans (congrArg ok (State.retryHost_of_none hheld))

theorem State.windowEnded_frame (s : State) (t c : Nat) : s.windowEnded t c = { s with mem := (s.windowEnded t c).mem } := by
  unfold State.windowEnded
  rw [s.closeWindow_frame]

theorem State.failRuns_windowEnded (s : State) (t c : Nat) : tget 0 (s.windowEnded t c).mem.failRuns (channelKey t c) = 0 := tget_tdel ..

/-! ## Failures in a row -/

/-- A failure counted on a channel whose window is closed. -/
def State.failureCounted (s : State) (t c : Nat) : State :=
  let s1 := s.closeWindow t c
  { s1 with mem := { s1.mem with failRuns := tset s1.mem.failRuns (channelKey t c) (tget 0 s1.mem.failRuns (channelKey t c) + 1) } }

/-- The channels out of service of a tier. -/
def Mem.deadOf (m : Mem) (t : Nat) : List Nat := if t = 0 then m.dead1 else m.dead2

section
variable (s : State) (t c : Nat)

theorem State.failRuns_closeWindow : (s.closeWindow t c).mem.failRuns = s.mem.failRuns := by rw [s.closeWindow_frame]

theorem State.failureCounted_mem : (s.failureCounted t c).mem.heldHost = s.mem.heldHost ∧ (s.failureCounted t c).mem.dead1 = s.mem.dead1 ∧
    (s.failureCounted t c).mem.dead2 = s.mem.dead2 ∧
    tget 0 (s.failureCounted t c).mem.failRuns (channelKey t c) = tget 0 s.mem.failRuns (channelKey t c) + 1 := by
  refine ⟨?_, ?_, ?_, ?_⟩
  · unfold State.failureCounted; rw [s.closeWindow_frame]
  · unfold State.failureCounted; rw [s.closeWindow_frame]
  · unfold State.failureCounted; rw [s.closeWindow_frame]
  · exact (tget_tset_same ..).trans (by rw [s.failRuns_closeWindow])

/-- A channel out of service: it is listed, and neither the failures nor the held accesses are touched. -/
theorem State.channelOut_mem (h : c ∉ s.mem.deadOf t) : c ∈ (s.channelOut t c).mem.deadOf t ∧
    (s.channelOut t c).mem.heldHost = s.mem.heldHost ∧ (s.channelOut t c).mem.failRuns = s.mem.failRuns := by
  unfold State.channelOut Mem.deadOf
  by_cases ht : t = 0
  · have hn : s.mem.dead1.contains c = false := by simpa [Mem.deadOf, ht] using h
    simp only [if_pos ht, hn, Bool.false_eq_true, if_false]
    refine ⟨List.mem_append_right _ (List.mem_singleton.mpr rfl), ?_⟩
    split <;> exact ⟨rfl, rfl⟩
  · have hn : s.mem.dead2.contains c = false := by simpa [Mem.deadOf, ht] using h
    simp only [if_neg ht, hn, Bool.false_eq_true, if_false]
    exact ⟨List.mem_append_right _ (List.mem_singleton.mpr rfl), rfl, rfl⟩

end

/-- Whether a failure takes its channel out of service. -/
theorem State.retrainFailure_eq {s : State} (hh : s.mem.heldHost = []) (t c : Nat) : s.retrainFailure t c =
    if tget 0 s.mem.failRuns (channelKey t c) < 2 ∨ c ∈ s.mem.deadOf t then s.failureCounted t c
    else ((s.failureCounted t c).channelOut t c).moduleFault (if t = 0 then 0x120 + c / 32 else 0x130 + c) := by
  obtain ⟨hheld, hdead1, hdead2, -⟩ := s.failureCounted_mem t c
  have hout : (if t = 0 then (s.failureCounted t c).mem.dead1.contains c else (s.failureCounted t c).mem.dead2.contains c) = true ↔
      c ∈ s.mem.deadOf t := by
    rw [hdead1, hdead2, Mem.deadOf]
    split <;> exact List.contains_iff_mem
  have hn : tget 0 (s.closeWindow t c).mem.failRuns (channelKey t c) + 1 < 3 ↔ tget 0 s.mem.failRuns (channelKey t c) < 2 := by
    rw [s.failRuns_closeWindow]
    omega
  by_cases h : tget 0 s.mem.failRuns (channelKey t c) < 2 ∨ c ∈ s.mem.deadOf t
  · rw [if_pos h]
    exact (if_pos ((or_congr hn hout).mpr h)).trans (State.retryHost_of_none (hheld.trans hh))
  · have hn2 : c ∉ (s.failureCounted t c).mem.deadOf t := by
      unfold Mem.deadOf
      rw [hdead1, hdead2]
      exact fun hm => h (.inr hm)
    rw [if_neg h]
    exact (if_neg (fun k => h ((or_congr hn hout).mp k))).trans (congrArg (State.moduleFault · _)
      (State.retryHost_of_none (((s.failureCounted t c).channelOut_mem t c hn2).2.1.trans (hheld.trans hh))))

/-! ## The obligation -/

/-- Settles O38: with no host access held, what a window's end and a failure do is what they do to the channel alone. -/
theorem retrainingWindows : Obligations.RetrainingWindows := by
  unfold Obligations.RetrainingWindows
  refine ⟨fun s c hw hd => ⟨_, rfl, if_neg ?_⟩, fun s c hw hd => ⟨_, rfl, if_neg ?_⟩,
    fun s c hh => ⟨_, exec_retrainWindowEnd (fun h => nomatch h) hh, ?_, State.failRuns_windowEnded .., ?_, State.windowEnded_frame ..⟩,
    fun s c hc hh => ⟨_, exec_retrainWindowEnd (fun _ => hc) hh, ?_, State.failRuns_windowEnded .., ?_, State.windowEnded_frame ..⟩,
    fun s tier c hc hh => ⟨_, (guardPart_of_present (channelOk_of hc) _ _).trans (congrArg ok (State.retrainFailure_eq hh _ _)), ?_⟩⟩
  · simpa using ⟨hw, hd⟩
  · simpa [hw] using hd
  · simp [State.windowEnded, State.closeWindow, tierNum]
  · intro w hw hne
    simp [State.windowEnded, State.closeWindow, tierNum, hw, hne]
  · unfold State.windowEnded State.closeWindow
    rw [if_neg (by decide)]
    split
    · exact fun h => nomatch h
    · assumption
  · unfold State.windowEnded State.closeWindow
    rw [if_neg (by decide)]
    split <;> rfl
  · have hdead : ∀ t : State, (if tier = .t1 then t.mem.dead1 else t.mem.dead2) = t.mem.deadOf (tierNum tier) := fun t => by
      cases tier <;> rfl
    obtain ⟨-, hdead1, hdead2, hrun⟩ := s.failureCounted_mem (tierNum tier) c.toNat
    simp only [hdead]
    split
    · next h => exact ⟨hrun, fun h2 hn => absurd h (not_or.mpr ⟨Nat.not_lt.mpr h2, hn⟩), fun _ => ⟨hdead1, hdead2⟩⟩
    · next h =>
      obtain ⟨hlisted, -, hruns⟩ := (s.failureCounted (tierNum tier) c.toNat).channelOut_mem (tierNum tier) c.toNat (by
        unfold Mem.deadOf; rw [hdead1, hdead2]; exact fun hm => h (.inr hm))
      rw [State.mem_moduleFault, hruns]
      exact ⟨hrun, fun _ _ => ⟨hlisted, State.modFlt_moduleFault ..⟩, fun hlt => absurd (.inl hlt) h⟩

end Sys2Proof.Machine

/-! Contents of the tiers (R184, R187, R198, R199): a tier read back after a write of it, and what such a write leaves as it is. -/

namespace Sys2Proof.Machine

/-- Whether a tier has contents to write: the cartridge's are those of the one in the bay. -/
def State.hasTier (s : State) (k : Nat) : Prop := k < 2 ∨ s.ember.cart.isSome = true

section
variable (s : State) (k : Nat) (m : Memory)

/-- A tier replaced: nothing but contents changes. -/
theorem State.setTierMem_frame : s.setTierMem k m =
    { s with mem := { s.mem with tier1 := (s.setTierMem k m).mem.tier1, tier2 := (s.setTierMem k m).mem.tier2 }
             ember := { s.ember with cart := (s.setTierMem k m).ember.cart } } := by
  unfold State.setTierMem
  split
  · rfl
  · split
    · rfl
    · split <;> rfl

/-- Tiers 1 and 2 lie outside the cartridge. -/
theorem State.setTierMem_of_lt (h : k < 2) : s.setTierMem k m =
    { s with mem := { s.mem with tier1 := if k = 0 then m else s.mem.tier1, tier2 := if k = 0 then s.mem.tier2 else m } } := by
  unfold State.setTierMem
  by_cases h0 : k = 0
  · simp only [if_pos h0]
  · simp only [if_neg h0, if_pos (show k = 1 by omega)]

theorem State.tierMem_setTierMem (h : s.hasTier k) : (s.setTierMem k m).tierMem k = m := by
  unfold State.setTierMem State.tierMem
  by_cases h0 : k = 0
  · simp only [if_pos h0]
  · by_cases h1 : k = 1
    · simp only [if_neg h0, if_pos h1]
    · obtain ⟨c, hc⟩ := Option.isSome_iff_exists.mp (h.resolve_left (by omega))
      simp only [if_neg h0, if_neg h1, hc]

/-- Another tier: tier numbers from 2 on name the cartridge. -/
theorem State.tierMem_setTierMem_ne {n : Nat} (h : n ≠ k) (hn : n < 3) (hk : k < 3) : (s.setTierMem k m).tierMem n = s.tierMem n := by
  unfold State.setTierMem
  by_cases h0 : k = 0
  · simp only [if_pos h0, State.tierMem, if_neg (show n ≠ 0 by omega)]
  · by_cases h1 : k = 1
    · simp only [if_neg h0, if_pos h1, State.tierMem, if_neg (show n ≠ 1 by omega)]
    · simp only [if_neg h0, if_neg h1]
      split
      · have hn2 : n = 0 ∨ n = 1 := by omega
        rcases hn2 with rfl | rfl <;> rfl
      · rfl

end

/-! ## Poisoned lines (R199) -/

/-- What a poisoned line changes: the marks, and in a PERSIST page of the running job the job's end. -/
theorem State.poisonLine_frame (s : State) (tier f line : Nat) : s.poisonLine tier f line =
    { s with mem := { s.mem with poison := (s.poisonLine tier f line).mem.poison }, sched := (s.poisonLine tier f line).sched } := by
  unfold State.poisonLine
  by_cases h : s.holdsPersist tier f = true
  · simp only [if_pos h]
    split <;> rfl
  · simp only [if_neg h]
    split <;> rfl

theorem State.mem_poisonLine (s : State) (tier f line : Nat) : (tier, f * 1024 + line) ∈ (s.poisonLine tier f line).mem.poison := by
  unfold State.poisonLine
  extract_lets t
  split
  · next h => exact List.contains_iff_mem.mp h
  · exact List.mem_append_right _ (List.mem_singleton.mpr rfl)

end Sys2Proof.Machine

/-! Background duties and factory test mode (R198, R340, R345, R349): the self-test of a spare, a sensor's record, and the chosen bits that
CELL_LEVEL_INJECTION puts into a word, as the code of the word's store lets them be seen. -/

namespace Sys2Proof.Machine

/-! ## Bytes of a chosen word -/

/-- Eight bytes of a memory of a firebox that take a number's bytes, unless the firebox stays as it is. -/
theorem mread_word (p : Tile → Memory) (one : Prop) [Decidable one] {b c : Tile} {a v : Nat} (h : p c = mwrite (p b) a (leBytes 8 v)) (x : Nat) :
    mread (p (if one then b else c)) x =
      if ¬ one ∧ a ≤ x ∧ x < a + 8 then BitVec.ofNat 8 (v / 256 ^ (x - a)) else mread (p b) x := by
  by_cases ho : one
  · rw [if_pos ho, if_neg (fun h => h.1 ho)]
  · rw [if_neg ho, h, mread_mwrite, leBytes_length]
    by_cases hx : a ≤ x ∧ x < a + 8
    · rw [if_pos hx, if_pos ⟨ho, hx⟩, getD_leBytes 8 v (by omega)]
    · rw [if_neg hx, if_neg (fun h => hx h.2)]

/-! ## One firebox of the module -/

/-- A state whose firebox in a slot is b, and which differs from another in that slot alone. -/
structure TileSet (s t : State) (u : Nat) (b : Tile) : Prop where
  tile : t.tile u = b
  others : ∀ w, w ≠ u → t.tile w = s.tile w
  stuck : t.flt.stuck = s.flt.stuck

theorem TileSet.refl (s : State) (u : Nat) : TileSet s s u (s.tile u) := ⟨rfl, fun _ _ => rfl, rfl⟩

theorem tileSet_setTile (s : State) (u : Nat) (b : Tile) : TileSet s (s.setTile u b) u b :=
  ⟨s.tile_setTile_same u b, fun _ hw => (s.tile_setTile ..).trans (if_neg hw), rfl⟩

/-- A node held stuck is recorded, and nothing else follows from it. -/
theorem TileSet.stick {s t : State} {u : Nat} {b : Tile} (h : TileSet s t u b) (hold : Bool) (kind place : Nat) (bits : W64) :
    (if hold then t.stick kind place bits else t).tile u = b ∧ (∀ w, w ≠ u → (if hold then t.stick kind place bits else t).tile w = s.tile w) ∧
      (hold = true → ∃ p, (if hold then t.stick kind place bits else t).flt.stuck = s.flt.stuck ++ [(kind, p, bits)]) := by
  cases hold with
  | false => exact ⟨h.tile, h.others, fun hf => nomatch hf⟩
  | true => exact ⟨h.tile, h.others, fun _ => ⟨place, congrArg (· ++ [(kind, place, bits)]) h.stuck⟩⟩

/-! ## Words of an SRAM store (Table 08-3) -/

theorem tileSet_injectSram {s : State} {target : InjectTarget} {bits : W64} {u : Nat} {b : Tile} (h : s.setCell bits target = s.setTile u b) :
    TileSet s (s.injectSram target bits) u (if bitsApart (s.cellWord target) bits = 1 then s.tile u else b) := by
  unfold State.injectSram
  split
  · exact .refl s u
  · rw [h]
    exact tileSet_setTile s u b

theorem exec_cellLevelInjection {s : State} (hf : s.factory = true) {target : InjectTarget} {u : Nat} (hu : u < 272)
    (h : targetUnit target = some u ∨ targetUnit target = none) (bits : W64) (hold : Bool) :
    exec (.cellLevelInjection target bits hold) s = .next (s.inject target bits hold) := by
  have hall : (targetUnit target).all unitOk = true := by
    rcases h with h | h
    · rw [h]; exact decide_eq_true hu
    · rw [h]; rfl
  exact (guardPart_of_present hall _ _).trans (congrArg ok (if_pos hf))

section
variable {s : State} {u : Nat} (hu : u < 272) (hf : s.factory = true) (bits : W64) (hold : Bool)
include hu hf

theorem answers_injectScratch {a : Nat} (ha : a < 3 * 2 ^ 20) : Answers (.cellLevelInjection (.scratch u a) bits hold) s (fun t =>
    let one := bitsApart (BitVec.ofNat 64 (leNat (mreadN (s.tile u).scratch (a / 8 * 8) 8))) bits = 1
    (∀ x, mread (t.tile u).scratch x = if ¬ one ∧ a / 8 * 8 ≤ x ∧ x < a / 8 * 8 + 8
      then BitVec.ofNat 8 (bits.toNat / 256 ^ (x - a / 8 * 8)) else mread (s.tile u).scratch x) ∧ (t.tile u).vregs = (s.tile u).vregs ∧
    (hold = true → ∃ p, t.flt.stuck = s.flt.stuck ++ [(0, p, bits)]) ∧ ∀ w, w ≠ u → t.tile w = s.tile w) := by
  have hset : s.setCell bits (.scratch u a) = s.setTile u { s.tile u with scratch := mwrite (s.tile u).scratch (a / 8 * 8) (leBytes 8 bits.toNat) } :=
    if_pos ha
  obtain ⟨htile, hothers, hstuck⟩ := (tileSet_injectSram hset).stick hold 0 (u * 2 ^ 22 + a % 2 ^ 22) bits
  refine ⟨_, exec_cellLevelInjection hf hu (.inl rfl) bits hold, fun x => ?_, ?_, hstuck, hothers⟩
  · exact (congrArg (fun b : Tile => mread b.scratch x) htile).trans (mread_word Tile.scratch _ rfl x)
  · exact (congrArg Tile.vregs htile).trans ((apply_ite Tile.vregs ..).trans (ite_self _))

theorem answers_injectVectorReg {a : Nat} (ha : a < 2 ^ 16) : Answers (.cellLevelInjection (.vectorReg u a) bits hold) s (fun t =>
    let one := bitsApart (BitVec.ofNat 64 (leNat (mreadN (s.tile u).vregs (a / 8 * 8) 8))) bits = 1
    (∀ x, mread (t.tile u).vregs x = if ¬ one ∧ a / 8 * 8 ≤ x ∧ x < a / 8 * 8 + 8
      then BitVec.ofNat 8 (bits.toNat / 256 ^ (x - a / 8 * 8)) else mread (s.tile u).vregs x) ∧
    (t.tile u).scratch = (s.tile u).scratch ∧ ∀ w, w ≠ u → t.tile w = s.tile w) := by
  have hset : s.setCell bits (.vectorReg u a) =
      s.setTile u { s.tile u with vregs := mwrite (s.tile u).vregs (a / 8 * 8) (leBytes 8 bits.toNat) } := by
    rw [State.setCell, Nat.mod_eq_of_lt ha]
  have hword : s.cellWord (.vectorReg u a) = BitVec.ofNat 64 (leNat (mreadN (s.tile u).vregs (a / 8 * 8) 8)) := by
    rw [State.cellWord, Nat.mod_eq_of_lt ha]
  obtain ⟨htile, hothers, -⟩ := (tileSet_injectSram hset).stick hold 1 (u * 2 ^ 22 + a % 2 ^ 16) bits
  rw [hword] at htile
  refine ⟨_, exec_cellLevelInjection hf hu (.inl rfl) bits hold, fun x => ?_, ?_, hothers⟩
  · exact (congrArg (fun b : Tile => mread b.vregs x) htile).trans (mread_word Tile.vregs _ rfl x)
  · exact (congrArg Tile.scratch htile).trans ((apply_ite Tile.scratch ..).trans (ite_self _))

theorem answers_injectScalarReg {r : BitVec 4} (hr : r ≠ 0) : Answers (.cellLevelInjection (.scalarReg u r) bits hold) s (fun t =>
    let one := bitsApart (((s.tile u).xget r.toNat).setWidth 64) bits = 1
    (∀ k, (t.tile u).xget k = if ¬ one ∧ k % 16 = r.toNat then bits.setWidth 32 else (s.tile u).xget k) ∧
    ∀ w, w ≠ u → t.tile w = s.tile w) := by
  have hlt := r.isLt
  have h0 : r.toNat ≠ 0 := fun h => hr (BitVec.eq_of_toNat_eq h)
  have hxset : { s.tile u with x := tset (s.tile u).x r.toNat (bits.setWidth 32) } = (s.tile u).xset r.toNat (bits.setWidth 32) := by
    rw [Tile.xset, Nat.mod_eq_of_lt hlt, if_neg h0]
  have hxget : (s.tile u).xget r.toNat = tget 0 (s.tile u).x r.toNat := by
    rw [Tile.xget, Nat.mod_eq_of_lt hlt, if_neg h0]
  have hset : s.setCell bits (.scalarReg u r) = s.setTile u ((s.tile u).xset r.toNat (bits.setWidth 32)) := congrArg (s.setTile u) hxset
  obtain ⟨htile, hothers, -⟩ := (tileSet_injectSram hset).stick hold 2 (u * 2 ^ 22 + r.toNat) bits
  simp only [State.cellWord, ← hxget] at htile
  refine ⟨_, exec_cellLevelInjection hf hu (.inl rfl) bits hold, fun k => (congrArg (Tile.xget · k) htile).trans ?_, hothers⟩
  split
  · next ho => rw [if_neg (fun h => h.1 ho)]
  · next ho =>
    rw [Tile.xget_xset, Nat.mod_eq_of_lt hlt]
    exact if_congr ⟨fun h => ⟨ho, h.2⟩, fun h => ⟨by omega, h.2⟩⟩ rfl rfl

end

/-! ## Words of a tier 1 or tier 2 line -/

theorem toNat_tierNum (tier : Tier) : (BitVec.ofNat 1 (tierNum tier)).toNat = tierNum tier := by
  cases tier <;> rfl

theorem tierNum_lt (tier : Tier) : tierNum tier < 2 := by
  cases tier <;> decide

section
variable (s : State) {k f w : Nat} (bits : W64)

/-- As many wrong symbols as the line's code corrects. -/
theorem State.injectTier_of_corrected (h : symbolsApart (BitVec.ofNat 64 (leNat (mreadN (s.tierMem k) (f * 65536 + 8 * w) 8))) bits ≤ 1 + k) :
    s.injectTier k f w bits = s :=
  if_pos (.inr h)

variable (hf : f < bankFrames k * banksOf k)
include hf

/-- As many as it detects. -/
theorem State.injectTier_of_detected (h : 1 + k < symbolsApart (BitVec.ofNat 64 (leNat (mreadN (s.tierMem k) (f * 65536 + 8 * w) 8))) bits)
    (h3 : symbolsApart (BitVec.ofNat 64 (leNat (mreadN (s.tierMem k) (f * 65536 + 8 * w) 8))) bits ≤ 3 * (1 + k)) :
    s.injectTier k f w bits = s.poisonLine k f (w / 8) :=
  (if_neg (by rw [not_or]; exact ⟨Nat.not_le.mpr hf, Nat.not_le.mpr h⟩)).trans (if_pos h3)

/-- More than it detects. -/
theorem State.injectTier_of_missed (h : 3 * (1 + k) < symbolsApart (BitVec.ofNat 64 (leNat (mreadN (s.tierMem k) (f * 65536 + 8 * w) 8))) bits) :
    s.injectTier k f w bits = s.setTierMem k (mwrite (s.tierMem k) (f * 65536 + 8 * w) (leBytes 8 bits.toNat)) :=
  (if_neg (by rw [not_or]; exact ⟨Nat.not_le.mpr hf, Nat.not_le.mpr (by unfold pageBytes; omega)⟩)).trans (if_neg (Nat.not_le.mpr h))

end

theorem answers_injectTier {s : State} (hf : s.factory = true) (bits : W64) (hold : Bool) (tier : Tier) (f : Nat) (w : BitVec 13)
    (hok : frameOk tier f = true) :
    Answers (.cellLevelInjection (.tierWord (BitVec.ofNat 1 (tierNum tier)) f w) bits hold) s (fun t =>
      let k := tierNum tier
      let a := f * 65536 + 8 * w.toNat
      let n := symbolsApart (BitVec.ofNat 64 (leNat (mreadN (s.tierMem k) a 8))) bits
      t.tiles = s.tiles ∧ (n ≤ 1 + k → t.tierMem k = s.tierMem k ∧ t.mem.poison = s.mem.poison) ∧
      (1 + k < n → n ≤ 3 * (1 + k) → t.tierMem k = s.tierMem k ∧ (k, f * 1024 + w.toNat / 8) ∈ t.mem.poison) ∧
      (3 * (1 + k) < n → t.mem.poison = s.mem.poison ∧ ∀ x, mread (t.tierMem k) x =
        if a ≤ x ∧ x < a + 8 then BitVec.ofNat 8 (bits.toNat / 256 ^ (x - a)) else mread (s.tierMem k) x)) := by
  have hlt : f < bankFrames (tierNum tier) * banksOf (tierNum tier) := of_decide_eq_true hok
  refine ⟨_, exec_cellLevelInjection hf (show 0 < 272 by decide) (.inr rfl) bits hold, ?_⟩
  beta_reduce
  intro k a n
  have hcell : ∃ r : State, s.inject (.tierWord (BitVec.ofNat 1 (tierNum tier)) f w) bits hold =
      { s.injectTier k f w.toNat bits with flt := r.flt } := by
    refine ⟨s.inject (.tierWord (BitVec.ofNat 1 (tierNum tier)) f w) bits hold, ?_⟩
    simp only [State.inject, toNat_tierNum]
    cases hold <;> rfl
  obtain ⟨r, hr⟩ := hcell
  rw [hr]
  have htier : ∀ t : State, ({ t with flt := r.flt } : State).tierMem k = t.tierMem k := fun _ => rfl
  rw [htier]
  dsimp only
  refine ⟨?_, fun h => ?_, fun h h3 => ?_, fun h => ?_⟩
  · rcases Nat.lt_or_ge (1 + k) n with h | h
    · rcases Nat.lt_or_ge (3 * (1 + k)) n with h3 | h3
      · rw [s.injectTier_of_missed bits hlt h3, s.tiles_setTierMem]
      · rw [s.injectTier_of_detected bits hlt h h3, s.poisonLine_frame]
    · rw [s.injectTier_of_corrected bits h]
  · rw [s.injectTier_of_corrected bits h]
    exact ⟨rfl, rfl⟩
  · rw [s.injectTier_of_detected bits hlt h h3]
    exact ⟨by rw [s.poisonLine_frame]; rfl, s.mem_poisonLine ..⟩
  · rw [s.injectTier_of_missed bits hlt h, s.tierMem_setTierMem _ _ (.inl (tierNum_lt tier))]
    refine ⟨by rw [s.setTierMem_frame], fun x => ?_⟩
    rw [mread_mwrite, leBytes_length]
    split
    · next hx => exact getD_leBytes 8 _ (by omega)
    · rfl

/-! ## Spares and sensors -/

theorem answers_spareSelfTest {s : State} {u : Nat} (hu : u < 272) (hn : s.tileOf u = none) (passed : Bool) :
    Answers (.spareSelfTest u passed) s (fun t => (t.tile u).testOk = passed ∧ (t.tile u).suspect = ((s.tile u).suspect || !passed) ∧
      ∀ w, w ≠ u → t.tile w = s.tile w) := by
  refine ⟨_, (guardPart_of_present (show unitOk u = true from decide_eq_true hu) _ _).trans (congrArg ok (if_neg (by rw [hn]; decide))), ?_⟩
  cases passed with
  | true =>
    obtain ⟨htile, hothers, -⟩ := tileSet_setTile s u { s.tile u with testOk := true }
    exact ⟨congrArg Tile.testOk htile, (congrArg Tile.suspect htile).trans (Bool.or_false _).symm, hothers⟩
  | false =>
    let s1 := s.setTile u { s.tile u with testOk := false }
    have h1 : s1.tile u = { s.tile u with testOk := false } := s.tile_setTile_same ..
    have hmark : ∀ w, (s1.markSuspect u).tile w = (s1.setTile u { s1.tile u with suspect := true }).tile w := fun w => by
      unfold State.markSuspect
      extract_lets s2
      split <;> rfl
    have htile : (s1.markSuspect u).tile u = { s.tile u with testOk := false, suspect := true } :=
      (hmark u).trans ((s1.tile_setTile_same ..).trans (by rw [h1]))
    refine ⟨congrArg Tile.testOk htile, (congrArg Tile.suspect htile).trans (Bool.or_true _).symm, fun w hw => ?_⟩
    exact (hmark w).trans ((s1.tile_setTile ..).trans ((if_neg hw).trans ((s.tile_setTile ..).trans (if_neg hw))))

theorem answers_sensorCalibration (s : State) (die : BitVec 2) (sensor : Nat) : Answers (.sensorCalibration die sensor) s (fun t =>
    (die.toNat, sensor) ∈ t.flt.calibrated ∧ (∀ p ∈ s.flt.calibrated, p ∈ t.flt.calibrated) ∧ t.bar0 = s.bar0 ∧ t.tiles = s.tiles) := by
  by_cases h : s.flt.calibrated.contains (die.toNat, sensor) = true
  · exact ⟨_, congrArg ok (if_pos h), List.contains_iff_mem.mp h, fun _ hp => hp, rfl, rfl⟩
  · exact ⟨_, congrArg ok (if_neg h), List.mem_append_right _ (List.mem_singleton.mpr rfl), fun _ hp => List.mem_append_left _ hp, rfl, rfl⟩

theorem answers_factoryUnlock {s : State} (h1 : 1 ≤ s.pwr.stage) (h8 : s.pwr.stage < 8) : Answers .factoryUnlock s (fun t =>
    t.barBit 0x20000 15 = true ∧ (∀ o, o ≠ 0x20000 → t.bar o = s.bar o) ∧ t = { s with bar0 := t.bar0 }) := by
  refine ⟨_, congrArg ok (if_pos ⟨h1, h8⟩), ?_, fun o ho => (s.bar_orBar ..).trans (if_neg ho), rfl⟩
  rw [State.barBit, State.bar_orBar, if_pos rfl, BitVec.getLsbD_or]
  simp

/-! ## The obligation -/

/-- Settles O34: each target's word takes the bits as the code of its store lets them be seen (`tileSet_injectSram`,
`answers_injectTier`). -/
theorem sparesSensorsAndFactory : Obligations.SparesSensorsAndFactory := by
  unfold Obligations.SparesSensorsAndFactory
  refine ⟨fun s u passed hu hn => answers_spareSelfTest hu hn passed, answers_sensorCalibration, fun s h1 h8 => answers_factoryUnlock h1 h8,
    fun s u bits hold hu hf => ⟨fun a ha => answers_injectScratch hu hf bits hold ha, fun a ha => answers_injectVectorReg hu hf bits hold ha,
      fun r hr => answers_injectScalarReg hu hf bits hold hr, answers_injectTier hf bits hold,
      fun w => ⟨_, exec_cellLevelInjection hf hu (.inl rfl) bits hold, _, rfl⟩,
      fun n => ⟨_, exec_cellLevelInjection hf hu (.inl rfl) bits hold, _, rfl⟩⟩⟩

end Sys2Proof.Machine

/-! Sends and pair states (R266, R270, R290 to R295): each of them changes the network state alone, beside what leaves the module and what is
counted (`NetOnly`). -/

namespace Sys2Proof.Machine

/-! ## Parts of the network state -/

theorem netOnly_setPeer (s : State) (d : Nat) (p : Peer) : NetOnly s (s.setPeer d p) := rfl

theorem netOnly_setIo (s : State) (o : Nat) (v : W32) : NetOnly s (s.setIo o v) := rfl

theorem NetOnly.ite {s a b : State} {p : Prop} [Decidable p] (ha : NetOnly s a) (hb : NetOnly s b) : NetOnly s (if p then a else b) := by
  split
  · exact ha
  · exact hb

theorem netOnly_count (s : State) (b e n : Nat) : NetOnly s (s.count b e n) := .of_kept (State.kept_of_standing (s.standing_count b e n))

theorem netOnly_sendOut (s : State) (ch : Nat) (o : Out) : NetOnly s (s.sendOut ch o) := .of_kept (s.kept_sendOut ch o)

/-! ## Frames and packets that wait -/

theorem netOnly_release (s : State) : NetOnly s s.release := by
  refine .trans (.trans (t := { s with net := { s.net with waitOut := [] } }) rfl (.foldl _ (fun t q => ?frame) _ _))
    (.trans (t := _) rfl (.foldl _ (fun t q => ?packet) _ _))
  case frame => exact .ite (netOnly_sendOut ..) rfl
  case packet => exact .ite (netOnly_sendOut ..) rfl

theorem netOnly_askAll (s : State) : NetOnly s s.askAll := by
  exact .foldl _ (fun t ch => .ite (.of_kept (t.kept_askGateway ch)) rfl) _ _

theorem netOnly_moveWaiting (s : State) (p : Nat) (pick : Frame → Bool) : NetOnly s (s.moveWaiting p pick) :=
  .trans (t := { s with net := { s.net with waitOut := s.net.waitOut.filter (fun q => !(q.1 == p && pick q.2)) } }) rfl
    (.foldl _ (fun t _ => netOnly_putFrame t _ _) _ _)

/-! ## Reliable frames (R290 to R292) -/

theorem netOnly_transmit (s : State) (d ch : Nat) (t : TxFrame) : NetOnly s (s.transmit d ch t) := by
  have hsent : ∀ p f, NetOnly s (((s.setPeer d p).putFrame ch f).count 0x152 (0x11E + t.typ) 1) := fun p f =>
    (netOnly_setPeer s d p).trans ((netOnly_putFrame ..).trans (netOnly_count ..))
  exact .ite ((hsent _ _).trans ((netOnly_setIo ..).trans (netOnly_count ..))) (hsent _ _)

theorem netOnly_tryTransmit (s : State) (d : Nat) (t : TxFrame) : NetOnly s (s.tryTransmit d t) := by
  refine .ite (.refl s) ?_
  split
  · exact .refl s
  · exact .ite (.refl s) (netOnly_transmit ..)

theorem netOnly_pumpSome (s : State) (d : Nat) (again : Bool) : NetOnly s (s.pumpSome d again) :=
  .foldl _ (fun t f => netOnly_tryTransmit t d f) _ _

theorem netOnly_pump (s : State) (d : Nat) : NetOnly s (s.pump d) := (netOnly_pumpSome ..).trans (netOnly_pumpSome ..)

theorem netOnly_pumpAll (s : State) : NetOnly s s.pumpAll :=
  NetOnly.trans (.foldl _ (fun t d => netOnly_pumpSome t d true) _ _) (.foldl _ (fun t d => netOnly_pumpSome t d false) _ _)

theorem netOnly_sendRel (s : State) (d typ epoch : Nat) (l : List Byte) : NetOnly s (s.sendRel d typ epoch l) :=
  (netOnly_setPeer ..).trans (netOnly_pump ..)

theorem netOnly_resetPair (s : State) (d : Nat) : NetOnly s (s.resetPair d) :=
  .trans (t := s.resetWaiting d) rfl ((netOnly_setPeer ..).trans ((netOnly_setIo ..).trans (netOnly_pump ..)))

/-! ## Chimneys -/

theorem netOnly_reportCorr (s : State) (u : Nat) (n : W32) : NetOnly s (s.reportCorr u n) := by
  rw [State.reportCorr, State.report_corr]
  exact .of_kept (State.kept_of_standing (s.standing_collect ..))

theorem netOnly_unsend (s : State) (f : Nat → TxFrame → Bool) : NetOnly s (s.unsend f) := rfl

theorem netOnly_failChimney (s : State) (p : Nat) : NetOnly s (s.failChimney p) := by
  unfold State.failChimney
  refine .ite (.refl s) ?_
  extract_lets s1 s2
  have hdown : NetOnly s s2 := rfl
  exact ((((hdown.trans (netOnly_reportCorr s2 _ _)).trans (netOnly_moveWaiting _ _ _)).trans (netOnly_unsend _ _)).trans
    (netOnly_pumpAll _)).trans (netOnly_release _)

end Sys2Proof.Machine

/-! Settings, keys and information pages (R212, R216, R229, R296, R365 to R375): the settings after a list of entries, what a written setting
shows at once, the store, and the commands' replies. -/

namespace Sys2Proof.Machine

/-! ## Settings read back -/

theorem tfind_tset {α : Type} (m : Table α) (k j : Nat) (v : α) : tfind (tset m k v) j = if j = k then some v else tfind m j := by
  induction m with
  | nil => simp only [tset, tfind, eq_comm]
  | cons c r ih =>
    obtain ⟨i, w⟩ := c
    simp only [tset]
    split
    · next h => subst h; simp only [tfind, eq_comm]; split <;> rfl
    · split
      · simp only [tfind, eq_comm]
      · next h _ =>
        simp only [tfind, ih]
        by_cases hj : i = j
        · rw [if_pos hj, if_pos hj, if_neg (by omega)]
        · rw [if_neg hj, if_neg hj]

theorem tfind_tdel {α : Type} (m : Table α) (k j : Nat) : tfind (tdel m k) j = if j = k then none else tfind m j := by
  induction m with
  | nil => exact (ite_self _).symm
  | cons c r ih =>
    obtain ⟨i, w⟩ := c
    have hcons : tdel ((i, w) :: r) k = if i = k then tdel r k else (i, w) :: tdel r k := by
      by_cases h : i = k <;> simp [tdel, h]
    rw [hcons]
    by_cases h : i = k
    · rw [if_pos h, ih]
      by_cases hj : j = k
      · rw [if_pos hj, if_pos hj]
      · rw [if_neg hj, if_neg hj, tfind, if_neg (by omega)]
    · rw [if_neg h]
      simp only [tfind, ih]
      by_cases hj : i = j
      · rw [if_pos hj, if_pos hj, if_neg (by omega)]
      · rw [if_neg hj, if_neg hj]

theorem State.settingOpt_putSetting (s : State) (id : Nat) (v : W64) (j : Nat) :
    (s.putSetting id v).settingOpt j = if j = id then some v.toNat else s.settingOpt j := by
  unfold State.settingOpt
  rw [State.putSetting_ctl, tfind_tset]
  by_cases h : j = id
  · rw [if_pos h, if_pos h]
  · rw [if_neg h, if_neg h]

/-- The settings alone give the values in force. -/
theorem State.settingOpt_congr {s t : State} (h : t.ctl.settings = s.ctl.settings) (id : Nat) : t.settingOpt id = s.settingOpt id := by
  unfold State.settingOpt
  rw [h]

/-! ## Entries -/

theorem State.withEntries_entryNats (s : State) (es : List (BitVec 16 × BitVec 64)) :
    s.withEntries (entryNats es) = es.foldl (fun t e => t.putSetting e.1.toNat e.2) s := by
  rw [State.withEntries, entryNats, List.foldl_map]
  simp only [BitVec.ofNat_toNat, BitVec.setWidth_eq]

theorem State.withEntries_frame (s : State) (es : List (Nat × Nat)) :
    s.withEntries es = { s with ctl := { s.ctl with settings := (s.withEntries es).ctl.settings } } := by
  unfold State.withEntries
  induction es generalizing s with
  | nil => rfl
  | cons e r ih => exact ih (s.putSetting e.1 (BitVec.ofNat 64 e.2))

/-- Of several entries for one item the last counts (R374). -/
theorem settingsTaken_withEntries (s : State) (es : List (BitVec 16 × BitVec 64)) : SettingsTaken s (s.withEntries (entryNats es)) es := by
  rw [State.withEntries_entryNats]
  induction es generalizing s with
  | nil => exact fun id => rfl
  | cons e r ih =>
    intro id
    rw [List.reverse_cons, List.find?_append, List.foldl_cons]
    refine (ih (s.putSetting e.1.toNat e.2) id).trans ?_
    cases r.reverse.find? (fun e => e.1.toNat == id) with
    | some x => rfl
    | none =>
      rw [Option.none_or, State.settingOpt_putSetting]
      by_cases h : id = e.1.toNat
      · rw [if_pos h, List.find?_cons_of_pos (p := fun e : BitVec 16 × BitVec 64 => e.1.toNat == id) (beq_iff_eq.mpr h.symm)]
      · rw [if_neg h, List.find?_cons_of_neg (p := fun e : BitVec 16 × BitVec 64 => e.1.toNat == id) (by simpa using Ne.symm h), List.find?_nil]

theorem SettingsTaken.congr {s t r : State} {es : List (BitVec 16 × BitVec 64)} (h : SettingsTaken s t es)
    (hr : r.ctl.settings = t.ctl.settings) : SettingsTaken s r es := fun id => (State.settingOpt_congr hr id).trans (h id)

/-- The entries as the command gave them. -/
theorem ofNat_entryNats (es : List (BitVec 16 × BitVec 64)) :
    (entryNats es).map (fun e => (BitVec.ofNat 16 e.1, BitVec.ofNat 64 e.2)) = es := by
  simp [entryNats, Function.comp_def]

/-! ## What a written setting shows at once (Table 14-12) -/

/-- A state that differs from another in what DAMP_STATUS and FLT_STATUS show, the levels on their way, and what is sent. -/
def OnlyShown (s t : State) : Prop :=
  t = { s with clk := t.clk, bar0 := t.bar0, out := t.out, free := t.free, obs := t.obs, ctl := { s.ctl with held := t.ctl.held } }

theorem OnlyShown.refl (s : State) : OnlyShown s s := rfl

theorem OnlyShown.trans {s t r : State} (h : OnlyShown s t) (k : OnlyShown t r) : OnlyShown s r := by
  unfold OnlyShown at *
  rw [k, h]

theorem OnlyShown.of_counted {s t : State} (h : Counted s t) : OnlyShown s t := by
  have hr := h.rest
  unfold OnlyShown
  rw [hr]

theorem onlyShown_showDamper (s : State) : OnlyShown s s.showDamper := by
  unfold State.showDamper
  extract_lets n s1
  have h1 : OnlyShown s s1 := rfl
  split
  · exact h1
  · exact h1.trans rfl

theorem onlyShown_fastWritten (s : State) (v : Nat) : OnlyShown s (s.fastWritten v) := by
  unfold State.fastWritten
  extract_lets s1
  have h1 : OnlyShown s s1 := rfl
  split
  · exact h1.trans (.trans (t := { s1 with clk := { s1.clk with fastLevel := v } }) rfl (onlyShown_showDamper _))
  · exact h1

theorem onlyShown_settingWritten (s : State) (k : Slot) (busy : Bool) (e : Nat × Nat) : OnlyShown s (s.settingWritten k busy e) := by
  unfold State.settingWritten
  split
  · exact onlyShown_fastWritten ..
  · split
    · exact .trans (t := s.orBar 0x20000 2) rfl (.of_counted (counted_cause ..))
    · exact .refl s

theorem onlyShown_foldl {α : Type} {f : State → α → State} (h : ∀ s a, OnlyShown s (f s a)) (l : List α) (s : State) :
    OnlyShown s (l.foldl f s) := by
  induction l generalizing s with
  | nil => exact .refl s
  | cons a r ih => exact (h s a).trans (ih _)

/-! ## SET_WRITE -/

/-- The entries in force, and what they show at once. -/
def State.entriesShown (s : State) (k : Slot) (es : List (Nat × Nat)) (busy : Bool) : State :=
  (lastEntries es).foldl (fun s e => s.settingWritten k busy e) (s.withEntries es)

/-- What entries in force leave as it is. -/
structure EntriesTaken (s t : State) (es : List (BitVec 16 × BitVec 64)) : Prop where
  taken : SettingsTaken s t es
  tiles : t.tiles = s.tiles
  mem : t.mem = s.mem
  ctxs : t.ctxs = s.ctxs
  results : t.ctl.results = s.ctl.results

theorem entriesTaken_entriesShown (s : State) (k : Slot) (es : List (BitVec 16 × BitVec 64)) (busy : Bool) :
    EntriesTaken s (s.entriesShown k (entryNats es) busy) es := by
  have h : OnlyShown (s.withEntries (entryNats es)) (s.entriesShown k (entryNats es) busy) :=
    onlyShown_foldl (fun s e => onlyShown_settingWritten s k busy e) _ _
  have hs : (s.entriesShown k (entryNats es) busy).ctl.settings = (s.withEntries (entryNats es)).ctl.settings := by rw [h]
  exact ⟨(settingsTaken_withEntries s es).congr hs, by rw [h, s.withEntries_frame], by rw [h, s.withEntries_frame],
    by rw [h, s.withEntries_frame], by rw [h, s.withEntries_frame]⟩

/-- A reply OK leaves all but the slot's own. -/
theorem EntriesTaken.ok {s t : State} {es : List (BitVec 16 × BitVec 64)} (h : EntriesTaken s t es) (k : Slot) :
    (t.ok k).outcome k = some { status := 0 } ∧ SettingsTaken s (t.ok k) es ∧ (t.ok k).tiles = s.tiles ∧ (t.ok k).mem = s.mem ∧
      (t.ok k).ctxs = s.ctxs :=
  ⟨(t.okData_result k []).1, h.taken.congr rfl, h.tiles, h.mem, h.ctxs⟩

/-- The entries name the BAR2 window. -/
theorem namesWindow_iff (es : List (BitVec 16 × BitVec 64)) : (entryNats es).any (fun e => e.1 == 0x0010 || e.1 == 0x0011) = true ↔ ∃ e ∈ es, e.1 = 0x0010 ∨ e.1 = 0x0011 := by
  have hw : ∀ b : BitVec 16, (b.toNat = 0x0010 ∨ b.toNat = 0x0011) ↔ (b = 0x0010 ∨ b = 0x0011) := fun b => by
    rw [← BitVec.toNat_inj, ← BitVec.toNat_inj]
    rfl
  simp only [entryNats, List.any_map, List.any_eq_true, Function.comp_apply, Bool.or_eq_true, beq_iff_eq, hw]

section
variable {s : State} {es : List (BitVec 16 × BitVec 64)} (h1 : 1 ≤ es.length) (h32 : es.length ≤ 32) (k : Slot) (busy : Bool)
include h1 h32

theorem entryNats_length_ok : ¬ ((entryNats es).length = 0 ∨ 32 < (entryNats es).length) := by
  rw [entryNats, List.length_map]
  omega

theorem State.setWrite_of_refused {i : Nat} (h : s.entriesRefused (entryNats es) isSetWrite = some i) :
    s.setWrite k (entryNats es) busy = s.denyAt k stNOPERM i := by
  rw [State.setWrite, if_neg (entryNats_length_ok h1 h32), h]

variable (h : s.entriesRefused (entryNats es) isSetWrite = none)
include h

theorem State.setWrite_of_taken (hw : s.mem.heldHost = [] ∨ ¬ ∃ e ∈ es, e.1 = 0x0010 ∨ e.1 = 0x0011) :
    s.setWrite k (entryNats es) busy = (s.entriesShown k (entryNats es) busy).ok k := by
  rw [State.setWrite, if_neg (entryNats_length_ok h1 h32), h]
  refine if_neg fun hc => ?_
  rw [Bool.and_eq_true, namesWindow_iff] at hc
  have hheld : (s.entriesShown k (entryNats es) busy).mem.heldHost = s.mem.heldHost :=
    congrArg Mem.heldHost (entriesTaken_entriesShown s k es busy).mem
  rcases hw with hw | hw
  · have hn := hc.2
    change (!(s.entriesShown k (entryNats es) busy).mem.heldHost.isEmpty) = true at hn
    rw [hheld, hw] at hn
    exact nomatch hn
  · exact hw hc.1

/-- A change of the window while host accesses are held: the slot waits, and each of them is awaited (R212). -/
theorem State.setWrite_of_held (hh : s.mem.heldHost ≠ []) (hw : ∃ e ∈ es, e.1 = 0x0010 ∨ e.1 = 0x0011) :
    s.setWrite k (entryNats es) busy =
      (let m := s.entriesShown k (entryNats es) busy
       ({ m with mem := { m.mem with heldHost := m.mem.heldHost.map (fun h => { h with awaited := h.awaited ++ [k] }) } } : State).wait k (.setWrite k es)) := by
  have hheld : (s.entriesShown k (entryNats es) busy).mem.heldHost = s.mem.heldHost :=
    congrArg Mem.heldHost (entriesTaken_entriesShown s k es busy).mem
  rw [State.setWrite, if_neg (entryNats_length_ok h1 h32), h]
  refine (if_pos ?_).trans (by rw [ofNat_entryNats]; rfl)
  rw [Bool.and_eq_true, namesWindow_iff]
  refine ⟨hw, ?_⟩
  change (!(s.entriesShown k (entryNats es) busy).mem.heldHost.isEmpty) = true
  rw [hheld, Bool.not_eq_true', List.isEmpty_eq_false_iff]
  exact hh

end

end Sys2Proof.Machine

/-! PORT_CONFIG, SET_STORE, KEY_ROTATE, DEV_INFO and CLK_SELECT (R216, R229, R296, R363, R365 to R368, R375). -/

namespace Sys2Proof.Machine

/-! ## PORT_CONFIG -/

theorem netOnly_showPorts (s : State) : NetOnly s s.showPorts := by
  unfold State.showPorts
  extract_lets s1
  have h1 : NetOnly s s1 := rfl
  refine h1.trans (.foldl _ ?_ _ _)
  exact fun _ _ => rfl

theorem netOnly_relink (s : State) (p : Nat) : NetOnly s (s.relink p) :=
  .ite ((netOnly_failChimney s p).trans (netOnly_setIo ..)) (.refl s)

/-- An entry refused by itself is an entry refused. -/
theorem State.indexOf_of_allowed {s : State} {es : List (Nat × Nat)} {f : Nat → Bool} (h : s.entriesRefused es f = none) :
    indexOf (fun e => !(f e.1 && settingRange e.1 e.2)) es 0 = none := by
  unfold State.entriesRefused at h
  split at h
  · exact nomatch h
  · assumption

theorem netOnly_relinkIf (s : State) (c : Bool) (p : Nat) : NetOnly s (if c then s.relink p else s) := .ite (netOnly_relink s p) (.refl s)

theorem netOnly_resetPairs (s : State) (c : Bool) :
    NetOnly s (if c then s.net.peers.foldl (fun (s : State) p => s.resetPair p.1) s else s) := by
  refine .ite ?_ (.refl s)
  refine .foldl _ ?_ _ _
  intro t p
  exact netOnly_resetPair t p.1

theorem netOnly_setNet (s : State) (n : Net) : NetOnly s { s with net := n } := rfl

theorem State.portConfig_of_taken {s : State} {es : List (Nat × Nat)} (hlen : ¬ (es.length = 0 ∨ 32 < es.length)) (hr : s.anyRunning = false)
    (h : s.entriesRefused es isPortItem = none) (k : Slot) : ∃ m, NetOnly (s.withEntries es) m ∧ s.portConfig k es = m.ok k := by
  unfold State.portConfig
  extract_lets run next changed both bothAt bad alone s1 s2 s3 s4 known held
  have hstop : ∀ id, (isPortItem id && !(run && stoppedItem id)) = isPortItem id := fun id => by
    rw [show run = false from hr, Bool.false_and, Bool.not_false, Bool.and_true]
  have hboth : both = false := by
    show ((run && _) && _) = false
    rw [show run = false from hr, Bool.false_and, Bool.false_and]
  have hbothAt : bothAt = none := if_neg (ne_true_of_eq_false hboth)
  have hbad : bad = none := (congrArg (s.entriesRefused es) (funext hstop)).trans h
  have halone : alone = none := by
    refine (congrArg (fun f : Nat → Bool => indexOf (fun e : Nat × Nat => !(f e.1 && settingRange e.1 e.2)) es 0) (funext hstop)).trans ?_
    exact State.indexOf_of_allowed h
  have hsel : (match alone with | some i => some i | none => least (bad.toList ++ bothAt.toList)) = none := by
    rw [halone, hbad, hbothAt]
    rfl
  have h1 : NetOnly next s1 := netOnly_showPorts next
  have h2 : NetOnly s1 s2 := netOnly_resetPairs s1 _
  have h3 : NetOnly s2 s3 := netOnly_relinkIf s2 _ 0
  have h4 : NetOnly s3 s4 := netOnly_relinkIf s3 _ 1
  have h5 : NetOnly next s4 := ((h1.trans h2).trans h3).trans h4
  have h6 := ((h5.trans (netOnly_setNet s4 { s4.net with macs := known, paused := held })).trans (netOnly_release _)).trans (netOnly_askAll _)
  refine ⟨_, h6, (if_neg hlen).trans ?_⟩
  clear_value alone bad bothAt
  subst halone hbad hbothAt
  rfl

theorem NetOnly.entriesTaken {s m : State} {es : List (BitVec 16 × BitVec 64)} (h : NetOnly (s.withEntries (entryNats es)) m) (k : Slot) :
    (m.ok k).outcome k = some { status := 0 } ∧ SettingsTaken s (m.ok k) es ∧ (m.ok k).tiles = s.tiles ∧ (m.ok k).mem = s.mem ∧
      (m.ok k).ctxs = s.ctxs := by
  refine ⟨(m.okData_result k []).1, (settingsTaken_withEntries s es).congr (State.settings_of_kept h), ?_, ?_, ?_⟩
  · exact (State.tiles_of_kept h).trans (by rw [s.withEntries_frame]; rfl)
  · exact (State.mem_of_kept h).trans (by rw [s.withEntries_frame]; rfl)
  · exact (State.ctxs_of_kept h).trans (by rw [s.withEntries_frame]; rfl)

/-! ## SET_STORE -/

/-- The store with the named settings as they are in force; an unset one leaves it. -/
def State.storeSettings (s : State) (names : List Nat) (m : Table W64) : Table W64 :=
  names.foldl (fun m i => match s.settingOpt i with | some v => tset m i (BitVec.ofNat 64 v) | none => tdel m i) m

theorem State.tfind_storeSettings (s : State) (names : List Nat) (m : Table W64) (j : Nat) :
    tfind (s.storeSettings names m) j = if j ∈ names then (s.settingOpt j).map (BitVec.ofNat 64) else tfind m j := by
  induction names generalizing m with
  | nil => simp only [State.storeSettings, List.foldl_nil, List.not_mem_nil, if_false]
  | cons i r ih =>
    rw [State.storeSettings, List.foldl_cons]
    refine (ih _).trans ?_
    by_cases hr : j ∈ r
    · rw [if_pos hr, if_pos (List.mem_cons_of_mem _ hr)]
    · rw [if_neg hr]
      by_cases hj : j = i
      · subst hj
        rw [if_pos List.mem_cons_self]
        cases s.settingOpt j with
        | some v => exact (tfind_tset ..).trans (if_pos rfl)
        | none => exact (tfind_tdel ..).trans (if_pos rfl)
      · rw [if_neg (fun h => (List.mem_cons.mp h).elim hj hr)]
        cases s.settingOpt i with
        | some v => exact (tfind_tset ..).trans (if_neg hj)
        | none => exact (tfind_tdel ..).trans (if_neg hj)

theorem State.setStore_of_free {s : State} {all : Bool} {ids : List Nat} (hlen : ids.length ≤ 32)
    (hids : ∀ i ∈ ids, all = true ∨ (settingIds.contains i = true ∧ isStored i = true))
    (ht : ∀ t, s.ctl.storeTick = some t → t + 4 * ticksPerSecond ≤ s.clk.ticks) (k : Slot) :
    s.setStore k all ids = ({ s with ctl := { s.ctl with
        stored := s.storeSettings (if all then settingIds.filter isStored else ids) s.ctl.stored
        storeCnt := s.ctl.storeCnt + 1, storeTick := some s.clk.ticks } } : State).okData k (leBytes 4 (s.ctl.storeCnt + 1).toNat) := by
  unfold State.setStore
  have hnamed : ¬ (32 < ids.length ∨ (!all && ids.any (fun i => !(settingIds.contains i && isStored i))) = true) := by
    rintro (h | h)
    · omega
    · obtain ⟨ha, i, hi, hbad⟩ : all = false ∧ ∃ i ∈ ids, (settingIds.contains i && isStored i) = false := by
        simpa only [Bool.and_eq_true, Bool.not_eq_true', List.any_eq_true] using h
      rcases hids i hi with h1 | ⟨h1, h2⟩
      · rw [ha] at h1; exact nomatch h1
      · rw [h1, h2] at hbad; exact nomatch hbad
  have hbusy : ¬ (match s.ctl.storeTick with | some t => decide (s.clk.ticks < t + 4 * ticksPerSecond) | none => false) = true := by
    cases hst : s.ctl.storeTick with
    | none => exact Bool.false_ne_true
    | some t => exact fun h => absurd (of_decide_eq_true h) (Nat.not_lt.mpr (ht t hst))
  rw [if_neg hnamed]
  exact if_neg hbusy

/-! ## Reports of the host's class (R363) -/

/-- A state that differs from another in what a report changes beside its reaction: words of BAR0, the time of the first fault, what is
sent, what is counted. -/
def Noted (s t : State) : Prop :=
  t = { s with bar0 := t.bar0, flt := { s.flt with firstBeat := t.flt.firstBeat }, out := t.out, obs := { s.obs with counters := t.obs.counters }
               ctl := { s.ctl with held := t.ctl.held } }

theorem Noted.refl (s : State) : Noted s s := rfl

theorem Noted.trans {s t r : State} (h : Noted s t) (k : Noted t r) : Noted s r := by
  unfold Noted at *
  rw [k, h]

theorem Noted.of_counted {s t : State} (h : Counted s t) : Noted s t := by
  have hr := h.rest
  unfold Noted
  rw [hr]

theorem noted_setBar (s : State) (o : Nat) (v : W32) : Noted s (s.setBar o v) := rfl

theorem noted_collect (s : State) (src : Nat) (info : W32) (forced : Bool) : Noted s (s.collect src info forced) := by
  unfold State.collect
  extract_lets c b f s0 s1 s2
  have hb : Noted s b := by
    unfold b
    split
    · exact noted_setBar ..
    · exact .refl s
  split
  · exact hb
  · split
    · exact ((hb.trans (noted_setBar ..)).trans (noted_setBar ..)).trans (noted_setBar ..)
    · have hf : Noted s s0 := hb.trans rfl
      exact (((hf.trans (noted_setBar ..)).trans (noted_setBar ..)).trans (noted_setBar ..)).trans (.of_counted (counted_cause ..))

theorem ctl_collect (s : State) (src : Nat) (info : W32) (forced : Bool) :
    ∃ h, (s.collect src info forced).ctl = { s.ctl with held := h } := by
  have h := noted_collect s src info forced
  unfold Noted at h
  exact ⟨(s.collect src info forced).ctl.held, (congrArg State.ctl h).trans rfl⟩

/-- Words below the collector's own but INT_PEND are not a report's. -/
theorem State.bar_collect_of_lt (s : State) (src : Nat) (info : W32) (forced : Bool) {o : Nat} (ho : o < 0x20000) (h1 : o ≠ 0x1000C) :
    (s.collect src info forced).bar o = s.bar o := by
  unfold State.collect
  extract_lets c b f s0 s1 s2
  have hb : b.bar o = s.bar o := by
    unfold b
    split
    · exact (State.bar_bumpBar ..).trans (if_neg (by omega))
    · rfl
  split
  · exact hb
  · split
    · rw [State.barField, State.bar_setBar, if_neg (by omega), State.bar_bumpBar, if_neg (by omega), State.bar_orBar, if_neg (by omega), hb]
    · rw [(counted_cause s2 0).words _ (by omega) h1, State.bar_setBar, if_neg (by omega), State.bar_setBar, if_neg (by omega),
        State.bar_setBar, if_neg (by omega)]
      exact hb

/-- A host access error starts no reaction. -/
theorem State.report_host (s : State) (u : Nat) (info : W32) : s.report (srcId 2 u) info = s.collect (srcId 2 u) info false := by
  have hr : ∀ t : State, t.react (srcId 2 u) = t := fun t => by simp [State.react, srcId_class u (show 2 < 16 by decide)]
  exact hr _

/-! ## KEY_ROTATE -/

/-- An AUTH_FAIL counted: of the control state only the times of such failures and the vectors held change. -/
theorem State.authFail_result (s : State) : s.authFail.bar 0x10018 = s.bar 0x10018 + 1 ∧
    ∃ a h, s.authFail.ctl = { s.ctl with authTicks := a, held := h } := by
  have hb : (s.bumpBar 0x10018 1).bar 0x10018 = s.bar 0x10018 + 1 := (State.bar_bumpBar ..).trans (if_pos rfl)
  unfold State.authFail
  extract_lets s1 w c s2
  split
  · rw [State.report_host]
    refine ⟨(s2.bar_collect_of_lt _ _ _ (by decide) (by decide)).trans hb, ?_⟩
    obtain ⟨h, hc⟩ := ctl_collect s2 (srcId 2 0x161) ((Config.freeWord s2.free).setWidth 32) false
    exact ⟨[], h, hc⟩
  · exact ⟨hb, _, _, rfl⟩

theorem State.deny_auth (s : State) (k : Slot) : (s.deny k stAUTH).outcome k = some { status := 0x0010 } ∧
    (s.deny k stAUTH).bar 0x10018 = s.bar 0x10018 + 1 ∧ (s.deny k stAUTH).keyOf k = s.keyOf k ∧
    (s.deny k stAUTH).promoteKeys.keyOf k = s.promoteKeys.keyOf k := by
  let m : State := { s with ctl := { s.ctl with
    results := putSlot s.ctl.results k { status := stAUTH }, ready := delSlot s.ctl.ready k, waiting := delSlot s.ctl.waiting k } }
  have hm : s.deny k stAUTH = m.authFail := rfl
  obtain ⟨hbar, a, h, hctl⟩ := m.authFail_result
  rw [hm]
  refine ⟨?_, hbar, ?_, ?_⟩
  · exact (congrArg (fun c : Ctl => getSlot c.results k) hctl).trans (getSlot_putSlot_same ..)
  · have hkey := congrArg (fun c : Ctl => ({ s with ctl := c } : State).keyOf k) hctl
    cases k <;> exact hkey
  · have hkey := congrArg (fun c : Ctl => ({ s with ctl := c } : State).promoteKeys.keyOf k) hctl
    cases k <;> exact hkey

theorem answers_keyRotate (s : State) (k : Slot) {wrapped : List Byte} (hl : wrapped.length = 40) : Answers (.keyRotate k wrapped) s (fun t =>
    match aesUnwrap (s.keyOf k) wrapped with
    | some key => t.outcome k = some { status := 0 } ∧ t.keyOf k = s.keyOf k ∧ t.promoteKeys.keyOf k = key ∧ t = { s with ctl := t.ctl }
    | none => t.outcome k = some { status := 0x0010 } ∧ t.keyOf k = s.keyOf k ∧ t.promoteKeys.keyOf k = s.promoteKeys.keyOf k ∧
      t.bar 0x10018 = s.bar 0x10018 + 1) := by
  refine ⟨_, rfl, ?_⟩
  dsimp only
  cases h : aesUnwrap (s.keyOf k) wrapped with
  | some key =>
    simp only [State.keyRotate, h, if_pos hl]
    cases k with
    | mailbox n => exact ⟨(State.okData_result ..).1, rfl, rfl, rfl⟩
    | sideband => exact ⟨(State.okData_result ..).1, rfl, rfl, rfl⟩
    | poker => exact ⟨(State.okData_result ..).1, rfl, rfl, rfl⟩
  | none =>
    simp only [State.keyRotate, h]
    obtain ⟨houtcome, hbar, hkey, hnext⟩ := s.deny_auth k
    exact ⟨houtcome, hkey, hnext, hbar⟩

/-! ## DEV_INFO -/

theorem answers_devInfo_page {s : State} {k : Slot} {page : BitVec 8} {d : List Byte} (h : s.infoPage page.toNat = some d)
    (hf : s.fits k d.length = true) : Answers (.devInfo k page) s (fun t => t.outcome k = some { status := 0, data := d } ∧ t = { s with ctl := t.ctl }) := by
  have he : s.devInfo k page.toNat = s.okData k d := by rw [State.devInfo, h]; exact if_pos hf
  exact ⟨_, congrArg ok he, s.okData_result k d⟩

theorem State.infoPage_of_reserved (s : State) {page : Nat} (h : 7 ≤ page) : s.infoPage page = none := by
  unfold State.infoPage
  iterate 7 rw [if_neg (by omega)]

theorem answers_devInfo_reserved (s : State) (k : Slot) {page : BitVec 8} (h : 7 ≤ page.toNat) :
    Answers (.devInfo k page) s (fun t => t.outcome k = some { status := 0x0030 } ∧ t = { s with ctl := t.ctl }) := by
  have he : s.devInfo k page.toNat = s.deny k stNOPERM := by rw [State.devInfo, s.infoPage_of_reserved h]
  exact ⟨_, congrArg ok he, s.answer_uncounted k (r := { status := stNOPERM }) (by decide)⟩

/-! ## CLK_SELECT -/

/-- A move to another source leaves the settings and the beat. -/
structure SourceMoved (s t : State) : Prop where
  settings : t.ctl.settings = s.ctl.settings
  beat : t.clk.beatNow = s.clk.beatNow
  phase : t.clk.phase = s.clk.phase

theorem SourceMoved.trans {s t r : State} (h : SourceMoved s t) (k : SourceMoved t r) : SourceMoved s r :=
  ⟨k.settings.trans h.settings, k.beat.trans h.beat, k.phase.trans h.phase⟩

theorem SourceMoved.ite {s a b : State} {p : Prop} [Decidable p] (ha : SourceMoved s a) (hb : SourceMoved s b) :
    SourceMoved s (if p then a else b) := by
  split
  · exact ha
  · exact hb

theorem SourceMoved.refl (s : State) : SourceMoved s s := ⟨rfl, rfl, rfl⟩

theorem sourceMoved_showSource (s : State) : SourceMoved s s.showSource := ⟨rfl, rfl, rfl⟩

theorem sourceMoved_reportCorr (s : State) (u : Nat) (n : W32) : SourceMoved s (s.reportCorr u n) := by
  have hclk : (s.reportCorr u n).clk = s.clk := State.clk_of_kept (netOnly_reportCorr s u n)
  exact ⟨State.settings_of_kept (netOnly_reportCorr s u n), congrArg Clk.beatNow hclk, congrArg Clk.phase hclk⟩

theorem sourceMoved_moveSource (s : State) (n : Nat) (byLoss : Bool) : SourceMoved s (s.moveSource n byLoss) := by
  unfold State.moveSource
  extract_lets _ s1 s2 s3
  refine .ite (.refl s) ?_
  have h1 : SourceMoved s s1 := ⟨rfl, rfl, rfl⟩
  have h2 : SourceMoved s1 s2 := .ite ⟨rfl, rfl, rfl⟩ (.refl s1)
  have h3 : SourceMoved s2 s3 := .ite ⟨rfl, rfl, rfl⟩ (.refl s2)
  exact (((h1.trans h2).trans h3).trans (sourceMoved_showSource s3)).trans (sourceMoved_reportCorr ..)

/-- CLK_SELECT of two ports: the setting, and a move to the best source that is left. -/
theorem State.selectRef_of_ports (s : State) (k : Slot) {rp rl ap al : Nat} (h : ¬ (rp = ap ∨ 7 < rl ∨ 7 < al)) :
    ∃ m, SourceMoved (s.putSetting 0x0200 (BitVec.ofNat 64 (rp + 16 * rl + 256 * ap + 4096 * al))) m ∧ s.selectRef k rp rl ap al = m.ok k := by
  unfold State.selectRef
  extract_lets old v s1 drop s2
  have hdrop : ∀ t n b, SourceMoved t (drop t n b) := fun t n b => .ite ⟨rfl, rfl, rfl⟩ (.refl t)
  have h2 : SourceMoved s1 s2 := (hdrop s1 0 _).trans (hdrop _ 1 _)
  exact ⟨_, (h2.trans (sourceMoved_moveSource s2 _ _)).trans (sourceMoved_showSource _), if_neg h⟩

theorem answers_clkSelectRef (s : State) (k : Slot) {rp ap : BitVec 1} {rl al : BitVec 4} (hp : rp ≠ ap) (hr : rl.toNat ≤ 7) (ha : al.toNat ≤ 7) :
    Answers (.clkSelectRef k rp rl ap al) s (fun t =>
        t.outcome k = some { status := 0 } ∧ t.setting 0x0200 = rp.toNat + 16 * rl.toNat + 256 * ap.toNat + 4096 * al.toNat ∧
        (∀ id, id ≠ 0x0200 → t.settingOpt id = s.settingOpt id) ∧ t.clk.beatNow = s.clk.beatNow ∧ t.clk.phase = s.clk.phase) := by
  have hports : ¬ (rp.toNat = ap.toNat ∨ 7 < rl.toNat ∨ 7 < al.toNat) := by
    rintro (h | h | h)
    · exact hp (BitVec.eq_of_toNat_eq h)
    · omega
    · omega
  obtain ⟨m, hm, he⟩ := s.selectRef_of_ports k hports
  have hset : ∀ id, (m.ok k).settingOpt id =
      if id = 0x0200 then some (BitVec.ofNat 64 (rp.toNat + 16 * rl.toNat + 256 * ap.toNat + 4096 * al.toNat)).toNat else s.settingOpt id :=
    fun id => (State.settingOpt_congr (show (m.ok k).ctl.settings = _ from hm.settings) id).trans (State.settingOpt_putSetting ..)
  refine ⟨m.ok k, congrArg ok he, (m.okData_result k []).1, ?_, fun id hid => (hset id).trans (if_neg hid), hm.beat, hm.phase⟩
  have hlt : rp.toNat + 16 * rl.toNat + 256 * ap.toNat + 4096 * al.toNat < 2 ^ 64 := by omega
  rw [State.setting, hset, if_pos rfl, Option.getD_some, BitVec.toNat_ofNat, Nat.mod_eq_of_lt hlt]

theorem answers_clkSelectBeatDiv {s : State} (k : Slot) {d : BitVec 18} {b : W64} (hbusy : s.barBit 0x40010 31 = false) (hlow : 320 ≤ d.toNat)
    (hhigh : d.toNat ≤ 163840) (hb : s.clk.beatNow + 16 ≤ b.toNat) :
    Answers (.clkSelectBeatDiv k d b) s (fun t => t.outcome k = some { status := 0 } ∧
        t.bar 0x40010 = BitVec.ofNat 32 (2 ^ 31 + d.toNat) ∧ t.bar64 0x40018 = b.toNat ∧
        (∀ off, off ≠ 0x40010 → off ≠ 0x40018 → off ≠ 0x4001C → t.bar off = s.bar off) ∧ t = { s with bar0 := t.bar0, ctl := t.ctl }) := by
  have he : s.selectBeatDiv k d.toNat b.toNat = ((s.setBar 0x40010 (BitVec.ofNat 32 (2 ^ 31 + d.toNat))).setBar64 0x40018 b.toNat).ok k := by
    rw [State.selectBeatDiv, hbusy, if_neg Bool.false_ne_true, if_neg (by omega)]
  have hbar : ∀ off, (((s.setBar 0x40010 (BitVec.ofNat 32 (2 ^ 31 + d.toNat))).setBar64 0x40018 b.toNat).ok k).bar off =
      if off = 0x4001C then BitVec.ofNat 32 (b.toNat / 2 ^ 32) else if off = 0x40018 then BitVec.ofNat 32 b.toNat
      else if off = 0x40010 then BitVec.ofNat 32 (2 ^ 31 + d.toNat) else s.bar off := fun off => by
    refine (State.bar_setBar ..).trans ?_
    rw [State.bar_setBar, State.bar_setBar]
  refine ⟨_, congrArg ok he, (State.okData_result ..).1, hbar _, ?_, fun off h1 h2 h3 => ?_, rfl⟩
  · rw [State.bar64, hbar, hbar, if_neg (by decide), if_pos rfl, if_pos rfl, BitVec.toNat_ofNat, BitVec.toNat_ofNat]
    omega
  · rw [hbar, if_neg h3, if_neg h2, if_neg h1]

/-! ## The statement -/

section
variable {s : State} {es : List (BitVec 16 × BitVec 64)} (h1 : 1 ≤ es.length) (h32 : es.length ≤ 32) (k : Slot)
include h1 h32

theorem answers_setWrite_taken (h : s.entriesRefused (entryNats es) isSetWrite = none)
    (hw : s.mem.heldHost = [] ∨ ¬ ∃ e ∈ es, e.1 = 0x0010 ∨ e.1 = 0x0011) : Answers (.setWrite k es) s (fun t =>
      t.outcome k = some { status := 0 } ∧ SettingsTaken s t es ∧ t.tiles = s.tiles ∧ t.mem = s.mem ∧ t.ctxs = s.ctxs) :=
  ⟨_, congrArg ok (State.setWrite_of_taken h1 h32 k _ h hw), (entriesTaken_entriesShown s k es _).ok k⟩

theorem answers_setWrite_held (h : s.entriesRefused (entryNats es) isSetWrite = none) (hh : s.mem.heldHost ≠ [])
    (hw : ∃ e ∈ es, e.1 = 0x0010 ∨ e.1 = 0x0011) : Answers (.setWrite k es) s (fun t =>
      getSlot t.ctl.waiting k = some (.setWrite k es) ∧ t.ctl.results = s.ctl.results ∧ SettingsTaken s t es ∧
      (∀ h ∈ t.mem.heldHost, k ∈ h.awaited) ∧ t.mem.heldHost.length = s.mem.heldHost.length) := by
  have hm := entriesTaken_entriesShown s k es s.ember.drain.isSome
  refine ⟨_, congrArg ok (State.setWrite_of_held h1 h32 k _ h hh hw), getSlot_putSlot_same .., hm.results, hm.taken.congr rfl, ?_, ?_⟩
  · intro q hq
    obtain ⟨p, -, rfl⟩ := List.mem_map.mp hq
    exact List.mem_append_right _ (List.mem_singleton.mpr rfl)
  · exact (List.length_map _).trans (congrArg (fun m : Mem => m.heldHost.length) hm.mem)

theorem answers_setWrite_refused {i : Nat} (h : s.entriesRefused (entryNats es) isSetWrite = some i) : Answers (.setWrite k es) s (fun t =>
      t.outcome k = some { status := 0x0030, detail := i } ∧ t = { s with ctl := t.ctl } ∧ t.ctl.settings = s.ctl.settings) := by
  obtain ⟨houtcome, hframe⟩ := s.answer_uncounted k (r := { status := stNOPERM, detail := i }) (show (0x0030 : Nat) ∉ _ by decide)
  exact ⟨_, congrArg ok (State.setWrite_of_refused h1 h32 k _ h), houtcome, hframe, rfl⟩

theorem answers_portConfig (hr : s.anyRunning = false) (h : s.entriesRefused (entryNats es) isPortItem = none) :
    Answers (.portConfig k es) s (fun t =>
        t.outcome k = some { status := 0 } ∧ SettingsTaken s t es ∧ t.tiles = s.tiles ∧ t.mem = s.mem ∧ t.ctxs = s.ctxs) := by
  obtain ⟨m, hm, he⟩ := State.portConfig_of_taken (entryNats_length_ok h1 h32) hr h k
  exact ⟨_, congrArg ok he, hm.entriesTaken k⟩

end

theorem answers_setStore {s : State} (k : Slot) {all : Bool} {ids : List (BitVec 16)} (hlen : ids.length ≤ 32)
    (hids : ∀ i ∈ ids, all = true ∨ (settingIds.contains i.toNat = true ∧ isStored i.toNat = true))
    (ht : ∀ t, s.ctl.storeTick = some t → t + 4 * ticksPerSecond ≤ s.clk.ticks) : Answers (.setStore k all ids) s (fun t =>
        let names := if all then settingIds.filter isStored else ids.map (fun i => i.toNat)
        t.ctl.storeCnt = s.ctl.storeCnt + 1 ∧ t.outcome k = some { status := 0, data := leBytes 4 (s.ctl.storeCnt + 1).toNat } ∧
        (∀ i, tfind t.ctl.stored i = if i ∈ names then (s.settingOpt i).map (BitVec.ofNat 64) else tfind s.ctl.stored i) ∧
        t = { s with ctl := t.ctl } ∧ t.ctl.settings = s.ctl.settings) := by
  have hnames : ∀ i ∈ ids.map (fun i => i.toNat), all = true ∨ (settingIds.contains i = true ∧ isStored i = true) :=
    List.forall_mem_map.mpr hids
  have he := State.setStore_of_free ((List.length_map _).trans_le hlen) hnames ht k
  exact ⟨_, congrArg ok he, rfl, (State.okData_result ..).1, fun i => State.tfind_storeSettings .., rfl, rfl⟩

/-- Settles O43: each command's answer, with the settings as the lists of entries leave them. -/
theorem settingsKeysAndInformation : Obligations.SettingsKeysAndInformation := by
  unfold Obligations.SettingsKeysAndInformation
  intro s k
  refine ⟨fun es h1 h32 => ⟨fun h => ⟨fun hw => answers_setWrite_taken h1 h32 k h hw, fun hh hw => answers_setWrite_held h1 h32 k h hh hw⟩,
      fun i h => answers_setWrite_refused h1 h32 k h, fun hr h => answers_portConfig h1 h32 k hr h⟩,
    fun all ids hlen hids ht => answers_setStore k hlen hids ht, fun wrapped hl => answers_keyRotate s k hl,
    fun page => ⟨fun d h hf => answers_devInfo_page h hf, fun h => answers_devInfo_reserved s k h⟩,
    fun rp ap rl al hp hr ha => answers_clkSelectRef s k hp hr ha,
    fun d b hbusy hlow hhigh hb => answers_clkSelectBeatDiv k hbusy hlow hhigh hb⟩

end Sys2Proof.Machine

/-! Uncorrectable reads (R199): the line that a stream's read poisons can be a line of the page map itself. -/

namespace Sys2Proof.Machine

/-! ## The counterexample -/

/-- The entry that maps page 0 to frame 5 of tier 1. -/
def pageInTier1 : W64 := mkEntry true true true true false 0 5

/-- A stream descriptor: a load through descriptor 0, without a second descriptor or an index, of one flue unit. -/
def loadWhole : Nat := 0xFFFF * 2 ^ 48 + 0xFFFF * 2 ^ 64 + 1 * 2 ^ 88

/-- A load of 1,024 elements of page 0 into stream 31 of tile 0, whose first line is poisoned; the page map's group 0 is in the caches of
no firebox, its two copies lie in frames 0 and 32,776 of tier 2. -/
def loadOfPoisoned : State :=
  { State.reset with
    tiles := [(0, { streams := [(31, { sd := loadWhole, state := 1, units := 1 })] })]
    clk := { started := true }
    pwr := { stage := 8, diesUp := true }
    ctxs := [(0, { jobLoaded := true, descs := [{ acc := 3, allocSize := 65536, extents := [1024], strides := [1] }] })]
    mem := { pmap := [(0, pageInTier1)], pmapCopy := [(0, pageInTier1)], poison := [(0, 5 * 1024)], pmBase := pmBases.1, pmShd := pmBases.2 } }

/-- The line that the read of the load names: line 0 of frame 0 of tier 2, the primary line of group 0, in a frame that no page maps. -/
def groupLineRead : Instr := .uncorrectableRead (.stream 0 31 .t2 0 0)

/-- Whether the line is not poisoned after the command. -/
def lineHealed (o : Host.Outcome State Fault Refusal) : Bool :=
  match o with
  | .next r => !r.mem.poison.contains (1, 0)
  | _ => false

theorem pageOfFrame_loadOfPoisoned : loadOfPoisoned.pageOfFrame 1 0 = none := by decide

/-- The abort finds what stops the stream by the fill of group 0; the copy serves it, for the primary line is poisoned now, and the
fill rewrites that line (R199), whose mark is gone. -/
theorem lineHealed_groupLineRead : lineHealed (exec groupLineRead loadOfPoisoned) = true := by decide +kernel

/-! ## The statement -/

/-- Refutes O37: an uncorrectable read of a stream that names the primary line of its own page's group does not leave that line poisoned,
since the translation in the abort rewrites the line from its copy. -/
theorem not_memoryErrorsAndRetirement : ¬ Obligations.MemoryErrorsAndRetirement := by
  unfold Obligations.MemoryErrorsAndRetirement
  intro h
  obtain ⟨-, -, -, huncorrectable⟩ := h.1 loadOfPoisoned .t2 0 (by decide)
  obtain ⟨r, hr, -, hpoison⟩ := huncorrectable 0 31 0
  have hmem : ((1, 0) : Nat × Nat) ∈ r.mem.poison := hpoison (.inl pageOfFrame_loadOfPoisoned)
  have hhealed : (!r.mem.poison.contains (1, 0)) = true := by
    have hl := lineHealed_groupLineRead
    rw [groupLineRead, hr] at hl
    exact hl
  rw [List.contains_iff_mem.mpr hmem] at hhealed
  exact nomatch hhealed

end Sys2Proof.Machine

/-! Invalidations, page moves and the retirement list (R192, R196, R201 to R203). -/

namespace Sys2Proof.Machine

/-! ## Copies of bytes -/

/-- A moved cell is found where its own stood. -/
theorem tget_mextract (m : Memory) (a n b : Nat) {x : Nat} (hx : x < n) : tget 0 (mextract m a n b) (b + x) = tget 0 m (a + x) := by
  induction m with
  | nil => rfl
  | cons c r ih =>
    obtain ⟨j, v⟩ := c
    unfold mextract at ih ⊢
    by_cases hj : a ≤ j ∧ j < a + n
    · rw [List.filter_cons_of_pos (by simpa using hj), List.map_cons, tget, tget, ih]
      by_cases he : j = a + x
      · rw [if_pos (by omega), if_pos he]
      · rw [if_neg (by omega), if_neg he]
    · rw [List.filter_cons_of_neg (by simpa using hj), ih, tget, if_neg (by omega)]

theorem thas_mextract (m : Memory) (a n b : Nat) {x : Nat} (hx : x < b ∨ b + n ≤ x) : thas (mextract m a n b) x = false := by
  rw [thas, List.any_eq_false]
  intro c hc
  obtain ⟨d, hd, rfl⟩ := List.mem_map.mp hc
  have hin : a ≤ d.1 ∧ d.1 < a + n := by simpa using (List.mem_filter.mp hd).2
  simp only [beq_iff_eq]
  omega

/-- A read after a copy: within the target it is the source's byte. -/
theorem mread_mcopy (m d : Memory) (a n b x : Nat) :
    mread (mcopy m a n d b) x = if b ≤ x ∧ x < b + n then mread m (a + (x - b)) else mread d x := by
  refine (tget_parts 0 d b (b + n) x _ (by omega) (thas_mextract m a n b)).trans ?_
  by_cases h : b ≤ x ∧ x < b + n
  · rw [if_pos h, if_pos h]
    have ht := tget_mextract m a n b (x := x - b) (by omega)
    rwa [show b + (x - b) = x by omega] at ht
  · rw [if_neg h, if_neg h]
    rfl

/-! ## Fields of an entry -/

/-- An entry with MOV set. -/
def entryMoving (e : W64) : W64 := e ||| BitVec.ofNat 64 (2 ^ 57)

/-- An entry of a moved page: the new frame, MOV clear. -/
def entryMoved (new : Nat) (e : W64) : W64 := (e &&& ~~~(BitVec.ofNat 64 (2 ^ 57 + 2 ^ 27 - 1))) ||| BitVec.ofNat 64 new

theorem eFrame_eq (e : W64) : eFrame e = (e.setWidth 27).toNat := by
  rw [eFrame, field, BitVec.toNat_setWidth, Nat.pow_zero, Nat.div_one]

theorem eMov_entryMoving (e : W64) : eMov (entryMoving e) = true := by
  rw [eMov, entryMoving, BitVec.getLsbD_or]
  exact Bool.or_true _

theorem eFrame_entryMoving (e : W64) : eFrame (entryMoving e) = eFrame e := by
  rw [eFrame_eq, eFrame_eq, entryMoving, BitVec.setWidth_or, show (BitVec.ofNat 64 (2 ^ 57)).setWidth 27 = 0#27 by decide, BitVec.or_zero]

theorem eMov_entryMoved {new : Nat} (h : new < 2 ^ 27) (e : W64) : eMov (entryMoved new e) = false := by
  rw [eMov, entryMoved, BitVec.getLsbD_or, BitVec.getLsbD_and, BitVec.getLsbD_ofNat,
    Nat.testBit_lt_two_pow (Nat.lt_of_lt_of_le h (Nat.pow_le_pow_right (by decide) (by decide)))]
  rw [show (~~~(BitVec.ofNat 64 (2 ^ 57 + 2 ^ 27 - 1))).getLsbD 57 = false by decide, Bool.and_false, Bool.and_false, Bool.or_false]

theorem eFrame_entryMoved {new : Nat} (h : new < 2 ^ 27) (e : W64) : eFrame (entryMoved new e) = new := by
  rw [eFrame_eq, entryMoved, BitVec.setWidth_or, BitVec.setWidth_and,
    show (~~~(BitVec.ofNat 64 (2 ^ 57 + 2 ^ 27 - 1))).setWidth 27 = 0#27 by decide, BitVec.and_zero, BitVec.zero_or, BitVec.toNat_setWidth,
    BitVec.toNat_ofNat]
  omega

/-! ## Pages of a frame -/

theorem pageKey_div {c p : Nat} (hp : p < 2 ^ 26) : pageKey c p / 2 ^ 26 = c := by unfold pageKey; omega

theorem pageKey_mod {c p : Nat} (hp : p < 2 ^ 26) : pageKey c p % 2 ^ 26 = p := by unfold pageKey; omega

theorem mem_of_tget {α : Type} {d v : α} {m : Table α} {k : Nat} (h : tget d m k = v) (hv : v ≠ d) : (k, v) ∈ m := by
  induction m with
  | nil => exact absurd h.symm hv
  | cons c r ih =>
    obtain ⟨j, w⟩ := c
    rw [tget] at h
    split at h
    · next hj =>
      rw [hj, h]
      exact List.mem_cons_self
    · exact List.mem_cons_of_mem _ (ih h)

/-- A present page is among those of its frame. -/
theorem State.mem_pagesOfFrame {s : State} {c p : Nat} (hp : p < 2 ^ 26) (hv : eV (s.pentry c p) = true) :
    (c, p) ∈ s.pagesOfFrame (eTier (s.pentry c p)) (eFrame (s.pentry c p)) := by
  have hin : (pageKey c p, s.pentry c p) ∈ s.mem.pmap := by
    refine mem_of_tget rfl fun h0 => ?_
    rw [show s.pentry c p = 0 from h0] at hv
    exact absurd hv (by decide)
  refine List.mem_map.mpr ⟨_, List.mem_filter.mpr ⟨hin, by simp [hv]⟩, ?_⟩
  rw [pageKey_div hp, pageKey_mod hp]

theorem State.pagesOfFrame_congr {s t : State} (h : t.mem.pmap = s.mem.pmap) (tier f : Nat) : t.pagesOfFrame tier f = s.pagesOfFrame tier f := by
  unfold State.pagesOfFrame
  rw [h]

/-! ## Invalidations -/

theorem XCache.mem_drop {x : XCache} {c first count : Nat} {g : XGroup} (h : g ∈ (x.drop c first count).groups) :
    ¬ (g.ctx = c ∧ g.g * 8 < first + count ∧ first < g.g * 8 + 8) := by
  have hp := (List.mem_filter.mp h).2
  intro hc
  simp [hc.1, hc.2.1, hc.2.2] at hp

theorem State.tile_inval (s : State) (c first count u : Nat) :
    (s.inval c first count).tile u = { s.tile u with xc := (s.tile u).xc.drop c first count } :=
  tget_map_snd (fun b : Tile => { b with xc := b.xc.drop c first count }) {} rfl s.tiles u

/-- The range of INVAL, and of INVAL_ALL, whose pages are all of a context. -/
theorem answers_inval (s : State) (ctx : BitVec 2) (first count : Nat) (all : Bool) : Answers (.inval ctx first count all) s (fun t =>
      let hits := fun (g : XGroup) => g.ctx = ctx.toNat ∧ (all = true ∨ (g.g * 8 < first + count ∧ first < g.g * 8 + 8))
      (∀ u, ∀ g ∈ (t.tile u).xc.groups, g.g < 2 ^ 23 → ¬ hits g) ∧ (∀ g ∈ t.mem.hostCache.groups, g.g < 2 ^ 23 → ¬ hits g) ∧
      (∀ u, (t.tile u).vregs = (s.tile u).vregs ∧ (t.tile u).scratch = (s.tile u).scratch ∧ (t.tile u).regs = (s.tile u).regs) ∧
      t.mem.inval.isSome = true ∧ t.mem.pmap = s.mem.pmap ∧ t.mem.pmapCopy = s.mem.pmapCopy ∧
      t = { s with tiles := t.tiles, mem := { s.mem with hostCache := t.mem.hostCache, inval := t.mem.inval } }) := by
  obtain ⟨a, n, he, hcover⟩ : ∃ a n, exec (.inval ctx first count all) s = .next (s.inval ctx.toNat a n) ∧ ∀ g : XGroup, g.g < 2 ^ 23 →
      (all = true ∨ (g.g * 8 < first + count ∧ first < g.g * 8 + 8)) → g.g * 8 < a + n ∧ a < g.g * 8 + 8 := by
    cases all with
    | true => exact ⟨0, 2 ^ 26, rfl, fun g hg _ => by omega⟩
    | false => exact ⟨first, count, rfl, fun g _ h => h.resolve_left Bool.false_ne_true⟩
  have hgone : ∀ x : XCache, ∀ g ∈ (x.drop ctx.toNat a n).groups, g.g < 2 ^ 23 →
      ¬ (g.ctx = ctx.toNat ∧ (all = true ∨ (g.g * 8 < first + count ∧ first < g.g * 8 + 8))) :=
    fun x g hg hlt hits => XCache.mem_drop hg ⟨hits.1, hcover g hlt hits.2⟩
  refine ⟨_, he, fun u => ?_, hgone s.mem.hostCache, fun u => ?_, rfl, rfl, rfl, rfl⟩
  · rw [State.tile_inval]
    exact hgone (s.tile u).xc
  · rw [State.tile_inval]
    exact ⟨rfl, rfl, rfl⟩

/-! ## Entries edited -/

/-- One page's entry changed in both copies and invalidated. -/
def State.editPage (f : W64 → W64) (s : State) (q : Nat × Nat) : State := (s.setPentry q.1 q.2 (f (s.pentry q.1 q.2))).inval q.1 q.2 1

section
variable (s : State) (f : W64 → W64)

theorem State.editPages_eq (l : List (Nat × Nat)) : s.editPages l f = l.foldl (State.editPage f) s := rfl

/-- Edits of entries change the page map, drop cached groups, and are in progress as invalidations. -/
theorem State.editPages_frame (l : List (Nat × Nat)) : s.editPages l f =
    { s with tiles := (s.editPages l f).tiles
             mem := { s.mem with pmap := (s.editPages l f).mem.pmap, pmapCopy := (s.editPages l f).mem.pmapCopy
                                 hostCache := (s.editPages l f).mem.hostCache, inval := (s.editPages l f).mem.inval } } := by
  rw [State.editPages_eq]
  induction l generalizing s with
  | nil => rfl
  | cons q r ih =>
    rw [List.foldl_cons, ih]
    rfl

theorem State.moving_editPages (l : List (Nat × Nat)) : (s.editPages l f).mem.moving = s.mem.moving := by rw [State.editPages_frame]

theorem State.heldHost_editPages (l : List (Nat × Nat)) : (s.editPages l f).mem.heldHost = s.mem.heldHost := by rw [State.editPages_frame]

theorem State.tierMem_editPages (l : List (Nat × Nat)) (k : Nat) : (s.editPages l f).tierMem k = s.tierMem k := by
  rw [State.editPages_frame]
  rfl

theorem State.pentry_editPage (q : Nat × Nat) (c p : Nat) : (s.editPage f q).pentry c p =
    if pageKey c p = pageKey q.1 q.2 then f (s.pentry q.1 q.2) else s.pentry c p := tget_tset ..

theorem State.pmapCopy_editPage (q : Nat × Nat) (c p : Nat) : tget 0 (s.editPage f q).mem.pmapCopy (pageKey c p) =
    if pageKey c p = pageKey q.1 q.2 then f (s.pentry q.1 q.2) else tget 0 s.mem.pmapCopy (pageKey c p) := tget_tset ..

/-- What every edit of an entry keeps of it, edits of pages keep. -/
theorem State.pentry_editPages_keeps {β : Type} (g : W64 → β) (hg : ∀ e, g (f e) = g e) (l : List (Nat × Nat)) (c p : Nat) :
    g ((s.editPages l f).pentry c p) = g (s.pentry c p) := by
  rw [State.editPages_eq]
  refine foldl_keeps (fun t : State => g (t.pentry c p)) _ (fun t q => ?_) l s
  rw [State.pentry_editPage]
  split
  · next h =>
    rw [hg]
    exact congrArg (fun k => g (tget 0 t.mem.pmap k)) h.symm
  · rfl

/-- What an edit makes true of an entry, it makes true of both copies of each page that it names. -/
theorem State.pentry_editPages {P : W64 → Prop} (hP : ∀ e, P (f e)) {l : List (Nat × Nat)} {c p : Nat} (h : (c, p) ∈ l) :
    P ((s.editPages l f).pentry c p) ∧ tget 0 (s.editPages l f).mem.pmapCopy (pageKey c p) = (s.editPages l f).pentry c p := by
  rw [State.editPages_eq]
  refine foldl_establishes (P := fun t : State => P (t.pentry c p) ∧ tget 0 t.mem.pmapCopy (pageKey c p) = t.pentry c p)
    (a := (c, p)) (fun t => ?_) (fun t q ht => ?_) h s
  · rw [State.pentry_editPage, State.pmapCopy_editPage, if_pos rfl, if_pos rfl]
    exact ⟨hP _, rfl⟩
  · rw [State.pentry_editPage, State.pmapCopy_editPage]
    split
    · exact ⟨hP _, rfl⟩
    · exact ht

theorem State.inval_editPages {l : List (Nat × Nat)} (h : l ≠ []) : (s.editPages l f).mem.inval.isSome = true := by
  obtain ⟨q, r, rfl⟩ := List.exists_cons_of_ne_nil h
  rw [State.editPages_eq]
  exact foldl_establishes (P := fun t : State => t.mem.inval.isSome = true) (a := q) (fun _ => rfl) (fun _ _ _ => rfl) List.mem_cons_self s

end

/-! ## The start of a move -/

theorem State.takeFrame_frame (s : State) (tier f : Nat) : s.takeFrame tier f =
    { s with mem := (s.takeFrame tier f).mem, ember := (s.takeFrame tier f).ember } ∧
    (s.takeFrame tier f).mem.pmap = s.mem.pmap ∧ (s.takeFrame tier f).mem.pmapCopy = s.mem.pmapCopy ∧
    (s.takeFrame tier f).mem.retireQ = s.mem.retireQ := by
  unfold State.takeFrame State.zeroFrame
  rw [State.setTierMem_frame]
  split
  · exact ⟨rfl, rfl, rfl, rfl⟩
  · exact ⟨rfl, rfl, rfl, rfl⟩

/-- A spare frame taken for a page, whose move is in its first phase. -/
def State.moveBegun (s : State) (c p f reason : Nat) : State :=
  let s1 := s.takeFrame (eTier (s.pentry c p)) f
  { s1 with mem := { s1.mem with moving := some { ctx := c, page := p, old := eFrame (s.pentry c p), new := f, reason := reason, stage := 1 } } }

theorem State.startMove_of_spare {s : State} {c p f : Nat} (hv : eV (s.pentry c p) = true) (ht : eTier (s.pentry c p) < 2)
    (hm : s.mem.moving = none) (hf : s.spareFrame (eTier (s.pentry c p)) (eFrame (s.pentry c p) % banksOf (eTier (s.pentry c p))) = some f)
    (reason : Nat) : s.startMove c p reason =
      (s.moveBegun c p f reason).editPages (s.pagesOfFrame (eTier (s.pentry c p)) (eFrame (s.pentry c p))) entryMoving := by
  unfold State.startMove
  simp only [hv, Nat.not_le.mpr ht, hm, hf, decide_false, Bool.not_true, Bool.or_false, Bool.false_eq_true, if_false]
  rfl

theorem answers_pageMove {s : State} {ctx : BitVec 2} {page f : Nat} (hp : page < 2 ^ 26) (hv : eV (s.pentry ctx.toNat page) = true)
    (ht : eTier (s.pentry ctx.toNat page) < 2) (hm : s.mem.moving = none)
    (hf : s.spareFrame (eTier (s.pentry ctx.toNat page)) (eFrame (s.pentry ctx.toNat page) % banksOf (eTier (s.pentry ctx.toNat page))) = some f) :
    let e := s.pentry ctx.toNat page
    Answers (.pageMove ctx page) s (fun t =>
        eMov (t.pentry ctx.toNat page) = true ∧ tget 0 t.mem.pmapCopy (pageKey ctx.toNat page) = t.pentry ctx.toNat page ∧
        eFrame (t.pentry ctx.toNat page) = eFrame e ∧ t.mem.inval.isSome = true ∧
        (s.pagesOfFrame (eTier e) (eFrame e) = [(ctx.toNat, page)] → t.mem.inval = some (ctx.toNat, page, 1)) ∧
        ∃ m, t.mem.moving = some m ∧ m.ctx = ctx.toNat ∧ m.page = page ∧ m.old = eFrame e ∧ m.new = f ∧ m.stage = 1) := by
  have hmem := State.mem_pagesOfFrame hp hv
  have hexec : exec (.pageMove ctx page) s = ok (s.startMove ctx.toNat (page % 2 ^ 26) _) := rfl
  rw [Nat.mod_eq_of_lt hp, State.startMove_of_spare hv ht hm hf] at hexec
  refine ⟨_, hexec, ?_⟩
  generalize hl : s.pagesOfFrame (eTier (s.pentry ctx.toNat page)) (eFrame (s.pentry ctx.toNat page)) = l at hmem ⊢
  generalize hb : s.moveBegun ctx.toNat page f _ = b
  have hentry : b.pentry ctx.toNat page = s.pentry ctx.toNat page := by
    rw [← hb]
    exact congrArg (fun m => tget 0 m (pageKey ctx.toNat page)) (s.takeFrame_frame ..).2.1
  obtain ⟨hmov, hcopy⟩ := b.pentry_editPages entryMoving (P := fun e => eMov e = true) eMov_entryMoving hmem
  refine ⟨hmov, hcopy, ?_, b.inval_editPages entryMoving (List.ne_nil_of_mem hmem), ?_, ?_⟩
  · rw [b.pentry_editPages_keeps entryMoving eFrame eFrame_entryMoving, hentry]
  · intro hone
    rw [hone]
    rfl
  · exact ⟨_, (b.moving_editPages entryMoving l).trans (congrArg (fun t : State => t.mem.moving) hb.symm), rfl, rfl, rfl, rfl, rfl⟩

/-! ## The copy -/

/-- A move in its second phase: the bytes in the new frame with their poison marks, the trace ring with the page. -/
def State.bytesMoved (s : State) (m : Move) : State :=
  let tier := eTier (s.pentry m.ctx m.page)
  let s1 := s.setTierMem tier (mcopy (s.tierMem tier) (m.old * pageBytes) pageBytes (s.tierMem tier) (m.new * pageBytes))
  let marks := (s.mem.poison.filter (fun p => p.1 == tier && p.2 / 1024 == m.old)).map (fun p => (tier, m.new * 1024 + p.2 % 1024))
  { s1 with
    mem := { s1.mem with poison := s1.mem.poison ++ marks, moving := some { m with stage := 2 } }
    obs := { s1.obs with
      ringFrames := if tier = 1 then s.obs.ringFrames.map (fun f => if f = m.old then m.new else f) else s.obs.ringFrames } }

section
variable {s : State} {m : Move}

theorem State.heldHost_setTierMem (s : State) (k : Nat) (t : Memory) : (s.setTierMem k t).mem.heldHost = s.mem.heldHost := by
  rw [State.setTierMem_frame]

theorem State.copyMove_of_none (hh : s.mem.heldHost = []) : s.copyMove m =
    (s.bytesMoved m).editPages (s.pagesOfFrame (eTier (s.pentry m.ctx m.page)) m.old) (entryMoved m.new) := by
  have hnone : ((s.bytesMoved m).editPages (s.pagesOfFrame (eTier (s.pentry m.ctx m.page)) m.old) (entryMoved m.new)).mem.heldHost = [] :=
    (State.heldHost_editPages ..).trans ((State.heldHost_setTierMem ..).trans hh)
  exact State.retryHost_of_none hnone

theorem State.mread_bytesMoved (ht : eTier (s.pentry m.ctx m.page) < 2) (x : Nat) :
    mread ((s.bytesMoved m).tierMem (eTier (s.pentry m.ctx m.page))) x =
      if m.new * 65536 ≤ x ∧ x < m.new * 65536 + 65536 then
        mread (s.tierMem (eTier (s.pentry m.ctx m.page))) (m.old * 65536 + (x - m.new * 65536))
      else mread (s.tierMem (eTier (s.pentry m.ctx m.page))) x :=
  (congrArg (fun t => mread t x) (s.tierMem_setTierMem (eTier (s.pentry m.ctx m.page)) _ (.inl ht))).trans (mread_mcopy ..)

end

/-! ## The retirement list -/

/-- What a list entry leaves: the list and its count of writes alone change. -/
theorem State.listFrame_frame (s : State) (tier f reason : Nat) : s.listFrame tier f reason =
    { s with ctl := { s.ctl with storeCnt := (s.listFrame tier f reason).ctl.storeCnt }
             mem := { s.mem with retired := (s.listFrame tier f reason).mem.retired } } := by
  unfold State.listFrame
  split
  · rfl
  · rfl

/-- A list entry names its frame. -/
theorem listEntry_fields {tier f : Nat} (reason : Nat) (ht : tier < 4) (hf : f < 2 ^ 27) :
    getField (BitVec.ofNat 32 (f % 2 ^ 27 + 2 ^ 27 * (reason % 8) + 2 ^ 30 * tier)) 30 2 = tier ∧
      getField (BitVec.ofNat 32 (f % 2 ^ 27 + 2 ^ 27 * (reason % 8) + 2 ^ 30 * tier)) 0 27 = f := by
  unfold getField field
  rw [BitVec.toNat_ofNat]
  omega

theorem State.isRetired_listFrame {s : State} {tier f : Nat} (reason : Nat) (ht : tier < 4) (hf : f < 2 ^ 27) (hroom : s.mem.retired.length < 8192) :
    (s.listFrame tier f reason).isRetired tier f = true := by
  unfold State.listFrame
  by_cases h : s.isRetired tier f = true
  · rw [h, Bool.true_or, if_pos rfl, h]
  · rw [if_neg (by simpa [h] using hroom)]
    unfold State.isRetired
    obtain ⟨htier, hframe⟩ := listEntry_fields reason ht hf
    rw [List.any_append, List.any_cons, htier, hframe]
    simp

/-- A MEMORY report starts no reaction of the collector's. -/
theorem State.report_memory (s : State) (u : Nat) (info : W32) : s.report (srcId 8 u) info = s.collect (srcId 8 u) info false := by
  rw [State.report, State.react, srcId_class u (by decide)]
  rfl

theorem State.mem_report_memory (s : State) (u : Nat) (info : W32) : (s.report (srcId 8 u) info).mem = s.mem := by
  rw [State.report_memory]
  exact congrArg Kept.mem (s.standing_collect ..)

/-- A move that starts takes no frame from those that wait. -/
theorem State.retireQ_startMove {s : State} (hm : s.mem.moving = none) (c p reason : Nat) : (s.startMove c p reason).mem.retireQ = s.mem.retireQ := by
  unfold State.startMove
  extract_lets e tier
  split
  · rfl
  · split
    · next h => rw [hm] at h; exact nomatch h
    · split
      · rw [State.mem_moduleFault, State.mem_report_memory]
      · rw [State.editPages_frame]
        exact (s.takeFrame_frame ..).2.2.2

/-- The next frame that waits: its page begins to move, or it is listed. -/
def State.retireOne (s : State) (q : Nat × Nat × Nat) : State :=
  match (s.pagesOfFrame q.1 q.2.1).head? with
  | some p => s.startMove p.1 p.2 q.2.2
  | none => s.listFrame q.1 q.2.1 q.2.2

theorem State.retireQ_retireOne {s : State} (hm : s.mem.moving = none) (q : Nat × Nat × Nat) : (s.retireOne q).mem.retireQ = s.mem.retireQ := by
  unfold State.retireOne
  split
  · exact State.retireQ_startMove hm ..
  · rw [State.listFrame_frame]

theorem State.retireNext_cons {s : State} {q : Nat × Nat × Nat} {r : List (Nat × Nat × Nat)} (h : s.mem.retireQ = q :: r) (n : Nat) :
    s.retireNext (n + 1) = (let s2 := ({ s with mem := { s.mem with retireQ := r } } : State).retireOne q
      if s2.mem.moving.isSome then s2 else s2.retireNext n) := by
  rw [State.retireNext, h]
  rfl

/-- The frames that wait are taken in their order, until a page moves or none is left. -/
theorem State.retireNext_takes (n : Nat) {s : State} (hm : s.mem.moving = none) (hn : s.mem.retireQ.length = n) :
    ((s.retireNext n).mem.moving.isSome = true ∨ (s.retireNext n).mem.retireQ = []) ∧
      ∃ l, s.mem.retireQ = l ++ (s.retireNext n).mem.retireQ ∧ (s.mem.retireQ ≠ [] → l ≠ []) := by
  induction n generalizing s with
  | zero =>
    have hnil : s.mem.retireQ = [] := List.length_eq_zero_iff.mp hn
    exact ⟨.inr hnil, [], rfl, fun h => absurd hnil h⟩
  | succ n ih =>
    obtain ⟨q, r, hq⟩ := List.exists_cons_of_length_eq_add_one hn
    rw [State.retireNext_cons hq]
    dsimp only
    have hr : (({ s with mem := { s.mem with retireQ := r } } : State).retireOne q).mem.retireQ = r :=
      State.retireQ_retireOne (s := { s with mem := { s.mem with retireQ := r } }) hm q
    generalize ({ s with mem := { s.mem with retireQ := r } } : State).retireOne q = s2 at hr ⊢
    split
    · next hmoves => exact ⟨.inl hmoves, [q], by rw [hr, hq]; rfl, fun _ => List.cons_ne_nil _ _⟩
    · next hstill =>
      have hlen : s2.mem.retireQ.length = n := by
        rw [hr]
        rw [hq, List.length_cons] at hn
        omega
      obtain ⟨hend, l, hl, -⟩ := ih (Option.not_isSome_iff_eq_none.mp hstill) hlen
      exact ⟨hend, q :: l, by rw [hq, ← hr, hl, List.cons_append, ← hl], fun _ => List.cons_ne_nil _ _⟩

/-! ## INVAL_COMPLETE -/

/-- The end of a move: its frame listed, before the next that waits. -/
def State.moveEnded (s : State) (m : Move) : State :=
  ({ s with mem := { s.mem with inval := none, moving := none } } : State).listFrame (eTier (s.pentry m.ctx m.page)) m.old m.reason

section
variable {s : State} {i : Nat × Nat × Nat} (hi : s.mem.inval = some i)
include hi

theorem answers_invalComplete_still (hm : s.mem.moving = none) :
    Answers .invalComplete s (fun t => t = { s with mem := { s.mem with inval := none } }) := by
  refine ⟨_, rfl, ?_⟩
  unfold State.invalComplete
  simp only [hi, hm]

theorem State.invalComplete_of_second {m : Move} (hm : s.mem.moving = some m) (h2 : m.stage = 2) : s.invalComplete = (s.moveEnded m).nextRetire := by
  unfold State.invalComplete
  simp only [hi, hm, if_neg (show ¬ m.stage = 1 by omega)]
  rfl

theorem State.invalComplete_of_first {m : Move} (hm : s.mem.moving = some m) (h1 : m.stage = 1) :
    s.invalComplete = ({ s with mem := { s.mem with inval := none } } : State).copyMove m := by
  unfold State.invalComplete
  simp only [hi, hm, if_pos h1]

end

theorem State.moveEnded_frame (s : State) (m : Move) : s.moveEnded m =
    { s with ctl := { s.ctl with storeCnt := (s.moveEnded m).ctl.storeCnt }
             mem := { s.mem with inval := none, moving := none, retired := (s.moveEnded m).mem.retired } } :=
  State.listFrame_frame ..

theorem State.nextRetire_of_still {s : State} (h : s.mem.moving = none) : s.nextRetire = s.retireNext s.mem.retireQ.length :=
  if_neg (by rw [h]; exact Bool.false_ne_true)

section
variable {s : State} {i : Nat × Nat × Nat} {m : Move} (hi : s.mem.inval = some i) (hm : s.mem.moving = some m)
include hi hm

/-- The first phase's end, of an unshared frame: the bytes, the entry in both copies, and the second invalidation. -/
theorem answers_invalComplete_first (h1 : m.stage = 1) (hh : s.mem.heldHost = []) (hnew : m.new < 2 ^ 27)
    (ht : eTier (s.pentry m.ctx m.page) < 2) (hl : s.pagesOfFrame (eTier (s.pentry m.ctx m.page)) m.old = [(m.ctx, m.page)]) :
    Answers .invalComplete s (fun t =>
          let tier := eTier (s.pentry m.ctx m.page)
          (∀ x, x < 65536 → mread (t.tierMem tier) (m.new * 65536 + x) = mread (s.tierMem tier) (m.old * 65536 + x)) ∧
          (∀ x, ¬ (m.new * 65536 ≤ x ∧ x < m.new * 65536 + 65536) → mread (t.tierMem tier) x = mread (s.tierMem tier) x) ∧
          eFrame (t.pentry m.ctx m.page) = m.new ∧ eMov (t.pentry m.ctx m.page) = false ∧
          tget 0 t.mem.pmapCopy (pageKey m.ctx m.page) = t.pentry m.ctx m.page ∧ t.mem.moving = some { m with stage := 2 } ∧
          t.mem.inval = some (m.ctx, m.page, 1)) := by
  have hdone := (State.invalComplete_of_first hi hm h1).trans (State.copyMove_of_none hh)
  rw [show ({ s with mem := { s.mem with inval := none } } : State).pagesOfFrame
    (eTier (({ s with mem := { s.mem with inval := none } } : State).pentry m.ctx m.page)) m.old = [(m.ctx, m.page)] from hl] at hdone
  have hread := State.mread_bytesMoved (s := { s with mem := { s.mem with inval := none } }) (m := m) ht
  refine ⟨_, congrArg ok hdone, ?_⟩
  generalize hb : ({ s with mem := { s.mem with inval := none } } : State).bytesMoved m = b at hread ⊢
  obtain ⟨⟨hframe, hmov⟩, hcopy⟩ := b.pentry_editPages (entryMoved m.new) (P := fun e => eFrame e = m.new ∧ eMov e = false)
    (fun e => ⟨eFrame_entryMoved hnew e, eMov_entryMoved hnew e⟩) (l := [(m.ctx, m.page)]) (c := m.ctx) (p := m.page) List.mem_cons_self
  refine ⟨fun x hx => ?_, fun x hx => ?_, hframe, hmov, hcopy, ?_, rfl⟩
  · rw [State.tierMem_editPages]
    refine (hread _).trans ((if_pos (by omega)).trans ?_)
    rw [Nat.add_sub_cancel_left]
    rfl
  · rw [State.tierMem_editPages]
    exact (hread _).trans (if_neg hx)
  · rw [State.moving_editPages, ← hb]
    rfl

theorem answers_invalComplete_second (h2 : m.stage = 2) (hq : s.mem.retireQ = []) : Answers .invalComplete s (fun t =>
        t.mem.moving = none ∧ t.mem.inval = none ∧ t.mem.pmap = s.mem.pmap ∧ t.mem.tier1 = s.mem.tier1 ∧ t.mem.tier2 = s.mem.tier2 ∧
        (s.mem.retired.length < 8192 → m.old < 2 ^ 27 → t.isRetired (eTier (s.pentry m.ctx m.page)) m.old = true)) := by
  have hframe := s.moveEnded_frame m
  have hlen : (s.moveEnded m).mem.retireQ.length = 0 := by rw [hframe]; exact congrArg List.length hq
  have hdone : s.invalComplete = s.moveEnded m := by
    rw [State.invalComplete_of_second hi hm h2, State.nextRetire_of_still (by rw [hframe]), hlen]
    rfl
  refine ⟨_, congrArg ok hdone, by rw [hframe], by rw [hframe], by rw [hframe], by rw [hframe], by rw [hframe], fun hroom hold => ?_⟩
  have htier : eTier (s.pentry m.ctx m.page) < 4 := Nat.mod_lt _ (by decide)
  exact State.isRetired_listFrame (s := { s with mem := { s.mem with inval := none, moving := none } }) m.reason htier hold hroom

theorem answers_invalComplete_waiting (h2 : m.stage = 2) : Answers .invalComplete s (fun t =>
        (t.mem.moving.isSome = true ∨ t.mem.retireQ = []) ∧
        ∃ l, s.mem.retireQ = l ++ t.mem.retireQ ∧ (s.mem.retireQ ≠ [] → l ≠ [])) := by
  have hframe := s.moveEnded_frame m
  have hstill : (s.moveEnded m).mem.moving = none := by rw [hframe]
  have hwait : (s.moveEnded m).mem.retireQ = s.mem.retireQ := by rw [hframe]
  have hdone := (State.invalComplete_of_second hi hm h2).trans (State.nextRetire_of_still hstill)
  have htakes := State.retireNext_takes _ hstill rfl
  rw [hwait] at htakes hdone
  exact ⟨_, congrArg ok hdone, htakes⟩

end

/-! ## The statement -/

/-- Settles O36: the edits of entries and the phases of a move, and an induction on the frames that wait. -/
theorem invalidationsAndPageMoves : Obligations.InvalidationsAndPageMoves := by
  unfold Obligations.InvalidationsAndPageMoves
  refine ⟨answers_inval, fun s ctx page f hp hv ht hm hf => answers_pageMove hp hv ht hm hf, fun s i hi => ⟨answers_invalComplete_still hi,
    fun m hm h1 hh hnew ht hl => answers_invalComplete_first hi hm h1 hh hnew ht hl,
    fun m hm h2 hq => answers_invalComplete_second hi hm h2 hq, fun m hm h2 => answers_invalComplete_waiting hi hm h2⟩⟩

end Sys2Proof.Machine

/-! A BAR2 read of a page that is rebuilt (R188, R210, R211): its span may run beyond the page, and with it beyond the frame that the
rebuilding makes good. -/

namespace Sys2Proof.Machine

/-! ## A page rebuilt -/

/-- Poison marks of other frames stand where a frame is taken. -/
theorem State.poison_takeFrame {s : State} {q : Nat × Nat} (tier : Nat) {f : Nat} (hq : q ∈ s.mem.poison) (hf : q.2 / 1024 ≠ f) :
    q ∈ (s.takeFrame tier f).mem.poison := by
  have hzero : q ∈ (s.zeroFrame tier f).mem.poison := by
    unfold State.zeroFrame
    rw [State.setTierMem_frame]
    exact List.mem_filter.mpr ⟨hq, by simp [hf]⟩
  unfold State.takeFrame
  split
  · exact hzero
  · exact hzero

/-- Poison marks of other frames stand where a page is written whole. -/
theorem State.poison_writeTier_page {s : State} {q : Nat × Nat} {f : Nat} {l : List Byte} (hl : l.length = pageBytes) (hq : q ∈ s.mem.poison)
    (hf : q.2 / 1024 ≠ f) : q ∈ (s.writeTier 1 f 0 l).mem.poison := by
  refine List.mem_filter.mpr ⟨hq, ?_⟩
  have hout : ¬ (f * pageBytes + 0 ≤ 64 * q.2 ∧ 64 * q.2 + 64 ≤ f * pageBytes + 0 + l.length) := by
    rw [hl, pageBytes]
    omega
  rw [decide_eq_false hout, Bool.and_false]
  rfl

theorem eFrame_mkEntry (r w hr hw prot : Bool) (tier : Nat) {f : Nat} (hf : f < 2 ^ 27) : eFrame (mkEntry r w hr hw prot tier f) = f := by
  have h1 := bnat_le_one r
  have h2 := bnat_le_one w
  have h3 := bnat_le_one hr
  have h4 := bnat_le_one hw
  have h5 := bnat_le_one prot
  have ht : tier % 4 < 4 := Nat.mod_lt _ (by decide)
  rw [eFrame, mkEntry, field, BitVec.toNat_ofNat, Nat.mod_eq_of_lt hf]
  omega

/-- A page remapped to a frame of tier 2 that holds given bytes. -/
def State.rebuiltWith (s : State) (c p f : Nat) (l : List Byte) : State :=
  let e := s.pentry c p
  ((s.takeFrame 1 f).writeTier 1 f 0 l).setPentry c p (mkEntry (eR e) (eW e) (eHR e) (eHW e) (eProt e) 1 f)

/-- The bytes and marks of the frame change, those of other frames stand (R188). -/
theorem State.rebuiltWith_result {s : State} {f : Nat} {l : List Byte} (c p : Nat) (hlt : f < 2 ^ 27) (hl : l.length = pageBytes) :
    eFrame ((s.rebuiltWith c p f l).pentry c p) = f ∧ (s.rebuiltWith c p f l).out = s.out ∧
      (∀ q ∈ s.mem.poison, q.2 / 1024 ≠ f → q ∈ (s.rebuiltWith c p f l).mem.poison) ∧
      ∀ x, f * 65536 + 65536 ≤ x → mread (s.rebuiltWith c p f l).mem.tier2 x = mread s.mem.tier2 x := by
  refine ⟨?frame, ?out, fun q hq hqf => ?poison, fun x hx => ?bytes⟩
  case frame => exact (congrArg eFrame (tget_tset_same ..)).trans (eFrame_mkEntry _ _ _ _ _ _ hlt)
  case out =>
    have hout : (s.rebuiltWith c p f l).out = (s.takeFrame 1 f).out := rfl
    rw [hout, (s.takeFrame_frame 1 f).1]
  case poison =>
    have hmarks : (s.rebuiltWith c p f l).mem.poison = ((s.takeFrame 1 f).writeTier 1 f 0 l).mem.poison := rfl
    rw [hmarks]
    exact State.poison_writeTier_page hl (State.poison_takeFrame 1 hq hqf) hqf
  case bytes =>
    have hbytes : (s.rebuiltWith c p f l).mem.tier2 = mwrite (mclear s.mem.tier2 (f * pageBytes) pageBytes) (f * pageBytes + 0) l := rfl
    rw [hbytes, mread_mwrite, mread_mclear, hl, pageBytes, if_neg (by omega), if_neg (by omega)]

/-- Windows, stops and clocks alone hold a request. -/
theorem State.spanHeld_congr {s : State} {m : Mem} (h1 : m.window1 = s.mem.window1) (h2 : m.window2 = s.mem.window2) (e : Ember)
    (tier frame off n : Nat) : ({ s with mem := m, ember := e } : State).spanHeld tier frame off n = s.spanHeld tier frame off n := by
  unfold State.spanHeld
  rw [← h1, ← h2]
  rfl

theorem State.windows_takeFrame (s : State) (tier f : Nat) :
    (s.takeFrame tier f).mem.window1 = s.mem.window1 ∧ (s.takeFrame tier f).mem.window2 = s.mem.window2 := by
  unfold State.takeFrame State.zeroFrame
  rw [State.setTierMem_frame]
  split
  · exact ⟨rfl, rfl⟩
  · exact ⟨rfl, rfl⟩

theorem State.writeTier_frame (s : State) (tier f off : Nat) (l : List Byte) : ∃ (m : Mem) (e : Ember),
    s.writeTier tier f off l = { s with mem := m, ember := e } ∧ m.window1 = s.mem.window1 ∧ m.window2 = s.mem.window2 := by
  unfold State.writeTier
  dsimp only
  rw [State.setTierMem_frame]
  split
  · exact ⟨_, _, rfl, rfl, rfl⟩
  · exact ⟨_, _, rfl, rfl, rfl⟩

theorem State.rebuiltWith_frame (s : State) (c p f : Nat) (l : List Byte) : ∃ (m : Mem) (e : Ember),
    s.rebuiltWith c p f l = { s with mem := m, ember := e } ∧ m.window1 = s.mem.window1 ∧ m.window2 = s.mem.window2 := by
  obtain ⟨hw1, hw2⟩ := s.windows_takeFrame 1 f
  obtain ⟨m, e, hm, h1, h2⟩ := (s.takeFrame 1 f).writeTier_frame 1 f 0 l
  unfold State.rebuiltWith State.setPentry
  rw [hm, (s.takeFrame_frame 1 f).1]
  exact ⟨_, _, rfl, h1.trans hw1, h2.trans hw2⟩

theorem State.spanHeld_rebuiltWith (s : State) (c p f : Nat) (l : List Byte) (tier frame off n : Nat) :
    (s.rebuiltWith c p f l).spanHeld tier frame off n = s.spanHeld tier frame off n := by
  obtain ⟨m, e, hm, h1, h2⟩ := s.rebuiltWith_frame c p f l
  rw [hm, State.spanHeld_congr h1 h2]

theorem State.rebuildPage_of_free {s : State} {c p f : Nat} (hf : (List.range 16).findSome? (fun i => s.freeFrame 1 ((p + i) % 16)) = some f) :
    s.rebuildPage c p = some (s.rebuiltWith c p f ((List.range pageBytes).map (fun i => Config.remoteByte (pageKey c p) i))) := by
  unfold State.rebuildPage State.rebuiltWith
  rw [hf]

theorem State.mem_hostError (s : State) (off : Nat) : (s.hostError off).mem = s.mem := by
  rw [State.hostError, State.report_host]
  exact congrArg Kept.mem (s.standing_collect ..)

theorem exec_bar2Read {s : State} (h : s.hostUp = true) (off : BitVec 34) (len : BitVec 13) : exec (.bar2Read off len) s =
    .next (s.hostRead (s.received { isWrite := false, off := off.toNat, len := len.toNat })) := by
  have hexec : exec (.bar2Read off len) s =
      ok (if s.hostUp then s.hostAccess (s.received { isWrite := false, off := off.toNat, len := len.toNat }) else s) := rfl
  rw [hexec, if_pos h]
  rfl

/-- A read of such a page goes on in its new frame. -/
theorem State.hostRead_of_rebuilt {s t : State} {h : HostAccess} (hr : (s.access none h.ctx (h.dva / pageBytes) false).2 = .fault 2)
    (hv : eV ((s.access none h.ctx (h.dva / pageBytes) false).1.pentry h.ctx (h.dva / pageBytes)) = true)
    (ht : (s.access none h.ctx (h.dva / pageBytes) false).1.rebuildPage h.ctx (h.dva / pageBytes) = some t) :
    let f := eFrame (t.pentry h.ctx (h.dva / pageBytes))
    s.hostRead h = if t.spanHeld 1 f (h.dva % pageBytes) h.len then t.holdHost h
      else if t.spanBad 1 f (h.dva % pageBytes) h.len then (t.hostError h.off).emit (.readData (List.replicate h.len 0xFF))
      else t.emit (.readData (mreadN (t.tierMem 1) (f * pageBytes + h.dva % pageBytes) h.len)) := by
  unfold State.hostRead
  simp only [hr, hv, ht, and_self, if_true]

/-! ## The counterexample -/

/-- The entry of a page of tier 3. -/
def pageInTier3 : W64 := mkEntry true true true true false 2 5

/-- A module without a cartridge, whose page 0 lies in tier 3; frame 86,032 of tier 2 is the lowest free one, and the first line of
the frame after it is poisoned. -/
def awayBesidePoison : State :=
  { State.reset with
    ctl := { linkUp := true }
    pwr := { stage := 8, diesUp := true }
    clk := { started := true }
    mem := { pmap := [(0, pageInTier3)], pmapCopy := [(0, pageInTier3)], pmBase := pmBases.1, pmShd := pmBases.2, poison := [(1, 86033 * 1024)] } }

/-- A read of the last byte of page 0 and of the byte after it. -/
def lastByteRead : HostAccess := { isWrite := false, off := 65535, len := 2, dva := 65535 }

theorem received_lastByteRead :
    awayBesidePoison.received { isWrite := false, off := (65535 : BitVec 34).toNat, len := (2 : BitVec 13).toNat } = lastByteRead := by decide

/-- Its translation, which finds the page's entry by a fill and its cartridge away. -/
def awayTranslated : State × Access := awayBesidePoison.access none lastByteRead.ctx (lastByteRead.dva / pageBytes) false

theorem awayTranslated_result : awayTranslated.2 = .fault 2 ∧ eV (awayTranslated.1.pentry 0 0) = true ∧ awayTranslated.1.out = [] ∧
    (1, 86033 * 1024) ∈ awayTranslated.1.mem.poison ∧ awayTranslated.1.mem.tier2 = [] ∧ awayTranslated.1.spanHeld 1 86032 65535 2 = false := by decide +kernel

theorem freeFrame_awayBesidePoison : (List.range 16).findSome? (fun i => awayBesidePoison.freeFrame 1 ((0 + i) % 16)) = some 86032 := by
  decide +kernel

theorem freeFrame_awayTranslated : (List.range 16).findSome? (fun i => awayTranslated.1.freeFrame 1 ((0 + i) % 16)) = some 86032 := by
  decide +kernel

/-- The second line of the span is the first of the next frame. -/
theorem State.spanBad_beyond {t : State} (h : (1, 86033 * 1024) ∈ t.mem.poison) : t.spanBad 1 86032 65535 2 = true := by
  refine List.any_eq_true.mpr ⟨1, by decide, ?_⟩
  have hc : t.mem.poison.contains (1, 86032 * 1024 + (65535 / 64 + 1)) = true := List.contains_iff_mem.mpr h
  rw [State.lineBad, hc, Bool.true_or]

/-- The state with the page rebuilt. -/
theorem awayRebuilt : ∃ t, awayTranslated.1.rebuildPage 0 0 = some t ∧ eFrame (t.pentry 0 0) = 86032 ∧ t.out = [] ∧
    (1, 86033 * 1024) ∈ t.mem.poison ∧ mread t.mem.tier2 (86032 * 65536 + 65535 + 1) = 0 ∧ t.spanHeld 1 86032 65535 2 = false := by
  obtain ⟨-, -, hout, hpoison, htier, hheld⟩ := awayTranslated_result
  have hlen : ((List.range pageBytes).map (fun i => Config.remoteByte (pageKey 0 0) i)).length = pageBytes :=
    (List.length_map _).trans List.length_range
  obtain ⟨hframe, hout2, hpoison2, hbytes⟩ := awayTranslated.1.rebuiltWith_result 0 0 (show 86032 < 2 ^ 27 by decide) hlen
  refine ⟨_, State.rebuildPage_of_free freeFrame_awayTranslated, hframe, hout2.trans hout, hpoison2 _ hpoison (by decide), ?_, ?_⟩
  rotate_left
  · rw [State.spanHeld_rebuiltWith, hheld]
  rw [hbytes _ (by decide), htier]
  rfl

/-- The read answers 0xFF for a byte of tier 2 that is 0, and reports a host access error. -/
theorem hostRead_lastByteRead : ∃ t : State, awayBesidePoison.hostRead lastByteRead = (t.hostError 65535).emit (.readData [0xFF, 0xFF]) ∧
    mread t.mem.tier2 (86032 * 65536 + 65535 + 1) = 0 := by
  obtain ⟨hfault, hv, -⟩ := awayTranslated_result
  obtain ⟨t, ht, hframe, hout, hpoison, hbyte, hheld⟩ := awayRebuilt
  have hread : awayBesidePoison.hostRead lastByteRead = if t.spanHeld 1 (eFrame (t.pentry 0 0)) 65535 2 then t.holdHost lastByteRead
      else if t.spanBad 1 (eFrame (t.pentry 0 0)) 65535 2 then (t.hostError 65535).emit (.readData [0xFF, 0xFF])
      else t.emit (.readData (mreadN (t.tierMem 1) (eFrame (t.pentry 0 0) * pageBytes + 65535) 2)) :=
    State.hostRead_of_rebuilt (h := lastByteRead) hfault hv ht
  rw [hframe, hheld, State.spanBad_beyond hpoison, if_neg Bool.false_ne_true, if_pos rfl] at hread
  exact ⟨t, hread, hbyte⟩

/-! ## The statement -/

/-- Refutes O35: the read of two bytes from the last one of a page on: the frame to which the page is rebuilt is in order, the line
after it is poisoned, so the answer is 0xFF (R211), not the bytes of tier 2. -/
theorem not_hostAccessThroughBar2 : ¬ Obligations.HostAccessThroughBar2 := by
  unfold Obligations.HostAccessThroughBar2
  intro h
  obtain ⟨-, -, -, -, haway⟩ := h awayBesidePoison 65535 (by decide)
  obtain ⟨r, hr, -, -, hout⟩ := (haway (by decide)).1 2 86032 (by decide +kernel) (by decide +kernel) (by decide +kernel) (by decide +kernel)
    freeFrame_awayBesidePoison (by decide +kernel)
  obtain ⟨t, ht, hbyte⟩ := hostRead_lastByteRead
  have hexec := (exec_bar2Read (s := awayBesidePoison) (by decide) 65535 2).trans
    (congrArg (fun q => Host.Outcome.next (awayBesidePoison.hostRead q)) received_lastByteRead)
  have he : r = awayBesidePoison.hostRead lastByteRead := Host.Outcome.next.inj (hr.symm.trans hexec)
  have hmem : r.mem = t.mem := by
    rw [he, ht]
    exact State.mem_hostError t 65535
  have hlast : r.out.getLast? = some (.readData [0xFF, 0xFF]) := by
    rw [he, ht]
    exact List.getLast?_concat
  rw [hout, List.getLast?_concat, hmem] at hlast
  have hbytes := Out.readData.inj (Option.some.inj hlast)
  have hsecond : mread t.mem.tier2 (86032 * 65536 + 65535 + 1) = 0xFF := congrArg (fun l : List Byte => l.getD 1 0) hbytes
  rw [hbyte] at hsecond
  exact absurd hsecond (by decide)

end Sys2Proof.Machine

/-! The cartridge bay and the panel (R208, R316, R320, R321, R351 to R353): insertion, the header, the life record, ejects, removals, the
latch and the button. -/

namespace Sys2Proof.Machine

/-! ## CART_STATE and its report -/

theorem Noted.mem {s t : State} (h : Noted s t) : t.mem = s.mem := by rw [h]
theorem Noted.ember {s t : State} (h : Noted s t) : t.ember = s.ember := by rw [h]
theorem Noted.io {s t : State} (h : Noted s t) : t.io = s.io := by rw [h]
theorem Noted.net {s t : State} (h : Noted s t) : t.net = s.net := by rw [h]
theorem Noted.attnDown {s t : State} (h : Noted s t) : t.flt.attnDown = s.flt.attnDown := by rw [h]
theorem Noted.latchOpen {s t : State} (h : Noted s t) : t.flt.latchOpen = s.flt.latchOpen := by rw [h]
theorem Noted.waiting {s t : State} (h : Noted s t) : t.ctl.waiting = s.ctl.waiting := by rw [h]
theorem Noted.results {s t : State} (h : Noted s t) : t.ctl.results = s.ctl.results := by rw [h]

theorem Noted.ior {s t : State} (h : Noted s t) (o : Nat) : t.ior o = s.ior o := by rw [State.ior, h.io, State.ior]

theorem noted_report_cart (s : State) (u : Nat) (info : W32) : Noted s (s.report (srcId 3 u) info) := by
  rw [State.report_cart]
  exact noted_collect ..

/-- A report of a cartridge's state is counted (R333). -/
theorem State.bar_report_cart (s : State) (u : Nat) (info : W32) : (s.report (srcId 3 u) info).bar 0x2004C = s.bar 0x2004C + 1 := by
  rw [State.report_cart]
  have h := s.bar_collect (srcId 3 u) info false (by rw [srcId_class u (by decide)]; decide)
  rwa [srcId_class u (by decide)] at h

/-- Words above the collector's stand through a report. -/
theorem State.bar_collect_of_gt (s : State) (src : Nat) (info : W32) (forced : Bool) {o : Nat} (ho : 0x30000 < o) :
    (s.collect src info forced).bar o = s.bar o := by
  have h := congrArg (fun k : Kept => k.word o) (s.standing_collect src info forced)
  rwa [State.standing_word _ ho, State.standing_word _ ho] at h

/-- CART_STATE set: beside it, what a report changes. -/
theorem noted_setCartState (s : State) (st : Nat) : Noted { s with ember := { s.ember with cartState := st } } (s.setCartState st) := by
  unfold State.setCartState
  split
  · next h =>
    subst h
    exact .refl s
  · exact (Noted.of_counted (counted_cause _ 2)).trans (noted_report_cart ..)

section
variable (s : State) (st : Nat)

theorem State.ember_setCartState : (s.setCartState st).ember = { s.ember with cartState := st } := (noted_setCartState s st).ember

theorem State.ior_setCartState (o : Nat) : (s.setCartState st).ior o = s.ior o := (noted_setCartState s st).ior o

theorem State.bar_setCartState {o : Nat} (ho : 0x30000 < o) : (s.setCartState st).bar o = s.bar o := by
  unfold State.setCartState
  split
  · rfl
  · rw [State.report_cart, State.bar_collect_of_gt _ _ _ _ ho, (counted_cause _ 2).words _ (by omega) (by omega)]
    rfl

/-- A change of CART_STATE is counted. -/
theorem State.count_setCartState : (s.setCartState st).bar 0x2004C = if s.ember.cartState = st then s.bar 0x2004C else s.bar 0x2004C + 1 := by
  unfold State.setCartState
  split
  · rfl
  · rw [State.bar_report_cart, (counted_cause _ 2).words _ (by decide) (by decide)]
    rfl

end

/-! ## The header and the life record -/

theorem State.showLife_frame (s : State) (k : Cartridge) : s.showLife k = { s with bar0 := (s.showLife k).bar0 } :=
  List.foldlRecOn (motive := fun t : State => t = { s with bar0 := t.bar0 }) _ _ rfl fun t ht i _ => by
    rw [ht]
    rfl

theorem State.bar_showLife (s : State) (k : Cartridge) {i : Nat} (hi : i < 8) :
    (s.showLife k).bar (0x50020 + 4 * i) = BitVec.ofNat 32 (leAt (lifeBytes (some k)) (4 * i) 4) := by
  refine foldl_establishes (P := fun t : State => t.bar (0x50020 + 4 * i) = BitVec.ofNat 32 (leAt (lifeBytes (some k)) (4 * i) 4)) (a := i)
    (fun t => (State.bar_setBar ..).trans (if_pos rfl)) (fun t j ht => ?_) (List.mem_range.mpr hi) s
  rw [State.bar_setBar]
  split
  · next h => rw [show j = i by omega]
  · exact ht

section
variable {s : State} {k : Cartridge} (hk : s.ember.cart = some k)
include hk

theorem answers_cartHeaderRead (hr : s.ember.cartRead = false) (h3 : 3 ≤ s.pwr.stage) : Answers .cartHeaderRead s (fun t =>
    t.ember.cartRead = true ∧ t.ember.cartBase = true ∧ t.ember.cartState = headerState k ∧ t.ember.cart = some k ∧
    ∀ i, i < 8 → t.bar (0x50020 + 4 * i) = BitVec.ofNat 32 (leAt (lifeBytes (some k)) (4 * i) 4)) := by
  have hexec : exec .cartHeaderRead s = .next s.readHeader := congrArg ok (if_pos (by simp [hk, hr, h3]))
  refine ⟨_, hexec, ?_⟩
  unfold State.readHeader
  simp only [hk]
  rw [State.ember_setCartState]
  refine ⟨?_, ?_, rfl, ?_, fun i hi => ?_⟩
  · rw [State.showLife_frame]; rfl
  · rw [State.showLife_frame]; rfl
  · rw [State.showLife_frame]; rfl
  · rw [State.bar_setCartState _ _ (by omega)]
    exact State.bar_showLife _ k hi

theorem answers_lifeUpdate (rate : BitVec 32) (spare : BitVec 16) : Answers (.cartridgeLifeUpdate rate spare) s (fun t =>
    t.ember.cart = some { k with rate7d := rate, spareBp := spare } ∧ (∀ i, i < 8 → t.bar (0x50020 + 4 * i) =
      BitVec.ofNat 32 (leAt (lifeBytes (some { k with rate7d := rate, spareBp := spare })) (4 * i) 4)) ∧ t.mem = s.mem) := by
  let k1 : Cartridge := { k with rate7d := rate, spareBp := spare }
  let s1 := s.editCart (fun _ => k1)
  obtain ⟨s2, hs2⟩ : ∃ s2, s2 = s1.showLife k1 := ⟨_, rfl⟩
  have hup : s.lifeUpdate rate spare =
      if lifeState k1 == 3 && decide (1 ≤ s2.ember.cartState ∧ s2.ember.cartState ≤ 3) then s2.dropCartWrites.setCartState 4
      else if lifeState k1 ≠ getField (s.bar 0x50020) 8 8 then s2.report (srcId 3 0x182) (BitVec.ofNat 32 s2.ember.cartState) else s2 := by
    unfold State.lifeUpdate
    rw [hk, hs2]
  refine ⟨_, congrArg ok hup, ?_⟩
  have hframe : s2 = { s1 with bar0 := s2.bar0 } := by
    rw [hs2]
    exact s1.showLife_frame k1
  have hcart : s2.ember.cart = some k1 := by
    rw [hframe]
    exact congrArg (Option.map fun _ => k1) hk
  have hmem : s2.mem = s.mem := by rw [hframe]; rfl
  have hlife : ∀ i, i < 8 → s2.bar (0x50020 + 4 * i) = BitVec.ofNat 32 (leAt (lifeBytes (some k1)) (4 * i) 4) := fun i => by
    rw [hs2]
    exact s1.bar_showLife k1
  split
  · refine ⟨?_, fun i hi => ?_, ?_⟩
    · rw [State.ember_setCartState]; exact hcart
    · rw [State.bar_setCartState _ _ (by omega)]; exact hlife i hi
    · exact (noted_setCartState ..).mem.trans hmem
  · split
    · refine ⟨?_, fun i hi => ?_, ?_⟩
      · rw [(noted_report_cart ..).ember, hcart]
      · rw [State.report_cart, State.bar_collect_of_gt _ _ _ _ (by omega), hlife i hi]
      · exact (noted_report_cart ..).mem.trans hmem
    · exact ⟨hcart, hlife, hmem⟩

end

/-! ## Ejects -/

/-- Answers to waiting ejects are the slots' own. -/
theorem State.answerEjects_frame (s : State) {f : State → Slot → State} (hf : ∀ t k, f t k = { t with ctl := (f t k).ctl }) :
    s.answerEjects f = { s with ctl := (s.answerEjects f).ctl } := by
  unfold State.answerEjects
  refine List.foldlRecOn (motive := fun t : State => t = { s with ctl := t.ctl }) _ _ rfl fun t ht p _ => ?_
  rw [hf, ht]

theorem State.beginEject_result (s : State) : Noted { s with ember := { s.dropCartWrites.ember with ejectWait := false, cartState := 5 } } s.beginEject :=
  noted_setCartState _ 5

theorem State.cartEject_of_held {s : State} (hh : s.cartHeld = true) (hd : s.drainReads = false) (h5 : s.ember.cartState ≠ 5)
    (h6 : s.ember.cartState ≠ 6) (k : Slot) : s.cartEject k = (s.wait k (.cartEject k)).beginEject := by
  unfold State.cartEject
  rw [hh, hd, if_neg (by decide), if_neg (by decide), if_neg h6, if_neg h5]

theorem answers_cartEject_absent {s : State} (h : s.cartHeld = false) (k : Slot) :
    Answers (.cartEject k) s (fun t => t.outcome k = some { status := 0x0050 } ∧ t.ember = s.ember) := by
  have hexec : exec (.cartEject k) s = .next (s.deny k stABSENT) := congrArg ok (if_pos (by rw [h]; rfl))
  obtain ⟨houtcome, hframe⟩ := s.answer_uncounted k (r := { status := stABSENT }) (by decide)
  exact ⟨_, hexec, houtcome, by rw [State.deny, hframe]⟩

theorem answers_cartEject_held {s : State} (hh : s.cartHeld = true) (hd : s.drainReads = false) (h5 : s.ember.cartState ≠ 5)
    (h6 : s.ember.cartState ≠ 6) (k : Slot) : Answers (.cartEject k) s (fun t =>
      t.ember.cartState = 5 ∧ t.ember.cart = s.ember.cart ∧ getSlot t.ctl.waiting k = some (.cartEject k) ∧ t.ctl.results = s.ctl.results) := by
  have hn := (s.wait k (.cartEject k)).beginEject_result
  refine ⟨_, congrArg ok (State.cartEject_of_held hh hd h5 h6 k), by rw [hn.ember], by rw [hn.ember]; rfl, ?_, hn.results⟩
  rw [hn.waiting]
  exact getSlot_putSlot_same ..

/-- A slot that waits is listed. -/
theorem mem_of_getSlot {α : Type} {l : List (Slot × α)} {k : Slot} {v : α} (h : getSlot l k = some v) : (k, v) ∈ l := by
  induction l with
  | nil => exact nomatch h
  | cons p r ih =>
    rw [getSlot] at h
    split at h
    · next hp =>
      rw [← hp, ← Option.some.inj h]
      exact List.mem_cons_self
    · exact List.mem_cons_of_mem _ (ih h)

theorem getSlot_putSlot_ne {α : Type} {l : List (Slot × α)} {k j : Slot} {v : α} (h : j ≠ k) : getSlot (putSlot l k v) j = getSlot l j := by
  unfold putSlot
  induction l with
  | nil => exact if_neg (Ne.symm h)
  | cons p r ih =>
    by_cases hp : p.1 = k
    · rw [List.filter_cons_of_neg (by simpa using hp), ih, getSlot, if_neg (by rw [hp]; exact Ne.symm h)]
    · rw [List.filter_cons_of_pos (by simpa using hp), List.cons_append, getSlot, getSlot, ih]

/-- An answer is its slot's own. -/
theorem State.outcome_ok_ne (s : State) {k j : Slot} (h : j ≠ k) : (s.ok k).outcome j = s.outcome j := getSlot_putSlot_ne h

/-- Each eject that waits is answered. -/
theorem State.outcome_answerEjects {s : State} {k : Slot} (h : (k, Instr.cartEject k) ∈ s.ctl.waiting) :
    (s.answerEjects (fun s k => s.ok k)).outcome k = some { status := 0 } := by
  have hmade : ∀ t : State, (t.ok k).outcome k = some { status := 0 } := fun t => (t.okData_result k []).1
  unfold State.answerEjects
  refine foldl_establishes (P := fun t : State => t.outcome k = some { status := 0 }) (a := (k, Instr.cartEject k)) hmade (fun t p ht => ?_)
    (List.mem_filter.mpr ⟨h, rfl⟩) s
  by_cases hp : k = p.1
  · rw [← hp]
    exact hmade t
  · exact (t.outcome_ok_ne hp).trans ht

theorem answers_cartReady {s : State} {k : Slot} (h5 : s.ember.cartState = 5) (hw : getSlot s.ctl.waiting k = some (.cartEject k)) :
    Answers .cartReady s (fun t => t.ember.cartState = 6 ∧ t.outcome k = some { status := 0 } ∧ .bayReleased ∈ t.out) := by
  have hexec : exec .cartReady s = .next (((s.setCartState 6).emit .bayReleased).answerEjects (fun s k => s.ok k)) := congrArg ok (if_pos h5)
  have hframe := ((s.setCartState 6).emit .bayReleased).answerEjects_frame (f := fun s k => s.ok k) fun t k => (t.okData_result k []).2
  have hlisted : (k, Instr.cartEject k) ∈ ((s.setCartState 6).emit .bayReleased).ctl.waiting := by
    rw [show ((s.setCartState 6).emit .bayReleased).ctl.waiting = s.ctl.waiting from (noted_setCartState s 6).waiting]
    exact mem_of_getSlot hw
  refine ⟨_, hexec, ?_, ?_, ?_⟩
  · rw [hframe]
    exact congrArg Ember.cartState (s.ember_setCartState 6)
  · exact State.outcome_answerEjects hlisted
  · rw [hframe]
    exact List.mem_append_right _ (List.mem_singleton.mpr rfl)

/-! ## Removals and the latch -/

/-- The bay emptied: what it held is gone, the ejects that waited are answered. -/
theorem State.bayEmpty_frame (s : State) : ∃ m : State, Noted { s with io := m.io, ember := m.ember } m ∧ s.bayEmpty = { m with ctl := s.bayEmpty.ctl } ∧
    m.ember.cart = none ∧ m.ember.cartState = 0 ∧ (∀ o, m.ior o = if o = 0x3010 then 0 else s.ior o) ∧
    m.bar 0x2004C = if s.ember.cartState = 0 then s.bar 0x2004C else s.bar 0x2004C + 1 := by
  let s1 : State := { s with ember := { s.ember with cart := none, cartRead := false, cartGone := false, ejectWait := false } }
  have hn := noted_setCartState (s1.setIo 0x3010 0) 0
  have hframe := ((s1.setIo 0x3010 0).setCartState 0).answerEjects_frame (f := fun s k => s.deny k stABSENT)
    fun t k => (t.answer_uncounted k (r := { status := stABSENT }) (by decide)).2
  refine ⟨(s1.setIo 0x3010 0).setCartState 0, ?_, hframe, by rw [hn.ember]; rfl, by rw [hn.ember], fun o => ?_, (s1.setIo 0x3010 0).count_setCartState 0⟩
  · rw [hn.io, hn.ember]
    exact hn
  · rw [hn.ior]
    exact State.ior_setIo ..

theorem answers_cartRemoved {s : State} {k : Cartridge} (hk : s.ember.cart = some k) (h6 : s.ember.cartState = 6) :
    Answers .cartRemoved s (fun t => t.ember.cart = none ∧ t.ember.cartState = 0 ∧ t.ior 0x3010 = 0 ∧ t.ior 0x3028 = s.ior 0x3028) := by
  have hexec : exec .cartRemoved s = .next s.dropCartWrites.bayEmpty := congrArg ok (if_pos (by simp [hk, h6]))
  obtain ⟨m, -, hm, hcart, hstate, hior, -⟩ := s.dropCartWrites.bayEmpty_frame
  refine ⟨_, hexec, ?_⟩
  rw [hm]
  exact ⟨hcart, hstate, hior 0x3010, hior 0x3028⟩

/-- What a surprise removal that begins shows. -/
theorem State.surprise_result (s : State) : s.surprise.ior 0x3028 = s.ior 0x3028 + 1 ∧ (s.surprise.ior 0x3000).getLsbD 14 = true ∧
    s.surprise.ember.cartState = s.ember.cartState ∧ s.surprise.ember.cart = s.ember.cart ∧ s.surprise.ember.cartGone = true ∧
    s.surprise.bar 0x2004C = s.bar 0x2004C ∧ s.surprise.flt = s.flt := by
  have hcount : s.surprise.ior 0x3028 = (s.dropCartWrites.orIo 0x3000 0x4000).ior 0x3028 + 1 := (State.ior_setIo ..).trans (if_pos rfl)
  have hstat : s.surprise.ior 0x3000 = s.ior 0x3000 ||| 0x4000 :=
    (State.ior_setIo ..).trans ((if_neg (by decide)).trans ((State.ior_setIo ..).trans (if_pos rfl)))
  refine ⟨hcount.trans (congrArg (· + 1) ((State.ior_setIo ..).trans (if_neg (by decide)))), ?_, rfl, rfl, rfl, rfl, rfl⟩
  rw [hstat, BitVec.getLsbD_or]
  exact Bool.or_true _

section
variable {s : State} {k : Cartridge} (hk : s.ember.cart = some k) (h6 : s.ember.cartState ≠ 6) (h8 : 8 ≤ s.pwr.stage)
  (hg : s.ember.cartGone = false)
include hk h6 h8 hg

theorem answers_surpriseRemoval : Answers .surpriseRemoval s (fun t => t.ember.cart = none ∧ t.ember.cartState = 0 ∧
    t.ior 0x3028 = s.ior 0x3028 + 1 ∧ (t.ior 0x3000).getLsbD 14 = true ∧ t.bar 0x2004C = s.bar 0x2004C + 1) := by
  have hstays : ¬ (s.ember.cart.isNone || decide (s.ember.cartState = 6) || decide (s.pwr.stage < 8)) = true := by simp [hk, h6, h8]
  have hexec : exec .surpriseRemoval s =
      .next (if s.ember.cartState = 0 then s.surprise.bayEmpty.report (srcId 3 0x182) 0 else s.surprise.bayEmpty) :=
    congrArg ok ((if_neg hstays).trans (if_neg (by rw [hg]; exact Bool.false_ne_true)))
  obtain ⟨hcount, hstat, hold, -, -, hbar, -⟩ := s.surprise_result
  obtain ⟨m, -, hm, hcart, hstate, hior, hreported⟩ := s.surprise.bayEmpty_frame
  rw [hold, hbar] at hreported
  generalize s.surprise.bayEmpty = b at hm hexec
  have hresult : b.ember.cart = none ∧ b.ember.cartState = 0 ∧ b.ior 0x3028 = s.ior 0x3028 + 1 ∧ (b.ior 0x3000).getLsbD 14 = true := by
    rw [hm]
    exact ⟨hcart, hstate, (hior 0x3028).trans hcount, (congrArg (fun w : W32 => w.getLsbD 14) (hior 0x3000)).trans hstat⟩
  have hbb : b.bar 0x2004C = if s.ember.cartState = 0 then s.bar 0x2004C else s.bar 0x2004C + 1 := by
    rw [hm]
    exact hreported
  refine ⟨_, hexec, ?_⟩
  by_cases h0 : s.ember.cartState = 0
  · rw [if_pos h0] at hbb ⊢
    rw [(noted_report_cart ..).ember, (noted_report_cart ..).ior, (noted_report_cart ..).ior, State.bar_report_cart, hbb]
    obtain ⟨h1, h2, h3, h4⟩ := hresult
    exact ⟨h1, h2, h3, h4, rfl⟩
  · rw [if_neg h0] at hbb ⊢
    obtain ⟨h1, h2, h3, h4⟩ := hresult
    exact ⟨h1, h2, h3, h4, hbb⟩

theorem answers_latchOpen (hl : s.flt.latchOpen = false) : Answers .latchOpen s (fun t => t.flt.latchOpen = true ∧ t.ember.cartGone = true ∧
    t.ember.cart = some k ∧ t.ior 0x3028 = s.ior 0x3028 + 1 ∧ t.bar 0x2004C = s.bar 0x2004C + 1) := by
  let s1 : State := { s with flt := { s.flt with latchOpen := true } }
  have hexec : exec .latchOpen s = .next (s1.surprise.report (srcId 3 0x182) (BitVec.ofNat 32 s.ember.cartState)) :=
    congrArg ok (if_neg (by simp [hl, State.cartHeld, hk, hg, h6, h8]))
  obtain ⟨hcount, -, -, hcart, hgone, hbar, hflt⟩ := s1.surprise_result
  refine ⟨_, hexec, ?_, ?_, ?_, ?_, ?_⟩
  · rw [(noted_report_cart ..).latchOpen, hflt]
  · rw [(noted_report_cart ..).ember, hgone]
  · rw [(noted_report_cart ..).ember, hcart]
    exact hk
  · rw [(noted_report_cart ..).ior, hcount]
    rfl
  · rw [State.bar_report_cart, hbar]
    rfl

end

/-! ## The button (R351, R352) -/

theorem answers_attnPress {s : State} (h8 : 8 ≤ s.pwr.stage) (hh : s.cartHeld = true) (h5 : s.ember.cartState ≠ 5) (h6 : s.ember.cartState ≠ 6)
    (hw : s.ember.ejectWait = false) (hd : s.drainReads = false) : Answers .attnPress s (fun t =>
      t.ember.cartState = 5 ∧ t.bar 0x50004 = s.bar 0x50004 + 1 ∧ t.flt.attnDown = false) := by
  let s1 : State := { ((s.bumpBar 0x50004 1).orBar 0x50000 1) with flt := { s.flt with attnDown := false, flashes := !s.cartHeld } }
  have hpress : s.attnPress = s1.beginEject := by
    refine (if_neg (show ¬ s.pwr.stage < 8 by omega)).trans ((if_neg ?_).trans (if_neg ?_))
    · show ¬ (!s.cartHeld || decide (s.ember.cartState = 5) || decide (s.ember.cartState = 6) || s.ember.ejectWait) = true
      simp [hh, h5, h6, hw]
    · show ¬ s.drainReads = true
      rw [hd]
      exact Bool.false_ne_true
  refine ⟨_, congrArg ok hpress, ?_, ?_, ?_⟩
  · rw [s1.beginEject_result.ember]
  · refine (State.bar_setCartState _ 5 (by decide)).trans ((State.bar_orBar ..).trans ((if_neg (by decide)).trans ?_))
    exact (State.bar_bumpBar ..).trans (if_pos rfl)
  · exact s1.beginEject_result.attnDown

section
variable {s : State} (h8 : 8 ≤ s.pwr.stage)
include h8

theorem answers_attnHold_asks (h0 : s.barBit 0x20000 0 = false) : Answers .attnHold s (fun t => t.barBit 0x20000 0 = true ∧
    t.out.getLast? = some .removalRequest ∧ t.flt.attnDown = true) := by
  let s1 : State := { (s.orBar 0x50000 2) with flt := { s.flt with attnDown := true } }
  have hbit : s1.barBit 0x20000 0 = false := (congrArg (fun w : W32 => w.getLsbD 0) ((State.bar_orBar ..).trans (if_neg (by decide)))).trans h0
  have hhold : s.attnHold = ((s1.orBar 0x20000 1).cause 1).emit .removalRequest :=
    (if_neg (show ¬ s.pwr.stage < 8 by omega)).trans (if_neg (by rw [show s1.barBit 0x20000 0 = false from hbit]; exact Bool.false_ne_true))
  have hc := counted_cause (s1.orBar 0x20000 1) 1
  refine ⟨_, congrArg ok hhold, ?_, List.getLast?_concat, (Noted.of_counted hc).attnDown⟩
  have hword : (((s1.orBar 0x20000 1).cause 1).emit .removalRequest).bar 0x20000 = s1.bar 0x20000 ||| 1 :=
    (hc.words 0x20000 (by decide) (by decide)).trans ((State.bar_orBar ..).trans (if_pos rfl))
  rw [State.barBit, hword, BitVec.getLsbD_or]
  exact Bool.or_true _

theorem answers_attnHold_withdraws (h0 : s.barBit 0x20000 0 = true) : Answers .attnHold s (fun t => t.barBit 0x20000 0 = false ∧
    t.barBit 0x20000 1 = false ∧ t.flt.attnDown = true) := by
  let s1 : State := { (s.orBar 0x50000 2) with flt := { s.flt with attnDown := true } }
  have hbit : s1.barBit 0x20000 0 = true := (congrArg (fun w : W32 => w.getLsbD 0) ((State.bar_orBar ..).trans (if_neg (by decide)))).trans h0
  have hhold : s.attnHold = s1.andnBar 0x20000 3 := (if_neg (show ¬ s.pwr.stage < 8 by omega)).trans (if_pos hbit)
  have hword : (s1.andnBar 0x20000 3).bar 0x20000 = s1.bar 0x20000 &&& ~~~3 := (State.bar_andnBar ..).trans (if_pos rfl)
  refine ⟨_, congrArg ok hhold, ?_, ?_, rfl⟩
  · rw [State.barBit, hword, BitVec.getLsbD_and]
    exact Bool.and_false _
  · rw [State.barBit, hword, BitVec.getLsbD_and]
    exact Bool.and_false _

end

end Sys2Proof.Machine

/-! What the ember engine sends of a generation, and its writes to the cartridge (R303, R313, R317). -/

namespace Sys2Proof.Machine

/-! ## Generations -/

/-- A record put in the place of one that is there. -/
theorem State.mem_setGen {s : State} {r q : GenRec} (hq : q ∈ s.ember.gens) (hc : q.ctx = r.ctx) (hg : q.gen = r.gen) :
    r ∈ (s.setGen r).ember.gens :=
  List.mem_map.mpr ⟨q, hq, if_pos ⟨hc, hg⟩⟩

/-! ## Sends of a generation -/

theorem netOnly_sendMirror (s : State) (gen c p : Nat) (m : Memory) : NetOnly s (s.sendMirror gen c p m) := by
  unfold State.sendMirror
  split
  · exact .refl s
  · refine .foldl _ ?_ _ _
    exact fun t q => netOnly_sendRel ..

theorem netOnly_sendDelta (s : State) (gen c p : Nat) (m : Memory) (dest : Nat → Bool) : NetOnly s (s.sendDelta gen c p m dest) := by
  unfold State.sendDelta
  split
  · exact .refl s
  · extract_lets n
    refine .foldl _ ?_ _ _
    intro t h
    refine .foldl _ ?_ _ _
    exact fun v q => netOnly_sendRel ..

theorem netOnly_sendImages (s : State) (r : GenRec) (l : List Nat) : NetOnly s (s.sendImages r l) := by
  unfold State.sendImages
  refine .foldl _ ?_ _ _
  intro t g
  refine .foldl _ ?_ _ _
  exact fun v i => netOnly_sendMirror ..

/-- What sends of a generation leave: the working state, and the generations. -/
structure GensKept (s t : State) : Prop where
  gens : t.ember.gens = s.ember.gens
  mem : t.mem = s.mem
  ctxs : t.ctxs = s.ctxs

theorem GensKept.refl (s : State) : GensKept s s := ⟨rfl, rfl, rfl⟩

theorem GensKept.trans {s t r : State} (h : GensKept s t) (k : GensKept t r) : GensKept s r :=
  ⟨k.gens.trans h.gens, k.mem.trans h.mem, k.ctxs.trans h.ctxs⟩

theorem GensKept.ite {s a b : State} {p : Prop} [Decidable p] (ha : GensKept s a) (hb : GensKept s b) : GensKept s (if p then a else b) := by
  split
  · exact ha
  · exact hb

theorem NetOnly.gensKept {s t : State} (h : NetOnly s t) : GensKept s t :=
  ⟨congrArg Ember.gens (State.ember_of_kept h), State.mem_of_kept h, State.ctxs_of_kept h⟩

theorem gensKept_countEmber (s : State) (e n : Nat) : GensKept s (s.countEmber e n) :=
  ((netOnly_count s 0x180 e n).trans (netOnly_count _ 0x181 e n)).gensKept

/-- The end marks leave the generation with its sends ended. -/
theorem State.sendEnds_result {s : State} {r : GenRec} (h : ∃ q ∈ s.ember.gens, q.ctx = r.ctx ∧ q.gen = r.gen) :
    (∃ q ∈ (s.sendEnds r).ember.gens, q.ctx = r.ctx ∧ q.gen = r.gen ∧ q.todo = r.todo ∧ q.endSent = true) ∧
      (s.sendEnds r).mem = s.mem ∧ (s.sendEnds r).ctxs = s.ctxs := by
  unfold State.sendEnds
  extract_lets n r1 t _ s1 s2
  have hr1 : r1.ctx = r.ctx ∧ r1.gen = r.gen ∧ r1.todo = r.todo := by
    unfold r1
    split
    · exact ⟨rfl, rfl, rfl⟩
    · exact ⟨rfl, rfl, rfl⟩
  have h0 : GensKept s t := .ite (.refl s) ((netOnly_sendImages s r1 r1.images).gensKept.trans (gensKept_countEmber ..))
  have h1 : GensKept s s1 := by
    unfold s1
    split
    · refine (h0.trans ?_).trans (netOnly_sendRel ..).gensKept
      exact ⟨rfl, rfl, rfl⟩
    · exact .refl s
  have h2 : GensKept s1 s2 := by
    unfold s2
    split
    · refine NetOnly.gensKept ?_
      refine .foldl _ ?_ _ _
      exact fun t q => .ite (.refl t) (netOnly_sendRel ..)
    · exact .refl s1
  have hk := h1.trans h2
  obtain ⟨q, hq, hc, hg⟩ := h
  refine ⟨⟨_, State.mem_setGen (r := { r1 with endSent := true }) (hk.gens ▸ hq) (hc.trans hr1.1.symm) (hg.trans hr1.2.1.symm), hr1.1, hr1.2.1,
    hr1.2.2, rfl⟩, hk.mem, hk.ctxs⟩

theorem State.sendPage_result {s : State} {r : GenRec} (h : r ∈ s.ember.gens) (p : Nat) :
    (∃ q ∈ (s.sendPage r p).ember.gens, q.ctx = r.ctx ∧ q.gen = r.gen ∧ q.todo = r.todo.filter (fun x => x != p) ∧
      q.endSent = (r.endSent || (r.todo.filter (fun x => x != p)).isEmpty)) ∧ (s.sendPage r p).mem = s.mem ∧ (s.sendPage r p).ctxs = s.ctxs := by
  unfold State.sendPage
  extract_lets d n bump s1 s2 r1 s3
  have h1 : GensKept s s1 := (NetOnly.ite (netOnly_sendMirror ..) (.refl s)).gensKept
  have h2 : GensKept s1 s2 := (NetOnly.ite (netOnly_sendDelta ..) (.refl s1)).gensKept
  have hk := h1.trans h2
  have h3 : GensKept (s2.setGen r1) s3 := gensKept_countEmber ..
  have hin : r1 ∈ s3.ember.gens := h3.gens ▸ State.mem_setGen (s := s2) (q := r) (r := r1) (hk.gens ▸ h) rfl rfl
  have hmem : s3.mem = s.mem := h3.mem.trans hk.mem
  have hctxs : s3.ctxs = s.ctxs := h3.ctxs.trans hk.ctxs
  by_cases hlast : r1.todo.isEmpty = true
  · rw [if_pos hlast]
    obtain ⟨⟨q, hq, hc, hg, ht, he⟩, hm, hx⟩ := State.sendEnds_result ⟨r1, hin, rfl, rfl⟩
    refine ⟨⟨q, hq, hc, hg, ht, he.trans ?_⟩, hm.trans hmem, hx.trans hctxs⟩
    rw [show (r.todo.filter (fun x => x != p)).isEmpty = true from hlast, Bool.or_true]
  · rw [if_neg hlast]
    refine ⟨⟨r1, hin, rfl, rfl, rfl, ?_⟩, hmem, hctxs⟩
    rw [show (r.todo.filter (fun x => x != p)).isEmpty = false from Bool.eq_false_iff.mpr hlast, Bool.or_false]

theorem answers_deltaPageSend {s : State} {c : BitVec 2} {r : GenRec} {p : Nat} (hr : s.sending c.toNat = some r)
    (hp : r.todo.head? = some p) (hg : s.gsState ≠ 2) : Answers (.deltaPageSend c p) s (fun t =>
      (∃ q ∈ t.ember.gens, q.ctx = r.ctx ∧ q.gen = r.gen ∧ q.todo = r.todo.filter (fun x => x != p) ∧
        q.endSent = (r.endSent || (r.todo.filter (fun x => x != p)).isEmpty)) ∧ t.mem = s.mem ∧ t.ctxs = s.ctxs) := by
  have hexec : exec (.deltaPageSend c p) s = .next (s.sendPage r p) := by
    have he : exec (.deltaPageSend c p) s = .next (match s.sending c.toNat with
      | some r => if r.todo.head? = some p ∧ getField (s.bar 0x30040) 0 2 ≠ 2 then s.sendPage r p else s
      | none => s) := rfl
    rw [he, hr]
    exact congrArg ok (if_pos ⟨hp, hg⟩)
  exact ⟨_, hexec, State.sendPage_result (List.mem_of_find?_eq_some hr) p⟩

/-! ## The cartridge's log -/

/-- A record without its place. -/
def placedAt (ofs : Nat) (r : CartRecord) : CartRecord := { r with ofs := ofs }

theorem map_placed_logCompact (base : Nat) (l : List CartRecord) : (logCompact base l).map (placedAt 0) = l.map (placedAt 0) := by
  induction l generalizing base with
  | nil => rfl
  | cons r l ih =>
    rw [logCompact]
    split
    · rw [List.map_cons, ih, List.map_cons]
      rfl
    · rw [List.map_cons, ih, List.map_cons]

/-- A record appended comes last, whatever places the log takes. -/
theorem map_placed_logAppend (base top : Nat) (log : List CartRecord) (r : CartRecord) :
    (logAppend base top log r).map (placedAt 0) = log.map (placedAt 0) ++ [placedAt 0 r] := by
  unfold logAppend
  split
  · rw [List.map_append]
    rfl
  · rw [map_placed_logCompact, List.map_append]
    rfl

/-- What a log is with a record appended: one longer, the others as they were but for their places, and the record at its end. -/
theorem logAppend_result (base top : Nat) (log : List CartRecord) (r : CartRecord) :
    (logAppend base top log r).length = log.length + 1 ∧
      ((logAppend base top log r).take log.length).map (placedAt 0) = log.map (placedAt 0) ∧
      ∃ q, (logAppend base top log r).getLast? = some q ∧ placedAt 0 q = placedAt 0 r := by
  have hmap := map_placed_logAppend base top log r
  generalize logAppend base top log r = l at hmap ⊢
  refine ⟨?_, ?_, ?_⟩
  · simpa using congrArg List.length hmap
  · rw [List.map_take, hmap]
    simp
  · have hlast := congrArg List.getLast? hmap
    rw [List.getLast?_map, List.getLast?_concat] at hlast
    exact Option.map_eq_some_iff.mp hlast

/-! ## Writes acknowledged -/

/-- The cartridge after a commit record. -/
def State.recordWritten (s : State) (r : GenRec) (k : Cartridge) : Cartridge :=
  let l := logAppend (pageBytes * s.cartParts.1) (pageBytes * s.tierFrames 2) k.log (s.commitRecord r k.head)
  { k with
    log := l, head := l.length, bytesWritten := k.bytesWritten + movedBytes k.log l + 80, lastModule := Config.serial
    devid := BitVec.ofNat 20 (s.devid.getD 0), cluster := BitVec.ofNat 16 (s.setting 0x0103), imageHash := hashHead (s.ctx r.ctx) }

/-- What the acknowledgement of a write of a generation does, by what the cartridge holds of it and what is left to write. -/
def State.ackOf (s : State) (r : GenRec) (buf : List (Nat × List Byte)) (todo : List Nat) : State :=
  match buf, todo with
  | x :: t, _ => s.programmed { r with cartBuf := t } x
  | [], p :: t => s.programmed { r with cartTodo := t } (s.cartPage r p)
  | [], [] => if r.cartTail = 3 then s
    else if r.cartTail = 2 then
      (s.setGen { r with cartTail := 1 }).countWritten (69 * r.streams.length + 65544 * (r.banks.length * Config.imagePages))
    else s.writeRecord r

section
variable {s : State} {k : Cartridge} {r : GenRec} (hk : s.ember.cart = some k)
include hk

theorem State.cart_countWritten (n : Nat) : (s.countWritten n).ember.cart = some { k with bytesWritten := k.bytesWritten + n } := by
  have hmap : (s.countWritten n).ember.cart = s.ember.cart.map (fun k => { k with bytesWritten := k.bytesWritten + n }) := rfl
  rw [hmap, hk]
  rfl

theorem State.cart_editCart (f : Cartridge → Cartridge) : (s.editCart f).ember.cart = some (f k) := by
  have hmap : (s.editCart f).ember.cart = s.ember.cart.map f := rfl
  rw [hmap, hk]
  rfl

theorem State.cart_appendRecord (q : CartRecord) :
    let l := logAppend (pageBytes * s.cartParts.1) (pageBytes * s.tierFrames 2) k.log q
    (s.appendRecord q).ember.cart = some { k with log := l, head := l.length, bytesWritten := k.bytesWritten + movedBytes k.log l } := by
  intro l
  have happend : s.appendRecord q = (s.setLog l).editCart (fun k => { k with head := k.log.length }) := by
    unfold State.appendRecord
    rw [hk]
  rw [happend]
  exact State.cart_editCart (State.cart_editCart hk _) _

theorem State.writeRecord_result (hr : r ∈ s.ember.gens) : { r with cartTail := 0, cartDone := true } ∈ (s.writeRecord r).ember.gens ∧
    (s.writeRecord r).ior 0x3010 = BitVec.ofNat 32 r.gen ∧ (s.writeRecord r).ember.cart = some (s.recordWritten r k) ∧
    (s.writeRecord r).mem = s.mem := by
  have hwritten : s.writeRecord r = ((((s.appendRecord (s.commitRecord r k.head)).editCart (fun k => { k with
      lastModule := Config.serial, devid := BitVec.ofNat 20 (s.devid.getD 0), cluster := BitVec.ofNat 16 (s.setting 0x0103)
      imageHash := hashHead (s.ctx r.ctx) })).setGen { r with cartTail := 0, cartDone := true }).setIo 0x3010
        (BitVec.ofNat 32 r.gen)).countWritten 80 := by
    unfold State.writeRecord
    rw [hk]
  have hcart := State.cart_editCart (State.cart_appendRecord hk (s.commitRecord r k.head)) (fun k => { k with
    lastModule := Config.serial, devid := BitVec.ofNat 20 (s.devid.getD 0), cluster := BitVec.ofNat 16 (s.setting 0x0103)
    imageHash := hashHead (s.ctx r.ctx) })
  rw [hwritten, State.appendRecord_frame]
  rw [State.appendRecord_frame] at hcart
  refine ⟨State.mem_setGen (r := { r with cartTail := 0, cartDone := true }) hr rfl rfl, (State.ior_setIo ..).trans (if_pos rfl), ?_, rfl⟩
  exact State.cart_countWritten hcart 80

variable (hu : s.cartUsable = true) (hr : s.ember.gens.find? (fun q => q.cartOn && !q.cartDone) = some r)
include hu hr

omit hk in
theorem exec_cartridgeWriteAck {buf : List (Nat × List Byte)} {todo : List Nat} (hb : r.cartBuf = buf) (ht : r.cartTodo = todo) :
    exec (.cartridgeWriteAck 1) s = .next (s.ackOf r buf todo) := by
  have he : exec (.cartridgeWriteAck 1) s = .next s.cartAckOne := rfl
  have hone : s.cartAckOne = s.ackOf r r.cartBuf r.cartTodo := by
    unfold State.cartAckOne
    rw [hu, hr]
    rfl
  rw [he, hone, hb, ht]

omit hu in
/-- A page programmed. -/
theorem State.programmed_result {q : GenRec} (hc : q.ctx = r.ctx) (hg : q.gen = r.gen) (x : Nat × List Byte) :
    { q with cartPages := q.cartPages ++ [x] } ∈ (s.programmed q x).ember.gens ∧
      (s.programmed q x).ember.cart = some { k with bytesWritten := k.bytesWritten + 65544 } ∧ (s.programmed q x).mem = s.mem := by
  have hcounted := (counted_countEmber ((s.setGen { q with cartPages := q.cartPages ++ [x] }).countWritten (pageBytes + 8)) 0x142 16).standing
  have hember : (s.programmed q x).ember = ((s.setGen { q with cartPages := q.cartPages ++ [x] }).countWritten (pageBytes + 8)).ember :=
    congrArg Kept.ember hcounted
  refine ⟨?_, ?_, congrArg Kept.mem hcounted⟩
  · rw [hember]
    exact State.mem_setGen (r := { q with cartPages := q.cartPages ++ [x] }) (List.mem_of_find?_eq_some hr) hc.symm hg.symm
  · rw [hember]
    exact State.cart_countWritten (s := s.setGen { q with cartPages := q.cartPages ++ [x] }) hk (pageBytes + 8)

theorem answers_writeAck_buffered {x : Nat × List Byte} {rest : List (Nat × List Byte)} (hb : r.cartBuf = x :: rest) :
    Answers (.cartridgeWriteAck 1) s (fun t => { r with cartBuf := rest, cartPages := r.cartPages ++ [x] } ∈ t.ember.gens ∧
      t.ember.cart = some { k with bytesWritten := k.bytesWritten + 65544 } ∧ t.mem = s.mem) := by
  exact ⟨_, exec_cartridgeWriteAck hu hr hb rfl, State.programmed_result hk hr (q := { r with cartBuf := rest }) rfl rfl x⟩

theorem answers_writeAck_page {p : Nat} {rest : List Nat} (hb : r.cartBuf = []) (ht : r.cartTodo = p :: rest) :
    Answers (.cartridgeWriteAck 1) s (fun t => { r with
        cartTodo := rest, cartPages := r.cartPages ++ [(pageKey r.ctx p, mreadN (s.valueAt r.ctx r.gen p) 0 65536)] } ∈ t.ember.gens ∧
      t.ember.cart = some { k with bytesWritten := k.bytesWritten + 65544 } ∧ t.mem = s.mem) := by
  have he := exec_cartridgeWriteAck hu hr hb ht
  have hpage := State.programmed_result hk hr (q := { r with cartTodo := rest }) rfl rfl (s.cartPage r p)
  exact ⟨_, he, hpage⟩

variable (hb : r.cartBuf = []) (ht : r.cartTodo = [])
include hb ht

omit hk in
theorem answers_writeAck_lost (h3 : r.cartTail = 3) : Answers (.cartridgeWriteAck 1) s (fun t => t = s) := by
  have he := exec_cartridgeWriteAck hu hr hb ht
  exact ⟨s, he.trans (congrArg ok (if_pos h3)), rfl⟩

theorem answers_writeAck_streams (h2 : r.cartTail = 2) : Answers (.cartridgeWriteAck 1) s (fun t => { r with cartTail := 1 } ∈ t.ember.gens ∧
    t.ember.cart = some { k with bytesWritten := k.bytesWritten + (69 * r.streams.length + 65544 * (r.banks.length * Config.imagePages)) } ∧
    t.mem = s.mem) := by
  have he := exec_cartridgeWriteAck hu hr hb ht
  refine ⟨_, he.trans (congrArg ok ((if_neg (by omega)).trans (if_pos h2))), ?_, ?_, rfl⟩
  · exact State.mem_setGen (r := { r with cartTail := 1 }) (List.mem_of_find?_eq_some hr) rfl rfl
  · exact State.cart_countWritten (s := s.setGen { r with cartTail := 1 }) hk _

theorem answers_writeAck_record (h2 : r.cartTail < 2) : Answers (.cartridgeWriteAck 1) s (fun t =>
    { r with cartTail := 0, cartDone := true } ∈ t.ember.gens ∧ t.ior 0x3010 = BitVec.ofNat 32 r.gen ∧
    (∃ k2 q, t.ember.cart = some k2 ∧ k2.log.length = k.log.length + 1 ∧ k2.log.getLast? = some q ∧ k2.head = k.log.length + 1 ∧
      (k2.log.take k.log.length).map (fun x => { x with ofs := 0 }) = k.log.map (fun x => { x with ofs := 0 }) ∧ q.gen = BitVec.ofNat 32 r.gen ∧
      q.cutStep = BitVec.ofNat 48 r.cutStep ∧ q.seed = BitVec.ofNat 64 r.seed ∧ q.pages = r.cartPages ∧ q.crcOk = true ∧
      k.bytesWritten + 80 ≤ k2.bytesWritten) ∧ t.mem = s.mem) := by
  have he := exec_cartridgeWriteAck hu hr hb ht
  obtain ⟨hgens, hshown, hcart, hmem⟩ := State.writeRecord_result hk (List.mem_of_find?_eq_some hr)
  obtain ⟨hlen, hold, q, hq, hrec⟩ := logAppend_result (pageBytes * s.cartParts.1) (pageBytes * s.tierFrames 2) k.log (s.commitRecord r k.head)
  refine ⟨_, he.trans (congrArg ok ((if_neg (by omega)).trans (if_neg (by omega)))), hgens, hshown, ⟨_, q, hcart, hlen, hq, hlen, hold,
    ?_, ?_, ?_, ?_, ?_, ?_⟩, hmem⟩
  · exact congrArg (fun x : CartRecord => x.gen) hrec
  · exact congrArg (fun x : CartRecord => x.cutStep) hrec
  · exact congrArg (fun x : CartRecord => x.seed) hrec
  · exact congrArg (fun x : CartRecord => x.pages) hrec
  · exact congrArg (fun x : CartRecord => x.crcOk) hrec
  · show k.bytesWritten + 80 ≤ k.bytesWritten + _ + 80
    omega

end

end Sys2Proof.Machine

/-! Seals and drains (R306, R331): what the end of a drain touches, and the messages of a drain on its queue pairs. -/

namespace Sys2Proof.Machine

/-! ## What accesses of the host and the freeing of planes leave -/

/-- What the end of a drain leaves as it is beside the drain's own: the network, the drain's record, the ember engine's words but for its
status and the count of holds, and what has been sent. -/
structure HostKept (s t : State) : Prop where
  net : t.net = s.net
  drain : t.ember.drain = s.ember.drain
  pins : t.ember.drainPins = s.ember.drainPins
  words : ∀ o, o ≠ 0x3000 → o ≠ 0x3024 → t.ior o = s.ior o
  sent : ∀ m ∈ s.out, m ∈ t.out

theorem HostKept.refl (s : State) : HostKept s s := ⟨rfl, rfl, rfl, fun _ _ _ => rfl, fun _ h => h⟩

theorem HostKept.trans {s t r : State} (h : HostKept s t) (k : HostKept t r) : HostKept s r :=
  ⟨k.net.trans h.net, k.drain.trans h.drain, k.pins.trans h.pins, fun o h1 h2 => (k.words o h1 h2).trans (h.words o h1 h2),
    fun m hm => k.sent m (h.sent m hm)⟩

theorem HostKept.ite {s a b : State} {p : Prop} [Decidable p] (ha : HostKept s a) (hb : HostKept s b) : HostKept s (if p then a else b) := by
  split
  · exact ha
  · exact hb

theorem HostKept.foldl {α : Type} (g : State → α → State) (h : ∀ s a, HostKept s (g s a)) (l : List α) (s : State) : HostKept s (l.foldl g s) :=
  List.foldlRecOn l g (.refl s) fun t ht a _ => ht.trans (h t a)

theorem HostKept.of_eq {s t : State} (hn : t.net = s.net) (he : t.ember = s.ember) (hi : t.io = s.io) (ho : t.out = s.out) : HostKept s t :=
  ⟨hn, congrArg Ember.drain he, congrArg Ember.drainPins he, fun o _ _ => congrArg (fun l => tget (ioReset o) l o) hi, fun m hm => by rwa [ho]⟩

theorem hostKept_emit (s : State) (o : Out) : HostKept s (s.emit o) :=
  ⟨rfl, rfl, rfl, fun _ _ _ => rfl, fun _ h => List.mem_append_left _ h⟩

/-! Interrupts, counts and reports. -/

theorem hostKept_cause (s : State) (j : Nat) : HostKept s (s.cause j) := by
  have hor : HostKept s (s.orBar 0x1000C (BitVec.ofNat 32 (2 ^ j))) := .of_eq rfl rfl rfl rfl
  refine hor.trans ?_
  unfold State.cause State.sendMsix
  split
  · exact hostKept_emit ..
  · exact .ite (.of_eq rfl rfl rfl rfl) (.refl _)

theorem hostKept_addCounter (s : State) (k n : Nat) : HostKept s (s.addCounter k n) := by
  have hset : ∀ c, HostKept s (s.setCounter k c) := fun c => .of_eq rfl rfl rfl rfl
  have hrise : ∀ t : State, HostKept t (t.ccRise 1) := fun t => by
    have hor : HostKept t (t.orBar 0x30000 (BitVec.ofNat 32 (2 ^ 1))) := .of_eq rfl rfl rfl rfl
    unfold State.ccRise
    exact .ite (.refl t) (hor.trans (hostKept_cause ..))
  unfold State.addCounter
  dsimp only
  split
  · exact hset _
  · exact (hset _).trans (hrise _)

theorem hostKept_count (s : State) (b e n : Nat) : HostKept s (s.count b e n) := by
  have hone : ∀ (t : State) k, HostKept t (t.countOne k n) := fun t k => by
    unfold State.countOne
    dsimp only
    split
    · exact (hostKept_addCounter ..).trans (hostKept_addCounter ..)
    · exact hostKept_addCounter ..
  unfold State.count
  refine .ite (.refl s) ?_
  refine .foldl _ ?_ _ _
  intro t i
  dsimp only
  split
  · exact hone ..
  · exact .refl t

theorem hostKept_collect (s : State) (src : Nat) (info : W32) (forced : Bool) : HostKept s (s.collect src info forced) := by
  unfold State.collect
  extract_lets c b f s0 s1 s2
  have hb : HostKept s b := .ite (.of_eq rfl rfl rfl rfl) (.refl s)
  have h2 : HostKept b s2 := .of_eq rfl rfl rfl rfl
  exact .ite hb (.ite (hb.trans (.of_eq rfl rfl rfl rfl)) ((hb.trans h2).trans (hostKept_cause ..)))

theorem hostKept_hostError (s : State) (off : Nat) : HostKept s (s.hostError off) := by
  rw [State.hostError, State.report_host]
  exact hostKept_collect ..

theorem hostKept_moduleFault (s : State) (u : Nat) : HostKept s (s.moduleFault u) := by
  have hr : ∀ t : State, t.react (srcId 0xE u) = t.modFault := fun t => by simp [State.react, srcId_class u (show 0xE < 16 by decide)]
  unfold State.moduleFault State.report
  rw [hr]
  exact (hostKept_collect ..).trans (.of_eq rfl rfl rfl rfl)

/-! Accesses. -/

theorem hostKept_setTierMem (s : State) (k : Nat) (m : Memory) : HostKept s (s.setTierMem k m) := by
  rw [State.setTierMem_frame]
  exact ⟨rfl, rfl, rfl, fun _ _ _ => rfl, fun _ h => h⟩

theorem hostKept_writeTier (s : State) (tier f off : Nat) (l : List Byte) : HostKept s (s.writeTier tier f off l) := by
  unfold State.writeTier
  extract_lets a s0 s1
  have h1 : HostKept s0 s1 := .ite (.refl s0) ⟨rfl, rfl, rfl, fun _ _ _ => rfl, fun _ h => h⟩
  exact ((hostKept_setTierMem ..).trans h1).trans (.of_eq rfl rfl rfl rfl)

theorem hostKept_takeFrame (s : State) (tier f : Nat) : HostKept s (s.takeFrame tier f) := by
  have hzero : HostKept s (s.zeroFrame tier f) := (hostKept_setTierMem ..).trans (.of_eq rfl rfl rfl rfl)
  unfold State.takeFrame
  exact .ite (hzero.trans (.of_eq rfl rfl rfl rfl)) (hzero.trans (.of_eq rfl rfl rfl rfl))

theorem hostKept_rebuildPage {s t : State} {c p : Nat} (h : s.rebuildPage c p = some t) : HostKept s t := by
  unfold State.rebuildPage at h
  dsimp only at h
  split at h
  · exact nomatch h
  · rw [← Option.some.inj h]
    exact ((hostKept_takeFrame ..).trans (hostKept_writeTier ..)).trans (.of_eq rfl rfl rfl rfl)

theorem hostKept_xcFill (s : State) (c g : Nat) : HostKept s (s.xcFill none c g).1 := by
  have hrewrite : ∀ t : State, HostKept t (t.rewriteGroup c g) := fun t => by
    unfold State.rewriteGroup
    exact .ite (.of_eq rfl rfl rfl rfl) (.refl t)
  unfold State.xcFill
  extract_lets l grp s1 s2
  have h1 : HostKept s s1 := .of_eq rfl rfl rfl rfl
  exact h1.trans (.trans (.ite (.refl s1) (.refl s1)) (hrewrite _))

theorem hostKept_xcMark (s : State) (c p : Nat) : HostKept s (s.xcMark none c p) := by
  unfold State.xcMark
  split
  · exact .of_eq rfl rfl rfl rfl
  · exact .refl s

theorem hostKept_access (s : State) (c p : Nat) (w : Bool) : HostKept s (s.access none c p w).1 := by
  unfold State.access
  extract_lets g host hit stale r s1 e f _
  have h1 : HostKept s s1 := by
    change HostKept s r.1
    unfold r
    clear_value stale hit
    cases hit with
    | none => exact hostKept_xcFill ..
    | some grp =>
      dsimp only
      split
      · exact hostKept_xcFill ..
      · exact .of_eq rfl rfl rfl rfl
  split
  · exact hostKept_moduleFault ..
  · split
    · exact h1.trans (.ite (.of_eq rfl rfl rfl rfl) (.refl s1))
    · split
      · exact h1
      · split
        · split
          · split
            · exact h1.trans (hostKept_xcMark ..)
            · exact h1
          · exact h1.trans (hostKept_xcMark ..)
        · exact h1

theorem hostKept_cow (s : State) (c p : Nat) (first : Bool) : HostKept s (s.cow c p first).1 := by
  have hfull : HostKept s (s.orIo 0x3000 0x20000) :=
    ⟨rfl, rfl, rfl, fun o h1 _ => (State.ior_setIo ..).trans (if_neg h1), fun _ h => h⟩
  have hheld : HostKept (s.orIo 0x3000 0x20000) ((s.orIo 0x3000 0x20000).bumpIo 0x3024 1) :=
    ⟨rfl, rfl, rfl, fun o _ h2 => (State.ior_setIo ..).trans (if_neg h2), fun _ h => h⟩
  unfold State.cow
  split
  · exact .refl s
  · dsimp only
    split
    · exact .refl s
    · split
      · exact .ite (hfull.trans hheld) hfull
      · refine .trans ?_ ((hostKept_count ..).trans (hostKept_count ..))
        exact ⟨rfl, rfl, rfl, fun _ _ _ => rfl, fun _ h => h⟩

theorem hostKept_markWritten (s : State) (c p : Nat) : HostKept s (s.markWritten c p) := by
  unfold State.markWritten
  split
  · exact .ite (.refl s) ⟨rfl, rfl, rfl, fun _ _ _ => rfl, fun _ h => h⟩
  · exact .refl s

theorem hostKept_holdHost (s : State) (h : HostAccess) : HostKept s (s.holdHost h) := .of_eq rfl rfl rfl rfl

theorem hostKept_hostStore (s : State) (h : HostAccess) (tier f : Nat) : HostKept s (s.hostStore h tier f) := by
  unfold State.hostStore
  refine .ite (hostKept_holdHost ..) (.ite (hostKept_hostError ..) ?_)
  exact .ite ((hostKept_writeTier ..).trans (hostKept_markWritten ..)) (hostKept_writeTier ..)

theorem hostKept_hostWrite (s : State) (h : HostAccess) : HostKept s (s.hostWrite h) := by
  have hr := hostKept_access s h.ctx (h.dva / pageBytes) true
  unfold State.hostWrite
  dsimp only
  split
  · exact hr.trans (hostKept_hostStore ..)
  · exact hr.trans (hostKept_hostError ..)
  · exact hr.trans (hostKept_holdHost ..)
  · exact hr.trans (hostKept_holdHost ..)
  · have hq := hr.trans (hostKept_cow (s.access none h.ctx (h.dva / pageBytes) true).1 h.ctx (h.dva / pageBytes) (!h.counted))
    split
    · exact (hq.trans (hostKept_xcMark ..)).trans (hostKept_hostStore ..)
    · exact hq.trans (hostKept_holdHost ..)

theorem hostKept_hostRead (s : State) (h : HostAccess) : HostKept s (s.hostRead h) := by
  have hr := hostKept_access s h.ctx (h.dva / pageBytes) false
  unfold State.hostRead
  extract_lets r bad take
  have hbad : ∀ v : State, HostKept v (bad v) := fun v => (hostKept_hostError v h.off).trans (hostKept_emit ..)
  have htake : ∀ (v : State) (tier f : Nat), HostKept v (take v tier f) := fun v tier f =>
    .ite (hostKept_holdHost ..) (.ite (hbad v) (hostKept_emit ..))
  split
  · exact hr.trans (htake ..)
  · split
    · split
      case _ hb => exact (hr.trans (hostKept_rebuildPage hb)).trans (htake ..)
      · exact hr.trans (hbad _)
    · exact hr.trans (hbad _)
  · exact hr.trans (hostKept_holdHost ..)

theorem hostKept_retryHost (s : State) : HostKept s s.retryHost := by
  have hone : ∀ (v : State) (h : HostAccess), HostKept v (v.hostAccess h) := fun v h => .ite (hostKept_hostWrite ..) (hostKept_hostRead ..)
  have hok : ∀ (v : State) (k : Slot), HostKept v (v.okWaiting k []) := fun v k => .ite (.of_eq rfl rfl rfl rfl) (.refl v)
  unfold State.retryHost
  extract_lets _ s1 slots
  have h0 : HostKept s { s with mem := { s.mem with heldHost := [] } } := .of_eq rfl rfl rfl rfl
  have h1 : HostKept s s1 := h0.trans (.foldl (fun s h => s.hostAccess h) hone _ _)
  exact h1.trans (.foldl _ hok _ _)

/-! Planes and the bay. -/

theorem hostKept_freePlanes (s : State) (c : Nat) : HostKept s (s.freePlanes c) := by
  have hclear : ∀ (t : State) (plane : Nat), HostKept t (t.clearPlane c plane) := fun t plane => by
    unfold State.clearPlane
    refine .ite ⟨rfl, rfl, rfl, fun o h1 _ => ?_, fun _ h => h⟩ ⟨rfl, rfl, rfl, fun _ _ _ => rfl, fun _ h => h⟩
    exact (State.ior_setIo ..).trans (if_neg h1)
  unfold State.freePlanes
  split
  · exact .refl s
  · extract_lets pinned s1
    have h1 : HostKept s s1 := .foldl _ (fun t i => .ite (hclear ..) (.refl t)) _ _
    exact h1.trans ⟨rfl, rfl, rfl, fun _ _ _ => rfl, fun _ h => h⟩

theorem hostKept_beginEject (s : State) : HostKept s s.beginEject := by
  unfold State.beginEject State.setCartState
  refine .ite ⟨rfl, rfl, rfl, fun _ _ _ => rfl, fun _ h => h⟩ ?_
  rw [State.report_cart]
  refine .trans (.trans ?_ (hostKept_cause ..)) (hostKept_collect ..)
  exact ⟨rfl, rfl, rfl, fun _ _ _ => rfl, fun _ h => h⟩

/-! ## The end of a drain -/

/-- A drain's record cleared, its messages left outstanding as no later drain's. -/
def State.undrained (s : State) : State :=
  { s.leaveMessages with ember := { s.ember with drain := none, drainPins := none, drainLeft := 0 } }

theorem hostKept_endDrain (s : State) : HostKept s.undrained s.endDrain := by
  unfold State.endDrain
  extract_lets _ _ s1 s2
  have h2 : HostKept s1 s2 := by
    unfold s2
    split
    · exact (hostKept_freePlanes ..).trans (hostKept_retryHost ..)
    · exact .refl s1
  exact .ite (h2.trans (hostKept_beginEject ..)) h2

/-- A drain abandoned: none is in progress, DRAIN_ERR and its count show it. -/
theorem State.abandonDrain_result (s : State) : s.abandonDrain.ember.drain = none ∧ (s.abandonDrain.ior 0x3000).getLsbD 11 = true ∧
    s.abandonDrain.ior 0x3030 = s.ior 0x3030 + 1 ∧ s.abandonDrain.ior 0x3008 = s.ior 0x3008 := by
  have hk := hostKept_endDrain s
  have hend : ∀ o, o ≠ 0x3000 → o ≠ 0x3024 → s.endDrain.ior o = s.ior o := hk.words
  have hior : ∀ o, s.abandonDrain.ior o = if o = 0x3030 then s.endDrain.ior 0x3030 + 1
      else if o = 0x3000 then s.endDrain.ior 0x3000 ||| 0x800 else s.endDrain.ior o := fun o => by
    have hor : ∀ o, (s.endDrain.orIo 0x3000 0x800).ior o = if o = 0x3000 then s.endDrain.ior 0x3000 ||| 0x800 else s.endDrain.ior o :=
      fun o => State.ior_setIo ..
    refine (State.ior_setIo ..).trans ?_
    rw [hor, hor, if_neg (show ¬ 0x3030 = 0x3000 by decide)]
    rfl
  refine ⟨hk.drain, ?_, ?_, ?_⟩
  · rw [hior, if_neg (by decide), if_pos rfl, BitVec.getLsbD_or]
    exact Bool.or_true _
  · rw [hior, if_pos rfl, hend _ (by decide) (by decide)]
  · rw [hior, if_neg (by decide), if_neg (by decide), hend _ (by decide) (by decide)]

/-- With no drain in progress there is no plane to free and no access to try again. -/
theorem State.mem_abandonDrain {s : State} (h : s.ember.drain = none) : s.abandonDrain.mem = s.mem := by
  have hend : s.endDrain.mem = s.mem := by
    unfold State.endDrain
    rw [h]
    dsimp only
    split
    · exact (State.beginEject_result _).mem
    · rfl
  exact hend

/-! ## Seals -/

section
variable {s : State} {r : GenRec} (hr : s.unsealed s.sched.ctx = some r)
include hr

theorem exec_generationSeal : exec .generationSeal s = .next (if s.canSeal r then s.seal r else s) := by
  have he : exec .generationSeal s = .next (match s.unsealed s.sched.ctx with
    | some r => if s.canSeal r then s.seal r else s
    | none => s) := rfl
  rw [he, hr]

theorem answers_seal (hc : s.canSeal r = true) (hd : s.ember.drain = none) : Answers .generationSeal s (fun t =>
    { r with isSealed := true } ∈ t.ember.gens ∧ t.ior 0x3008 = BitVec.ofNat 32 r.gen ∧
    t = { s with ember := { s.ember with gens := t.ember.gens }, io := t.io }) := by
  have hseal : s.seal r = (s.setGen { r with isSealed := true }).setIo 0x3008 (BitVec.ofNat 32 r.gen) :=
    if_neg fun h => by rw [hd] at h; exact Bool.false_ne_true h.2.2
  have he := exec_generationSeal hr
  rw [if_pos hc, hseal] at he
  exact ⟨_, he, State.mem_setGen (r := { r with isSealed := true }) (List.mem_of_find?_eq_some hr) rfl rfl,
    (State.ior_setIo ..).trans (if_pos rfl), rfl⟩

theorem answers_seal_drained (hc : s.canSeal r = true) (hd : s.ember.drain.isSome = true) (hp : polDrain (s.ctx r.ctx).policy ≠ 0)
    (hm : r.gen % polDrain (s.ctx r.ctx).policy = 0) : Answers .generationSeal s (fun t => t.ember.drain = none ∧
      (t.ior 0x3000).getLsbD 11 = true ∧ t.ior 0x3030 = s.ior 0x3030 + 1 ∧ t.ior 0x3008 = BitVec.ofNat 32 r.gen) := by
  have hseal : s.seal r = ((s.setGen { r with isSealed := true }).setIo 0x3008 (BitVec.ofNat 32 r.gen)).abandonDrain := if_pos ⟨hp, hm, hd⟩
  have he := exec_generationSeal hr
  rw [if_pos hc, hseal] at he
  obtain ⟨hdrain, herr, hcount, hshown⟩ := ((s.setGen { r with isSealed := true }).setIo 0x3008 (BitVec.ofNat 32 r.gen)).abandonDrain_result
  exact ⟨_, he, hdrain, herr, hcount.trans (congrArg (· + 1) ((State.ior_setIo ..).trans (if_neg (by decide)))),
    hshown.trans ((State.ior_setIo ..).trans (if_pos rfl))⟩

theorem answers_seal_waits (hc : s.canSeal r = false) : Answers .generationSeal s (fun t => t = s) := by
  have he := exec_generationSeal hr
  rw [hc, if_neg Bool.false_ne_true] at he
  exact ⟨s, he, rfl⟩

end

/-! ## Messages of a drain -/

/-- A message under a policy's drain record on a queue pair. -/
def drainMessage (p : List Byte) (q kind addr : Nat) (l : List Byte) : Out :=
  .rdma (leAt p (polDrainAt p) 16) (leAt p (polDrainAt p + 0x14) 3 + q) (leAt p (polDrainAt p + 0x10) 4) kind addr l

/-- What a message that a queue pair takes leaves: on that pair alone it is outstanding, and it leaves or waits. -/
structure MessageSent (s t : State) (q : Nat) (m : Out) : Prop where
  only : NetOnly s t
  pairs : ∀ j, t.qp j = if j = q then { s.qp q with sent := (s.qp q).sent ++ [m] } else s.qp j
  leaves : s.mayPass (s.qpPath q) 0 = true → m ∈ t.out
  waits : s.mayPass (s.qpPath q) 0 = false → (0, q, m) ∈ t.net.ipOut

theorem messageSent_rdma {s : State} {p : List Byte} {i q : Nat} (h : s.qpFor (leAt p (polDrainAt p + 0x17) 1) i = some q) (kind addr : Nat)
    (l : List Byte) : MessageSent s (s.rdma p i kind addr l) q (drainMessage p q kind addr l) := by
  let m := drainMessage p q kind addr l
  let v : State := { s with net := { s.net with qps := tset s.net.qps q { s.qp q with sent := (s.qp q).sent ++ [m] } } }
  have hrdma : s.rdma p i kind addr l = if s.mayPass (s.qpPath q) 0 then v.sendOut (s.qpPath q) m
      else (v.askGateway (s.qpPath q)).holdIp (0, q, m) := by
    unfold State.rdma
    dsimp only
    rw [h]
    rfl
  have hpairs : ∀ j, v.qp j = if j = q then { s.qp q with sent := (s.qp q).sent ++ [m] } else s.qp j := fun j => tget_tset ..
  have hv : NetOnly s v := rfl
  rw [hrdma]
  by_cases hpass : s.mayPass (s.qpPath q) 0 = true
  · rw [if_pos hpass]
    have hnet : (v.sendOut (s.qpPath q) m).net = v.net := State.net_of_kept (v.kept_sendOut ..)
    refine ⟨hv.trans (netOnly_sendOut ..), fun j => ?_, fun _ => ?_, fun hno => ?_⟩
    · rw [← hpairs, State.qp, hnet, State.qp]
    · exact (hostKept_count ..).sent m (List.mem_append_right _ (List.mem_singleton.mpr rfl))
    · rw [hpass] at hno
      exact nomatch hno
  · rw [if_neg hpass]
    have hnet : (v.askGateway (s.qpPath q)).net = v.net := State.net_of_kept (v.kept_askGateway ..)
    refine ⟨hv.trans ((NetOnly.of_kept (v.kept_askGateway _)).trans rfl), fun j => ?_, fun hyes => absurd hyes hpass, fun _ => ?_⟩
    · rw [← hpairs, State.qp, State.qp]
      exact congrArg (fun n : Net => tget {} n.qps j) hnet
    · exact List.mem_append_right _ (List.mem_singleton.mpr rfl)

theorem netOnly_rdma (s : State) (p : List Byte) (i kind addr : Nat) (l : List Byte) : NetOnly s (s.rdma p i kind addr l) := by
  cases h : s.qpFor (leAt p (polDrainAt p + 0x17) 1) i with
  | some q => exact (messageSent_rdma h kind addr l).only
  | none =>
    have hrdma : s.rdma p i kind addr l = s := by
      unfold State.rdma
      dsimp only
      rw [h]
    rw [hrdma]
    exact .refl s

/-! Messages over pairs that are all in order. -/

/-- Messages outstanding on the first n queue pairs. -/
def State.outstanding (s : State) (n : Nat) : Nat := ((List.range n).map (fun q => (s.qp q).sent.length)).sum

theorem sum_map_range_bump (f : Nat → Nat) (n q : Nat) : ((List.range n).map (fun j => f j + if j = q then 1 else 0)).sum =
    ((List.range n).map f).sum + if q < n then 1 else 0 := by
  induction n with
  | zero => rfl
  | succ n ih =>
    rw [List.range_succ, List.map_append, List.sum_append, ih, List.map_append, List.sum_append]
    simp only [List.map_cons, List.map_nil, List.sum_cons, List.sum_nil]
    by_cases hq : n = q
    · rw [if_pos hq, if_neg (by omega), if_pos (by omega)]
      omega
    · rw [if_neg hq]
      by_cases hlt : q < n
      · rw [if_pos hlt, if_pos (by omega)]
        omega
      · rw [if_neg hlt, if_neg (by omega)]
        omega

theorem State.qpFor_of_sound {s : State} {n : Nat} (hn : 0 < n) (hs : ∀ q, q < n → (s.qp q).err = false) (i : Nat) :
    ∃ q, s.qpFor n i = some q ∧ q < n := by
  have hmod : i % n < n := Nat.mod_lt _ hn
  have hsome : (s.qpFor n i).isSome = true :=
    List.find?_isSome.mpr ⟨i % n, List.mem_map.mpr ⟨0, List.mem_range.mpr hn, rfl⟩, by rw [hs _ hmod]; rfl⟩
  obtain ⟨q, hq⟩ := Option.isSome_iff_exists.mp hsome
  obtain ⟨k, -, hk⟩ := List.mem_map.mp (List.mem_of_find?_eq_some hq)
  exact ⟨q, hq, by rw [← hk]; exact Nat.mod_lt _ hn⟩

/-- Each message of a list is outstanding on one pair. -/
theorem State.outstanding_messages {p : List Byte} {n : Nat} (hp : leAt p (polDrainAt p + 0x17) 1 = n) (hn : 0 < n)
    (l : List ((Nat × List Byte) × Nat)) {s : State} (hs : ∀ q, q < n → (s.qp q).err = false) :
    (l.foldl (fun (s : State) q => s.rdma p q.2 0 q.1.1 q.1.2) s).outstanding n = s.outstanding n + l.length := by
  induction l generalizing s with
  | nil => rfl
  | cons a l ih =>
    obtain ⟨q, hq, hlt⟩ := State.qpFor_of_sound hn hs a.2
    have hm := messageSent_rdma (hp ▸ hq) 0 a.1.1 a.1.2
    have herr : ∀ j, j < n → ((s.rdma p a.2 0 a.1.1 a.1.2).qp j).err = false := fun j hj => by
      rw [hm.pairs]
      split
      · exact hs q hlt
      · exact hs j hj
    have hone : (s.rdma p a.2 0 a.1.1 a.1.2).outstanding n = s.outstanding n + 1 := by
      have hlen : ∀ j, ((s.rdma p a.2 0 a.1.1 a.1.2).qp j).sent.length = (s.qp j).sent.length + if j = q then 1 else 0 := fun j => by
        rw [hm.pairs]
        split
        · next hj => rw [hj, List.length_append, List.length_singleton]
        · rfl
      rw [State.outstanding, List.map_congr_left fun j _ => hlen j, sum_map_range_bump, if_pos hlt]
      rfl
    rw [List.foldl_cons, ih herr, hone, List.length_cons]
    omega

end Sys2Proof.Machine

/-! A drain begun and completed (R331), and the statement on sends, seals and the bay. -/

namespace Sys2Proof.Machine

/-! ## DRAIN -/

/-- The bank image pages that go with a generation. -/
def State.drainImages (s : State) (r : GenRec) : List (Nat × List Byte) :=
  (List.range (imagePageCount r)).map (fun i => (2 ^ 28 + i, mreadN (s.imageBody r.ctx r.actGen i) 0 pageBytes))

/-- The messages of a drain of a generation. -/
def State.drainList (s : State) (r : GenRec) : List (Nat × List Byte) :=
  drainMessages (leAt (s.ctx r.ctx).policy (polDrainAt (s.ctx r.ctx).policy + 0x18) 8) (s.fullRecord r) (s.drainImages r)

/-- Messages for the record, the directory and the stream state, and one a page. -/
theorem State.length_drainList (s : State) (r : GenRec) :
    (s.drainList r).length = (s.protectedPages r.ctx).length + imagePageCount r + 3 := by
  have hpages : (s.fullRecord r).pages.length = (s.protectedPages r.ctx).length := List.length_map _
  have himages : (s.drainImages r).length = imagePageCount r := (List.length_map _).trans List.length_range
  unfold State.drainList drainMessages
  rw [List.length_append, List.length_append, List.length_map, List.length_zipIdx, List.length_append, hpages, himages]
  simp only [List.length_cons, List.length_nil]
  omega

/-- A drain in progress, before its messages. -/
def State.drainBegun (s : State) (r : GenRec) : State :=
  { s with ember := { s.ember with
      drain := some (r.ctx, r.gen), drainPins := if s.cartUsable && r.cartDone then none else some (r.ctx, r.gen)
      drainLeft := (s.drainList r).length } }

theorem State.startDrain_of_none {s : State} (hd : s.ember.drain = none) (r : GenRec) : s.startDrain r =
    if leAt (s.ctx r.ctx).policy (polDrainAt (s.ctx r.ctx).policy + 0x20) 8 <
        65544 * ((s.protectedPages r.ctx).length + imagePageCount r) + 2 ^ 20 then s.abandonDrain
    else (s.drainList r).zipIdx.foldl (fun (s0 : State) q => s0.rdma (s.ctx r.ctx).policy q.2 0 q.1.1 q.1.2) (s.drainBegun r) := by
  have hnone : (if s.ember.drain.isSome then s.abandonDrain else s) = s := if_neg (by rw [hd]; exact Bool.false_ne_true)
  unfold State.startDrain
  rw [hnone]
  rfl

section
variable {s : State} {r : GenRec}
  (hr : (s.ember.gens.filter (fun q => q.ctx == s.sched.ctx && q.isSealed)).getLast? = some r)
  (hp : polDrain (s.ctx s.sched.ctx).policy ≠ 0) (hm : r.gen % polDrain (s.ctx s.sched.ctx).policy = 0) (hd : s.ember.drain = none)
include hr

theorem ctx_of_newest : r.ctx = s.sched.ctx := by
  have hmem := (List.mem_filter.mp (List.mem_of_getLast? hr)).2
  rw [Bool.and_eq_true, beq_iff_eq] at hmem
  exact hmem.1

include hp hm hd

theorem exec_drain : exec .drain s = .next (s.startDrain r) := by
  have he : exec .drain s = .next s.drainNow := rfl
  rw [he]
  unfold State.drainNow
  dsimp only
  rw [hr]
  refine congrArg ok (if_neg ?_)
  rintro (h | h | h)
  · exact hp h
  · rw [Nat.max_eq_right (Nat.one_le_iff_ne_zero.mpr hp)] at h
    exact h hm
  · rw [hd] at h
    exact nomatch h

theorem answers_drain_fits (hroom : 65544 * ((s.protectedPages r.ctx).length + imagePageCount r) + 2 ^ 20 ≤
    leAt (s.ctx s.sched.ctx).policy (polDrainAt (s.ctx s.sched.ctx).policy + 0x20) 8) : Answers .drain s (fun t =>
      t.ember.drain = some (s.sched.ctx, r.gen) ∧ t.ember.drainLeft = (s.protectedPages r.ctx).length + imagePageCount r + 3 ∧ t.mem = s.mem ∧
      (∀ n, leAt (s.ctx s.sched.ctx).policy (polDrainAt (s.ctx s.sched.ctx).policy + 0x17) 1 = n → 0 < n → (∀ q, q < n → (s.qp q).err = false) →
        ((List.range n).map (fun q => (t.qp q).sent.length)).sum = ((List.range n).map (fun q => (s.qp q).sent.length)).sum +
          ((s.protectedPages r.ctx).length + imagePageCount r) + 3)) := by
  have hctx := ctx_of_newest hr
  have he := exec_drain hr hp hm hd
  rw [State.startDrain_of_none hd, if_neg (by rw [hctx] at hroom ⊢; exact Nat.not_lt.mpr hroom)] at he
  have hnet : NetOnly (s.drainBegun r)
      ((s.drainList r).zipIdx.foldl (fun (s0 : State) q => s0.rdma (s.ctx r.ctx).policy q.2 0 q.1.1 q.1.2) (s.drainBegun r)) := by
    refine .foldl _ ?_ _ _
    exact fun t q => netOnly_rdma ..
  refine ⟨_, he, ?_, ?_, ?_, fun n hn hpos hs => ?_⟩
  · rw [← hctx]
    exact congrArg Ember.drain (State.ember_of_kept hnet)
  · exact (congrArg Ember.drainLeft (State.ember_of_kept hnet)).trans (s.length_drainList r)
  · exact State.mem_of_kept hnet
  · have hsum := State.outstanding_messages (p := (s.ctx r.ctx).policy) (hctx ▸ hn) hpos (s.drainList r).zipIdx (s := s.drainBegun r) hs
    rw [List.length_zipIdx, State.length_drainList] at hsum
    exact hsum.trans (by rw [← Nat.add_assoc]; rfl)

theorem answers_drain_refused (hroom : leAt (s.ctx s.sched.ctx).policy (polDrainAt (s.ctx s.sched.ctx).policy + 0x20) 8 <
    65544 * ((s.protectedPages r.ctx).length + imagePageCount r) + 2 ^ 20) : Answers .drain s (fun t =>
      t.ember.drain = none ∧ (t.ior 0x3000).getLsbD 11 = true ∧ t.ior 0x3030 = s.ior 0x3030 + 1 ∧ t.mem = s.mem) := by
  have hctx := ctx_of_newest hr
  have he := exec_drain hr hp hm hd
  rw [State.startDrain_of_none hd, if_pos (by rw [hctx] at hroom ⊢; exact hroom)] at he
  obtain ⟨hdrain, herr, hcount, -⟩ := s.abandonDrain_result
  exact ⟨_, he, hdrain, herr, hcount, State.mem_abandonDrain hd⟩

end

/-! ## DRAIN_COMPLETE -/

theorem State.qp_undrained (s : State) (q : Nat) : s.undrained.qp q = { s.qp q with stale := (s.qp q).sent.length } :=
  tget_map_snd (fun v : Qp => { v with stale := v.sent.length }) {} rfl s.net.qps q

/-- A message that a queue pair took before the end of the drain is on it, and left or waiting, after that end. -/
theorem MessageSent.after_endDrain {s u : State} {q : Nat} {m : Out} (hm : MessageSent s u q m) : m ∈ (u.endDrain.qp q).sent ∧
    (s.mayPass (s.qpPath q) 0 = true → m ∈ u.endDrain.out) ∧ (s.mayPass (s.qpPath q) 0 = false → (0, q, m) ∈ u.endDrain.net.ipOut) := by
  have hk := hostKept_endDrain u
  have hqp : u.endDrain.qp q = u.undrained.qp q := congrArg (fun n : Net => tget ({} : Qp) n.qps q) hk.net
  have htaken : (u.qp q).sent = (s.qp q).sent ++ [m] := by rw [hm.pairs, if_pos rfl]
  refine ⟨?_, fun hpass => hk.sent _ (hm.leaves hpass), fun hpass => ?_⟩
  · rw [hqp, State.qp_undrained, htaken]
    exact List.mem_append_right _ (List.mem_singleton.mpr rfl)
  · rw [hk.net]
    exact hm.waits hpass

theorem exec_drainComplete {s : State} {d : Nat × Nat} (hd : s.ember.drain = some d) (hl : s.ember.drainLeft = 0) :
    exec .drainComplete s = .next (s.rdma (s.ctx d.1).policy 0 1 0 (leBytes 4 d.2)).endDrain := by
  have he : exec .drainComplete s = .next (match s.ember.drain with
    | some d => if s.ember.drainLeft = 0 then (s.rdma (s.ctx d.1).policy 0 1 0 (leBytes 4 d.2)).endDrain else s
    | none => s) := rfl
  rw [he, hd]
  exact congrArg ok (if_pos hl)

theorem answers_drainComplete {s : State} {d : Nat × Nat} (hd : s.ember.drain = some d) (hl : s.ember.drainLeft = 0) :
    Answers .drainComplete s (fun t => t.ember.drain = none ∧ t.ember.drainPins = none ∧
      let p := (s.ctx d.1).policy
      let o := polDrainAt p
      ∀ q, s.qpFor (leAt p (o + 0x17) 1) 0 = some q →
        let m : Out := .rdma (leAt p o 16) (leAt p (o + 0x14) 3 + q) (leAt p (o + 0x10) 4) 1 0 (leBytes 4 d.2)
        m ∈ (t.qp q).sent ∧ (s.mayPass (s.qpPath q) 0 = true → m ∈ t.out) ∧
        (s.mayPass (s.qpPath q) 0 = false → (0, q, m) ∈ t.net.ipOut)) :=
  have hk := hostKept_endDrain (s.rdma (s.ctx d.1).policy 0 1 0 (leBytes 4 d.2))
  ⟨_, exec_drainComplete hd hl, hk.drain, hk.pins, fun _ hq => (messageSent_rdma hq 1 0 (leBytes 4 d.2)).after_endDrain⟩

/-! ## The statement -/

theorem answers_cartInsert {s : State} (h : s.ember.cart = none) (k : Cartridge) : Answers (.cartInsert k) s (fun t =>
    t = { s with ember := { s.ember with cart := some k, cartRead := false, cartGone := false, adoptDue := none } }) :=
  ⟨_, congrArg ok (if_neg (by rw [h]; exact Bool.false_ne_true)), rfl⟩

theorem answers_latchClose {s : State} (h : s.ember.cartGone = true) : Answers .latchClose s (fun t =>
    t = { s with flt := { s.flt with latchOpen := false }, ember := { s.ember with cartRead := false, cartGone := false } }) :=
  ⟨_, congrArg ok (if_pos h), rfl⟩

/-- Settles O58: the sends of a generation, the writes of the log, the seal and the drain, and each event of the bay and the panel. -/
theorem emberSendsSealsAndTheBay : Obligations.EmberSendsSealsAndTheBay := by
  unfold Obligations.EmberSendsSealsAndTheBay
  refine ⟨fun s c r p hr hp hg => answers_deltaPageSend hr hp hg, fun s k r hk hu hr => ?writes, fun s r hr => ?seals, fun s r => ?drain,
    fun s d hd hl => answers_drainComplete hd hl, fun s k => ?bay, fun s h => answers_latchClose h, fun s k => ?eject, fun s h8 => ?button⟩
  case writes =>
    exact ⟨fun x rest hb => answers_writeAck_buffered hk hu hr hb, fun p rest hb ht => answers_writeAck_page hk hu hr hb ht,
      fun hb ht h3 => answers_writeAck_lost hu hr hb ht h3, fun hb ht h2 => answers_writeAck_streams hk hu hr hb ht h2,
      fun hb ht h2 => answers_writeAck_record hk hu hr hb ht h2⟩
  case seals =>
    exact ⟨fun hc hd => answers_seal hr hc hd, fun hc hd hp hm => answers_seal_drained hr hc hd hp hm, fun hc => answers_seal_waits hr hc⟩
  case drain =>
    intro p pages room hr hp hm hd
    exact ⟨fun hroom => answers_drain_fits hr hp hm hd hroom, fun hroom => answers_drain_refused hr hp hm hd hroom⟩
  case bay =>
    refine ⟨fun h => answers_cartInsert h k, fun hk => ⟨fun hread h3 => answers_cartHeaderRead hk hread h3,
      fun rate spare => answers_lifeUpdate hk rate spare, fun h6 => answers_cartRemoved hk h6, fun h6 h8 hg =>
      ⟨answers_surpriseRemoval hk h6 h8 hg, fun hl => answers_latchOpen hk h6 h8 hg hl⟩⟩⟩
  case eject =>
    exact ⟨fun h => answers_cartEject_absent h k, fun hh hd h5 h6 => answers_cartEject_held hh hd h5 h6 k,
      fun h5 hw => answers_cartReady h5 hw⟩
  case button =>
    exact ⟨fun hh h5 h6 hw hd => answers_attnPress h8 hh h5 h6 hw hd, fun h0 => answers_attnHold_asks h8 h0,
      fun h0 => answers_attnHold_withdraws h8 h0⟩

end Sys2Proof.Machine

/-! The idle tick and the values at reset (R80, R106, R228, R239, R297, R384): a tick of an empty queue moves the beat unit alone, beside the
sample that it may publish; at reset every stored word reads its Reset value. -/

namespace Sys2Proof.Machine

/-! ## The publication of a sample -/

theorem State.publish_frame (s : State) : s.publish = { s with obs := s.publish.obs } := by
  unfold State.publish
  split <;> rfl

theorem State.pubBeat_publish (s : State) : s.publish.obs.pubBeat = none := by
  unfold State.publish
  split
  · assumption
  · rfl

theorem State.publish_of_none {s : State} (h : s.obs.pubBeat = none) : s.publish = s := by
  unfold State.publish
  rw [h]

/-! ## A tick -/

/-- The beat unit one reference tick on. -/
def State.ticked (s : State) : State := { s with clk := { s.clk with phase := s.clk.phase + 1, ticks := s.clk.ticks + 1 } }

theorem State.idle_of_runs {s : State} (hs : s.clk.started = true) (hc : s.clocked 323 = true) (hp : s.clk.phase + 1 < (s.bar 0x4000C).toNat) :
    s.idle = if 234 ≤ s.clk.phase + 1 then s.ticked.publish else s.ticked :=
  if_pos (by simp [hs, hc, hp])

theorem State.idle_of_rests {s : State}
    (h : s.clk.started = false ∨ s.clocked 323 = false ∨ (s.bar 0x4000C).toNat ≤ s.clk.phase + 1) : s.idle = s := by
  refine if_neg fun hrun => ?_
  simp only [Bool.and_eq_true, decide_eq_true_eq] at hrun
  obtain ⟨⟨hs, hc⟩, hp⟩ := hrun
  obtain h | h | h := h
  · rw [hs] at h; exact nomatch h
  · rw [hc] at h; exact nomatch h
  · omega

theorem step_of_empty {s : State} (h : s.pending = []) : step s = .next s.idle := by
  unfold step
  rw [h]

/-- Settles O3: a tick is `State.ticked`, and from tick 234 on the publication of the sample. -/
theorem idleTickCounts : Obligations.IdleTickCounts := by
  unfold Obligations.IdleTickCounts
  intro s hq
  refine ⟨fun hs hc hp => ⟨s.idle, step_of_empty hq, ?_⟩, fun h => by rw [step_of_empty hq, State.idle_of_rests h]⟩
  rw [State.idle_of_runs hs hc hp]
  by_cases h : 234 ≤ s.clk.phase + 1
  · rw [if_pos h]
    exact ⟨s.ticked.publish_frame, fun hlt => absurd h (by omega), fun _ => s.ticked.pubBeat_publish,
      fun hnone => (congrArg State.obs (State.publish_of_none (s := s.ticked) hnone)).trans rfl⟩
  · rw [if_neg h]
    exact ⟨rfl, fun _ => rfl, fun hge => absurd hge h, fun _ => rfl⟩

/-! ## Reset -/

/-- Settles O8: no word is listed at reset, so each reads what its table of Reset values gives. -/
theorem resetRegisterValues : Obligations.ResetRegisterValues := by
  unfold Obligations.ResetRegisterValues
  refine ⟨fun _ => rfl, fun _ => rfl, fun _ _ => rfl, fun _ n => ?_, rfl, rfl⟩
  exact ite_self _

end Sys2Proof.Machine

/-! Fields of register words: a field read back after a write of it and of another, and the words of the I/O die after each plain write. -/

namespace Sys2Proof.Machine

/-! ## Fields -/

theorem getLsbD_two_pow {k : Nat} (hk : k < 32) (j : Nat) : (BitVec.ofNat 32 (2 ^ k)).getLsbD j = decide (j = k) := by
  rw [BitVec.getLsbD_ofNat, Nat.testBit_two_pow]
  by_cases h : k = j
  · subst h; simp [hk]
  · simp [h, Ne.symm h]

theorem testBit_getField (w : W32) (lo n i : Nat) : (getField w lo n).testBit i = (decide (i < n) && w.getLsbD (lo + i)) := by
  rw [getField, field, Nat.testBit_mod_two_pow, Nat.testBit_div_two_pow, Nat.add_comm i lo, BitVec.getLsbD]

/-- A field is its bits. -/
theorem getField_congr {v w : W32} {lo n : Nat} (h : ∀ j, lo ≤ j → j < lo + n → v.getLsbD j = w.getLsbD j) :
    getField v lo n = getField w lo n := by
  refine Nat.eq_of_testBit_eq fun i => ?_
  rw [testBit_getField, testBit_getField]
  by_cases hi : i < n
  · rw [h (lo + i) (by omega) (by omega)]
  · simp [hi]

theorem getField_setField_same (w : W32) {lo n : Nat} (v : Nat) (h : lo + n ≤ 32) : getField (setField w lo n v) lo n = v % 2 ^ n := by
  refine Nat.eq_of_testBit_eq fun i => ?_
  rw [testBit_getField, Nat.testBit_mod_two_pow]
  by_cases hi : i < n
  · rw [getLsbD_setField _ _ _ _ (by omega), if_pos (by omega), Nat.add_sub_cancel_left]
  · simp [hi]

theorem getField_lt (w : W32) (lo n : Nat) : getField w lo n < 2 ^ n := Nat.mod_lt _ (Nat.two_pow_pos n)

/-- A bit outside a field is not a write's, also past the word's end. -/
theorem getLsbD_setField_outside (w : W32) {lo n j : Nat} (v : Nat) (h : j < lo ∨ lo + n ≤ j) : (setField w lo n v).getLsbD j = w.getLsbD j := by
  by_cases hj : j < 32
  · rw [getLsbD_setField _ _ _ _ hj, if_neg (by omega)]
  · rw [BitVec.getLsbD_of_ge _ _ (by omega), BitVec.getLsbD_of_ge _ _ (by omega)]

/-! ## Words -/

theorem State.bar_barField (s : State) (o lo n v p : Nat) :
    (s.barField o lo n v).bar p = if p = o then setField (s.bar o) lo n v else s.bar p := State.bar_setBar ..

theorem State.ior_ioField (s : State) (o lo n v p : Nat) :
    (s.ioField o lo n v).ior p = if p = o then setField (s.ior o) lo n v else s.ior p := State.ior_setIo ..

theorem State.ior_orIo (s : State) (o : Nat) (v : W32) (p : Nat) :
    (s.orIo o v).ior p = if p = o then s.ior o ||| v else s.ior p := State.ior_setIo ..

theorem State.barBit_congr {s t : State} {o : Nat} (h : t.bar o = s.bar o) (j : Nat) : t.barBit o j = s.barBit o j :=
  congrArg (fun w : W32 => w.getLsbD j) h

end Sys2Proof.Machine

/-! Reference sources (R216 to R218): the source in use and the words that show it. -/

namespace Sys2Proof.Machine

/-! ## Judgements -/

theorem stableBit_bounds (n : Nat) : 8 < stableBit n ∧ stableBit n < 19 := by
  unfold stableBit
  split
  · decide
  · split <;> decide

theorem stableBit_lt (n : Nat) : stableBit n < 32 := by
  have := (stableBit_bounds n).2
  omega

/-- A source without its judgement. -/
theorem State.barBit_judgementLost (s : State) (n j : Nat) :
    (s.andnBar 0x40020 (BitVec.ofNat 32 (2 ^ stableBit n))).barBit 0x40020 j = (s.barBit 0x40020 j && decide (j ≠ stableBit n)) := by
  rw [State.barBit, State.bar_andnBar, if_pos rfl, BitVec.getLsbD_and, BitVec.getLsbD_not, getLsbD_two_pow (stableBit_lt n), State.barBit]
  by_cases hj : j < 32
  · simp [hj]
  · simp [BitVec.getLsbD_of_ge _ _ (Nat.le_of_not_lt hj)]

/-- A source with it. -/
theorem State.barBit_judgedStable (s : State) (n j : Nat) :
    (s.orBar 0x40020 (BitVec.ofNat 32 (2 ^ stableBit n))).barBit 0x40020 j = (s.barBit 0x40020 j || decide (j = stableBit n)) := by
  rw [State.barBit_orBar, getLsbD_two_pow (stableBit_lt n)]

/-- Each source's bit is its own. -/
theorem stableBit_eq_iff {n k : Nat} (hk : k ≤ 2) : 9 + k = stableBit n ↔ k = min n 2 := by
  unfold stableBit
  split
  · omega
  · split
    · omega
    · omega

theorem State.bestSource_judgementLost (s : State) (n : Nat) :
    (s.andnBar 0x40020 (BitVec.ofNat 32 (2 ^ stableBit n))).bestSource = s.sourceAfter n := by
  have h9 : 9 ≠ stableBit n ↔ n ≠ 0 := not_congr ((stableBit_eq_iff (k := 0) (by omega)).trans (by omega))
  have h10 : 10 ≠ stableBit n ↔ n ≠ 1 := not_congr ((stableBit_eq_iff (k := 1) (by omega)).trans (by omega))
  simp only [State.bestSource, State.sourceAfter, State.barBit_judgementLost, Bool.and_eq_true, decide_eq_true_eq, h9, h10, and_comm]

theorem State.bestSource_judgedStable (s : State) (n : Nat) :
    (s.orBar 0x40020 (BitVec.ofNat 32 (2 ^ stableBit n))).bestSource = s.sourceWith n := by
  have h9 : 9 = stableBit n ↔ n = 0 := (stableBit_eq_iff (k := 0) (by omega)).trans (by omega)
  have h10 : 10 = stableBit n ↔ n = 1 := (stableBit_eq_iff (k := 1) (by omega)).trans (by omega)
  simp only [State.bestSource, State.sourceWith, State.barBit_judgedStable, Bool.or_eq_true, decide_eq_true_eq, h9, h10, or_comm]

/-! ## Moves -/

theorem State.bar_showSource (s : State) {o : Nat} (h : o ≠ 0x40020) : s.showSource.bar o = s.bar o := by
  unfold State.showSource
  extract_lets n v was mode port lane
  rw [State.bar_barField, if_neg h, State.bar_barField, if_neg h, State.bar_barField, if_neg h]

/-- REF_LOSS, the judgements and ALIGN_LOST are not the source's fields. -/
theorem State.barBit_showSource (s : State) {j : Nat} (h8 : 8 ≤ j) (h19 : j < 19) : s.showSource.barBit 0x40020 j = s.barBit 0x40020 j := by
  unfold State.showSource
  extract_lets n v was mode port lane
  rw [State.barBit_barField _ _ _ _ _ (by omega), if_neg (by omega), State.barBit_barField _ _ _ _ _ (by omega), if_neg (by omega),
    State.barBit_barField _ _ _ _ _ (by omega), if_neg (by omega)]

/-- Another source is in use: what is counted, reported and shown of it. -/
structure SourceTaken (s t : State) (n : Nat) (byLoss : Bool) : Prop where
  clk : t.clk = { s.clk with src := n }
  tiles : t.tiles = s.tiles
  mem : t.mem = s.mem
  sched : t.sched = s.sched
  moves : t.bar 0x4002C = s.bar 0x4002C + 1
  holdovers : t.bar 0x40030 = s.bar 0x40030 + if n = 2 then 1 else 0
  reports : t.bar 0x20044 = s.bar 0x20044 + 1
  bits : ∀ j, 8 ≤ j → j < 19 → t.barBit 0x40020 j = (s.barBit 0x40020 j || (byLoss && decide (j = 8)))
  others : ∀ o, 0x30000 < o → o ≠ 0x40020 → o ≠ 0x4002C → o ≠ 0x40030 → t.bar o = s.bar o

/-- Another source in use and counted, with REF_MODE, the lanes and the report yet to follow. -/
def State.sourceSwitched (s : State) (n : Nat) (byLoss : Bool) : State :=
  let s1 := ({ s with clk := { s.clk with src := n } } : State).bumpBar 0x4002C 1
  let s2 := if byLoss then s1.orBar 0x40020 0x100 else s1
  if n = 2 then s2.bumpBar 0x40030 1 else s2

section
variable (s : State) (n : Nat) (byLoss : Bool)

theorem State.sourceSwitched_frame :
    s.sourceSwitched n byLoss = { s with clk := { s.clk with src := n }, bar0 := (s.sourceSwitched n byLoss).bar0 } := by
  unfold State.sourceSwitched
  cases byLoss with
  | true => dsimp only; split <;> rfl
  | false => dsimp only; split <;> rfl

theorem State.bar_sourceSwitched (o : Nat) : (s.sourceSwitched n byLoss).bar o =
    if o = 0x40030 then s.bar o + (if n = 2 then 1 else 0) else if o = 0x4002C then s.bar o + 1
    else if o = 0x40020 ∧ byLoss = true then s.bar o ||| 0x100 else s.bar o := by
  have h1 : ∀ p, (({ s with clk := { s.clk with src := n } } : State).bumpBar 0x4002C 1).bar p =
      if p = 0x4002C then s.bar 0x4002C + 1 else s.bar p := fun p => State.bar_bumpBar ..
  have h2 : ∀ p, (if byLoss then (({ s with clk := { s.clk with src := n } } : State).bumpBar 0x4002C 1).orBar 0x40020 0x100
      else ({ s with clk := { s.clk with src := n } } : State).bumpBar 0x4002C 1).bar p =
      if p = 0x4002C then s.bar p + 1 else if p = 0x40020 ∧ byLoss = true then s.bar p ||| 0x100 else s.bar p := fun p => by
    cases byLoss with
    | true =>
      rw [if_pos rfl, State.bar_orBar, h1, h1]
      by_cases hp : p = 0x40020
      · subst hp; simp
      · by_cases hq : p = 0x4002C
        · subst hq; simp
        · simp [hp, hq]
    | false =>
      rw [if_neg Bool.false_ne_true, h1]
      by_cases hq : p = 0x4002C
      · subst hq; simp
      · simp [hq]
  unfold State.sourceSwitched
  dsimp only
  by_cases hn : n = 2
  · rw [if_pos hn, State.bar_bumpBar, h2, h2]
    by_cases ho : o = 0x40030
    · subst ho; simp [hn]
    · rw [if_neg ho, if_neg ho]
  · rw [if_neg hn, h2]
    by_cases ho : o = 0x40030
    · subst ho; simp [hn]
    · rw [if_neg ho]

end

theorem sourceTaken_moveSource {s : State} {n : Nat} (h : n ≠ s.clk.src) (byLoss : Bool) : SourceTaken s (s.moveSource n byLoss) n byLoss := by
  let v := s.sourceSwitched n byLoss
  have he : s.moveSource n byLoss = v.showSource.reportCorr 0x190 (v.bar 0x4002C) := if_neg h
  have hframe : v = { s with clk := { s.clk with src := n }, bar0 := v.bar0 } := s.sourceSwitched_frame n byLoss
  have hbar : ∀ o, v.bar o = _ := s.bar_sourceSwitched n byLoss
  rw [he]
  have hstand : (v.showSource.reportCorr 0x190 (v.bar 0x4002C)).standing = v.showSource.standing := by
    rw [State.reportCorr, State.report_corr]
    exact State.standing_collect ..
  have hword : ∀ o, 0x30000 < o → (v.showSource.reportCorr 0x190 (v.bar 0x4002C)).bar o = v.showSource.bar o := fun o ho =>
    (State.word_of_standing hstand ho).trans (State.standing_word _ ho)
  have hshown : ∀ o, 0x30000 < o → o ≠ 0x40020 → (v.showSource.reportCorr 0x190 (v.bar 0x4002C)).bar o = v.bar o := fun o ho h0 =>
    (hword o ho).trans (v.bar_showSource h0)
  refine ⟨?_, ?_, ?_, ?_, ?_, ?_, ?_, fun j h8 h19 => ?_, fun o hlow h1 h2 h3 => ?_⟩
  · exact (congrArg Kept.clk hstand).trans (congrArg State.clk hframe)
  · exact (congrArg Kept.tiles hstand).trans (show v.tiles = s.tiles by rw [hframe])
  · exact (congrArg Kept.mem hstand).trans (show v.mem = s.mem by rw [hframe])
  · exact (congrArg Kept.sched hstand).trans (show v.sched = s.sched by rw [hframe])
  · rw [hshown 0x4002C (by decide) (by decide), hbar, if_neg (by decide), if_pos rfl]
  · rw [hshown 0x40030 (by decide) (by decide), hbar, if_pos rfl]
  · refine (reported_corr ..).counted.trans (congrArg (· + 1) ?_)
    rw [State.bar_showSource _ (by decide), hbar, if_neg (by decide), if_neg (by decide), if_neg (by simp)]
  · rw [State.barBit_congr (hword 0x40020 (by decide)), State.barBit_showSource _ h8 h19, State.barBit, hbar, if_neg (by decide), if_neg (by decide)]
    cases byLoss with
    | true =>
      rw [if_pos ⟨rfl, rfl⟩, BitVec.getLsbD_or, show (0x100 : W32) = BitVec.ofNat 32 (2 ^ 8) from rfl, getLsbD_two_pow (by decide), Bool.true_and]
      rfl
    | false =>
      rw [if_neg (by simp), Bool.false_and, Bool.or_false]
      rfl
  · rw [hshown o hlow h1, hbar, if_neg h3, if_neg h2, if_neg fun hc => h1 hc.1]

/-- The source in use loses its judgement. -/
theorem sourceLeft_loseSource (s : State) : SourceLeft s (s.loseSource s.clk.src) := by
  unfold State.loseSource
  extract_lets s1
  rw [if_pos rfl, show s1.bestSource = s.sourceAfter s.clk.src from s.bestSource_judgementLost _]
  have hclr : ∀ j, s1.barBit 0x40020 j = (s.barBit 0x40020 j && decide (j ≠ stableBit s.clk.src)) := s.barBit_judgementLost _
  have hbar : ∀ o, o ≠ 0x40020 → s1.bar o = s.bar o := fun o ho => (State.bar_andnBar ..).trans (if_neg ho)
  have hgone : s1.barBit 0x40020 (stableBit s.clk.src) = false := by simp [hclr]
  unfold SourceLeft
  extract_lets n m
  by_cases h : m = n
  · have hstay : s1.moveSource m true = s1 := if_pos h
    rw [hstay]
    exact ⟨by rw [h]; rfl, hgone, rfl, rfl, rfl, fun _ => hbar _ (by decide), fun hne => absurd h hne⟩
  · have ht := sourceTaken_moveSource (s := s1) (n := m) h true
    have hj := stableBit_bounds n
    refine ⟨ht.clk, ?_, ht.tiles, ht.mem, ht.sched, fun he => absurd he h, fun _ => ⟨?_, ?_, ?_, ?_⟩⟩
    · rw [ht.bits _ (by omega) hj.2, hgone]
      simp
      omega
    · rw [ht.moves, hbar _ (by decide)]
    · rw [ht.bits _ (by decide) (by decide)]
      simp
    · rw [ht.reports, hbar _ (by decide)]
    · rw [ht.holdovers, hbar _ (by decide)]

end Sys2Proof.Machine

/-! Tokens and time exchanges (R227, R230 to R232): what a domain's edge touches, and what a completed exchange sets. -/

namespace Sys2Proof.Machine

/-! ## A domain's edge -/

theorem onlyShown_latchBlock (s : State) (b : Nat) : OnlyShown s (s.latchBlock b) := by
  have hfree : ∀ (t : State) (k : Nat), OnlyShown t (t.freeCount k) := fun t k => by
    unfold State.freeCount
    extract_lets c
    split
    · rfl
    · exact .refl t
  have hlatch : ∀ (t : State) (k : Nat), OnlyShown t (t.latch k) := fun _ _ => rfl
  exact (onlyShown_foldl (fun t k => (hfree t k).trans (hlatch _ k)) _ _).trans rfl

theorem onlyShown_takeCfg (s : State) (n : Nat) (c : Counter) (chain : Bool) : OnlyShown s (s.takeCfg n c chain) := by
  have hreset : ∀ (t : State) (k : Nat) (c : Counter), OnlyShown t (t.resetCounter k c) := fun t k c => by
    unfold State.resetCounter State.markCoin
    extract_lets f
    split <;> rfl
  unfold State.takeCfg
  extract_lets s1
  split
  · exact (hreset s n c).trans (hreset s1 _ _)
  · exact hreset s n c

theorem onlyShown_localEdge (s : State) (b beat : Nat) : OnlyShown s (s.localEdge b beat) := by
  have hdue : ∀ t : State, OnlyShown t (t.dueCfgs b beat) := fun t =>
    .trans (t := { t with obs := { t.obs with pendCfg := t.obs.pendCfg.filter (fun q => !(q.1 == b && decide (q.2.1 ≤ beat))) } }) rfl
      (onlyShown_foldl (fun t q => onlyShown_takeCfg t _ _ _) _ _)
  unfold State.localEdge
  extract_lets s1
  have h1 : OnlyShown s s1 := by
    unfold s1
    split
    · exact onlyShown_latchBlock s b
    · exact .refl s
  exact (h1.trans (.of_counted (counted_count ..))).trans (hdue _)

theorem onlyShown_publish (s : State) : OnlyShown s s.publish := by
  rw [s.publish_frame]
  rfl

/-- What a domain's edge touches beside the domain's own crossing: counters and their samples. -/
theorem domainEdge_frame (s : State) (d beat : Nat) : OnlyShown s (s.domainEdge d beat) ∧ (s.domainEdge d beat).clk = s.clk ∧
    (domainBlock d = none → s.domainEdge d beat = s) := by
  unfold State.domainEdge
  split
  · exact ⟨.refl s, rfl, fun _ => rfl⟩
  · next b hb =>
    extract_lets s1
    have h1 := onlyShown_localEdge s b beat
    have hclk : s1.clk = s.clk := congrArg Kept.clk (s.standing_localEdge b beat)
    rw [hb]
    split
    · exact ⟨h1.trans (onlyShown_publish s1), (congrArg Kept.clk s1.standing_publish).trans hclk, nofun⟩
    · exact ⟨h1, hclk, nofun⟩

section
variable {s : State} {d : Nat} (hd : d < 327)
include hd

theorem answers_beatToken {k : Token} {r : List Token} (hq : tget [] s.clk.tokens d = k :: r) (hr : s.domRuns d = true) :
    Answers (.beatToken d) s (fun t =>
        tget 0 t.clk.locals d = k.beat % 65536 ∧ tget [] t.clk.tokens d = r ∧
        (∀ e, e ≠ d → tget 0 t.clk.locals e = tget 0 s.clk.locals e ∧ tget [] t.clk.tokens e = tget [] s.clk.tokens e) ∧
        (domainBlock d = none → t.obs = s.obs) ∧
        t = { s with
          clk := { s.clk with locals := t.clk.locals, tokens := t.clk.tokens }, obs := t.obs, bar0 := t.bar0, out := t.out
          ctl := { s.ctl with held := t.ctl.held }, free := t.free }) := by
  let m : State := { s with clk := { s.clk with locals := tset s.clk.locals d (k.beat % 65536), tokens := tset s.clk.tokens d r } }
  obtain ⟨hshown, hclk, hnone⟩ := domainEdge_frame m d k.beat
  have he : s.beatToken d = m.domainEdge d k.beat := by
    unfold State.beatToken
    rw [hq]
    exact if_pos hr
  refine ⟨m.domainEdge d k.beat, (guardPart_of_present (decide_eq_true hd) _ _).trans (congrArg ok he), ?_⟩
  generalize m.domainEdge d k.beat = t at hshown hclk hnone
  rw [hclk]
  refine ⟨tget_tset_same .., tget_tset_same .., fun e hne => ⟨tget_tset_ne _ _ _ hne, tget_tset_ne _ _ _ hne⟩,
    fun hb => (congrArg State.obs (hnone hb)).trans rfl, ?_⟩
  unfold OnlyShown at hshown
  rw [hshown, hclk]

theorem answers_beatToken_waits (h : tget [] s.clk.tokens d = [] ∨ s.domRuns d = false) : Answers (.beatToken d) s (fun t => t = s) := by
  refine ⟨_, guardPart_of_present (decide_eq_true hd) _ _, ?_⟩
  unfold State.beatToken
  split
  · rfl
  · next hq =>
    obtain h | h := h
    · rw [h] at hq; exact nomatch hq
    · exact if_neg (by rw [h]; exact Bool.false_ne_true)

end

/-! ## Exchanges completed (R231, R232) -/

theorem State.report_clock (s : State) (u : Nat) (info : W32) : s.report (srcId 4 u) info = s.collect (srcId 4 u) info false := by
  have hr : ∀ t : State, t.react (srcId 4 u) = t := fun t => by simp [State.react, srcId_class u (show 4 < 16 by decide)]
  exact hr _

/-- Two states in which an exchange has set the same, and left the same. -/
structure AlignsAlike (s t : State) : Prop where
  exch : t.clk.exch = s.clk.exch
  aligned : t.clk.everAligned = s.clk.everAligned
  delays : t.clk.delays = s.clk.delays
  theta : t.clk.theta = s.clk.theta
  shown : t.bar 0x40024 = s.bar 0x40024
  tiles : t.tiles = s.tiles
  mem : t.mem = s.mem

theorem AlignsAlike.refl (s : State) : AlignsAlike s s := ⟨rfl, rfl, rfl, rfl, rfl, rfl, rfl⟩

theorem AlignsAlike.trans {s t r : State} (h : AlignsAlike s t) (k : AlignsAlike t r) : AlignsAlike s r :=
  ⟨k.exch.trans h.exch, k.aligned.trans h.aligned, k.delays.trans h.delays, k.theta.trans h.theta, k.shown.trans h.shown,
    k.tiles.trans h.tiles, k.mem.trans h.mem⟩

theorem alignsAlike_setBar (s : State) (o : Nat) (v : W32) (h : 0x40024 ≠ o) : AlignsAlike s (s.setBar o v) :=
  ⟨rfl, rfl, rfl, rfl, (State.bar_setBar ..).trans (if_neg h), rfl, rfl⟩

theorem alignsAlike_applyBeatDiv (s : State) : AlignsAlike s s.applyBeatDiv := by
  unfold State.applyBeatDiv
  split
  · exact (((alignsAlike_setBar s 0x4000C _ (by decide)).trans (alignsAlike_setBar _ 0x40010 _ (by decide))).trans
      (alignsAlike_setBar _ 0x40018 _ (by decide))).trans (alignsAlike_setBar _ 0x4001C _ (by decide))
  · exact .refl s

theorem alignsAlike_setTime (s : State) (x : Int) : AlignsAlike s (s.setTime x) := by
  refine AlignsAlike.trans ?_ (alignsAlike_applyBeatDiv _)
  exact ⟨rfl, rfl, rfl, rfl, rfl, rfl, rfl⟩

theorem alignsAlike_slewLeft (s : State) (x : Int) : AlignsAlike s { s with clk := { s.clk with slewLeft := x } } :=
  ⟨rfl, rfl, rfl, rfl, rfl, rfl, rfl⟩

theorem alignsAlike_showSource (s : State) : AlignsAlike s s.showSource :=
  ⟨rfl, rfl, rfl, rfl, s.bar_showSource (by decide), rfl, rfl⟩

theorem alignsAlike_report (s : State) (u : Nat) (info : W32) : AlignsAlike s (s.report (srcId 4 u) info) := by
  rw [State.report_clock]
  have h := s.standing_collect (srcId 4 u) info false
  have hclk : (s.collect (srcId 4 u) info false).clk = s.clk := congrArg Kept.clk h
  refine ⟨by rw [hclk], by rw [hclk], by rw [hclk], by rw [hclk], ?_, congrArg Kept.tiles h, congrArg Kept.mem h⟩
  exact (State.word_of_standing h (by decide)).trans (s.standing_word (by decide))

/-- The half of an odd difference rounds either way. -/
theorem natAbs_rounded_half (d : Int) (p : Prop) [Decidable p] :
    (2 * (d / 2 + if d % 2 = 1 ∧ p then 1 else 0) - d).natAbs ≤ 1 := by
  split
  · omega
  · omega

/-- What an exchange completed with t4 on a chimney leaves: it is over, and the first one of a module sets θ, shows it, and aligns. -/
structure ExchangeEnded (s t : State) (e : TimeExch) (t4 ch : Nat) : Prop where
  exch : t.clk.exch = none
  tiles : t.tiles = s.tiles
  mem : t.mem = s.mem
  aligned : s.clk.delays = [] → t.clk.everAligned = true
  delays : s.clk.delays = [] → t.clk.delays = [s.tsDiff e.t2 e.t1 + s.tsDiff t4 e.t3]
  offset : s.clk.delays = [] →
    (2 * (t.clk.theta + signed 64 (s.setting (0x0154 + ch))) - (s.tsDiff e.t2 e.t1 - s.tsDiff t4 e.t3)).natAbs ≤ 1
  shown : s.clk.delays = [] → t.bar 0x40024 = BitVec.ofInt 32 t.clk.theta

theorem ExchangeEnded.alike {s t r : State} {e : TimeExch} {t4 ch : Nat} (h : ExchangeEnded s t e t4 ch) (k : AlignsAlike t r) :
    ExchangeEnded s r e t4 ch :=
  ⟨k.exch.trans h.exch, k.tiles.trans h.tiles, k.mem.trans h.mem, fun hd => k.aligned.trans (h.aligned hd), fun hd => k.delays.trans (h.delays hd),
    fun hd => by rw [k.theta]; exact h.offset hd, fun hd => by rw [k.shown, k.theta]; exact h.shown hd⟩

theorem exchangeEnded_completeExchange (s : State) (e : TimeExch) (t4 ch : Nat) : ExchangeEnded s (s.completeExchange e t4 ch) e t4 ch := by
  unfold State.completeExchange
  extract_lets _ m a b delay2 best half theta first l _ s1 s2 _ s3
  have hbest : s.clk.delays = [] → best = none := fun hd => by
    change s.clk.delays.foldl _ none = none
    rw [hd]
    rfl
  have h1 : ExchangeEnded s s1 e t4 ch := by
    refine ⟨rfl, rfl, rfl, fun _ => rfl, fun hd => ?_, fun _ => ?_, fun _ => State.bar_setBar_same ..⟩
    · change (s.clk.delays ++ [delay2]).drop ((s.clk.delays.length + 1) - 64) = _
      rw [hd]
      rfl
    · change (2 * (half - signed 64 (s.setting (0x0154 + ch)) + signed 64 (s.setting (0x0154 + ch))) - (a - b)).natAbs ≤ 1
      rw [Int.sub_add_cancel]
      exact natAbs_rounded_half (a - b) _
  refine iteInduction (motive := fun t => ExchangeEnded s t e t4 ch) (fun hlate => ?_) (fun _ => ?_)
  · have hnot : s.clk.delays ≠ [] := fun hd => by
      rw [hbest hd] at hlate
      exact nomatch hlate
    exact ⟨rfl, rfl, rfl, fun hd => absurd hd hnot, fun hd => absurd hd hnot, fun hd => absurd hd hnot, fun hd => absurd hd hnot⟩
  · split
    · exact h1.alike (((alignsAlike_setTime s1 _).trans (alignsAlike_setBar _ 0x40020 _ (by decide))).trans (alignsAlike_showSource _))
    · split
      · exact h1.alike (alignsAlike_slewLeft s1 _)
      · have h3 : AlignsAlike s1 s3 := (alignsAlike_setBar s1 0x40020 _ (by decide)).trans (alignsAlike_report _ _ _)
        split
        · exact h1.alike (h3.trans (alignsAlike_slewLeft s3 _))
        · exact h1.alike (h3.trans (alignsAlike_setTime _ _))

/-! ## The statement -/

section
variable {s : State}

theorem answers_sourceLoss (hs : s.clk.started = true) (src : RefSource) (h : srcNum src ≠ s.clk.src) : Answers (.sourceLoss src) s (fun t =>
    (∀ j, t.barBit 0x40020 j = (s.barBit 0x40020 j && decide (j ≠ stableBit (srcNum src)))) ∧
    (∀ off, off ≠ 0x40020 → t.bar off = s.bar off) ∧ t = { s with bar0 := t.bar0 }) :=
  ⟨_, congrArg ok ((if_pos hs).trans (if_neg h)), s.barBit_judgementLost _, fun _ ho => (State.bar_andnBar ..).trans (if_neg ho), rfl⟩

theorem answers_sourceStable (hs : s.clk.started = true) (src : RefSource) : Answers (.sourceStable src) s (fun t =>
    let b := s.sourceWith (srcNum src)
    t.clk = { s.clk with src := min b s.clk.src } ∧ t.barBit 0x40020 (stableBit (srcNum src)) = true ∧
    t.barBit 0x40020 8 = s.barBit 0x40020 8 ∧ t.bar 0x4002C = s.bar 0x4002C + (if b < s.clk.src then 1 else 0) ∧
    t.tiles = s.tiles ∧ t.mem = s.mem ∧ t.sched = s.sched) := by
  let s1 := s.orBar 0x40020 (BitVec.ofNat 32 (2 ^ stableBit (srcNum src)))
  have hbest : s1.bestSource = s.sourceWith (srcNum src) := s.bestSource_judgedStable _
  have hexec : exec (.sourceStable src) s = .next (if s.sourceWith (srcNum src) < s.clk.src then s1.moveSource (s.sourceWith (srcNum src)) false
      else s1.showSource) := by
    refine congrArg ok ((if_neg (by rw [hs]; exact Bool.false_ne_true)).trans ?_)
    rw [hbest]
    rfl
  have hj := stableBit_bounds (srcNum src)
  have hset : s1.barBit 0x40020 (stableBit (srcNum src)) = true := by
    rw [State.barBit_judgedStable, decide_eq_true rfl, Bool.or_true]
  have hloss : s1.barBit 0x40020 8 = s.barBit 0x40020 8 := by
    rw [State.barBit_judgedStable, decide_eq_false (by omega), Bool.or_false]
  have hmoves : s1.bar 0x4002C = s.bar 0x4002C := (State.bar_orBar ..).trans (if_neg (by decide))
  refine ⟨_, hexec, ?_⟩
  dsimp only
  split
  case isTrue hlt =>
    have ht := sourceTaken_moveSource (s := s1) (n := s.sourceWith (srcNum src)) (Nat.ne_of_lt hlt) false
    refine ⟨by rw [Nat.min_eq_left (Nat.le_of_lt hlt)]; exact ht.clk, ?_, ?_, ?_, ht.tiles, ht.mem, ht.sched⟩
    · rw [ht.bits _ (by omega) hj.2, hset, Bool.true_or]
    · rw [ht.bits _ (by decide) (by decide), hloss, Bool.false_and, Bool.or_false]
    · rw [ht.moves, hmoves]
  case isFalse hge =>
    refine ⟨by rw [Nat.min_eq_right (Nat.le_of_not_lt hge)]; rfl, ?_, ?_, ?_, rfl, rfl, rfl⟩
    · rw [State.barBit_showSource _ (by omega) hj.2, hset]
    · rw [State.barBit_showSource _ (by decide) (by decide), hloss]
    · rw [State.bar_showSource _ (by decide), hmoves]
      exact (BitVec.add_zero _).symm

theorem answers_alignTimeout (hs : s.clk.started = true) (hp : s.timeParent.isSome = true) : Answers .alignTimeout s (fun t =>
    t.barBit 0x40020 12 = true ∧ t.bar 0x20050 = s.bar 0x20050 + 1 ∧ t.clk = s.clk ∧ t.tiles = s.tiles ∧ t.mem = s.mem) := by
  let m := s.orBar 0x40020 0x1000
  have hst := m.standing_collect (srcId 4 0x190) (s.bar 0x40024) false
  refine ⟨_, congrArg ok (if_pos (by rw [hs, hp]; rfl)), ?_⟩
  rw [State.report_clock]
  refine ⟨?_, ?_, congrArg Kept.clk hst, congrArg Kept.tiles hst, congrArg Kept.mem hst⟩
  · rw [State.barBit_congr ((State.word_of_standing hst (by decide)).trans (m.standing_word (by decide))), State.barBit_orBar]
    exact Bool.or_true _
  · refine (reported_collect m 0x190 _ (c := 4) (by decide)).counted.trans (congrArg (· + 1) ?_)
    exact (State.bar_orBar ..).trans (if_neg (by decide))

theorem answers_phaseSlewStep (s : State) : Answers .phaseSlewStep s (fun t =>
    t = { s with clk := { s.clk with slewLeft := s.clk.slewLeft - Int.sign s.clk.slewLeft } }) := by
  refine ⟨_, rfl, ?_⟩
  dsimp only
  congr 2
  obtain h | h | h := Int.lt_trichotomy s.clk.slewLeft 0
  · rw [if_neg (by omega), if_pos h, Int.sign_eq_neg_one_of_neg h, Int.sub_neg]
  · rw [h]
    rfl
  · rw [if_pos h, Int.sign_eq_one_of_pos h]

theorem exec_ptpMessage (hp : s.portsUp = true) (hs : s.clk.started = true) (m : PtpMsg) : exec (.ptpMessage m) s = .next (s.ptp m) :=
  congrArg ok (if_pos (by rw [hp, hs]; rfl))

theorem State.ptp_followUp {e : TimeExch} {q : W16} (he : s.clk.exch = some e) (hq : e.tseq = q.toNat) (hb : e.pbeat = none) (t1 t3 : W64) :
    s.ptp (.followUp q t1 t3) = { s with
      clk := { s.clk with exch := some { e with t1 := t1.toNat, t3 := t3.toNat, full := true } }, out := s.out ++ [.time 1 [e.tseq]] } := by
  unfold State.ptp
  rw [he]
  exact if_pos ⟨hq, by rw [hb]; rfl⟩

/-- The chimney of the exchanges with the time parent; 0 where none is set. -/
def State.timeChimney (s : State) : Nat := match s.timeParent with | some p => p.2 | none => 0

theorem State.ptp_delayResp {e : TimeExch} {q : W16} (he : s.clk.exch = some e) (hq : e.tseq = q.toNat) (hb : e.pbeat = none)
    (hf : e.full = true) (t4 : W64) : s.ptp (.delayResp q t4) =
      s.completeExchange e t4.toNat s.timeChimney := by
  unfold State.ptp
  rw [he]
  exact if_pos ⟨hq, by rw [hb]; rfl, hf⟩

end

/-- Settles O39: moves of the source (`sourceTaken_moveSource`), a domain's edge (`domainEdge_frame`) and an exchange completed
(`exchangeEnded_completeExchange`). -/
theorem clockSourcesAndTime : Obligations.ClockSourcesAndTime := by
  unfold Obligations.ClockSourcesAndTime
  refine ⟨fun s hs _ => ⟨?lost, fun src h => ?named, answers_sourceLoss hs, answers_sourceStable hs, answers_alignTimeout hs⟩,
    fun s d hd => ⟨fun k r hq hr => answers_beatToken hd hq hr, answers_beatToken_waits hd⟩, answers_phaseSlewStep,
    fun s q hp hs => ⟨fun t2 => ?sync, fun e he hq hb => ⟨fun t1 t3 => ?followUp, fun t4 hf => ?delayResp⟩⟩⟩
  case lost => exact ⟨_, congrArg ok (if_pos hs), sourceLeft_loseSource s⟩
  case named => exact ⟨_, congrArg ok ((if_pos hs).trans (by rw [h])), sourceLeft_loseSource s⟩
  case sync => exact ⟨_, exec_ptpMessage hp hs _, rfl⟩
  case followUp => exact ⟨_, exec_ptpMessage hp hs _, State.ptp_followUp he hq hb t1 t3⟩
  case delayResp =>
    have hdone := exchangeEnded_completeExchange s e t4.toNat s.timeChimney
    refine ⟨_, (exec_ptpMessage hp hs _).trans (congrArg ok (State.ptp_delayResp he hq hb hf t4)), hdone.exch, hdone.tiles, hdone.mem,
      fun hd => ⟨hdone.offset hd, hdone.aligned hd, hdone.shown hd⟩⟩

end Sys2Proof.Machine

/-! The dampers and the tile clock (R233 to R237, R408, R413): what DAMP_STATUS shows of the levels, and what is sent of them. -/

namespace Sys2Proof.Machine

/-! ## Levels shown -/

/-- The levels shown and sent: EFF_LVL, FAST_ACT, and what else of the state that touches. -/
structure DamperShown (s t : State) : Prop where
  clk : t.clk = { s.clk with levels := t.clk.levels, lvlSent := t.clk.lvlSent }
  sent : LevelsSent s t
  level : t.effLvl = max s.clk.fastLevel s.slowLvl
  bits : ∀ j, j < 8 → t.barBit 0x40028 j = if j = 0 then s.clk.fastOn else s.barBit 0x40028 j
  others : ∀ o, o ≠ 0x40028 → t.bar o = s.bar o
  rest : t = { s with clk := t.clk, bar0 := t.bar0, free := t.free }

theorem damperShown_showDamper {s : State} (hl : s.clk.fastLevel ≤ 15) : DamperShown s s.showDamper := by
  have hmax : max s.clk.fastLevel s.slowLvl < 2 ^ 4 := by
    have := getField_lt (s.bar 0x40028) 16 4
    unfold State.slowLvl
    omega
  unfold State.showDamper
  extract_lets n s1 m
  have hn : n = max s.clk.fastLevel s.slowLvl := rfl
  have hword : s1.bar 0x40028 = setField (setField (s.bar 0x40028) 8 4 n) 0 1 (bnat s.clk.fastOn) := by
    unfold s1
    rw [State.bar_barField, if_pos rfl, State.bar_barField, if_pos rfl]
  have hlevel : s1.effLvl = n := by
    rw [State.effLvl, hword, getField_congr (fun j h1 _ => getLsbD_setField_outside _ _ (.inr (by omega))),
      getField_setField_same _ _ (by decide), Nat.mod_eq_of_lt (hn ▸ hmax)]
  have hbits : ∀ j, j < 8 → s1.barBit 0x40028 j = if j = 0 then s.clk.fastOn else s.barBit 0x40028 j := fun j hj => by
    rw [State.barBit, hword, getLsbD_setField _ _ _ _ (by omega), State.barBit]
    by_cases h0 : j = 0
    · rw [if_pos (by omega), if_pos h0, h0, testBit_bnat]
    · rw [if_neg (by omega), if_neg h0, getLsbD_setField_outside _ _ (.inl hj)]
  have hothers : ∀ o, o ≠ 0x40028 → s1.bar o = s.bar o := fun o ho => by
    unfold s1
    rw [State.bar_barField, if_neg ho, State.bar_barField, if_neg ho]
  split
  case isTrue heq => exact ⟨rfl, (if_pos (hlevel.trans heq)).mpr ⟨rfl, rfl, rfl⟩, hlevel, hbits, hothers, rfl⟩
  case isFalse hne =>
    refine ⟨rfl, ?_, hlevel, hbits, hothers, rfl⟩
    have hlt := Nat.mod_lt (Config.freeWord s.free).toNat (show 0 < 16 by decide)
    refine (if_neg fun heq => hne (hlevel.symm.trans heq)).mpr ⟨rfl, m, hlevel.symm, ?_, ?_, rfl⟩
    · exact Nat.le_add_right ..
    · change s.clk.ticks + 16 + (Config.freeWord s.free).toNat % 16 ≤ s.clk.ticks + 31
      omega

/-- What is sent depends on what EFF_LVL and the crossings were. -/
theorem LevelsSent.of_alike {s m t : State} (h : LevelsSent m t) (he : m.effLvl = s.effLvl) (hc : m.clk.levels = s.clk.levels)
    (hs : m.clk.lvlSent = s.clk.lvlSent) (ht : m.clk.ticks = s.clk.ticks) (hf : m.free = s.free) : LevelsSent s t := by
  unfold LevelsSent at h ⊢
  rwa [he, hc, hs, ht, hf] at h

/-! ## The fast damper -/

/-- PWR_CAP_N has fallen after kindling, with what the levels show yet to follow. -/
def State.capFallen (s : State) : State :=
  ((({ s with clk := { s.clk with pwrLow := true, fastOn := true, fastDecay := false, fastLevel := s.setting 0x0030 } } : State).orBar 0x40028 2
    ).bumpBar 0x40034 1)

theorem State.bar_capFallen (s : State) (o : Nat) : s.capFallen.bar o =
    if o = 0x40034 then s.bar 0x40034 + 1 else if o = 0x40028 then s.bar 0x40028 ||| 2 else s.bar o := by
  unfold State.capFallen
  rw [State.bar_bumpBar, State.bar_orBar, State.bar_orBar]
  rfl

theorem answers_pwrCapNFall {s : State} (h8 : 8 ≤ s.pwr.stage) (hlow : s.clk.pwrLow = false) (hn : s.setting 0x0030 ≤ 15) :
    Answers .pwrCapNFall s (fun t =>
      let n := s.setting 0x0030
      t.clk = { s.clk with
        pwrLow := true, fastOn := true, fastDecay := false, fastLevel := n, levels := t.clk.levels, lvlSent := t.clk.lvlSent } ∧
      LevelsSent s t ∧ t.effLvl = max n s.slowLvl ∧
      t.barBit 0x40028 0 = true ∧ t.barBit 0x40028 1 = true ∧ t.bar 0x40034 = s.bar 0x40034 + 1 ∧
      (∀ off, off ≠ 0x40028 → off ≠ 0x40034 → t.bar off = s.bar off) ∧ t = { s with clk := t.clk, bar0 := t.bar0, free := t.free }) := by
  have hexec : exec .pwrCapNFall s = .next s.capFallen.showDamper := by
    refine congrArg ok (if_neg ?_)
    rintro (h | h)
    · omega
    · rw [hlow] at h; exact nomatch h
  have hd := damperShown_showDamper (s := s.capFallen) hn
  have hword : s.capFallen.bar 0x40028 = s.bar 0x40028 ||| 2 := (s.bar_capFallen _).trans ((if_neg (by decide)).trans (if_pos rfl))
  have hor : ∀ lo n, 2 ≤ lo → getField (s.capFallen.bar 0x40028) lo n = getField (s.bar 0x40028) lo n := fun lo n hlo =>
    getField_congr fun j hj _ => by
      rw [hword, BitVec.getLsbD_or, show (2 : W32) = BitVec.ofNat 32 (2 ^ 1) from rfl, getLsbD_two_pow (by decide),
        decide_eq_false (by omega), Bool.or_false]
  refine ⟨_, hexec, hd.clk, hd.sent.of_alike (hor 8 4 (by decide)) rfl rfl rfl rfl, ?_, hd.bits 0 (by decide), ?_, ?_, fun o h1 h2 => ?_, hd.rest⟩
  · rw [hd.level, State.slowLvl, hor 16 4 (by decide)]
    rfl
  · rw [hd.bits 1 (by decide), if_neg (by decide), State.barBit, hword, BitVec.getLsbD_or]
    exact Bool.or_true _
  · rw [hd.others _ (by decide), s.bar_capFallen, if_pos rfl]
  · rw [hd.others _ h1, s.bar_capFallen, if_neg h2, if_neg h1]

theorem answers_pwrCapNFall_kindling {s : State} (h : s.pwr.stage < 8) : Answers .pwrCapNFall s (fun t =>
    t = { s with clk := { s.clk with pwrLow := true } }) :=
  ⟨_, congrArg ok (if_pos (.inl h)), rfl⟩

theorem answers_fastHoldExpiry {s : State} (hlow : s.clk.pwrLow = false) (hon : s.clk.fastOn = true) (hl : s.clk.fastLevel ≤ 15) :
    Answers .fastHoldExpiry s (fun t =>
      let on := decide (0 < s.clk.fastLevel)
      t.clk = { s.clk with fastOn := on, fastDecay := on, levels := t.clk.levels, lvlSent := t.clk.lvlSent } ∧
      LevelsSent s t ∧ t.effLvl = max s.clk.fastLevel s.slowLvl ∧ t.barBit 0x40028 0 = on ∧
      (∀ off, off ≠ 0x40028 → t.bar off = s.bar off) ∧ t = { s with clk := t.clk, bar0 := t.bar0, free := t.free }) := by
  have hd := damperShown_showDamper
    (s := { s with clk := { s.clk with fastOn := decide (0 < s.clk.fastLevel), fastDecay := decide (0 < s.clk.fastLevel) } }) hl
  refine ⟨_, congrArg ok (if_pos (by rw [hlow, hon]; rfl)), hd.clk, hd.sent.of_alike rfl rfl rfl rfl rfl, hd.level, hd.bits 0 (by decide),
    hd.others, hd.rest⟩

theorem answers_fastHoldExpiry_held {s : State} (h : s.clk.pwrLow = true ∨ s.clk.fastOn = false) :
    Answers .fastHoldExpiry s (fun t => t = s) := by
  refine ⟨_, rfl, if_neg ?_⟩
  obtain h | h := h
  · simp [h]
  · simp [h]

theorem answers_fastLevelStep {s : State} (hdecay : s.clk.fastDecay = true) (hl : s.clk.fastLevel ≤ 16) :
    Answers .fastLevelStep s (fun t =>
      t.clk = { s.clk with
        fastLevel := s.clk.fastLevel - 1, fastOn := decide (1 < s.clk.fastLevel), fastDecay := decide (1 < s.clk.fastLevel)
        levels := t.clk.levels, lvlSent := t.clk.lvlSent } ∧
      LevelsSent s t ∧
      t.effLvl = max (s.clk.fastLevel - 1) s.slowLvl ∧ t.barBit 0x40028 0 = decide (1 < s.clk.fastLevel) ∧
      (∀ off, off ≠ 0x40028 → t.bar off = s.bar off) ∧ t = { s with clk := t.clk, bar0 := t.bar0, free := t.free }) := by
  have hon : decide (0 < s.clk.fastLevel - 1) = decide (1 < s.clk.fastLevel) := decide_eq_decide.mpr Nat.sub_pos_iff_lt
  have hexec : exec .fastLevelStep s = .next ({ s with clk := { s.clk with
      fastLevel := s.clk.fastLevel - 1, fastOn := decide (1 < s.clk.fastLevel)
      fastDecay := decide (1 < s.clk.fastLevel) } } : State).showDamper := by
    refine congrArg ok ((if_pos hdecay).trans ?_)
    dsimp only
    rw [hon]
  have hd := damperShown_showDamper (s := { s with clk := { s.clk with
    fastLevel := s.clk.fastLevel - 1, fastOn := decide (1 < s.clk.fastLevel), fastDecay := decide (1 < s.clk.fastLevel) } })
    (Nat.sub_le_of_le_add hl)
  exact ⟨_, hexec, hd.clk, hd.sent.of_alike rfl rfl rfl rfl rfl, hd.level, hd.bits 0 (by decide), hd.others, hd.rest⟩

/-! ## The slow damper, the tiles and the tile clock -/

theorem levelStep_decide (p q : Prop) [Decidable p] [Decidable q] (n : Nat) :
    levelStep (decide p) (decide q) n = if p then min 15 (n + 1) else if q then n - 1 else n := by
  simp only [levelStep, decide_eq_true_eq]

theorem answers_slowDamperUpdate {s : State} {watts : Nat} (h : s.clk.slowWritten ≠ some s.clk.beatNow) :
    Answers (.slowDamperUpdate watts) s (fun t =>
      let pw := if 2700 < watts then min 15 (s.clk.slowPower + 1) else if watts < 2550 then s.clk.slowPower - 1 else s.clk.slowPower
      let th := if 95 ≤ s.pwr.tj then min 15 (s.clk.slowThermal + 1) else if s.pwr.tj < 90 then s.clk.slowThermal - 1
        else s.clk.slowThermal
      let held := if s.pwr.feedHold = true ∨ s.pwr.coolHold = true then 8 else 0
      t = { s with clk := { s.clk with
        slowPower := pw, slowThermal := th, slowWritten := some s.clk.beatNow, slowNext := some (max held (max pw th)) } }) := by
  refine ⟨_, rfl, (if_neg h).trans ?_⟩
  simp only [levelStep_decide, Bool.or_eq_true]

section
variable {s : State} {u : Nat} (hu : u < 272)
include hu

theorem answers_effLvlApply {m : LevelMsg} {r : List LevelMsg} (hq : tget [] s.clk.levels u = m :: r) (hr : s.domRuns u = true)
    (ht : m.tick ≤ s.clk.ticks) : Answers (.effLvlApply u) s (fun t =>
      t.tile u = { s.tile u with damper := m.level } ∧ (∀ v, v ≠ u → t.tile v = s.tile v) ∧ tget [] t.clk.levels u = r ∧
      (∀ v, v ≠ u → tget [] t.clk.levels v = tget [] s.clk.levels v) ∧
      t = { s with tiles := t.tiles, clk := { s.clk with levels := t.clk.levels } }) := by
  let v : State := { s with clk := { s.clk with levels := tset s.clk.levels u r } }
  have he : s.levelApply u = v.setTile u { s.tile u with damper := m.level } := by
    unfold State.levelApply
    rw [hq]
    exact if_pos (by simp [hr, ht])
  exact ⟨_, (guardPart_of_present (decide_eq_true hu) _ _).trans (congrArg ok he), v.tile_setTile_same ..,
    fun w hw => (v.tile_setTile ..).trans (if_neg hw),
    tget_tset_same .., fun w hw => tget_tset_ne _ _ _ hw, rfl⟩

theorem answers_effLvlApply_waits (h : tget [] s.clk.levels u = [] ∨ s.domRuns u = false ∨
    (∃ m r, tget [] s.clk.levels u = m :: r ∧ s.clk.ticks < m.tick)) : Answers (.effLvlApply u) s (fun t => t = s) := by
  refine ⟨_, guardPart_of_present (decide_eq_true hu) _ _, ?_⟩
  unfold State.levelApply
  split
  · rfl
  · next m r hq =>
    refine if_neg fun hrun => ?_
    simp only [Bool.and_eq_true, decide_eq_true_eq] at hrun
    obtain h | h | ⟨m', r', h, hlt⟩ := h
    · rw [h] at hq; exact nomatch hq
    · rw [h] at hrun; exact nomatch hrun.1
    · rw [h] at hq
      obtain ⟨rfl, -⟩ := List.cons.inj hq
      omega

end

/-- Settles O40: each change of a level is shown and sent by `damperShown_showDamper`. -/
theorem dampersFollowTheirDemands : Obligations.DampersFollowTheirDemands := by
  unfold Obligations.DampersFollowTheirDemands
  intro s
  exact ⟨answers_pwrCapNFall, answers_pwrCapNFall_kindling, ⟨_, rfl, rfl⟩, answers_fastHoldExpiry, answers_fastHoldExpiry_held,
    answers_fastLevelStep, fun _ h => answers_slowDamperUpdate h,
    fun u hu => ⟨fun m r hq hr ht => answers_effLvlApply hu hq hr ht, answers_effLvlApply_waits hu⟩,
    fun mhz h0 h1 h2 => ⟨_, congrArg ok (if_pos ⟨h0, h1, h2⟩), rfl⟩⟩

end Sys2Proof.Machine

/-! Clock domains (R221 to R224, R239): SEL, the forced switch, the hold of a domain, the switch's end and its time-out, the monitor's window
and a dead domain. A domain fault's reaction reaches fireboxes, memories, chimneys, sources and the cartridge, but leaves the words of the
clock domains and CLK_CNT_DFLT. -/

namespace Sys2Proof.Machine

/-! ## What the reactions leave of the clock domains -/

/-- CLK_CNT_DFLT and every word below 0x2000, where those of the clock domains stand, are as they were. -/
structure ClockWordsKept (s t : State) : Prop where
  faults : t.bar 0x40038 = s.bar 0x40038
  words : ∀ o < 0x2000, t.ior o = s.ior o

theorem ClockWordsKept.refl (s : State) : ClockWordsKept s s := ⟨rfl, fun _ _ => rfl⟩

theorem ClockWordsKept.trans {s t u : State} (h : ClockWordsKept s t) (k : ClockWordsKept t u) : ClockWordsKept s u :=
  ⟨k.faults.trans h.faults, fun o ho => (k.words o ho).trans (h.words o ho)⟩

theorem ClockWordsKept.ite {s a b : State} {p : Prop} [Decidable p] (ha : ClockWordsKept s a) (hb : ClockWordsKept s b) :
    ClockWordsKept s (if p then a else b) :=
  iteInduction (motive := ClockWordsKept s) (fun _ => ha) (fun _ => hb)

theorem ClockWordsKept.foldl {α : Type} (g : State → α → State) (h : ∀ s a, ClockWordsKept s (g s a)) (l : List α) (s : State) :
    ClockWordsKept s (l.foldl g s) := by
  induction l generalizing s with
  | nil => exact .refl s
  | cons a r ih => exact (h s a).trans (ih _)

/-- A change of other parts of the state. -/
theorem ClockWordsKept.of_eq {s t : State} (hbar : t.bar0 = s.bar0) (hio : t.io = s.io) : ClockWordsKept s t :=
  ⟨congrArg (fun m => tget (0 : W32) m 0x40038) hbar, fun o _ => by rw [State.ior, State.ior, hio]⟩

theorem clockWordsKept_of_counted {s t : State} (h : Counted s t) : ClockWordsKept s t := by
  have hio := congrArg State.io h.rest
  exact ⟨h.words _ (by decide) (by decide), fun o _ => by rw [State.ior, State.ior, hio]⟩

theorem clockWordsKept_setBar (s : State) (o : Nat) (v : W32) (h : 0x40038 ≠ o) : ClockWordsKept s (s.setBar o v) :=
  ⟨(State.bar_setBar ..).trans (if_neg h), fun _ _ => rfl⟩

theorem clockWordsKept_setIo (s : State) (o : Nat) (v : W32) (h : 0x2000 ≤ o) : ClockWordsKept s (s.setIo o v) :=
  ⟨rfl, fun _ hp => (State.ior_setIo ..).trans (if_neg (by omega))⟩

theorem clockWordsKept_collect (s : State) (src : Nat) (info : W32) (forced : Bool) : ClockWordsKept s (s.collect src info forced) :=
  ⟨State.bar_collect_of_gt s src info forced (by decide), fun o _ => (noted_collect s src info forced).ior o⟩

/-! ## The reactions -/

theorem clockWordsKept_raiseFail (s : State) : ClockWordsKept s s.raiseFail := .ite (.refl s) (.of_eq rfl rfl)

theorem clockWordsKept_addReact (s : State) (src : Nat) : ClockWordsKept s (s.addReact src) := .of_eq rfl rfl

theorem clockWordsKept_modFault (s : State) : ClockWordsKept s s.modFault :=
  (clockWordsKept_setBar s 0x20000 _ (by decide)).trans (.of_eq rfl rfl)

theorem clockWordsKept_react (s : State) (src : Nat) : ClockWordsKept s (s.react src) :=
  .ite (.ite ((clockWordsKept_raiseFail s).trans (clockWordsKept_addReact ..)) (.refl s))
    (.ite (.ite (clockWordsKept_addReact ..) (.refl s)) (.ite (clockWordsKept_addReact ..) (.ite (clockWordsKept_modFault s) (.refl s))))

theorem clockWordsKept_report (s : State) (src : Nat) (info : W32) : ClockWordsKept s (s.report src info) :=
  (clockWordsKept_collect ..).trans (clockWordsKept_react ..)

theorem clockWordsKept_moduleFault (s : State) (u : Nat) : ClockWordsKept s (s.moduleFault u) :=
  (clockWordsKept_report ..).trans (.of_eq rfl rfl)

theorem clockWordsKept_markSuspect (s : State) (u : Nat) : ClockWordsKept s (s.markSuspect u) := .ite (.of_eq rfl rfl) (.of_eq rfl rfl)

theorem clockWordsKept_channelOut (s : State) (t c : Nat) : ClockWordsKept s (s.channelOut t c) := by
  refine .ite (.ite (.refl s) ?hbm) (.ite (.refl s) (.of_eq rfl rfl))
  case hbm =>
    exact .trans (t := if s.mem.dead1.any (fun d => d / 32 == c / 32) then s else s.listBank 0 (c / 32))
      (.ite (.refl s) (.of_eq rfl rfl)) (.of_eq rfl rfl)

theorem clockWordsKept_haltTrace (s : State) : ClockWordsKept s s.haltTrace := clockWordsKept_setBar s 0x30020 _ (by decide)

/-! ## Sources -/

theorem clockWordsKept_showSource (s : State) : ClockWordsKept s s.showSource := ⟨s.bar_showSource (by decide), fun _ _ => rfl⟩

theorem clockWordsKept_moveSource (s : State) (n : Nat) (byLoss : Bool) : ClockWordsKept s (s.moveSource n byLoss) := by
  refine .ite (.refl s) ?_
  have h1 : ClockWordsKept s (({ s with clk := { s.clk with src := n } } : State).bumpBar 0x4002C 1) :=
    ClockWordsKept.trans (t := { s with clk := { s.clk with src := n } }) (.of_eq rfl rfl) (clockWordsKept_setBar _ _ _ (by decide))
  refine .trans ?counted ((clockWordsKept_showSource _).trans (clockWordsKept_report ..))
  exact (h1.trans (.ite (clockWordsKept_setBar _ _ _ (by decide)) (.refl _))).trans (.ite (clockWordsKept_setBar _ _ _ (by decide)) (.refl _))

theorem clockWordsKept_loseSource (s : State) (n : Nat) : ClockWordsKept s (s.loseSource n) :=
  (clockWordsKept_setBar s 0x40020 _ (by decide)).trans (.ite (clockWordsKept_moveSource ..) (.refl _))

theorem clockWordsKept_laneSource (s : State) (p : Nat) (l : Nat → Bool) : ClockWordsKept s (s.laneSource p l) :=
  ClockWordsKept.trans (.ite (clockWordsKept_loseSource ..) (.refl s)) (.ite (clockWordsKept_loseSource ..) (.refl _))

/-! ## Chimneys -/

theorem clockWordsKept_sendOut (s : State) (ch : Nat) (o : Out) : ClockWordsKept s (s.sendOut ch o) :=
  .trans (t := s.emit o) (.of_eq rfl rfl) (clockWordsKept_of_counted (counted_count ..))

theorem clockWordsKept_putFrame (s : State) (ch : Nat) (f : Frame) : ClockWordsKept s (s.putFrame ch f) :=
  .ite (clockWordsKept_sendOut ..) (.trans (t := s.askGateway ch) (.ite (.refl s) (clockWordsKept_sendOut ..)) (.of_eq rfl rfl))

theorem clockWordsKept_transmit (s : State) (d ch : Nat) (t : TxFrame) : ClockWordsKept s (s.transmit d ch t) := by
  have hsent : ∀ p f, ClockWordsKept s (((s.setPeer d p).putFrame ch f).count 0x152 (0x11E + t.typ) 1) := fun p f =>
    (ClockWordsKept.trans (s := s) (t := s.setPeer d p) (.of_eq rfl rfl) (clockWordsKept_putFrame ..)).trans
      (clockWordsKept_of_counted (counted_count ..))
  exact .ite ((hsent _ _).trans ((clockWordsKept_setIo _ 0x2014 _ (by decide)).trans (clockWordsKept_of_counted (counted_count ..)))) (hsent _ _)

theorem clockWordsKept_tryTransmit (s : State) (d : Nat) (t : TxFrame) : ClockWordsKept s (s.tryTransmit d t) := by
  refine .ite (.refl s) ?_
  split
  · exact .refl s
  · exact .ite (.refl s) (clockWordsKept_transmit ..)

theorem clockWordsKept_pumpSome (s : State) (d : Nat) (again : Bool) : ClockWordsKept s (s.pumpSome d again) :=
  .foldl _ (fun t f => clockWordsKept_tryTransmit t d f) _ _

theorem clockWordsKept_pumpAll (s : State) : ClockWordsKept s s.pumpAll :=
  ClockWordsKept.trans (.foldl _ (fun t d => clockWordsKept_pumpSome t d true) _ _) (.foldl _ (fun t d => clockWordsKept_pumpSome t d false) _ _)

theorem clockWordsKept_release (s : State) : ClockWordsKept s s.release := by
  unfold State.release
  extract_lets _ s1
  have h1 : ClockWordsKept s s1 :=
    .trans (t := { s with net := { s.net with waitOut := [] } }) (.of_eq rfl rfl) (.foldl _ (fun t q => ?frame) _ _)
  refine .trans (t := { s1 with net := { s1.net with ipOut := [] } }) (h1.trans (.of_eq rfl rfl)) (.foldl _ (fun t q => ?packet) _ _)
  case frame => exact .ite (clockWordsKept_sendOut ..) (.of_eq rfl rfl)
  case packet => exact .ite (clockWordsKept_sendOut ..) (.of_eq rfl rfl)

theorem clockWordsKept_moveWaiting (s : State) (p : Nat) (pick : Frame → Bool) : ClockWordsKept s (s.moveWaiting p pick) :=
  .trans (t := { s with net := { s.net with waitOut := s.net.waitOut.filter (fun q => !(q.1 == p && pick q.2)) } }) (.of_eq rfl rfl)
    (.foldl _ (fun t _ => clockWordsKept_putFrame t _ _) _ _)

theorem clockWordsKept_unsend (s : State) (f : Nat → TxFrame → Bool) : ClockWordsKept s (s.unsend f) := .of_eq rfl rfl

theorem chReg_ge (p : Nat) : 0x2000 ≤ chReg p := by
  unfold chReg
  omega

theorem clockWordsKept_linkLost (s : State) (p l : Nat) : ClockWordsKept s (s.linkLost p l) := by
  refine .ite (.refl s) ?_
  have hdown : ClockWordsKept s ((s.andnIo (chReg p) (BitVec.ofNat 32 (2 ^ (l % 4)))).orIo (chReg p) 0x4000) :=
    (clockWordsKept_setIo _ _ _ (chReg_ge p)).trans (clockWordsKept_setIo _ _ _ (chReg_ge p))
  exact .ite hdown ((hdown.trans (clockWordsKept_unsend ..)).trans (clockWordsKept_pumpAll _))

theorem clockWordsKept_failChimney (s : State) (p : Nat) : ClockWordsKept s (s.failChimney p) := by
  refine .ite (.refl s) ?_
  have hdown : ClockWordsKept s ((((s.orIo (chReg p) 0x2000).andnIo 0x2004 (BitVec.ofNat 32 (2 ^ (p % 2)))).orIo 0x2004 4).bumpIo 0x2024 1) :=
    (((clockWordsKept_setIo _ _ _ (chReg_ge p)).trans (clockWordsKept_setIo _ _ _ (by decide))).trans
      (clockWordsKept_setIo _ _ _ (by decide))).trans (clockWordsKept_setIo _ _ _ (by decide))
  exact ((((hdown.trans (clockWordsKept_report ..)).trans (clockWordsKept_moveWaiting ..)).trans (clockWordsKept_unsend ..)).trans
    (clockWordsKept_pumpAll _)).trans (clockWordsKept_release _)

/-! ## The cartridge -/

theorem clockWordsKept_surprise (s : State) : ClockWordsKept s s.surprise :=
  ClockWordsKept.trans (t := s.dropCartWrites) (.of_eq rfl rfl)
    ((clockWordsKept_setIo _ 0x3000 _ (by decide)).trans ((clockWordsKept_setIo _ 0x3028 _ (by decide)).trans (.of_eq rfl rfl)))

/-! ## A domain fault -/

theorem clockWordsKept_domainReact (s : State) (d : Nat) : ClockWordsKept s (s.domainReact d) := by
  unfold State.domainReact
  refine .ite ?firebox (.ite ?module (.ite ?hbm (.ite ?stack (.ite ?lane (.ite ?port (.ite ?coll (.ite ?cart (.ite ?trace (.refl s)))))))))
  case firebox => exact .ite ((clockWordsKept_raiseFail s).trans (clockWordsKept_addReact ..)) (clockWordsKept_markSuspect ..)
  case module => exact clockWordsKept_modFault s
  case hbm => exact ClockWordsKept.trans (.foldl _ (fun t i => clockWordsKept_channelOut t _ _) _ _) (clockWordsKept_moduleFault ..)
  case stack => exact (clockWordsKept_channelOut ..).trans (clockWordsKept_moduleFault ..)
  case lane => exact (clockWordsKept_linkLost ..).trans (clockWordsKept_laneSource ..)
  case port =>
    exact (ClockWordsKept.trans (.foldl _ (fun t l => clockWordsKept_linkLost t _ l) _ _) (clockWordsKept_failChimney ..)).trans
      (clockWordsKept_laneSource ..)
  case coll => exact clockWordsKept_addReact ..
  case cart => exact .ite ((clockWordsKept_surprise s).trans (clockWordsKept_report ..)) (.refl s)
  case trace => exact clockWordsKept_haltTrace s

theorem clockWordsKept_distrust (s : State) (d : Nat) : ClockWordsKept s (s.distrust d) :=
  (clockWordsKept_report ..).trans (clockWordsKept_domainReact ..)

/-- A domain fault is counted, and leaves the domains' words. -/
theorem State.domainFault_result (s : State) (d : Nat) :
    (s.domainFault d).bar 0x40038 = s.bar 0x40038 + 1 ∧ ∀ o < 0x2000, (s.domainFault d).ior o = s.ior o :=
  have h := clockWordsKept_distrust (s.bumpBar 0x40038 1) d
  ⟨h.faults.trans ((State.bar_bumpBar ..).trans (if_pos rfl)), h.words⟩

end Sys2Proof.Machine

/-! The commands of a clock domain (R221 to R224, R239): what each writes in the domain's words. -/

namespace Sys2Proof.Machine

/-! ## A domain's words -/

/-- SEL written and SW_BUSY set, in CLK_CTL as it was. -/
theorem selWritten_bits (w : W32) {sel : Nat} (h : sel < 4) :
    getField (setField w 0 2 sel ||| 0x100) 0 2 = sel ∧ (setField w 0 2 sel ||| 0x100).getLsbD 8 = true ∧
    ∀ j, 2 ≤ j → j ≠ 8 → (setField w 0 2 sel ||| 0x100).getLsbD j = w.getLsbD j := by
  have hbit : ∀ j, (setField w 0 2 sel ||| 0x100).getLsbD j = ((setField w 0 2 sel).getLsbD j || decide (j = 8)) := fun j => by
    rw [BitVec.getLsbD_or, show (0x100 : W32) = BitVec.ofNat 32 (2 ^ 8) from rfl, getLsbD_two_pow (by decide)]
  refine ⟨?_, ?_, fun j h2 h8 => ?_⟩
  · rw [getField_congr (w := setField w 0 2 sel) fun j _ hj => ?_, getField_setField_same _ _ (by decide)]
    · exact Nat.mod_eq_of_lt h
    · rw [hbit, decide_eq_false (by omega), Bool.or_false]
  · rw [hbit, decide_eq_true rfl, Bool.or_true]
  · rw [hbit, decide_eq_false h8, Bool.or_false, getLsbD_setField_outside _ _ (.inr h2)]

/-- SEL_ACT takes SEL and SW_BUSY ends. -/
theorem switchEnded_bits (w : W32) :
    let v := setField (w &&& ~~~0x100) 4 2 (getField w 0 2)
    v.getLsbD 8 = false ∧ getField v 4 2 = getField w 0 2 ∧ getField v 0 2 = getField w 0 2 := by
  have hbit : ∀ j, (w &&& ~~~(0x100 : W32)).getLsbD j = (w.getLsbD j && (decide (j < 32) && !decide (j = 8))) := fun j => by
    rw [BitVec.getLsbD_and, BitVec.getLsbD_not, show (0x100 : W32) = BitVec.ofNat 32 (2 ^ 8) from rfl, getLsbD_two_pow (by decide)]
  intro v
  refine ⟨?_, ?_, ?_⟩
  · rw [getLsbD_setField_outside _ _ (.inr (by decide)), hbit, decide_eq_true rfl, Bool.not_true, Bool.and_false, Bool.and_false]
  · rw [getField_setField_same _ _ (by decide), Nat.mod_eq_of_lt (getField_lt w 0 2)]
  · refine getField_congr fun j _ hj => ?_
    rw [getLsbD_setField_outside _ _ (.inl (by omega)), hbit, decide_eq_true (by omega), decide_eq_false (by omega), Bool.not_false,
      Bool.and_true, Bool.and_true]

/-- CLK_MON of a window: its count and OOR. -/
theorem monWord_fields {n : Nat} (h : n ≤ 65535) (oor dead : Bool) :
    getField (BitVec.ofNat 32 (n + 2 ^ 30 * bnat oor + 2 ^ 31 * bnat dead)) 0 16 = n ∧
    (BitVec.ofNat 32 (n + 2 ^ 30 * bnat oor + 2 ^ 31 * bnat dead)).getLsbD 30 = oor := by
  have hb : ∀ b, bnat b ≤ 1 := fun b => by cases b <;> decide
  have h1 := hb oor
  have h2 := hb dead
  refine ⟨?_, ?_⟩
  · rw [getField, field, BitVec.toNat_ofNat]
    omega
  · rw [BitVec.getLsbD_ofNat, Nat.testBit_eq_decide_div_mod_eq, decide_eq_true (by decide), Bool.true_and,
      show (n + 2 ^ 30 * bnat oor + 2 ^ 31 * bnat dead) / 2 ^ 30 % 2 = bnat oor by omega]
    cases oor with
    | true => rfl
    | false => rfl

/-! ## The commands' states -/

/-- The input of a domain selected and the switch begun; its other bits and all other words are as they were. -/
def SelMoved (s : State) (d sel : Nat) (t : State) : Prop :=
  getField (t.ior (clkCtl d)) 0 2 = sel ∧ (t.ior (clkCtl d)).getLsbD 8 = true ∧
  (∀ j, 2 ≤ j → j ≠ 8 → (t.ior (clkCtl d)).getLsbD j = (s.ior (clkCtl d)).getLsbD j) ∧ (∀ o, o ≠ clkCtl d → t.ior o = s.ior o)

section
variable (s : State) {d : Nat}

theorem State.writeSel_of_ok {sel : Nat} (h : inputOk d sel = true) :
    s.writeSel d sel = (s.ioField (clkCtl d) 0 2 sel).orIo (clkCtl d) 0x100 := if_pos h

theorem State.forceSel_of_ok {sel : Nat} (h : inputOk d sel = true) :
    s.forceSel d sel = { (s.ioField (clkCtl d) 0 2 sel).orIo (clkCtl d) 0x100 with
      clk := { s.clk with forced := s.clk.forced.filter (fun x => x != d) ++ [d] } } := by
  unfold State.forceSel
  rw [if_pos h, s.writeSel_of_ok h]
  rfl

theorem selMoved_sel {sel : Nat} (h : sel < 4) : SelMoved s d sel ((s.ioField (clkCtl d) 0 2 sel).orIo (clkCtl d) 0x100) := by
  have hword : ((s.ioField (clkCtl d) 0 2 sel).orIo (clkCtl d) 0x100).ior (clkCtl d) = setField (s.ior (clkCtl d)) 0 2 sel ||| 0x100 := by
    rw [State.ior_orIo, if_pos rfl, State.ior_ioField, if_pos rfl]
  unfold SelMoved
  rw [hword]
  obtain ⟨hsel, hbusy, hrest⟩ := selWritten_bits (s.ior (clkCtl d)) h
  exact ⟨hsel, hbusy, hrest, fun o ho => by rw [State.ior_orIo, if_neg ho, State.ior_ioField, if_neg ho]⟩

theorem selMoved_writeSel {sel : Nat} (hi : inputOk d sel = true) (h : sel < 4) : SelMoved s d sel (s.writeSel d sel) := by
  rw [s.writeSel_of_ok hi]
  exact selMoved_sel s h

theorem selMoved_forceSel {sel : Nat} (hi : inputOk d sel = true) (h : sel < 4) : SelMoved s d sel (s.forceSel d sel) := by
  rw [s.forceSel_of_ok hi]
  exact selMoved_sel s h

/-- Nothing waits for the domain in the memories or the bay. -/
theorem State.domainBack_of_none (h : s.mem.heldHost = []) : s.domainBack d = s := by
  unfold State.domainBack
  split
  · exact State.retryHost_of_none h
  · rfl

theorem State.domainHold_of_none {hold : Bool} (h : hold = true ∨ (d ≠ 324 ∧ s.mem.heldHost = [])) :
    s.domainHold d hold = s.ioField (clkCtl d) 10 1 (bnat hold) := by
  cases hold with
  | true => rfl
  | false =>
    obtain ⟨hd, hheld⟩ := h.resolve_left Bool.false_ne_true
    refine (if_neg ?_).trans (State.domainBack_of_none _ hheld)
    simp [hd]

/-- A switch that ends with its clock alive and nothing waiting for it. -/
theorem State.switchDone_of_plain (hbusy : (s.ior (clkCtl d)).getLsbD 8 = true) (hdead : (s.ior (clkMon d)).getLsbD 31 = false)
    (htime : d ∉ s.clk.timedOut) (hsel : d ∉ s.clk.selDead) (hslot : s.selectSlot d = none) (hd : d ≠ 324) (hheld : s.mem.heldHost = []) :
    s.switchDone d = (({ s with clk := { s.clk with
      forced := s.clk.forced.filter (fun x => x != d), selDead := s.clk.selDead.filter (fun x => x != d) } } : State).andnIo
        (clkCtl d) 0x100).ioField (clkCtl d) 4 2 (getField (s.ior (clkCtl d)) 0 2) := by
  have hgo : ¬(!s.swBusy d || ((s.domDead d || s.clk.timedOut.contains d) && !s.clk.forced.contains d)) = true := by
    simp [show s.swBusy d = true from hbusy, show s.domDead d = false from hdead, htime]
  have hkeep : s.clk.timedOut.filter (fun x => x != d) = s.clk.timedOut :=
    List.filter_eq_self.2 fun x hx => bne_iff_ne.2 fun he => htime (he ▸ hx)
  unfold State.switchDone
  rw [if_neg hgo]
  extract_lets sel dead _ s0 s1 s2 s3
  have hs0 : s0 = { s with clk := { s.clk with
      forced := s.clk.forced.filter (fun x => x != d), selDead := s.clk.selDead.filter (fun x => x != d) } } := by
    unfold s0
    rw [hkeep]
  have hs2 : s2 = s1 := if_neg (by simp [dead, hsel])
  have hs3 : s3 = s1 := by
    unfold s3
    rw [hs2, show s1.selectSlot d = none from hslot]
  rw [if_neg (by simp [hd]), hs3, State.domainBack_of_none s1 hheld]
  unfold s1
  rw [hs0]

end

/-! ## The commands -/

section
variable {s : State} {d : Nat}

theorem answers_clkCtlSel (hd : d < 327) {sel : BitVec 2} (hi : inputOk d sel.toNat = true) : Answers (.clkCtlSel d sel) s (fun t =>
    SelMoved s d sel.toNat t ∧ t = { s with io := t.io }) := by
  refine ⟨_, guardPart_of_present (decide_eq_true hd) _ _, selMoved_writeSel s hi sel.isLt, ?_⟩
  rw [s.writeSel_of_ok hi]
  rfl

theorem answers_clkCtlForce (hd : d < 327) {sel : BitVec 2} (hi : inputOk d sel.toNat = true) : Answers (.clkCtlForce d sel) s (fun t =>
    SelMoved s d sel.toNat t ∧ d ∈ t.clk.forced ∧ (∀ x, x ≠ d → (x ∈ t.clk.forced ↔ x ∈ s.clk.forced)) ∧
    t = { s with io := t.io, clk := { s.clk with forced := t.clk.forced } }) := by
  refine ⟨_, guardPart_of_present (decide_eq_true hd) _ _, selMoved_forceSel s hi sel.isLt, ?_⟩
  rw [s.forceSel_of_ok hi]
  refine ⟨List.mem_append_right _ (List.mem_singleton_self d), fun x hx => ?_, rfl⟩
  simp [hx]

theorem answers_domainHold (hd : d < 327) {hold : Bool} (h : hold = true ∨ (d ≠ 324 ∧ s.mem.heldHost = [])) :
    Answers (.domainHold d hold) s (fun t => (t.ior (clkCtl d)).getLsbD 10 = hold ∧
      (∀ j, j ≠ 10 → (t.ior (clkCtl d)).getLsbD j = (s.ior (clkCtl d)).getLsbD j) ∧ (∀ o, o ≠ clkCtl d → t.ior o = s.ior o) ∧
      t = { s with io := t.io }) := by
  refine ⟨_, guardPart_of_present (decide_eq_true hd) _ _, ?_⟩
  rw [s.domainHold_of_none h]
  have hword : (s.ioField (clkCtl d) 10 1 (bnat hold)).ior (clkCtl d) = setField (s.ior (clkCtl d)) 10 1 (bnat hold) := by
    rw [State.ior_ioField, if_pos rfl]
  refine ⟨?_, fun j hj => ?_, fun o ho => by rw [State.ior_ioField, if_neg ho], rfl⟩
  · rw [hword, getLsbD_setField _ _ _ _ (by decide), if_pos (by decide), Nat.sub_self, testBit_bnat]
  · rw [hword, getLsbD_setField_outside _ _ (by omega)]

theorem answers_clockSwitchDone_waits (hd : d < 327) (htime : d ∈ s.clk.timedOut) (hforce : d ∉ s.clk.forced) :
    Answers (.clockSwitchDone d) s (fun t => t = s) :=
  ⟨_, guardPart_of_present (decide_eq_true hd) _ _, if_pos (by simp [htime, hforce])⟩

theorem answers_clockSwitchDone (hd : d < 327) (hbusy : (s.ior (clkCtl d)).getLsbD 8 = true) (hdead : (s.ior (clkMon d)).getLsbD 31 = false)
    (htime : d ∉ s.clk.timedOut) (hsel : d ∉ s.clk.selDead) (hslot : s.selectSlot d = none) (h324 : d ≠ 324) (hheld : s.mem.heldHost = []) :
    Answers (.clockSwitchDone d) s (fun t => (t.ior (clkCtl d)).getLsbD 8 = false ∧
      getField (t.ior (clkCtl d)) 4 2 = getField (s.ior (clkCtl d)) 0 2 ∧ getField (t.ior (clkCtl d)) 0 2 = getField (s.ior (clkCtl d)) 0 2 ∧
      (∀ o, o ≠ clkCtl d → t.ior o = s.ior o) ∧ d ∉ t.clk.forced ∧
      t = { s with io := t.io, clk := { s.clk with forced := t.clk.forced, selDead := t.clk.selDead } }) := by
  refine ⟨_, guardPart_of_present (decide_eq_true hd) _ _, ?_⟩
  rw [s.switchDone_of_plain hbusy hdead htime hsel hslot h324 hheld]
  obtain ⟨h8, h42, h02⟩ := switchEnded_bits (s.ior (clkCtl d))
  rw [State.ior_ioField, if_pos rfl, State.ior_andnIo, if_pos rfl]
  refine ⟨h8, h42, h02, fun o ho => ?_, fun hm => ?_, rfl⟩
  · rw [State.ior_ioField, if_neg ho, State.ior_andnIo, if_neg ho]
    rfl
  · simp [State.ioField, State.andnIo, State.setIo] at hm

theorem answers_switchTimeout (hd : d < 327) (hbusy : (s.ior (clkCtl d)).getLsbD 8 = true) : Answers (.switchTimeout d) s (fun t =>
    (t.ior (clkCtl d)).getLsbD 11 = true ∧ t.bar 0x40038 = s.bar 0x40038 + 1) := by
  refine ⟨_, guardPart_of_present (decide_eq_true hd) _ _, ?_⟩
  unfold State.switchTimeout
  rw [if_neg (by simp [show s.swBusy d = true from hbusy])]
  extract_lets _ s0 s1
  have hs0 : ClockWordsKept s s0 := .ite (.refl s) (.of_eq rfl rfl)
  obtain ⟨hfault, hword⟩ := (s0.orIo (clkCtl d) 0x800).domainFault_result d
  have hctl : (s1.ior (clkCtl d)).getLsbD 11 = true := by
    rw [show s1.ior (clkCtl d) = _ from hword _ (by unfold clkCtl; omega), State.ior_orIo, if_pos rfl, BitVec.getLsbD_or,
      show (0x800 : W32).getLsbD 11 = true from rfl, Bool.or_true]
  have hcount : s1.bar 0x40038 = s.bar 0x40038 + 1 := hfault.trans (congrArg (· + 1) hs0.faults)
  split
  · exact ⟨hctl, hcount⟩
  · exact ⟨hctl, hcount⟩

theorem answers_clkMonWindow (hd : d < 327) (count : Nat) (hs : s.clk.started = true) (hp : s.domPowered d = true) :
    Answers (.clkMonWindow d count) s (fun t => getField (t.ior (clkMon d)) 0 16 = min 65535 count ∧
      ∀ f, s.domainHz d = some f → (t.ior (clkMon d)).getLsbD 30 =
        decide (1024 * f < 50 * (((min 65535 count * 156250000 : Nat) : Int) - ((1024 * f : Nat) : Int)).natAbs)) := by
  refine ⟨_, guardPart_of_present (decide_eq_true hd) _ _, ?_⟩
  unfold State.monWindow
  rw [if_neg (by simp [hs, hp])]
  extract_lets n oor dead was s1
  have hword : (if oor && !was then s1.domainFault d else s1).ior (clkMon d) =
      BitVec.ofNat 32 (n + 2 ^ 30 * bnat oor + 2 ^ 31 * bnat dead) := by
    have h1 : s1.ior (clkMon d) = _ := (State.ior_setIo ..).trans (if_pos rfl)
    refine iteInduction (motive := fun t : State => t.ior (clkMon d) = _) (fun _ => ?_) (fun _ => h1)
    exact ((s1.domainFault_result d).2 _ (by unfold clkMon; omega)).trans h1
  obtain ⟨hcount, h30⟩ := monWord_fields (n := n) (Nat.min_le_left ..) oor dead
  dsimp only
  rw [hword]
  refine ⟨hcount, fun f hf => h30.trans ?_⟩
  simp only [oor, hf]
  rw [Int.natCast_mul n, Int.natCast_mul 1024]
  rfl

theorem answers_domainDead (hd : d < 327) (halive : (s.ior (clkMon d)).getLsbD 31 = false) (hs : s.clk.started = true)
    (hp : s.domPowered d = true) : Answers (.domainDead d) s (fun t =>
    (t.ior (clkMon d)).getLsbD 31 = true ∧ t.bar 0x40038 = s.bar 0x40038 + 1) := by
  obtain ⟨hfault, hword⟩ := (s.orIo (clkMon d) 0x80000000).domainFault_result d
  refine ⟨(s.orIo (clkMon d) 0x80000000).domainFault d, (guardPart_of_present (decide_eq_true hd) _ _).trans ?_, ?_, hfault⟩
  · exact congrArg Host.Outcome.next (if_neg (by simp [show s.domDead d = false from halive, hs, hp]))
  · rw [hword _ (by unfold clkMon; omega), State.ior_orIo, if_pos rfl, BitVec.getLsbD_or, show (0x80000000 : W32).getLsbD 31 = true from rfl,
      Bool.or_true]

theorem answers_clkSelectDomain (k : Slot) (dom : BitVec 9) (sel : BitVec 2) (hd : dom.toNat < 327) (hi : inputOk dom.toNat sel.toNat = true)
    (hidle : (s.ior (clkCtl dom.toNat)).getLsbD 8 = false) : Answers (.clkSelectDomain k dom sel) s (fun t =>
    getField (t.ior (clkCtl dom.toNat)) 0 2 = sel.toNat ∧ (t.ior (clkCtl dom.toNat)).getLsbD 8 = true ∧
    getSlot t.ctl.waiting k = some (.clkSelectDomain k dom sel) ∧ t.ctl.results = s.ctl.results) := by
  refine ⟨_, rfl, ?_⟩
  unfold State.selectDomain
  rw [if_neg (by simp [domOk, hd, hi]), if_neg (by simp [show s.swBusy dom.toNat = false from hidle])]
  extract_lets dead
  rw [BitVec.ofNat_toNat, BitVec.setWidth_eq, BitVec.ofNat_toNat, BitVec.setWidth_eq]
  split
  · obtain ⟨hsel, hbusy, -, -⟩ := selMoved_forceSel (dead s) hi sel.isLt
    refine ⟨hsel, hbusy, getSlot_putSlot_same .., ?_⟩
    rw [(dead s).forceSel_of_ok hi]
    rfl
  · obtain ⟨hsel, hbusy, -, -⟩ := selMoved_writeSel s hi sel.isLt
    refine ⟨hsel, hbusy, getSlot_putSlot_same .., ?_⟩
    rw [s.writeSel_of_ok hi]
    rfl

end

/-- Settles O29, on what a domain fault's reaction leaves of the domains' words. -/
theorem clockDomainCommands : Obligations.ClockDomainCommands := by
  unfold Obligations.ClockDomainCommands
  intro s d hd
  exact ⟨fun sel hi => ⟨answers_clkCtlSel hd hi, answers_clkCtlForce hd hi⟩, fun hold h => answers_domainHold hd h,
    fun htime hforce => answers_clockSwitchDone_waits hd htime hforce,
    fun hbusy hdead htime hsel hslot h324 hheld => answers_clockSwitchDone hd hbusy hdead htime hsel hslot h324 hheld,
    fun hbusy => answers_switchTimeout hd hbusy, fun count hs hp => answers_clkMonWindow hd count hs hp,
    fun halive hs hp => answers_domainDead hd halive hs hp,
    fun k dom sel hdom hi hidle => by subst hdom; exact answers_clkSelectDomain k dom sel hd hi hidle⟩

end Sys2Proof.Machine

/-! Frames out and in (R266, R270, R273, R293 to R295): what a send adds to what leaves and to what waits, and what a frame that arrives in
order leaves of the state before it is taken. -/

namespace Sys2Proof.Machine

/-! ## What counting sends -/

/-- What was sent before stands, and what is sent since follows it. -/
def OutGrows (s t : State) : Prop := s.out <+: t.out

theorem OutGrows.refl (s : State) : OutGrows s s := List.prefix_rfl

theorem OutGrows.trans {s t u : State} (h : OutGrows s t) (k : OutGrows t u) : OutGrows s u := List.IsPrefix.trans h k

theorem OutGrows.ite {s a b : State} {p : Prop} [Decidable p] (ha : OutGrows s a) (hb : OutGrows s b) : OutGrows s (if p then a else b) :=
  iteInduction (motive := OutGrows s) (fun _ => ha) (fun _ => hb)

theorem OutGrows.foldl {α : Type} {g : State → α → State} (h : ∀ s a, OutGrows s (g s a)) (l : List α) (s : State) :
    OutGrows s (l.foldl g s) := by
  induction l generalizing s with
  | nil => exact .refl s
  | cons a r ih => exact (h s a).trans (ih _)

theorem outGrows_emit (s : State) (o : Out) : OutGrows s (s.emit o) := List.prefix_append ..

theorem outGrows_cause (s : State) (j : Nat) : OutGrows s (s.cause j) := by
  have hmask : OutGrows s (s.orBar 0x1000C (BitVec.ofNat 32 (2 ^ j))) := .refl s
  exact hmask.trans (.ite (outGrows_emit ..) (.ite (.refl _) (.refl _)))

theorem outGrows_ccRise (s : State) (b : Nat) : OutGrows s (s.ccRise b) := by
  have hset : OutGrows s (s.orBar 0x30000 (BitVec.ofNat 32 (2 ^ b))) := .refl s
  exact .ite (.refl s) (hset.trans (outGrows_cause ..))

theorem outGrows_addCounter (s : State) (k n : Nat) : OutGrows s (s.addCounter k n) := by
  have hset : ∀ c, OutGrows s (s.setCounter k c) := fun _ => .refl s
  exact .ite (hset _) ((hset _).trans (outGrows_ccRise ..))

theorem outGrows_countOne (s : State) (k n : Nat) : OutGrows s (s.countOne k n) :=
  .ite ((outGrows_addCounter ..).trans (outGrows_addCounter ..)) (outGrows_addCounter ..)

theorem outGrows_count (s : State) (b e n : Nat) : OutGrows s (s.count b e n) :=
  .ite (.refl s) (.foldl (fun t _ => .ite (outGrows_countOne ..) (.refl t)) _ _)

/-! ## Sends -/

/-- A send: what leaves, what waits at a chimney, and what counting changes. -/
structure SendsOnly (s t : State) : Prop where
  frame : t = { s with obs := { s.obs with counters := t.obs.counters }, bar0 := t.bar0, out := t.out
                       ctl := { s.ctl with held := t.ctl.held }, net := { s.net with waitOut := t.net.waitOut } }
  words : ∀ o, o ≠ 0x30000 → o ≠ 0x1000C → t.bar o = s.bar o
  outs : OutGrows s t
  waits : s.net.waitOut <+: t.net.waitOut

theorem SendsOnly.refl (s : State) : SendsOnly s s := ⟨rfl, fun _ _ _ => rfl, .refl s, List.prefix_rfl⟩

theorem SendsOnly.trans {s t u : State} (h : SendsOnly s t) (k : SendsOnly t u) : SendsOnly s u := by
  refine ⟨?_, fun o a b => (k.words o a b).trans (h.words o a b), h.outs.trans k.outs, h.waits.trans k.waits⟩
  have hf := h.frame
  rw [k.frame]
  conv_lhs => rw [hf]

theorem SendsOnly.foldl {α : Type} {g : State → α → State} (h : ∀ s a, SendsOnly s (g s a)) (l : List α) (s : State) :
    SendsOnly s (l.foldl g s) := by
  induction l generalizing s with
  | nil => exact .refl s
  | cons a r ih => exact (h s a).trans (ih _)

theorem SendsOnly.ite {s a b : State} {p : Prop} [Decidable p] (ha : SendsOnly s a) (hb : SendsOnly s b) : SendsOnly s (if p then a else b) :=
  iteInduction (motive := SendsOnly s) (fun _ => ha) (fun _ => hb)

theorem State.net_sendOut (s : State) (ch : Nat) (o : Out) : (s.sendOut ch o).net = s.net := by
  rw [State.sendOut, (counted_count (s.emit o) _ _ _).rest]
  rfl

theorem sendsOnly_sendOut (s : State) (ch : Nat) (o : Out) : SendsOnly s (s.sendOut ch o) := by
  have h := counted_count (s.emit o) (0x150 + ch % 2) 0x110 1
  refine ⟨?_, h.words, (outGrows_emit s o).trans (outGrows_count ..), ?_⟩
  · conv_lhs => rw [State.sendOut, h.rest]
    rw [State.sendOut, h.rest]
    rfl
  · rw [State.net_sendOut]

theorem sendsOnly_putFrame (s : State) (ch : Nat) (f : Frame) : SendsOnly s (s.putFrame ch f) := by
  have hask : SendsOnly s (s.askGateway ch) := .ite (.refl s) (sendsOnly_sendOut ..)
  exact .ite (sendsOnly_sendOut ..) (hask.trans ⟨rfl, fun _ _ _ => rfl, .refl _, List.prefix_append ..⟩)

theorem sendsOnly_sendBoth (s : State) (d typ : Nat) (p : List Byte) : SendsOnly s (s.sendBoth d typ p) :=
  .foldl (fun t ch => sendsOnly_putFrame t ch _) _ _

theorem sendsOnly_sendOn (s : State) (ch d typ : Nat) (p : List Byte) : SendsOnly s (s.sendOn ch d typ p) :=
  .ite (sendsOnly_putFrame ..) (.ite (sendsOnly_putFrame ..) (.refl s))

theorem sendsOnly_sendDown (s : State) (r : Round) : SendsOnly s (s.sendDown r) := .foldl (fun t c => sendsOnly_sendBoth t c _ _) _ _

/-! What a send leaves alone of what the next one needs. -/

section
variable {s t : State} (h : SendsOnly s t)
include h

theorem SendsOnly.frameTo (d typ epoch seq : Nat) (rtx : Bool) (p : List Byte) :
    t.frameTo d typ epoch seq rtx p = s.frameTo d typ epoch seq rtx p := by
  rw [h.frame]
  rfl

theorem SendsOnly.chimneysTo (d : Nat) : t.chimneysTo d = s.chimneysTo d := by
  rw [h.frame]
  rfl

theorem SendsOnly.linkFor (ch : Nat) (f : Frame) : t.linkFor ch f = s.linkFor ch f := by
  rw [h.frame]
  rfl

theorem SendsOnly.wireBytes (ch own mac : Nat) (f : Frame) : t.wireBytes ch own mac f = s.wireBytes ch own mac f := by
  rw [h.frame]
  rfl

theorem SendsOnly.ownAddr (ch : Nat) : t.ownAddr ch = s.ownAddr ch := by
  rw [h.frame]
  rfl

theorem SendsOnly.macs : t.net.macs = s.net.macs := by rw [h.frame]

theorem SendsOnly.mayLeave (ch : Nat) (f : Frame) : t.mayLeave ch f = s.mayLeave ch f := by
  have halt : t.snapHalted = s.snapHalted := by
    unfold State.snapHalted State.linksAlive
    rw [h.words 0x30040 (by decide) (by decide), h.frame]
  unfold State.mayLeave
  rw [halt, h.ownAddr]
  rw [h.frame]
  rfl

end

/-! ## The frame that a send puts out -/

theorem frameOut_putFrame (s : State) (ch : Nat) (f : Frame) : frameOut s (s.putFrame ch f) ch f := by
  unfold State.putFrame
  refine ⟨fun hm => ?_, fun hm => ?_⟩
  · rw [if_pos hm]
    refine ⟨congrArg Net.waitOut (s.net_sendOut ..), ?_⟩
    obtain ⟨vectors, hv⟩ := outGrows_count (s.emit (.frame ch (s.linkFor ch f)
      (s.wireBytes ch ((s.ownAddr ch).getD 0) (tget 0 s.net.macs ch) f))) (0x150 + ch % 2) 0x110 1
    rw [State.leave, State.sendOut, ← hv]
    simp [State.emit]
  · rw [if_neg (by rw [hm]; exact Bool.false_ne_true)]
    have hask : SendsOnly s (s.askGateway ch) := .ite (.refl s) (sendsOnly_sendOut ..)
    have hwait : (s.askGateway ch).net.waitOut = s.net.waitOut := by
      unfold State.askGateway
      split
      · rfl
      · rw [State.net_sendOut]
    exact congrArg (· ++ [(ch, f)]) hwait

/-- A frame has left on its chimney, or waits there. -/
def FrameGone (s : State) (ch : Nat) (f : Frame) (t : State) : Prop :=
  (s.mayLeave ch f = true →
    .frame ch (s.linkFor ch f) (s.wireBytes ch ((s.ownAddr ch).getD 0) (tget 0 s.net.macs ch) f) ∈ t.out) ∧
  (s.mayLeave ch f = false → (ch, f) ∈ t.net.waitOut)

theorem FrameGone.later {s t u : State} {ch : Nat} {f : Frame} (h : FrameGone s ch f t) (k : SendsOnly t u) : FrameGone s ch f u :=
  ⟨fun hm => List.IsPrefix.subset k.outs (h.1 hm), fun hm => k.waits.subset (h.2 hm)⟩

theorem frameGone_putFrame {s t : State} (h : SendsOnly s t) (ch : Nat) (f : Frame) : FrameGone s ch f (t.putFrame ch f) := by
  obtain ⟨hleave, hwait⟩ := frameOut_putFrame t ch f
  rw [h.mayLeave, h.linkFor, h.wireBytes, h.ownAddr, h.macs] at hleave
  rw [h.mayLeave] at hwait
  exact ⟨fun hm => List.mem_of_getElem? (hleave hm).2, fun hm => by rw [hwait hm]; exact List.mem_append_right _ (List.mem_singleton_self _)⟩

/-- In a row of sends, each member's own send has been made at the end. -/
theorem frameGone_foldl {α : Type} {g : State → α → State} (hg : ∀ s a, SendsOnly s (g s a)) {s0 : State} {ch : Nat} {f : Frame} {a : α}
    (hsend : ∀ t, SendsOnly s0 t → FrameGone s0 ch f (g t a)) {l : List α} (ha : a ∈ l) (s : State) (hs : SendsOnly s0 s) :
    FrameGone s0 ch f (l.foldl g s) := by
  induction l generalizing s with
  | nil => exact absurd ha List.not_mem_nil
  | cons b r ih =>
    obtain rfl | ha := List.mem_cons.1 ha
    · exact (hsend s hs).later (.foldl hg r _)
    · exact ih ha _ (hs.trans (hg s b))

theorem frameGone_sendBoth {s t : State} (h : SendsOnly s t) {d ch : Nat} (hch : ch ∈ s.chimneysTo d) (typ : Nat) (p : List Byte) :
    FrameGone s ch (s.frameTo d typ 0 0 false p) (t.sendBoth d typ p) := by
  unfold State.sendBoth
  rw [h.chimneysTo]
  refine frameGone_foldl (fun u c => sendsOnly_putFrame u c _) (fun u hu => ?_) hch t h
  rw [hu.frameTo]
  exact frameGone_putFrame hu ch _

/-! ## The chimney of a frame -/

theorem State.lt_of_mem_chimneysTo {s : State} {d c : Nat} (h : c ∈ s.chimneysTo d) : c < 2 := by
  have hl : ∀ x ∈ [0, 1].filter (fun c => s.chActive c), x < 2 := fun x hx => by
    have := List.mem_of_mem_filter hx
    simp at this
    omega
  unfold State.chimneysTo at h
  dsimp only at h
  split at h
  · exact hl c h
  · split at h
    · exact hl c h
    · exact hl c (List.mem_of_mem_filter h)

theorem sentFrame_sendOn_of_mem {s : State} {ch d : Nat} (typ : Nat) (p : List Byte) (h : ch ∈ s.chimneysTo d) :
    sentFrame s (s.sendOn ch d typ p) ch d typ p := by
  have hmod : ch % 2 = ch := Nat.mod_eq_of_lt (State.lt_of_mem_chimneysTo h)
  have hput : s.sendOn ch d typ p = s.putFrame ch (s.frameTo d typ 0 0 false p) := by
    unfold State.sendOn State.sendVia
    rw [hmod]
    exact if_pos (List.contains_iff_mem.2 h)
  rw [hput]
  exact frameOut_putFrame s ch _

/-- A frame goes out on its chimney, or on the other. -/
theorem sentFrame_sendOn (s : State) (ch : Nat) {d : Nat} (typ : Nat) (p : List Byte) (h : s.chimneysTo d ≠ []) :
    ∃ b ∈ s.chimneysTo d, sentFrame s (s.sendOn ch d typ p) b d typ p := by
  let f := s.frameTo d typ 0 0 false p
  have hwhere : ∃ b ∈ s.chimneysTo d, s.sendOn ch d typ p = s.putFrame b f := by
    unfold State.sendOn State.sendVia
    by_cases h0 : ch % 2 ∈ s.chimneysTo d
    · exact ⟨_, h0, if_pos (List.contains_iff_mem.2 h0)⟩
    · have h1 : (ch + 1) % 2 ∈ s.chimneysTo d := by
        obtain ⟨c, hc⟩ := List.exists_mem_of_ne_nil _ h
        have hlt := State.lt_of_mem_chimneysTo hc
        rwa [show (ch + 1) % 2 = c by have : c ≠ ch % 2 := fun he => h0 (he ▸ hc); omega]
      exact ⟨_, h1, (if_neg (mt List.contains_iff_mem.1 h0)).trans (if_pos (List.contains_iff_mem.2 h1))⟩
  obtain ⟨b, hb, he⟩ := hwhere
  rw [he]
  exact ⟨b, hb, frameOut_putFrame s b f⟩

/-! ## A frame that arrives in order -/

theorem counted_frameIn (s : State) (ch : Nat) : Counted s (s.frameIn ch) := counted_count ..

theorem countsOnly_frameIn (s : State) (ch : Nat) : countsOnly s (s.frameIn ch) := by
  unfold countsOnly
  rw [(counted_frameIn s ch).rest]

section
variable {s : State} {ch : BitVec 1} {l : List Byte} {f : Frame} {typ : Nat} (h : comes s ch l f typ)
include h

theorem comes.not_halted : ¬s.snapHalted = true := by
  obtain ⟨hup, -⟩ := h
  unfold State.portsUp at hup
  intro hh
  rw [hh, Bool.not_true, Bool.and_false] at hup
  exact nomatch hup

/-- A frame that comes for this module is admitted, counted. -/
theorem comes.admitFrame : s.admitFrame ch.toNat typ l = (s.frameIn ch.toNat, some f) := by
  obtain ⟨hup, ⟨u, hlink, hparse⟩, htyp, hcluster, hdev⟩ := h
  have hany : s.admitAny ch.toNat l = (s.frameIn ch.toNat, some f) := by
    unfold State.admitAny
    rw [if_neg (by rw [hup]; decide)]
    dsimp only
    rw [hlink]
    dsimp only
    rw [hparse]
    exact if_neg (by simp [hcluster, hdev])
  unfold State.admitFrame
  dsimp only
  rw [hany]
  exact congrArg (Prod.mk _) (if_pos htyp)

end

end Sys2Proof.Machine

/-! Flag rounds, the global stop and the time exchange (R230 to R232, R248, R273 to R278, R395): what each frame that arrives in order
leaves. -/

namespace Sys2Proof.Machine

/-! ## What a frame that arrives leaves alone -/

/-- Beside what counting and sending change, the network's part at most. -/
def PortsOnly (s t : State) : Prop := t = { s with net := t.net, obs := t.obs, bar0 := t.bar0, ctl := t.ctl, out := t.out }

theorem PortsOnly.trans {s t u : State} (h : PortsOnly s t) (k : PortsOnly t u) : PortsOnly s u := by
  unfold PortsOnly at *
  rw [k, h]

theorem portsOnly_of_counted {s t : State} (h : Counted s t) : PortsOnly s t := by
  unfold PortsOnly
  rw [h.rest]

theorem portsOnly_setNet (s : State) (n : Net) : PortsOnly s { s with net := n } := rfl

theorem SendsOnly.portsOnly {s t : State} (h : SendsOnly s t) : PortsOnly s t := by
  unfold PortsOnly
  rw [h.frame]

section
variable {s t : State} (h : Counted s t)
include h

theorem Counted.net : t.net = s.net := by rw [h.rest]

theorem Counted.clk : t.clk = s.clk := by rw [h.rest]

theorem Counted.settings : t.ctl.settings = s.ctl.settings := by rw [h.rest]

theorem Counted.orOf (e : Nat) : t.orOf e = s.orOf e := by
  unfold State.orOf
  rw [h.net]

theorem Counted.upCount (src e : Nat) : t.upCount src e = s.upCount src e := by
  unfold State.upCount
  rw [h.net]

theorem Counted.chimneysTo (d : Nat) : t.chimneysTo d = s.chimneysTo d := by
  rw [h.rest]
  rfl

theorem Counted.beatDiv : t.beatDiv = s.beatDiv := by
  unfold State.beatDiv
  rw [h.words 0x4000C (by decide) (by decide)]

theorem Counted.timeParent : t.timeParent = s.timeParent := by
  unfold State.timeParent
  rw [State.setting_congr h.settings]

theorem Counted.tsDiff (a b : Nat) : t.tsDiff a b = s.tsDiff a b := by
  unfold State.tsDiff
  rw [h.beatDiv]

end

/-! ## Up and down rounds -/

theorem State.upCount_noteUp (s : State) (src e ch : Nat) : (s.noteUp src e ch).1.upCount src e =
    if ch = 0 then ((s.upCount src e).1 + 1, (s.upCount src e).2) else ((s.upCount src e).1, (s.upCount src e).2 + 1) := by
  conv_lhs => unfold State.noteUp State.upCount
  have hold : (s.net.upSeen.filter (fun u => u.1 != (src, e))).find? (fun u => u.1 == (src, e)) = none := by
    refine List.find?_eq_none.2 fun u hu => ?_
    simpa using (List.mem_filter.1 hu).2
  rw [List.find?_append, hold]
  unfold State.upCount
  simp

section
variable {s : State} {src ch : Nat} {r : Round}

/-- A second copy of a sending is noted alone. -/
theorem State.upArrives_of_again (h : (s.noteUp src r.edge ch).2 = false) : s.upArrives src ch r = (s.noteUp src r.edge ch).1 :=
  if_pos (by rw [h]; rfl)

/-- A round whose edge has no OR yet, from a child that has sent none, takes its place among those to join. -/
theorem State.upArrives_of_first (h : (s.noteUp src r.edge ch).2 = true) (hor : s.orOf r.edge = none)
    (hnew : s.net.ups.any (fun u => u.1 == src && u.2.edge == r.edge) = false) :
    s.upArrives src ch r = ({ s with net := { s.net with
      upSeen := (s.noteUp src r.edge ch).1.net.upSeen, ups := s.net.ups ++ [(src, r)] } } : State).tryJoin r.edge := by
  have hor' : (s.noteUp src r.edge ch).1.orOf r.edge = none := hor
  unfold State.upArrives
  dsimp only
  rw [if_neg (by rw [h]; decide), hor']
  exact if_neg (by rw [show (s.noteUp src r.edge ch).1.net.ups = s.net.ups from rfl, hnew]; decide)

theorem State.tryJoin_of_none {e : Nat} (h : s.net.own.find? (fun q => q.edge == e) = none) : s.tryJoin e = s := by
  unfold State.tryJoin
  rw [h]

/-- The root with one child joins its own round and the child's, and holds and sends down the OR of a whole cluster. -/
theorem State.tryJoin_of_root {e : Nat} {own : Round} (hown : s.net.own.find? (fun q => q.edge == e) = some own)
    (hups : s.net.ups.filter (fun u => u.2.edge == e) = [(src, r)]) (hkids : s.setting 0x0151 = 1) (hroot : s.flagParent = none)
    (hagree : flagConflict [own, r] = false) (hcnt : own.cnt + r.cnt = s.clusterSize) :
    s.tryJoin e = (({ s with net := { s.net with own := s.net.own.filter (fun q => q.edge != e) } } : State).holdOr (joinRounds own r)).sendDown
      (joinRounds own r) := by
  have hkid : (s.net.ups.filter (fun u => u.2.edge == e)).map (fun u => u.2) = [r] := by rw [hups]; rfl
  unfold State.tryJoin
  rw [hown]
  dsimp only
  rw [hkid, if_neg (show ¬[r].length < s.setting 0x0151 by rw [hkids]; exact Nat.lt_irrefl 1), if_neg (by rw [hagree]; exact Bool.false_ne_true),
    show ({ s with net := { s.net with own := s.net.own.filter (fun q => q.edge != e) } } : State).flagParent = none from hroot]
  exact if_pos hcnt

end

theorem State.orOf_holdOr {s : State} {r : Round} (h : s.orOf r.edge = none) : (s.holdOr r).orOf r.edge = some r := by
  unfold State.orOf State.holdOr at *
  rw [List.find?_append, h]
  simp

theorem SendsOnly.orOf {s t : State} (h : SendsOnly s t) (e : Nat) : t.orOf e = s.orOf e := by
  rw [h.frame]
  rfl

theorem SendsOnly.sentUp {s t : State} (h : SendsOnly s t) : t.net.sentUp = s.net.sentUp := by rw [h.frame]

section
variable {s : State} {ch : BitVec 1} {l : List Byte} {f : Frame} (h : comes s ch l f 0)
  (hmark : ((parseRound f.payload).2.gstop && (parseRound f.payload).2.edge == gstopMark) = false)
include h hmark

section
variable (hdir : (parseRound f.payload).1 = false)
include hdir

theorem exec_flagUpReceive :
    exec (.flagUpReceive ch l) s = .next ((s.frameIn ch.toNat).upArrives f.src f.chsel (parseRound f.payload).2) := by
  change execFlagUpReceive ch l s = _
  unfold execFlagUpReceive
  dsimp only
  rw [if_neg h.not_halted, h.admitFrame]
  exact congrArg ok (if_neg (by rw [hdir, hmark]; decide))

theorem answers_flagUpReceive_again (hfirst : (s.noteUp f.src (parseRound f.payload).2.edge f.chsel).2 = false) : Answers (.flagUpReceive ch l) s (fun t =>
    t = { s.frameIn ch.toNat with net := { s.net with upSeen := t.net.upSeen } } ∧
    ∀ n, s.upCount f.src (parseRound f.payload).2.edge = n → t.upCount f.src (parseRound f.payload).2.edge =
      if f.chsel = 0 then (n.1 + 1, n.2) else (n.1, n.2 + 1)) := by
  have hc := counted_frameIn s ch.toNat
  refine ⟨_, exec_flagUpReceive h hmark hdir, ?_⟩
  have hagain : ((s.frameIn ch.toNat).noteUp f.src (parseRound f.payload).2.edge f.chsel).2 = false := by
    unfold State.noteUp at hfirst ⊢
    rw [hc.upCount]
    exact hfirst
  rw [State.upArrives_of_again hagain]
  refine ⟨?_, fun n hn => ?_⟩
  · rw [← hc.net]
    rfl
  · rw [State.upCount_noteUp, hc.upCount, hn]

section
variable (hfirst : (s.noteUp f.src (parseRound f.payload).2.edge f.chsel).2 = true) (hor : s.orOf (parseRound f.payload).2.edge = none)
  (hnew : s.net.ups.any (fun u => u.1 == f.src && u.2.edge == (parseRound f.payload).2.edge) = false)
include hfirst hor hnew

theorem exec_flagUpReceive_first :
    exec (.flagUpReceive ch l) s = .next (({ s.frameIn ch.toNat with net := { s.net with
      upSeen := (s.noteUp f.src (parseRound f.payload).2.edge f.chsel).1.net.upSeen
      ups := s.net.ups ++ [(f.src, (parseRound f.payload).2)] } } : State).tryJoin (parseRound f.payload).2.edge) := by
  have hc := counted_frameIn s ch.toNat
  have hnote : ((s.frameIn ch.toNat).noteUp f.src (parseRound f.payload).2.edge f.chsel).2 =
      (s.noteUp f.src (parseRound f.payload).2.edge f.chsel).2 := by
    unfold State.noteUp
    rw [hc.upCount]
  have hseen : ((s.frameIn ch.toNat).noteUp f.src (parseRound f.payload).2.edge f.chsel).1.net.upSeen =
      (s.noteUp f.src (parseRound f.payload).2.edge f.chsel).1.net.upSeen := by
    unfold State.noteUp
    rw [hc.upCount, hc.net]
  rw [exec_flagUpReceive h hmark hdir, State.upArrives_of_first (hnote.trans hfirst) ((hc.orOf _).trans hor) (by rw [hc.net]; exact hnew), hseen,
    hc.net]

theorem answers_flagUpReceive_waits
    (hown : s.net.own.find? (fun q => q.edge == (parseRound f.payload).2.edge) = none) : Answers (.flagUpReceive ch l) s (fun t =>
    t = { s.frameIn ch.toNat with net := { s.net with upSeen := t.net.upSeen, ups := s.net.ups ++ [(f.src, (parseRound f.payload).2)] } }) := by
  refine ⟨_, exec_flagUpReceive_first h hmark hdir hfirst hor hnew, ?_⟩
  rw [State.tryJoin_of_none (by exact hown)]

theorem answers_flagUpReceive_joins {own : Round}
    (hown : s.net.own.find? (fun q => q.edge == (parseRound f.payload).2.edge) = some own)
    (hups : s.net.ups.filter (fun u => u.2.edge == (parseRound f.payload).2.edge) = []) (hkids : s.setting 0x0151 = 1) (hroot : s.flagParent = none)
    (hagree : flagConflict [own, (parseRound f.payload).2] = false) (hcnt : own.cnt + (parseRound f.payload).2.cnt = s.clusterSize) :
    Answers (.flagUpReceive ch l) s (fun t => t.orOf (parseRound f.payload).2.edge = some (joinRounds own (parseRound f.payload).2) ∧
      t = { s with net := t.net, obs := t.obs, bar0 := t.bar0, ctl := t.ctl, out := t.out }) := by
  let r := (parseRound f.payload).2
  let q := joinRounds own r
  let u : State := { s.frameIn ch.toNat with net := { s.net with
    upSeen := (s.noteUp f.src r.edge f.chsel).1.net.upSeen, ups := s.net.ups ++ [(f.src, r)] } }
  let w : State := ({ u with net := { u.net with own := u.net.own.filter (fun q => q.edge != r.edge) } } : State).holdOr q
  have hc := counted_frameIn s ch.toNat
  have hjoin : u.tryJoin r.edge = w.sendDown q := by
    have hups' : u.net.ups.filter (fun u => u.2.edge == r.edge) = [(f.src, r)] := by
      rw [show u.net.ups = s.net.ups ++ [(f.src, r)] from rfl, List.filter_append, hups]
      simp
    have hset : ∀ id, u.setting id = s.setting id := State.setting_congr hc.settings
    have hopt : ∀ id, u.settingOpt id = s.settingOpt id := State.settingOpt_congr hc.settings
    refine State.tryJoin_of_root hown hups' ((hset _).trans hkids) ?_ hagree ?_
    · unfold State.flagParent at hroot ⊢
      rw [hopt]
      exact hroot
    · unfold State.clusterSize at hcnt ⊢
      rw [hopt]
      exact hcnt
  have hedge : q.edge = r.edge := by
    have hfound := List.find?_some hown
    exact eq_of_beq hfound
  have hsend := sendsOnly_sendDown w q
  refine ⟨_, exec_flagUpReceive_first h hmark hdir hfirst hor hnew, ?_⟩
  change (u.tryJoin r.edge).orOf r.edge = some q ∧ PortsOnly s (u.tryJoin r.edge)
  rw [hjoin]
  refine ⟨?_, ?_⟩
  · rw [hsend.orOf, ← hedge]
    refine State.orOf_holdOr ?_
    rw [hedge]
    exact hor
  · exact ((portsOnly_of_counted hc).trans (portsOnly_setNet _ w.net)).trans hsend.portsOnly

end

end

section
variable (hdir : (parseRound f.payload).1 = true) (hp : s.flagParent = some f.src)
include hdir hp

theorem exec_flagDownReceive :
    exec (.flagDownReceive ch l) s = .next ((s.frameIn ch.toNat).downArrives (parseRound f.payload).2) := by
  change execFlagDownReceive ch l s = _
  unfold execFlagDownReceive
  dsimp only
  rw [if_neg h.not_halted, h.admitFrame]
  exact congrArg ok (if_neg (by rw [hdir, hmark, hp]; simp))

theorem answers_flagDownReceive (hor : s.orOf (parseRound f.payload).2.edge = none) : Answers (.flagDownReceive ch l) s (fun t =>
    t.orOf (parseRound f.payload).2.edge = some (parseRound f.payload).2 ∧ (∀ q ∈ t.net.sentUp, q.edge ≠ (parseRound f.payload).2.edge) ∧
    t = { s with net := t.net, io := t.io, obs := t.obs, bar0 := t.bar0, ctl := t.ctl, out := t.out, free := t.free }) := by
  let r := (parseRound f.payload).2
  let a := s.frameIn ch.toNat
  let w := ((a.holdOr r).setIo 0x2010 ((Config.freeWord a.free).setWidth 32)).draw
  have hc : Counted s a := counted_frameIn s ch.toNat
  have hnone : a.orOf r.edge = none := (hc.orOf _).trans hor
  have hsend : SendsOnly w (w.sendDown r) := sendsOnly_sendDown w r
  refine ⟨w.sendDown r, (exec_flagDownReceive h hmark hdir hp).trans (congrArg Host.Outcome.next (if_neg ?_)), ?_, fun q hq => ?_, ?_⟩
  · rw [show (s.frameIn ch.toNat).orOf (parseRound f.payload).2.edge = none from hnone]
    decide
  · exact (hsend.orOf _).trans (State.orOf_holdOr hnone)
  · rw [hsend.sentUp] at hq
    simpa using (List.mem_filter.1 (show q ∈ a.net.sentUp.filter (fun q => q.edge != r.edge) from hq)).2
  · have ha : PortsOnly s a := portsOnly_of_counted hc
    have ht : PortsOnly w (w.sendDown r) := hsend.portsOnly
    rw [ht]
    unfold w
    rw [ha]
    rfl

theorem answers_flagDownReceive_again (hor : s.orOf (parseRound f.payload).2.edge ≠ none) : Answers (.flagDownReceive ch l) s (fun t => t = s.frameIn ch.toNat) :=
  ⟨_, exec_flagDownReceive h hmark hdir hp,
    if_pos (by rw [(counted_frameIn s ch.toNat).orOf]; exact Option.isSome_iff_ne_none.2 hor)⟩

end

end

/-- Every unanswered round goes up again on each chimney of the parent's traffic. -/
theorem answers_flagUpRepeat {s : State} {p : Nat} (hup : s.portsUp = true) (hp : s.flagParent = some p) : Answers .flagUpRepeat s (fun t =>
    t = { s with obs := t.obs, bar0 := t.bar0, ctl := t.ctl, out := t.out, net := { s.net with waitOut := t.net.waitOut } } ∧
    ∀ r ∈ s.net.sentUp, ∀ ch ∈ s.chimneysTo p, FrameGone s ch (s.frameTo p 0 0 0 false (flagPayload false r)) t) := by
  let g := fun (t : State) (r : Round) => t.sendBoth p 0 (flagPayload false r)
  have hg : ∀ t r, SendsOnly t (g t r) := fun t r => sendsOnly_sendBoth t p 0 _
  have hexec : exec .flagUpRepeat s = .next (s.net.sentUp.foldl g s) := by
    change execFlagUpRepeat s = _
    unfold execFlagUpRepeat
    rw [if_neg (by rw [hup]; decide), hp]
  refine ⟨_, hexec, ?_, fun r hr ch hch => ?_⟩
  · rw [(SendsOnly.foldl hg s.net.sentUp s).frame]
  · exact frameGone_foldl hg (fun t ht => frameGone_sendBoth ht hch 0 _) hr s (.refl s)

/-! ## The global stop -/

/-- A snap stop leaves the module stopped: GS_STATE, the trace's halt, GS_BEAT and no job running, over the same units and memory. -/
structure SnapStopped (s t : State) : Prop where
  state : t.gsState = 2
  trace : t.traceHalted = true
  beat : t.obs.gsBeat = s.clk.beatNow
  running : t.sched.running = false
  net : t.net = s.net
  tiles : t.tiles = s.tiles
  mem : t.mem = s.mem

/-- The stop of the job that runs, or waits for its B0, reaches its schedule and its context alone. -/
theorem State.schedEnded_frame (s : State) : ∃ c x d, d.running = false ∧
    (if s.jobHere then s.endSched else s) = { s with ctxs := c, sfu := x, sched := d } := by
  by_cases h : s.jobHere = true
  · rw [if_pos h]
    unfold State.endSched State.disarmSwap
    split
    · exact ⟨_, _, s.sched.ended, rfl, rfl⟩
    · exact ⟨_, _, s.sched.ended, rfl, rfl⟩
  · rw [if_neg h]
    refine ⟨s.ctxs, s.sfu, s.sched, ?_, rfl⟩
    simp only [State.jobHere, Bool.or_eq_true, not_or] at h
    exact Bool.eq_false_iff.2 h.1.1

/-- The end of a job's drain reaches its context, its reply and its schedule's notes of the drain. -/
theorem State.finishJob_kept (s : State) : s.finishJob.clk = s.clk ∧ s.finishJob.net = s.net ∧ s.finishJob.tiles = s.tiles ∧
    s.finishJob.mem = s.mem ∧ s.finishJob.sched.running = s.sched.running := by
  by_cases h : s.sched.draining = true
  · obtain ⟨m, -, hk⟩ := s.standing_finishJob h
    refine ⟨congrArg Kept.clk hk, congrArg Kept.net hk, congrArg Kept.tiles hk, congrArg Kept.mem hk, ?_⟩
    exact (congrArg (fun k : Kept => k.sched.running) hk).trans rfl
  · have hsame : s.finishJob = s := if_pos (by rw [Bool.eq_false_iff.2 h]; rfl)
    rw [hsame]
    exact ⟨rfl, rfl, rfl, rfl, rfl⟩

theorem snapStopped_snapStop (s : State) (origin : Bool) : SnapStopped s (s.snapStop true origin) := by
  obtain ⟨c, x, d, hd, h0⟩ := s.schedEnded_frame
  unfold State.snapStop
  extract_lets s0 s1 _ s2
  obtain ⟨hclk, hnet, htiles, hmem, hrun⟩ := s0.finishJob_kept
  have hs0 : s0 = { s with ctxs := c, sfu := x, sched := d } := h0
  rw [hs0] at hclk hnet htiles hmem hrun
  have hword : s2.bar 0x30040 = BitVec.ofNat 32 (2 + 64 * bnat true + 128 * bnat origin) :=
    (State.bar_orBar ..).trans ((if_neg (by decide)).trans (State.bar_setBar_same ..))
  have h2 : SnapStopped s s2 := by
    refine ⟨?_, ?_, ?_, ?_, ?_, ?_, ?_⟩
    · rw [State.gsState, hword]
      cases origin with
      | true => rfl
      | false => rfl
    · exact (State.barBit_orBar ..).trans (Bool.or_true _)
    · exact congrArg Clk.beatNow ((congrArg (fun r : State => r.finishJob.clk) hs0).trans hclk)
    · exact ((congrArg (fun r : State => r.finishJob.sched.running) hs0).trans hrun).trans hd
    · exact (congrArg (fun r : State => r.finishJob.net) hs0).trans hnet
    · exact (congrArg (fun r : State => r.finishJob.tiles) hs0).trans htiles
    · exact (congrArg (fun r : State => r.finishJob.mem) hs0).trans hmem
  obtain ⟨hstate, htrace, hbeat, hrunning, hnet2, htiles2, hmem2⟩ := h2
  split
  · unfold State.denyWaiting
    split
    · exact ⟨hstate, htrace, hbeat, hrunning, hnet2, htiles2, hmem2⟩
    · exact ⟨hstate, htrace, hbeat, hrunning, hnet2, htiles2, hmem2⟩
  · exact ⟨hstate, htrace, hbeat, hrunning, hnet2, htiles2, hmem2⟩

/-- The frames of a stop that is passed on, and the note that it was. -/
theorem State.sendGstop_frame (s : State) (except : Option Nat) : ∃ t, SendsOnly s t ∧
    s.sendGstop except = { t with net := { t.net with gstopSent := true } } :=
  ⟨_, SendsOnly.trans (.foldl (fun t d => sendsOnly_sendBoth t d 0 _) _ _) (.foldl (fun t d => sendsOnly_sendBoth t d 0 _) _ _), rfl⟩

section
variable {s : State} {ch : BitVec 1} {l : List Byte} {f : Frame} (h : comes s ch l f 0)
  (hstop : (parseRound f.payload).2.gstop = true) (hedge : (parseRound f.payload).2.edge = gstopMark)
include h hstop hedge

theorem exec_gstopFrame :
    exec (.gstopFrame ch l) s = .next ((s.frameIn ch.toNat).gstopArrives f.src) := by
  change execGstopFrame ch l s = _
  unfold execGstopFrame
  dsimp only
  rw [if_neg h.not_halted, h.admitFrame]
  exact congrArg ok (if_pos (by rw [hstop, hedge]; decide))

theorem answers_gstopFrame (hfirst : s.net.gstopSent = false) : Answers (.gstopFrame ch l) s (fun t =>
    t.gsState = 2 ∧ t.net.gstopSent = true ∧ t.sched.running = false ∧ t.traceHalted = true ∧ t.obs.gsBeat = s.clk.beatNow ∧
    t.tiles = s.tiles ∧ t.mem = s.mem) := by
  have hc := counted_frameIn s ch.toNat
  obtain ⟨t, hsend, hstopped⟩ := (s.frameIn ch.toNat).sendGstop_frame (some f.src)
  have hlate : ¬(s.frameIn ch.toNat).net.gstopSent = true := by rw [hc.net, hfirst]; decide
  refine ⟨_, (exec_gstopFrame h hstop hedge).trans (congrArg Host.Outcome.next (if_neg hlate)), ?_⟩
  rw [hstopped]
  have hs := snapStopped_snapStop { t with net := { t.net with gstopSent := true } } false
  refine ⟨hs.state, congrArg Net.gstopSent hs.net, hs.running, hs.trace, hs.beat.trans ?_, hs.tiles.trans ?_, hs.mem.trans ?_⟩
  · rw [hsend.frame, hc.rest]
  · rw [hsend.frame, hc.rest]
  · rw [hsend.frame, hc.rest]

theorem answers_gstopFrame_again (hsent : s.net.gstopSent = true) : Answers (.gstopFrame ch l) s (fun t => t = s.frameIn ch.toNat) :=
  ⟨_, exec_gstopFrame h hstop hedge, if_pos (by rw [(counted_frameIn s ch.toNat).net]; exact hsent)⟩

end

/-! ## The time exchange -/

theorem answers_timeExchangeStart {s : State} {child : BitVec 20} (t1 : W64) (hup : s.portsUp = true) (hs : s.clk.started = true)
    (hway : s.chimneysTo child.toNat ≠ []) : Answers (.timeExchangeStart child t1) s (fun t =>
    t.clk = { s.clk with tseq := (s.clk.tseq + 1) % 65536 } ∧
    (∃ ch ∈ s.chimneysTo child.toNat, sentFrame s t ch child.toNat 1 (timePayload 0 s.beatDiv t.clk.tseq t1.toNat s.clk.beatNow)) ∧
    t = { s with clk := t.clk, net := t.net, obs := t.obs, bar0 := t.bar0, ctl := t.ctl, out := t.out, free := t.free }) := by
  let w : State := ({ s with clk := { s.clk with tseq := (s.clk.tseq + 1) % 65536 } } : State).draw
  let p := timePayload 0 s.beatDiv w.clk.tseq t1.toNat s.clk.beatNow
  let t := w.sendOn (bnat (Config.freeBool s.free)) child.toNat 1 p
  have hexec : exec (.timeExchangeStart child t1) s = .next t := congrArg ok (if_pos (by rw [hup, hs]; rfl))
  have hsend : SendsOnly w t := sendsOnly_sendOn ..
  have hclk : t.clk = w.clk := by rw [hsend.frame]
  refine ⟨t, hexec, hclk, ?_, ?_⟩
  · obtain ⟨ch, hch, hsent⟩ := sentFrame_sendOn w (bnat (Config.freeBool s.free)) (d := child.toNat) 1 p hway
    rw [hclk]
    exact ⟨ch, hch, hsent⟩
  · rw [hsend.frame]
    rfl

section
variable {s : State} {ch : BitVec 1} {l : List Byte} {f : Frame} (h : comes s ch l f 1)
include h

theorem exec_syncFrame (t2 t3 : W64) : exec (.syncFrame ch l t2 t3) s = .next ((s.frameIn ch.toNat).syncArrives f t2.toNat t3.toNat) := by
  change execSyncFrame ch l t2 t3 s = _
  unfold execSyncFrame
  dsimp only
  rw [if_neg h.not_halted, h.admitFrame]

theorem answers_syncFrame {c : Nat} (t2 t3 : W64) (hp : s.timeParent = some (f.src, c)) (hmsg : timeMsg f.payload = 0)
    (hs : s.clk.started = true) (hdiv : field (beAt f.payload 0 4) 0 18 = s.beatDiv) : Answers (.syncFrame ch l t2 t3) s (fun t =>
    t.clk = { s.clk with exch := some {
      tseq := timeSeq f.payload, t1 := beAt f.payload 8 8, t2 := t2.toNat, t3 := t3.toNat, pbeat := some (beAt f.payload 16 8) } } ∧
    (s.chimneysTo f.src ≠ [] → ∃ b ∈ s.chimneysTo f.src, sentFrame (s.frameIn ch.toNat) t b f.src 1 (timePayload 1 0 (timeSeq f.payload) 0 0)) ∧
    t = { s with clk := t.clk, net := t.net, obs := t.obs, bar0 := t.bar0, ctl := t.ctl, out := t.out }) := by
  let a := s.frameIn ch.toNat
  let e : TimeExch := { tseq := timeSeq f.payload, t1 := beAt f.payload 8 8, t2 := t2.toNat, t3 := t3.toNat, pbeat := some (beAt f.payload 16 8) }
  let w : State := { a with clk := { a.clk with exch := some e } }
  let t := w.sendOn c f.src 1 (timePayload 1 0 (timeSeq f.payload) 0 0)
  have hc : Counted s a := counted_frameIn s ch.toNat
  have hsync : a.syncArrives f t2.toNat t3.toNat = t := by
    unfold State.syncArrives
    rw [hc.timeParent, hp]
    dsimp only
    rw [if_neg (by simp [hmsg, hc.clk, hs]), if_neg (not_not_intro (hdiv.trans hc.beatDiv.symm))]
  have hsend : SendsOnly w t := sendsOnly_sendOn ..
  refine ⟨t, (exec_syncFrame h t2 t3).trans (congrArg Host.Outcome.next hsync), ?_, fun hway => ?_, ?_⟩
  · rw [hsend.frame]
    exact congrArg (fun k : Clk => { k with exch := some e }) hc.clk
  · rw [← hc.chimneysTo] at hway ⊢
    exact sentFrame_sendOn w c 1 _ hway
  · have ha : PortsOnly s a := portsOnly_of_counted hc
    rw [hsend.frame]
    unfold w
    rw [ha]

theorem answers_syncFrame_drops {c : Nat} (t2 t3 : W64) (hp : s.timeParent = some (f.src, c)) (hmsg : timeMsg f.payload = 0)
    (hs : s.clk.started = true) (hdiv : field (beAt f.payload 0 4) 0 18 ≠ s.beatDiv) : Answers (.syncFrame ch l t2 t3) s (fun t =>
    t.clk = { s.clk with exch := none } ∧ t.ior 0x202C = s.ior 0x202C + 1 ∧ t = { s.frameIn ch.toNat with clk := t.clk, io := t.io }) := by
  let a := s.frameIn ch.toNat
  have hc : Counted s a := counted_frameIn s ch.toNat
  have hsync : a.syncArrives f t2.toNat t3.toNat = a.dropExchange := by
    unfold State.syncArrives
    rw [hc.timeParent, hp]
    dsimp only
    rw [if_neg (by simp [hmsg, hc.clk, hs]), if_pos (hc.beatDiv ▸ hdiv)]
  refine ⟨a.dropExchange, (exec_syncFrame h t2 t3).trans (congrArg Host.Outcome.next hsync), ?_, ?_, rfl⟩
  · exact congrArg (fun k : Clk => { k with exch := none }) hc.clk
  · refine (State.ior_setIo ..).trans ((if_pos rfl).trans (congrArg (· + 1) ?_))
    unfold State.ior
    rw [show a.io = s.io by rw [hc.rest]]

theorem answers_dreqFrame (t4 : W64) (hmsg : timeMsg f.payload = 1) (hway : ch.toNat ∈ s.chimneysTo f.src) :
    Answers (.dreqFrame ch l t4) s (fun t =>
    sentFrame (s.frameIn ch.toNat) t ch.toNat f.src 1 (timePayload 2 0 (timeSeq f.payload) t4.toNat 0) ∧
    t = { s with net := t.net, obs := t.obs, bar0 := t.bar0, ctl := t.ctl, out := t.out }) := by
  have hc := counted_frameIn s ch.toNat
  have hexec : exec (.dreqFrame ch l t4) s =
      .next ((s.frameIn ch.toNat).sendOn ch.toNat f.src 1 (timePayload 2 0 (timeSeq f.payload) t4.toNat 0)) := by
    change execDreqFrame ch l t4 s = _
    unfold execDreqFrame
    dsimp only
    rw [if_neg h.not_halted, h.admitFrame]
    exact congrArg ok (if_pos hmsg)
  refine ⟨_, hexec, sentFrame_sendOn_of_mem 1 _ (by rw [hc.chimneysTo]; exact hway), ?_⟩
  exact (portsOnly_of_counted hc).trans (sendsOnly_sendOn ..).portsOnly

theorem answers_respFrame {c : Nat} {e : TimeExch} (hexch : s.clk.exch = some e) (hp : s.timeParent = some (f.src, c))
    (hmsg : timeMsg f.payload = 2) (hseq : timeSeq f.payload = e.tseq) (hpb : e.pbeat.isSome = true) (hdelays : s.clk.delays = []) :
    Answers (.respFrame ch l) s (fun t =>
      let a := s.tsDiff e.t2 e.t1
      let b := s.tsDiff (beAt f.payload 8 8) e.t3
      let asym := signed 64 (s.setting (0x0154 + ch.toNat))
      t.clk.everAligned = true ∧ t.clk.exch = none ∧ t.clk.delays = [a + b] ∧
      (a - b) - 1 ≤ 2 * (t.clk.theta + asym) ∧ 2 * (t.clk.theta + asym) ≤ (a - b) + 1 ∧ t.tiles = s.tiles ∧ t.mem = s.mem) := by
  let m := s.frameIn ch.toNat
  have hc : Counted s m := counted_frameIn s ch.toNat
  have hexec : exec (.respFrame ch l) s = .next (m.completeExchange e (beAt f.payload 8 8) ch.toNat) := by
    change execRespFrame ch l s = _
    unfold execRespFrame
    dsimp only
    rw [if_neg h.not_halted, h.admitFrame]
    refine congrArg ok ?_
    dsimp only
    unfold State.respArrives
    rw [show (s.frameIn ch.toNat).clk = s.clk from hc.clk, hexch, show (s.frameIn ch.toNat).timeParent = s.timeParent from hc.timeParent, hp]
    exact if_pos ⟨hmsg, rfl, hseq, hpb⟩
  have hd : m.clk.delays = [] := by rw [hc.clk]; exact hdelays
  have he := exchangeEnded_completeExchange m e (beAt f.payload 8 8) ch.toNat
  have hoff := he.offset hd
  rw [hc.tsDiff, hc.tsDiff, State.setting_congr hc.settings] at hoff
  refine ⟨_, hexec, he.aligned hd, he.exch, ?_, ?_, ?_, ?_, ?_⟩
  · rw [he.delays hd, hc.tsDiff, hc.tsDiff]
  · omega
  · omega
  · rw [he.tiles, hc.rest]
  · rw [he.mem, hc.rest]

end

/-- Settles O54, on the rounds that join and the frames that a send puts out. -/
theorem flagRoundsAndTimeFrames : Obligations.FlagRoundsAndTimeFrames := by
  unfold Obligations.FlagRoundsAndTimeFrames
  refine ⟨countsOnly_frameIn, fun s ch l f hf => ?flags, fun s p hup hp => answers_flagUpRepeat hup hp, fun s ch l f hf hstop hedge => ?gstop,
    fun s child t1 hup hs hway => answers_timeExchangeStart t1 hup hs hway, fun s ch l f hf => ?time⟩
  case flags =>
    intro r a hmark first
    refine ⟨fun hdir hfirst => answers_flagUpReceive_again hf hmark hdir hfirst, fun hdir hfirst hor hnew => ⟨fun hown => ?_, ?_⟩,
      fun hdir hp => ⟨fun hor => answers_flagDownReceive hf hmark hdir hp hor, fun hor => answers_flagDownReceive_again hf hmark hdir hp hor⟩⟩
    · exact answers_flagUpReceive_waits hf hmark hdir hfirst hor hnew hown
    · intro own hown hups hkids hroot hagree hcnt
      obtain ⟨t, hexec, hheld, hrest⟩ := answers_flagUpReceive_joins hf hmark hdir hfirst hor hnew hown hups hkids hroot hagree hcnt
      exact ⟨t, hexec, ⟨_, hheld, rfl, rfl, rfl, rfl, hcnt⟩, hrest⟩
  case gstop => exact ⟨answers_gstopFrame hf hstop hedge, answers_gstopFrame_again hf hstop hedge⟩
  case time =>
    exact ⟨fun c t2 t3 hp hmsg hs => ⟨fun hdiv => answers_syncFrame hf t2 t3 hp hmsg hs hdiv,
        fun hdiv => answers_syncFrame_drops hf t2 t3 hp hmsg hs hdiv⟩, fun t4 hmsg hway => answers_dreqFrame hf t4 hmsg hway,
      fun c e hexch hp hmsg hseq hpb hdelays _ => answers_respFrame hf hexch hp hmsg hseq hpb hdelays⟩

end Sys2Proof.Machine
